-- ==== Sys2Proof/Word.lean ====
section
/-! DEFINITION. The words the HGL-9640 moves. -/

namespace Sys2Proof

/-- One byte. -/
abbrev Byte := BitVec 8

/-- One 32-bit register word (R396). -/
abbrev Word := BitVec 32

/-- A 64-bit word: two NOR words, a compare-and-swap operand, an epoch number on the wire. -/
abbrev Long := BitVec 64

end Sys2Proof
end

