-- ==== Sys2Proof/Syntax.lean ====
section
/-! DEFINITION. The commands of the HGL-9640, one constructor of `Instr` for each row of the opcode table, and the
operands they carry: what arrives on a link, a bus or a pin, and what the parts around the block report. Times are in
core-clock cycles of 0.625 ns (R22). -/

namespace Sys2Proof

/-- The three paths into the management space (R395); the curators are told apart by R362 and R397. -/
inductive Path | pcie | smbus | curator (k : Fin 4)
  deriving DecidableEq, Repr

/-- A host sub-link: link s of port n (R38). -/
structure HostLink where
  port : Fin 16
  sub : Fin 8
  deriving DecidableEq, Repr

/-- One 802.1Q tag of a received frame. -/
structure VlanTag where
  vid : BitVec 12
  pcp : BitVec 3
  deriving DecidableEq, Repr

/-- A received Ethernet frame up to its UDP header: the facts R39, R40 and R428 judge, how full the ingress buffer of its
priority stands (R41), and the codewords of its link that FEC corrected, or could not, since the frame before it (R39). -/
structure EthFrame where
  link : HostLink
  time : Nat
  bytes : Nat
  fcsOk : Bool := true
  tags : List VlanTag := []
  ip6 : Bool := false
  ipExtra : Bool := false
  fragment : Bool := false
  udpSumOk : Bool := true
  /-- The UDP checksum as received. -/
  udpSum : BitVec 16 := 0
  tos : Byte := 0
  srcMac : BitVec 48 := 0
  srcIp : BitVec 128 := 0
  srcPort : BitVec 16 := 0
  dstPort : BitVec 16 := 0
  fillPct : Nat := 0
  fecCorr : Nat := 0
  fecUncorr : Nat := 0
  deriving DecidableEq, Repr

/-- The request header of R46, its OPCODE apart (the command's row is the opcode). -/
structure ReqHdr where
  typ : BitVec 2 := 0
  twinMask : BitVec 2 := 3
  length : BitVec 20 := 0
  srcEp : BitVec 24 := 0
  dstDev : BitVec 16 := 0
  retx : Bool := false
  qid : BitVec 15 := 0
  qkey : BitVec 32 := 0
  seq : BitVec 32 := 0
  window : BitVec 18 := 0
  gen : BitVec 8 := 0
  wkey : BitVec 32 := 0
  offset : BitVec 48 := 0
  deriving DecidableEq, Repr

/-- The seal prefix and the GCM tag of a sealed datagram (R69). -/
structure SealPart where
  keyInst : BitVec 32
  counter : BitVec 64
  rsvd : BitVec 32 := 0
  tag : List Byte
  deriving DecidableEq, Repr

/-- One cell of the array (R203) as a memory read found it: the device address of its byte, the 14 bits read XOR the 14 bits
stored, and, where a misdirected command was answered by another cell of the member, written to hold the same byte, that cell's
member-local address (R204). -/
structure CellFault where
  da : Nat
  pattern : BitVec 14
  answered : Option Nat := none
  deriving DecidableEq, Repr

/-- A Rossil datagram received from a host (R42): frame, header, payload as on the wire, ICRC. `cut` says that the
datagram is shorter than its header or its encapsulation is malformed. `cells` are the array faults that memory
returns when this request's bytes are read. -/
structure Dgram where
  frame : EthFrame
  hdr : ReqHdr
  payload : List Byte := []
  sealing : Option SealPart := none
  icrc : BitVec 32 := 0
  cut : Bool := false
  cells : List CellFault := []
  deriving DecidableEq, Repr

/-- A frame received on the adit link or a drift link (R152), its TYPE apart: header fields, payload as on the wire
(ciphertext where the link is sealed), GCM tag, CRC-32, and the codewords that FEC corrected, or could not, since the frame
before it (R151). -/
structure LinkFrame where
  time : Nat
  flags : Byte := 0
  fseq : BitVec 32 := 0
  epoch : BitVec 64 := 0
  body : List Byte := []
  tag : List Byte := []
  crc : BitVec 32 := 0
  fecCorr : Nat := 0
  fecUncorr : Nat := 0
  deriving DecidableEq, Repr

/-- The key of a request in the recent-request table and in a tally (R132). -/
structure ReqKey where
  srcEp : BitVec 24
  qid : BitVec 15
  seq : BitVec 32
  deriving DecidableEq, Repr

/-- What a failed program report names (R241): the stripe member, and whether its block failed to erase or to program. -/
structure BlockFail where
  member : Fin 18
  erase : Bool := false
  deriving DecidableEq, Repr

/-- The end of a move's copy (R178): the array faults that it met, and, of a fill, the block that failed (R241). -/
structure CopyEnd where
  cells : List CellFault := []
  failed : Option BlockFail := none
  deriving DecidableEq, Repr

/-- The end of a word-line group's program (R238): the block that failed, if one did, and the array faults that the copies of its
demotions met. -/
structure GroupEnd where
  failed : Option BlockFail := none
  cells : List CellFault := []
  deriving DecidableEq, Repr

/-- A page of flash that a merge could not read (R253), its header's CRC or a codeword of it being bad: its extent and its place in
the slot, and the other members of its stripe that cannot be read. -/
structure MergePage where
  extent : Nat
  page : Fin 4
  missing : List (Fin 18) := []
  deriving DecidableEq, Repr

/-- What a merge's reads met: pages that could not be read, and array faults in the demotions that it took along. -/
structure MergeReads where
  pages : List MergePage := []
  cells : List CellFault := []
  deriving DecidableEq, Repr

/-- What a die answers to CLEAR_GO (R258): whether to Read ID with the geometry of R231, and the erase counts that the page headers
of its blocks show. -/
structure ClearAnswer where
  ok : Bool := true
  erases : List (Nat × Nat) := []
  deriving DecidableEq, Repr

/-- The end of a muster's commit (R191): its time, and the array faults that its atomics met. -/
structure CommitReads where
  time : Nat
  cells : List CellFault := []
  deriving DecidableEq, Repr

/-- What the dies of a flash channel answer to Read ID as it comes up (R231): a bit for each that does not answer, and for each
that reports another geometry. -/
structure DieAnswers where
  absent : BitVec 16 := 0
  other : BitVec 16 := 0
  deriving DecidableEq, Repr

/-- A write of ENABLE (R401): the value, and what the dies of a flash channel answer as it comes up. -/
structure EnableWrite where
  on : Bool
  dies : DieAnswers := {}
  deriving DecidableEq, Repr

/-- A PCIe link as trained (R411): the codes of its speed and width. -/
structure PcieLink where
  speed : BitVec 3
  width : BitVec 3
  deriving DecidableEq, Repr

/-- The MSI-X enable and function mask that the host has set in configuration space (R409). -/
structure MsixConfig where
  enable : Bool := false
  masked : Bool := false
  deriving DecidableEq, Repr

/-- The bytes of a stripe at one offset that differ, as read, from what was programmed there (R266): by member, the bits in
error. -/
abbrev ByteErrors := List (Fin 18 × Byte)

/-- A flash page that the fireboss patrol read at a boundary (R246, R247): its place, whether it needed read retry, the worst
corrected bit count of its codewords, `none` where one was uncorrectable, and the bits corrected in all; whether its header's CRC
holds, and which other members of its stripe cannot be read (R253). `errors` are the bytes of its row that passed their codeword
checks and are not what was programmed, for each offset that has one (R248, R266). -/
structure PatrolRead where
  block : Nat
  page : Nat
  worst : Option Nat := some 0
  retried : Bool := false
  bits : Nat := 0
  headerOk : Bool := true
  missing : List (Fin 18) := []
  errors : List ByteErrors := []
  deriving DecidableEq, Repr

/-- What a lane's auxiliary sampler has seen since the last frame (R316): its 64-bin histogram of transition positions and its
histogram of voltage decisions, and how far the eye centre that they show lies from the data sampler's position, in fine taps of
delay and in Vref steps. The spec gives no formula for the centre; the world supplies it (log entry 72). -/
structure CalMove where
  member : Fin 16
  lane : Nat
  bins : List Nat
  volts : List Nat := []
  delay : Int := 0
  vref : Int := 0
  deriving DecidableEq, Repr

/-- A code that a retraining in service finds at a set point, at the boundary at which its slots are over (R323). -/
structure RetrainSlot where
  code : BitVec 14
  deriving DecidableEq, Repr

/-- The voltage at a converter's ball, and VAUX, the full scale of channel 31, in nanovolts (R310, R331). -/
structure BallVolts where
  nv : Nat
  vaux : Nat := 3300000000
  deriving DecidableEq, Repr

/-- The code of a conversion: 2.048 V is 16,384 steps; on channel 31 VAUX is code 16,383 (R310, R331). -/
def BallVolts.code (v : BallVolts) (ch : Nat) : Nat :=
  if ch < 31 then min 16383 (v.nv * 16384 / 2048000000) else min 16383 (v.nv * 16383 / max 1 v.vaux)

/-- A sub-link that has lost link, or gained it, and whether with the lock of the synthesizer that clocks it (R306). -/
structure LinkEvent where
  link : HostLink
  srd : Bool := false
  deriving DecidableEq, Repr

/-- How full the ingress buffer of a link's priority stands, in percent (R41). -/
structure BufferFill where
  link : HostLink
  prio : Fin 8
  pct : Nat
  deriving DecidableEq, Repr

/-- A cell that the scrubber read outside the homes of data (R220): its member, its member-local address, and the 14 bits read,
data bits first. -/
structure ScrubbedCell where
  member : Fin 16
  place : Nat
  cell : BitVec 14
  deriving DecidableEq, Repr

/-- A block that the two pipelines of a line, storage or adit channel computed differently (R298), and whether they did so again
when it was computed once more. -/
structure Mismatch where
  chan : Fin 18
  time : Nat
  again : Bool := false
  deriving DecidableEq, Repr

/-- The width of a curator's load or store. -/
inductive CoreWidth | byte | half | word
  deriving DecidableEq, Repr

/-- Its bytes. -/
def CoreWidth.bytes : CoreWidth → Nat
  | .byte => 1
  | .half => 2
  | .word => 4

/-- What a curator's program does outside the register pages (R349, R353, R362), at a curator address: an instruction fetch, after
a taken branch or not; a load; a store; a datagram that it places on a host port, and the queue it names. -/
inductive CuratorOp
  | fetch (c : Fin 4) (addr : Nat) (taken : Bool)
  | load (c : Fin 4) (addr : Nat) (width : CoreWidth)
  | store (c : Fin 4) (addr : Nat) (width : CoreWidth) (value : Nat)
  | datagram (c : Fin 4) (port : Fin 16) (queue : Nat) (bytes : List Byte)
  deriving DecidableEq, Repr

/-- What the world supplies at an epoch boundary: what the curators' programs have done since the last, the comparison
mismatches of the cipher channels (R298), ingress buffers that have filled or drained since the last frame (R41), the faults
that the scrubber's reads meet in homes, the cells other than filled ones that it finds elsewhere, and how many units it was
given time for, `none` for all that its schedule asks (R219, R222); the same of the patrol's pages (R246), what the lanes'
auxiliary samplers saw (R316), the end of a set point's retraining (R323), and how many extents re-homing sends, with the faults
that its reads meet (R149). -/
structure BoundaryEnv where
  curators : List CuratorOp := []
  mismatches : List Mismatch := []
  fill : List BufferFill := []
  scrub : List CellFault := []
  stray : List ScrubbedCell := []
  scrubUnits : Option Nat := none
  patrol : List PatrolRead := []
  patrolPages : Option Nat := none
  cal : List CalMove := []
  retrain : Option RetrainSlot := none
  rehome : Nat := 0
  rehomeCells : List CellFault := []
  deriving DecidableEq, Repr

/-- A tier (R173): hot, warm or capacity. -/
inductive Tier | hot | warm | flash
  deriving DecidableEq, Repr

/-- A memory member (R215): one of the eight stacks, then one of the eight warm channels. -/
abbrev MemberId := Fin 16

/-- A flash page that was read, or is late (R256): its extent and its place in the slot, the die, how the page came out, and which
other members of its stripe cannot be read. -/
structure PageDone where
  extent : Nat
  page : Fin 4
  die : BitVec 10
  time : Nat := 0
  uncorr : Bool := false
  /-- Does its header's CRC hold (R253)? -/
  headerOk : Bool := true
  retried : Bool := false
  /-- Bits corrected in the page, and the most in one of its codewords (R247). -/
  bits : Nat := 0
  worst : Nat := 0
  authOk : Bool := true
  /-- Members of the stripe, other than this page, that cannot be read. -/
  missing : List (Fin 18) := []
  deriving DecidableEq, Repr

/-- A page read that has not arrived within the timeout (R256): its extent and place in the slot, its die, and which other members
of its stripe cannot be read. -/
structure LateRead where
  extent : Nat
  page : Fin 4
  die : BitVec 10
  missing : List (Fin 18) := []
  deriving DecidableEq, Repr

/-- The late page, as of a time. -/
def LateRead.at (x : LateRead) (time : Nat) : PageDone :=
  { extent := x.extent, page := x.page, die := x.die, time := time, missing := x.missing }

/-- A MEM_READ frame (R167), and the array faults that its read of memory meets. -/
structure HomeRead where
  frame : LinkFrame
  cells : List CellFault := []
  deriving DecidableEq, Repr

/-- The end of a muster's image (R192): its time, and the array faults that its reads of memory met. -/
structure ImageRead where
  time : Nat
  cells : List CellFault := []
  deriving DecidableEq, Repr

/-- The commands: one constructor per row of the opcode table, in the table's order. -/
inductive Instr
  /-- EPOCH_FRAME: the bits from the last idle bit on, and the time of the SYNC edge. -/
  | epochFrame (edge : Nat) (bits : List Bool)
  /-- EPOCH_BOUNDARY: a SYNC edge. -/
  | epochBoundary (edge : Nat) (env : BoundaryEnv)
  /-- EXPECTED_TIME_BOUNDARY. -/
  | expectedTimeBoundary (env : BoundaryEnv)
  /-- RELAYED_BOUNDARY. -/
  | relayedBoundary (env : BoundaryEnv)
  /-- HOLDOVER_BOUNDARY. -/
  | holdoverBoundary (env : BoundaryEnv)
  /-- ALIGN_EN: a write of the field. -/
  | alignEn (path : Path) (v : Bool)
  /-- FORCE_HOLDOVER: a write of the field. -/
  | forceHoldover (path : Path) (v : Bool)
  /-- HOST_FRAME_DROP: a frame that breaks R39, R43 or the VLAN rules. -/
  | hostFrameDrop (d : Dgram)
  /-- ARP_REQUEST: the frame that carries it and the address asked for. -/
  | arpRequest (f : EthFrame) (target : BitVec 128)
  /-- NEIGHBOR_SOLICITATION. -/
  | neighborSolicitation (f : EthFrame) (target : BitVec 128)
  /-- PFC_FRAME: the enable vector and the eight times. -/
  | pfcFrame (link : HostLink) (enable : BitVec 8) (quanta : List Nat)
  /-- PFC_HELD: this priority has been in XOFF for more than 1 ms. -/
  | pfcHeld (link : HostLink) (prio : Fin 8)
  /-- HOST_LINK_DOWN. -/
  | hostLinkDown (e : LinkEvent)
  /-- HOST_LINK_UP. -/
  | hostLinkUp (e : LinkEvent)
  /-- READ from a host. -/
  | read (d : Dgram)
  /-- WRITE from a host. -/
  | write (d : Dgram)
  /-- CAS8 from a host. -/
  | cas8 (d : Dgram)
  /-- CAS16 from a host. -/
  | cas16 (d : Dgram)
  /-- FADD8 from a host. -/
  | fadd8 (d : Dgram)
  /-- FLUSH from a host. -/
  | flush (d : Dgram)
  /-- SECTOR_READ from a host. -/
  | sectorRead (d : Dgram)
  /-- SECTOR_WRITE from a host. -/
  | sectorWrite (d : Dgram)
  /-- DISCARD from a host. -/
  | discard (d : Dgram)
  /-- APPEND from a host. -/
  | append (d : Dgram)
  /-- SEAL from a host. -/
  | seal (d : Dgram)
  /-- RECORD_READ from a host. -/
  | recordRead (d : Dgram)
  /-- IDENTIFY from a host. -/
  | identify (d : Dgram)
  /-- GET_LOG_PAGE from a host. -/
  | getLogPage (d : Dgram)
  /-- GET_FEATURE from a host. -/
  | getFeature (d : Dgram)
  /-- SET_FEATURE from a host. -/
  | setFeature (d : Dgram)
  /-- FIRMWARE_DOWNLOAD from a host. -/
  | firmwareDownload (d : Dgram)
  /-- FIRMWARE_COMMIT from a host. -/
  | firmwareCommit (d : Dgram)
  /-- QUEUE_CREATE from a host. -/
  | queueCreate (d : Dgram)
  /-- QUEUE_DELETE from a host. -/
  | queueDelete (d : Dgram)
  /-- QUEUE_RESTART from a host. -/
  | queueRestart (d : Dgram)
  /-- DOMAIN_CREATE from a host. -/
  | domainCreate (d : Dgram)
  /-- DOMAIN_DELETE from a host. -/
  | domainDelete (d : Dgram)
  /-- SET_QUOTA from a host. -/
  | setQuota (d : Dgram)
  /-- DOMAIN_QUERY from a host. -/
  | domainQuery (d : Dgram)
  /-- OPEN from a host. -/
  | openWindow (d : Dgram)
  /-- REVOKE from a host. -/
  | revoke (d : Dgram)
  /-- MODIFY from a host. -/
  | modify (d : Dgram)
  /-- CLOSE from a host. -/
  | close (d : Dgram)
  /-- WINDOW_QUERY from a host. -/
  | windowQuery (d : Dgram)
  /-- LOAD on queue 0: the 128-byte payload of KEY LOAD. -/
  | load (payload : List Byte)
  /-- UNLOAD on queue 0: the 128-byte payload of KEY LOAD. -/
  | unload (payload : List Byte)
  /-- KEY_QUERY on queue 0: the 128-byte payload of KEY LOAD. -/
  | keyQuery (payload : List Byte)
  /-- CENSUS_READ from a host. -/
  | censusRead (d : Dgram)
  /-- CENSUS_CLEAR from a host. -/
  | censusClear (d : Dgram)
  /-- CLOCK_SET from a host. -/
  | clockSet (d : Dgram)
  /-- MUSTER from a host. -/
  | muster (d : Dgram)
  /-- ADM0_DOORBELL: the bytes written into the request buffer, then the doorbell write. -/
  | adm0Doorbell (path : Path) (time : Nat) (request : List Byte)
  /-- TALLY. -/
  | tally (f : LinkFrame)
  /-- TALLY_DEADLINE. -/
  | tallyDeadline (time : Nat)
  /-- REPAIR. -/
  | repair (f : LinkFrame)
  /-- UNION_WHOLE. -/
  | unionWhole (f : LinkFrame)
  /-- RELAY. -/
  | relay (f : LinkFrame)
  /-- RESUME. -/
  | resume (f : LinkFrame)
  /-- REHOME. -/
  | rehome (f : LinkFrame)
  /-- DEPART. -/
  | depart (f : LinkFrame)
  /-- YIELD. -/
  | yield (f : LinkFrame)
  /-- RESEND. -/
  | resend (f : LinkFrame)
  /-- ADIT_LINK_UP: the measured round trip in core cycles, the frame-count base the peer sends. -/
  | aditLinkUp (roundTrip : Nat) (peerBase : BitVec 64)
  /-- ADIT_ALIGN_LOST. -/
  | aditAlignLost 
  /-- COMMIT_KEY: the array faults that its reads of memory meet. -/
  | commitKey (epoch : BitVec 64) (key : ReqKey) (cells : List CellFault)
  /-- WRITE_PLACED. -/
  | writePlaced (epoch : BitVec 64) (key : ReqKey) (time : Nat)
  /-- REVOKE_DONE. -/
  | revokeDone (window : BitVec 18)
  /-- PAIR_TMO. -/
  | pairTmo 
  /-- MOVE_COMMIT. -/
  | moveCommit (extent : BitVec 32) (r : CopyEnd)
  /-- FLASH_GROUP_PROGRAMMED. -/
  | flashGroupProgrammed (log : BitVec 10) (r : GroupEnd)
  /-- ROW_HOLD_EXPIRY. -/
  | rowHoldExpiry (log : BitVec 10)
  /-- MERGE_DONE: the block that failed, if one did, and what its reads met. -/
  | mergeDone (lb : BitVec 20) (failed : Option BlockFail) (r : MergeReads)
  /-- PAGE_READ_DONE. -/
  | pageReadDone (p : PageDone)
  /-- RECON_AT. -/
  | reconAt (p : PageDone)
  /-- READ_TIMEOUT. -/
  | readTimeout (time : Nat) (late : LateRead)
  /-- STACK_TEMP_READ. -/
  | stackTempRead (n : Fin 8) (celsius : Int)
  /-- MR_TEMP_READ: per device 0 base rate, 1 above it, 2 above twice it. -/
  | mrTempRead (n : Fin 8) (rank : Fin 2) (levels : List Nat)
  /-- CA_PARITY: did the command that failed last fail again?. -/
  | caParity (m : MemberId) (again : Bool)
  /-- DLL_OUT: the phase error in picoseconds. -/
  | dllOut (i : Fin 17) (time err : Nat)
  /-- DLL_TIMEOUT. -/
  | dllTimeout (m : MemberId)
  /-- FILL_START. -/
  | fillStart (path : Path)
  /-- FILL_DONE. -/
  | fillDone 
  /-- DRAIN. -/
  | drain (path : Path) (m : MemberId) (v : Bool)
  /-- FSP. -/
  | fsp (path : Path) (n : Fin 8) (v : BitVec 2)
  /-- PFAIL: how long PFAIL_N has been low, in core cycles. -/
  | pfail (time low : Nat)
  /-- MUSTER_COMMIT_END. -/
  | musterCommitEnd (r : CommitReads)
  /-- MUSTER_IMAGE_DONE. -/
  | musterImageDone (r : ImageRead)
  /-- MUSTER_DONE. -/
  | musterDone 
  /-- RESTORE_DONE: did every block verify, and the duration. -/
  | restoreDone (blocksOk : Bool) (ms : Nat)
  /-- AREA_READY. -/
  | areaReady 
  /-- ARM. -/
  | arm (path : Path)
  /-- DECL_J. -/
  | declJ (path : Path) (v : BitVec 16)
  /-- VHC. -/
  | vhc (path : Path) (v : BitVec 16)
  /-- SERVICE_OPEN. -/
  | serviceOpen 
  /-- SEQ_GO. -/
  | seqGo (path : Path)
  /-- CONVERSION. -/
  | conversion (time : Nat) (ch : Fin 32) (volts : BallVolts)
  /-- SEQ_DELAY. -/
  | seqDelay 
  /-- SEQ_UP_TIMEOUT. -/
  | seqUpTimeout 
  /-- DIS_TIMEOUT. -/
  | disTimeout 
  /-- VSUP_LOW. -/
  | vsupLow 
  /-- POWER_ON_RESET: the straps as the board holds them. -/
  | powerOnReset (gangId : BitVec 2) (twinPos energyEn : Bool)
  /-- RESET_N_ASSERT: how long RESET_N has been low, in core cycles. -/
  | resetNAssert (low : Nat)
  /-- RESET_N_RELEASE. -/
  | resetNRelease 
  /-- SW_MGMT. -/
  | swMgmt (path : Path)
  /-- SW_DP. -/
  | swDp (path : Path)
  /-- CLOCK_FAIL. -/
  | clockFail (time : Nat)
  /-- SYN_LOCK_RETURN. -/
  | synLockReturn 
  /-- RSTOUT_STRETCH. -/
  | rstoutStretch (x : Fin 4)
  /-- THERMAL_READ: the 24 sensors. -/
  | thermalRead (time : Nat) (readings : List Int)
  /-- THROTTLE_OFF. -/
  | throttleOff 
  /-- PARK. -/
  | park (path : Path) (v : Bool)
  /-- PARKED. -/
  | parked 
  /-- SIGNAL_WAKE. -/
  | signalWake (port : Fin 16)
  /-- AWAKE. -/
  | awake 
  /-- WATCHDOG. -/
  | watchdog (c : Fin 4)
  /-- WDT_KICK. -/
  | wdtKick (path : Path) (c : Fin 4) (v : Word)
  /-- LOCKUP. -/
  | lockup (c : Fin 4)
  /-- BOOT_VERIFY. -/
  | bootVerify (ms : Nat)
  /-- NOR_PROGRAM: OP written 1. -/
  | norProgram (path : Path)
  /-- NOR_ERASE: OP written 2. -/
  | norErase (path : Path)
  /-- NOR_OP_DONE. -/
  | norOpDone (bank : Fin 4)
  /-- COMMIT_REQ. -/
  | commitReq (path : Path) (bank : Bool)
  /-- COMMIT_DONE. -/
  | commitDone 
  /-- MARK_PROGRAMMED. -/
  | markProgrammed 
  /-- ALARM: 0 voltage, 1 clock, 2 temperature, 3 Vitrine, 4 mesh. -/
  | alarm (cause : Fin 5)
  /-- ENT_FAIL. -/
  | entFail 
  /-- DRBG_HALT. -/
  | drbgHalt 
  /-- RESEED_DONE. -/
  | reseedDone 
  /-- KS_FORMAT. -/
  | ksFormat (path : Path)
  /-- STORE_KEY. -/
  | storeKey (path : Path) (v : Word)
  /-- KEY_INST. -/
  | keyInst (path : Path) (v : Word)
  /-- MSCAN_START. -/
  | mscanStart (path : Path)
  /-- MSCAN_DONE: per lane LEFT, RIGHT, VLOW, VHIGH. -/
  | mscanDone (lanes : List (List Nat))
  /-- RETRAIN_START. -/
  | retrainStart (path : Path)
  /-- RETRAIN_DONE: the delay code of each set point. -/
  | retrainDone (codes : List Nat)
  /-- CLEAR_DIE. -/
  | clearDie (path : Path) (die : BitVec 10) (answer : ClearAnswer)
  /-- RESHAPE_ADD. -/
  | reshapeAdd (path : Path)
  /-- RESHAPE_SPREAD. -/
  | reshapeSpread (path : Path) (spread : BitVec 7)
  /-- DRIFT_LINK_UP: what the peer says of itself. -/
  | driftLinkUp (j : Fin 3) (roundTrip : Nat) (pos size : BitVec 2) (devId twinId : BitVec 16) (capacityGib : Nat)
  /-- DRIFT_LINK_DOWN. -/
  | driftLinkDown (j : Fin 3)
  /-- FWD_DGRAM. -/
  | fwdDgram (j : Fin 3) (f : LinkFrame)
  /-- FWD_ANSWER. -/
  | fwdAnswer (j : Fin 3) (f : LinkFrame)
  /-- TABLE. -/
  | table (j : Fin 3) (f : LinkFrame)
  /-- PLACE_END. -/
  | placeEnd (j : Fin 3) (f : LinkFrame)
  /-- MEM_READ. -/
  | memRead (j : Fin 3) (r : HomeRead)
  /-- MEM_DATA. -/
  | memData (j : Fin 3) (f : LinkFrame)
  /-- MEM_PLACE. -/
  | memPlace (j : Fin 3) (f : LinkFrame)
  /-- SUMMARY. -/
  | summary 
  /-- CENSUS_TOKEN. -/
  | censusToken (code : Fin 16)
  /-- CENSUS_WINDOW_READ. -/
  | censusWindowRead (path : Path)
  /-- CALENDAR_TICK. -/
  | calendarTick 
  /-- OSC_FAIL. -/
  | oscFail 
  /-- APPLY. -/
  | apply (path : Path)
  /-- VITRINE_N: how long the pin has been low, in core cycles. -/
  | vitrineN (low : Nat)
  /-- VITRINE. -/
  | vitrine 
  /-- IDCODE. -/
  | idcode 
  /-- SAMPLE_PRELOAD: the pins as sampled, the value shifted in. -/
  | samplePreload (pins preload : Nat)
  /-- EXTEST. -/
  | extest 
  /-- CLAMP. -/
  | clamp 
  /-- HIGHZ. -/
  | highz 
  /-- EXTEST_PULSE. -/
  | extestPulse 
  /-- EXTEST_TRAIN. -/
  | extestTrain 
  /-- SCAN_SEL. -/
  | scanSel (chain : Byte)
  /-- SCAN_READ: how many bits are shifted. -/
  | scanRead (bits : Nat)
  /-- CHAIN_LEN. -/
  | chainLen 
  /-- DBG_RESET. -/
  | dbgReset (v : BitVec 2)
  /-- VIT_STATUS. -/
  | vitStatus 
  /-- BYPASS, and every unassigned code. -/
  | bypass (code : Byte)
  /-- CANARY_FIRE: a write of the page's CANARY register. -/
  | canaryFire (path : Path) (page : Byte) (v : Word)
  /-- ENABLE. -/
  | enable (path : Path) (page : Byte) (w : EnableWrite)
  /-- SHUTDOWN_DONE. -/
  | shutdownDone (page : Byte)
  /-- BLOCK_RESET. -/
  | blockReset (path : Path) (page : Byte)
  /-- BLOCK_RESET_DONE. -/
  | blockResetDone (page : Byte)
  /-- EXPERT_KEY. -/
  | expertKey (path : Path) (page : Byte) (v : Word)
  /-- EVT_PENDING_CLEAR. -/
  | evtPendingClear (path : Path) (page : Byte) (mask : Word)
  /-- SELECTOR_WRITE. -/
  | selectorWrite (path : Path) (addr : BitVec 20) (v : Word)
  /-- WINDOW_WORD0_READ. -/
  | windowWord0Read (path : Path) (addr : BitVec 20)
  /-- LATCHING_LO_READ. -/
  | latchingLoRead (path : Path) (addr : BitVec 20)
  /-- REGISTER_WRITE: how many bytes, whether every byte enable is set, and the data. -/
  | registerWrite (path : Path) (addr : BitVec 20) (bytes : Nat) (full : Bool) (v : Long)
  /-- SMBUS_WRITE: the block of command 0x10, and whether a PEC is present and right. -/
  | smbusWrite (bytes : List Byte) (pec : Option Bool)
  /-- SMBUS_SET_POINTER. -/
  | smbusSetPointer (bytes : List Byte) (pec : Option Bool)
  /-- SMBUS_READ. -/
  | smbusRead (pec : Option Bool)
  /-- SMBUS_TIMEOUT. -/
  | smbusTimeout 
  /-- PCIE_LINK_UP: the link as trained, and what configuration space holds of MSI-X. -/
  | pcieLinkUp (link : PcieLink) (msix : MsixConfig)
  /-- PCIE_LINK_DOWN. -/
  | pcieLinkDown 
  /-- RELAY_MARKER_MISSING. -/
  | relayMarkerMissing (env : BoundaryEnv)
  /-- DLL_BACK_IN_WINDOW. -/
  | dllBackInWindow (i : Fin 17) (time err : Nat)
  /-- HI_BER. -/
  | hiBer (link : HostLink)
  /-- INVALID_OPCODE: the OPCODE that the header carries. -/
  | invalidOpcode (d : Dgram) (op : BitVec 6)
  deriving DecidableEq, Repr

end Sys2Proof
end

