-- ==== Sys2Proof/Decode.lean ====
section
/-! DEFINITION. Table words. The opcode table gives none of its rows any bits, so no word spells a command. -/

namespace Sys2Proof

/-- The command that a word of `nbits` bits spells by the table's bits: none, for no row of the table has bits. -/
def decodeTableWord (_nbits _w : Nat) : Option Instr := none

end Sys2Proof
end

