-- ==== Sys2Proof/Machine/Bits.lean ====
section
/-! DEFINITION. Bit fields (R7), byte orders (R8) and the checksums of the block: CRC-16 (R17), CRC-32 (R43) and
CRC-64 (R137). -/

namespace Sys2Proof.Machine

/-- Truth as one bit. -/
def b2n (b : Bool) : Nat := if b then 1 else 0

/-- The smallest count of steps of `b` that covers `a`. -/
def ceilDiv (a b : Nat) : Nat := (a + b - 1) / b

/-- The `w` bits of `v` from `lsb` up, as a number (R7: bit 0 is the least significant). -/
def bitsOf (v lsb w : Nat) : Nat := v / 2 ^ lsb % 2 ^ w

/-- Bit `i` of `v`. -/
def bitOf (v i : Nat) : Bool := v / 2 ^ i % 2 == 1

/-- `v` with the `w` bits from `lsb` up replaced by `x`. -/
def setBits (v lsb w x : Nat) : Nat :=
  v - bitsOf v lsb w * 2 ^ lsb + (x % 2 ^ w) * 2 ^ lsb

/-- `v` with bit `i` set to `b`. -/
def setBit (v i : Nat) (b : Bool) : Nat := setBits v i 1 (b2n b)

/-- The bit positions below `n` that are 1 in `v`, ascending. -/
def onesBelow (n v : Nat) : List Nat := (List.range n).filter (bitOf v)

/-- How many of the lowest `n` bits of `v` are 1. -/
def popBelow (n v : Nat) : Nat := (onesBelow n v).length

/-- The bytes of `v`, most significant first, `n` of them: the order of formats carried on a wire (R8). -/
def bytesBE : Nat → Nat → List Byte
  | 0, _ => []
  | n + 1, v => BitVec.ofNat 8 (v / 256 ^ n) :: bytesBE n v

/-- The bytes of `v`, least significant first, `n` of them: the order of register space, device memory and NOR
records (R8). -/
def bytesLE : Nat → Nat → List Byte
  | 0, _ => []
  | n + 1, v => BitVec.ofNat 8 v :: bytesLE n (v / 256)

/-- The number that bytes spell, most significant first. -/
def natOfBE (bs : List Byte) : Nat := bs.foldl (fun a b => a * 256 + b.toNat) 0

/-- The number that bytes spell, least significant first. -/
def natOfLE : List Byte → Nat
  | [] => 0
  | b :: bs => b.toNat + 256 * natOfLE bs

/-- `n` bytes of `bs` from offset `off`; a byte beyond the end reads 0. -/
def slice (bs : List Byte) (off n : Nat) : List Byte :=
  (List.range n).map fun i => bs.getD (off + i) 0

/-- The big-endian number in `n` bytes of `bs` at `off` (R8: formats carried on a wire). -/
def fieldBE (bs : List Byte) (off n : Nat) : Nat := natOfBE (slice bs off n)

/-- The little-endian number in `n` bytes of `bs` at `off` (R8: structures held in device memory). -/
def fieldLE (bs : List Byte) (off n : Nat) : Nat := natOfLE (slice bs off n)

/-- Bytes as the 32-bit words that hold them, least significant byte at the lowest address (R8). -/
def wordsLE (n : Nat) (bs : List Byte) : List Nat :=
  (List.range n).map fun i => fieldLE bs (4 * i) 4

/-- Are all of these bytes 0? -/
def allZero (bs : List Byte) : Bool := bs.all (· == 0)

/-- One bit into a CRC register of `w` bits, most significant bit first, not reflected. -/
def crcBit (w poly crc : Nat) (b : Bool) : Nat :=
  let top := bitOf crc (w - 1) != b
  let sh := crc * 2 % 2 ^ w
  if top then Nat.xor sh poly else sh

/-- The bits of one byte, most significant first. -/
def bitsMSB (n v : Nat) : List Bool := (List.range n).reverse.map (bitOf v)

/-- A CRC of `w` bits over bits in transmission order. -/
def crcBits (w poly init : Nat) (bs : List Bool) : Nat := bs.foldl (crcBit w poly) init

/-- A CRC of `w` bits over bytes, the most significant bit of each first. -/
def crcBytes (w poly init : Nat) (bs : List Byte) : Nat :=
  bs.foldl (fun c b => crcBits w poly c (bitsMSB 8 b.toNat)) init

/-- CRC-16 of the epoch frame (R17): polynomial 0x1021, initial value 0xFFFF, no final XOR. -/
def crc16 (bits : List Bool) : Nat := crcBits 16 0x1021 0xFFFF bits

/-- CRC-32 of R43: polynomial 0x04C11DB7, initial value and final XOR 0xFFFF_FFFF, bits not reflected. -/
def crc32 (bs : List Byte) : Nat := Nat.xor (crcBytes 32 0x04C11DB7 0xFFFFFFFF bs) 0xFFFFFFFF

end Sys2Proof.Machine
end

