-- ==== Sys2Proof/Machine/Aes.lean ====
section
/-! DEFINITION. The published algorithms of R285 that the block computes: AES (FIPS 197), GCM and GMAC with 96-bit
nonces and 128-bit tags (SP 800-38D), AES key unwrap with and without padding (SP 800-38F). -/

namespace Sys2Proof.Machine

/-- Row `r` of the S-box of FIPS 197: sixteen bytes, the lowest first. -/
def sboxRows : List Nat :=
  [0x76ABD7FE2B670130C56F6BF27B777C63,
   0xC072A49CAFA2D4ADF04759FA7DC982CA,
   0x1531D871F1E5A534CCF73F362693FDB7,
   0x75B227EBE28012079A059618C323C704,
   0x842FE329B3D63B52A05A6E1B1A2C8309,
   0xCF584C4A39BECB6A5BB1FC20ED00D153,
   0xA89F3C507F02F94585334D43FBAAEFD0,
   0xD2F3FF1021DAB6BCF5389D928F40A351,
   0x73195D643D7EA7C41744975FEC130CCD,
   0xDB0B5EDE14B8EE4688902A22DC4F8160,
   0x79E4959162ACD3C25C2406490A3A32E0,
   0x08AE7A65EAF4566CA94ED58D6D37C8E7,
   0x8A8BBD4B1F74DDE8C6B4A61C2E2578BA,
   0x9E1DC186B95735610EF6034866B53E70,
   0xDF2855CEE9871E9B948ED9691198F8E1,
   0x16BB54B00F2D99416842E6BF0D89A18C]

/-- Row `r` of the inverse S-box. -/
def invSboxRows : List Nat :=
  [0xFBD7F3819EA340BF38A53630D56A0952,
   0xCBE9DEC444438E3487FF2F9B8239E37C,
   0x4EC3FA420B954CEE3D23C2A632947B54,
   0x25D18B6D49A25B76B224D92866A12E08,
   0x92B6655DCC5CA4D41698688664F6F872,
   0x849D8DA75746155EDAB9EDFD5048706C,
   0x0645B3B80558E4F70AD3BC8C00ABD890,
   0x6B8A130103BDAFC1020F3FCA8F1E2CD0,
   0x73E6B4F0CECFF297EADC674F4111913A,
   0x6EDF751CE837F9E28535ADE72274AC96,
   0x1BBE18AA0E62B76F89C5291D711AF147,
   0xF45ACD78FEC0DB9A2079D2C64B3E56FC,
   0x5FEC8027591012B131C7078833A8DD1F,
   0xEF9CC9939F7AE52D0D4AB519A97F5160,
   0x619953833CBBEBC8B0F52AAE4D3BE0A0,
   0x7D0C2155631469E126D677BA7E042B17]

/-- The S-box. -/
def sbox (x : Nat) : Nat := bitsOf (sboxRows.getD (x / 16) 0) (8 * (x % 16)) 8

/-- The inverse S-box. -/
def invSbox (x : Nat) : Nat := bitsOf (invSboxRows.getD (x / 16) 0) (8 * (x % 16)) 8

/-- Multiplication by x in GF(2^8) with the polynomial of AES. -/
def xtime (a : Nat) : Nat := if a < 128 then 2 * a else Nat.xor (2 * a) 0x11B

/-- Multiplication in GF(2^8) with the polynomial of AES, over the low `n` bits of `b`. -/
def gfMulAes : Nat → Nat → Nat → Nat
  | 0, _, _ => 0
  | n + 1, a, b => Nat.xor (if b % 2 = 1 then a else 0) (gfMulAes n (xtime a) (b / 2))

/-- Two lists of bytes, XORed place by place. -/
def xorBytes (a b : List Nat) : List Nat := List.zipWith Nat.xor a b

/-- One word of the key schedule from the words so far, newest first. -/
def keyWord (nk i rcon : Nat) (ws : List (List Nat)) : List Nat :=
  let prev := ws.headD []
  let t :=
    if i % nk = 0 then
      xorBytes ((prev.drop 1 ++ prev.take 1).map sbox) [rcon, 0, 0, 0]
    else if nk = 8 ∧ i % 8 = 4 then prev.map sbox else prev
  xorBytes (ws.getD (nk - 1) []) t

/-- The key schedule: `n` more words, newest first. -/
def keyWords : Nat → Nat → Nat → Nat → List (List Nat) → List (List Nat)
  | 0, _, _, _, ws => ws
  | n + 1, nk, i, rcon, ws =>
    keyWords n nk (i + 1) (if i % nk = 0 then xtime rcon else rcon) (keyWord nk i rcon ws :: ws)

/-- The round keys of a 16- or 32-byte key, in order. -/
def roundKeys (key : List Nat) : List (List Nat) :=
  let nk := key.length / 4
  let first := (List.range nk).map fun i => (key.drop (4 * i)).take 4
  let ws := (keyWords (4 * (nk + 7) - nk) nk nk 1 first.reverse).reverse
  (List.range (nk + 7)).map fun r => ((ws.drop (4 * r)).take 4).flatten

/-- ShiftRows: byte r of column c comes from column c + r. -/
def shiftRows (b : List Nat) : List Nat :=
  (List.range 16).map fun i => b.getD ((i + 4 * (i % 4)) % 16) 0

/-- Inverse ShiftRows. -/
def invShiftRows (b : List Nat) : List Nat :=
  (List.range 16).map fun i => b.getD ((i + 12 * (i % 4)) % 16) 0

/-- MixColumns by the coefficients of one row. -/
def mixColumns (co : List Nat) (b : List Nat) : List Nat :=
  (List.range 16).map fun i =>
    (List.range 4).foldl (fun a k =>
      Nat.xor a (gfMulAes 8 (b.getD (4 * (i / 4) + (i % 4 + k) % 4) 0) (co.getD k 0))) 0

/-- AES encryption of one block under a key of 16 or 32 bytes. -/
def aesEncrypt (key blk : List Nat) : List Nat :=
  let rk := roundKeys key
  let n := rk.length - 1
  let s0 := xorBytes blk (rk.getD 0 [])
  let s1 := (List.range (n - 1)).foldl (fun s r =>
    xorBytes (mixColumns [2, 3, 1, 1] (shiftRows (s.map sbox))) (rk.getD (r + 1) [])) s0
  xorBytes (shiftRows (s1.map sbox)) (rk.getD n [])

/-- AES decryption of one block. -/
def aesDecrypt (key blk : List Nat) : List Nat :=
  let rk := roundKeys key
  let n := rk.length - 1
  let s0 := (invShiftRows (xorBytes blk (rk.getD n []))).map invSbox
  let s1 := (List.range (n - 1)).foldl (fun s r =>
    (invShiftRows (mixColumns [14, 11, 13, 9] (xorBytes s (rk.getD (n - 1 - r) [])))).map invSbox) s0
  xorBytes s1 (rk.getD 0 [])

/-- A number as 16 bytes, most significant first, and back. -/
def blockOf (v : Nat) : List Nat := (List.range 16).map fun i => bitsOf v (8 * (15 - i)) 8

/-- The number that bytes spell, most significant first. -/
def natOf (b : List Nat) : Nat := b.foldl (fun a x => a * 256 + x) 0

/-- Multiplication in GF(2^128) as GHASH orders bits: over the bits of `x` from the most significant of `n` down. -/
def gmul128 : Nat → Nat → Nat → Nat → Nat
  | 0, _, _, z => z
  | n + 1, x, v, z =>
    gmul128 n x (if v % 2 = 1 then Nat.xor (v / 2) (0xE1 * 2 ^ 120) else v / 2)
      (if bitOf x n then Nat.xor z v else z)

/-- Bytes cut into blocks of 16, the last one filled with zeros. -/
def blocks16 (b : List Nat) : List Nat :=
  (List.range (ceilDiv b.length 16)).map fun i =>
    let c := (b.drop (16 * i)).take 16
    natOf (c ++ List.replicate (16 - c.length) 0)

/-- GHASH over additional data and ciphertext. -/
def ghash (h : Nat) (aad ct : List Nat) : Nat :=
  (blocks16 aad ++ blocks16 ct ++ [8 * aad.length * 2 ^ 64 + 8 * ct.length]).foldl
    (fun y x => gmul128 128 (Nat.xor y x) h 0) 0

/-- The key stream of GCM from counter value 2 on, `n` bytes of it. -/
def gcmStream (key nonce : List Nat) (n : Nat) : List Nat :=
  ((List.range (ceilDiv n 16)).flatMap fun i =>
    aesEncrypt key (nonce ++ (blockOf (i + 2)).drop 12)).take n

/-- The GCM tag of ciphertext and additional data. -/
def gcmTag (key nonce aad ct : List Nat) : List Nat :=
  let h := natOf (aesEncrypt key (List.replicate 16 0))
  xorBytes (blockOf (ghash h aad ct)) (aesEncrypt key (nonce ++ [0, 0, 0, 1]))

/-- Bytes as numbers, and back. -/
def toNats (b : List Byte) : List Nat := b.map (·.toNat)

/-- Numbers as bytes. -/
def ofNats (b : List Nat) : List Byte := b.map (BitVec.ofNat 8)

/-- GCM: ciphertext (or plaintext, the same operation). -/
def gcmCrypt (key nonce data : List Byte) : List Byte :=
  ofNats (xorBytes (toNats data) (gcmStream (toNats key) (toNats nonce) data.length))

/-- GCM: the tag over additional data and ciphertext. -/
def gcmTagOf (key nonce aad ct : List Byte) : List Byte :=
  ofNats (gcmTag (toNats key) (toNats nonce) (toNats aad) (toNats ct))

/-- GMAC: the tag over data alone. -/
def gmac (key nonce data : List Byte) : List Byte := gcmTagOf key nonce data []

/-- One step of the inverse of key wrapping: register A and the blocks R, step `t` counting down over `n` blocks. -/
def unwrapSteps (key : List Nat) (n : Nat) : Nat → Nat → List Nat → Nat × List Nat
  | 0, a, r => (a, r)
  | t + 1, a, r =>
    let i := t % n
    let b := natOf (aesDecrypt key (blockOf (Nat.xor a (t + 1) * 2 ^ 64 + r.getD i 0)))
    unwrapSteps key n t (b / 2 ^ 64) (r.set i (b % 2 ^ 64))

/-- AES key unwrap: the 64-bit check value and the data, `none` where the length is not a multiple of 8 of at least 16. -/
def unwrapRaw (key blob : List Nat) : Option (Nat × List Nat) :=
  let n := blob.length / 8 - 1
  if blob.length % 8 != 0 || n = 0 then none
  else if n = 1 then
    let b := natOf (aesDecrypt key blob)
    some (b / 2 ^ 64, (blockOf b).drop 8)
  else
    let r := (List.range n).map fun i => natOf ((blob.drop (8 * (i + 1))).take 8)
    let (a, r) := unwrapSteps key n (6 * n) (natOf (blob.take 8)) r
    some (a, r.flatMap fun x => (blockOf x).drop 8)

/-- KW unwrap: the data when the check value is the one of SP 800-38F and there are at least two blocks. -/
def kwUnwrap (key blob : List Nat) : Option (List Nat) :=
  match unwrapRaw key blob with
  | some (a, d) => if a = 0xA6A6A6A6A6A6A6A6 ∧ 16 ≤ d.length then some d else none
  | none => none

/-- KWP unwrap: the check value carries the length; the padding is zeros. -/
def kwpUnwrap (key blob : List Nat) : Option (List Nat) :=
  match unwrapRaw key blob with
  | some (a, d) =>
    let len := a % 2 ^ 32
    if a / 2 ^ 32 = 0xA65959A6 ∧ len ≤ d.length ∧ d.length < len + 8 ∧ (d.drop len).all (· == 0) then
      some (d.take len)
    else none
  | none => none

end Sys2Proof.Machine
end

