-- ==== Sys2Proof/Config.lean ====
section
/-! DEFINITION. The free values: what the spec leaves open while the machine goes on. Nothing constrains any of them. -/

namespace Sys2Proof

/-- A bit that the spec leaves open, taken afresh each time (log entry 1). -/
opaque Config.freeBit : Nat → Bool

/-- A number that the spec leaves open, taken afresh each time (log entry 1). -/
opaque Config.freeNat : Nat → Nat

/-- The length in bits of the boundary register (R389). -/
opaque Config.boundaryLength : Nat

/-- The length in bits of an assigned scan chain (R387). -/
opaque Config.chainLength : Nat → Nat

/-- What an assigned scan chain holds after the n-th entry into Vitrine, bit 0 first (R387). -/
opaque Config.chainContent : Nat → Nat → Nat

end Sys2Proof
end

