-- ==== Sys2Proof/Machine/Map.lean ====
section
/-! DEFINITION. Sparse tables: lists of (key, value) pairs with strictly rising keys. Every table of the block that
is mostly at one value (registers, queue contexts, windows, memory) is one of these, so that equal tables are equal
data. -/

namespace Sys2Proof.Machine

/-- A sparse table: (key, value) pairs, keys strictly rising. -/
abbrev NMap (α : Type) := List (Nat × α)

/-- The value at key `k`, if the table lists one. -/
def mget {α : Type} : NMap α → Nat → Option α
  | [], _ => none
  | (k', v) :: m, k => if k' = k then some v else mget m k

/-- The value at key `k`, or `d` where the table lists none. -/
def mgetD {α : Type} (m : NMap α) (k : Nat) (d : α) : α := (mget m k).getD d

/-- The table with key `k` at `v`. -/
def mput {α : Type} : NMap α → Nat → α → NMap α
  | [], k, v => [(k, v)]
  | (k', v') :: m, k, v =>
    if k < k' then (k, v) :: (k', v') :: m
    else if k = k' then (k, v) :: m
    else (k', v') :: mput m k v

/-- The table without key `k`. -/
def mdel {α : Type} (m : NMap α) (k : Nat) : NMap α := m.filter fun e => e.1 != k

/-- The table with key `k` at `v`, listing nothing where `v` is the value `d` of an unlisted key. -/
def mset {α : Type} [DecidableEq α] (d : α) (m : NMap α) (k : Nat) (v : α) : NMap α :=
  if v = d then mdel m k else mput m k v

/-- Are the keys strictly rising, all above `lo` when one is given? -/
def msorted {α : Type} : Option Nat → NMap α → Bool
  | _, [] => true
  | lo, (k, _) :: m => (match lo with | none => true | some l => decide (l < k)) && msorted (some k) m

/-- Every value of the table through `f`. -/
def mmap {α β : Type} (f : Nat → α → β) (m : NMap α) : NMap β := m.map fun e => (e.1, f e.1 e.2)

/-- A table from pairs in any order, a later pair for a key in place of an earlier one. -/
def mofList {α : Type} (l : List (Nat × α)) : NMap α := l.foldl (fun m e => mput m e.1 e.2) []

end Sys2Proof.Machine
end

