-- ==== Sys2Proof/Machine/Fields.lean ====
section
/-! DEFINITION. The register fields of the management space: one definition per field of the spec's register tables
(each docstring gives the table's offset, bits and words), the page header of R400, the page map of R399 and the event
bits of every page. A field whose LO and HI words form a pair is one field of 64 bits. -/

namespace Sys2Proof.Machine

/-- The access codes of R405. -/
inductive Acc | ro | rw | wo | w1c | rwe | ros
  deriving DecidableEq, Repr

/-- What a field's Reset column names (R406): a domain, the block reset, or nothing. -/
inductive Dom | datapath | management | supervisor | block | none
  deriving DecidableEq, Repr

/-- What the table says of a value outside the field's range (R405): nothing, stored as the nearest bound, or the
write ignored. -/
inductive Treat | any | clamp (lo hi : Nat) | ignore (lo hi : Nat)
  deriving DecidableEq, Repr

/-- One register field: where it lies, its width, its reset value, its access code and its reset domain. -/
structure Fld where
  page : Nat
  off : Nat
  lsb : Nat
  width : Nat
  rst : Nat
  acc : Acc
  dom : Dom
  treat : Treat := .any
  pair : Bool := false
  deriving DecidableEq, Repr

/-- A reset domain as a number, for a field's key. -/
def Dom.code : Dom → Nat
  | .datapath => 0 | .management => 1 | .supervisor => 2 | .block => 3 | .none => 4

/-- The key of a field in the register table: its place, then its reset column and whether it is ROS. -/
def Fld.key (f : Fld) : Nat :=
  ((f.page * 4096 + f.off) * 64 + f.lsb) * 16 + f.dom.code * 2 + (if f.acc = .ros then 1 else 0)

/-- The reset domain of a page (R399). -/
def pageDom (p : Nat) : Dom :=
  if p = 4 ∨ p = 5 then .datapath
  else if p = 8 ∨ p = 9 then .management
  else if p ≤ 12 ∨ p = 0xE0 ∨ p = 0xE1 then .supervisor
  else .datapath

/-- The pages that are not block pages (R399). -/
def fixedPage (p : Nat) : Bool := p ≤ 12 || p == 0xE0 || p == 0xE1

/-- The page number of SYS (R399). -/
def SYS.page : Nat := 0x00

/-- The page number of RST (R399). -/
def RST.page : Nat := 0x01

/-- The page number of PSQ (R399). -/
def PSQ.page : Nat := 0x02

/-- The page number of SCN (R399). -/
def SCN.page : Nat := 0x03

/-- The page number of CLK (R399). -/
def CLK.page : Nat := 0x04

/-- The page number of EPC (R399). -/
def EPC.page : Nat := 0x05

/-- The page number of RTC (R399). -/
def RTC.page : Nat := 0x06

/-- The page number of CEN (R399). -/
def CEN.page : Nat := 0x07

/-- The page number of NOR (R399). -/
def NOR.page : Nat := 0x08

/-- The page number of CUR (R399). -/
def CUR.page : Nat := 0x09

/-- The page number of FEN (R399). -/
def FEN.page : Nat := 0x0A

/-- The page number of VIT (R399). -/
def VIT.page : Nat := 0x0B

/-- The page number of THM (R399). -/
def THM.page : Nat := 0x0C

/-- The page number of HP instance `n` (R399). -/
def HP.page (n : Nat) : Nat := 0x10 + n

/-- The page number of XPT instance `n` (R399). -/
def XPT.page (n : Nat) : Nat := 0x20 + n

/-- The page number of QMG (R399). -/
def QMG.page : Nat := 0x30

/-- The page number of WIN (R399). -/
def WIN.page : Nat := 0x31

/-- The page number of CMT (R399). -/
def CMT.page : Nat := 0x32

/-- The page number of ADT (R399). -/
def ADT.page : Nat := 0x33

/-- The page number of DFT instance `n` (R399). -/
def DFT.page (n : Nat) : Nat := 0x34 + n

/-- The page number of GNG (R399). -/
def GNG.page : Nat := 0x37

/-- The page number of TIR (R399). -/
def TIR.page : Nat := 0x38

/-- The page number of MUS (R399). -/
def MUS.page : Nat := 0x39

/-- The page number of STK instance `n` (R399). -/
def STK.page (n : Nat) : Nat := 0x40 + n

/-- The page number of DCH instance `n` (R399). -/
def DCH.page (n : Nat) : Nat := 0x48 + n

/-- The page number of CEL (R399). -/
def CEL.page : Nat := 0x50

/-- The page number of FCH instance `n` (R399). -/
def FCH.page (n : Nat) : Nat := 0x60 + n

/-- The page number of FTL (R399). -/
def FTL.page : Nat := 0xA0

/-- The page number of PAR (R399). -/
def PAR.page : Nat := 0xA1

/-- The page number of PTL (R399). -/
def PTL.page : Nat := 0xA2

/-- The page number of CPH (R399). -/
def CPH.page : Nat := 0xB0

/-- The page number of KST (R399). -/
def KST.page : Nat := 0xB1

/-- The page number of CCH instance `n` (R399). -/
def CCH.page (n : Nat) : Nat := 0xB2 + n

/-- The page number of ACC (R399). -/
def ACC.page : Nat := 0xD0

/-- The page number of PCE (R399). -/
def PCE.page : Nat := 0xE0

/-- The page number of SMB (R399). -/
def SMB.page : Nat := 0xE1

/-- The first page of the kind of page `p` (R399, R400); `none` for a reserved page. -/
def pageBase (p : Nat) : Option Nat :=
  if p == 0x00 then some 0x00 else
  if p == 0x01 then some 0x01 else
  if p == 0x02 then some 0x02 else
  if p == 0x03 then some 0x03 else
  if p == 0x04 then some 0x04 else
  if p == 0x05 then some 0x05 else
  if p == 0x06 then some 0x06 else
  if p == 0x07 then some 0x07 else
  if p == 0x08 then some 0x08 else
  if p == 0x09 then some 0x09 else
  if p == 0x0A then some 0x0A else
  if p == 0x0B then some 0x0B else
  if p == 0x0C then some 0x0C else
  if 0x10 ≤ p && p < 0x20 then some 0x10 else
  if 0x20 ≤ p && p < 0x30 then some 0x20 else
  if p == 0x30 then some 0x30 else
  if p == 0x31 then some 0x31 else
  if p == 0x32 then some 0x32 else
  if p == 0x33 then some 0x33 else
  if 0x34 ≤ p && p < 0x37 then some 0x34 else
  if p == 0x37 then some 0x37 else
  if p == 0x38 then some 0x38 else
  if p == 0x39 then some 0x39 else
  if 0x40 ≤ p && p < 0x48 then some 0x40 else
  if 0x48 ≤ p && p < 0x50 then some 0x48 else
  if p == 0x50 then some 0x50 else
  if 0x60 ≤ p && p < 0xA0 then some 0x60 else
  if p == 0xA0 then some 0xA0 else
  if p == 0xA1 then some 0xA1 else
  if p == 0xA2 then some 0xA2 else
  if p == 0xB0 then some 0xB0 else
  if p == 0xB1 then some 0xB1 else
  if 0xB2 ≤ p && p < 0xC8 then some 0xB2 else
  if p == 0xD0 then some 0xD0 else
  if p == 0xE0 then some 0xE0 else
  if p == 0xE1 then some 0xE1 else
  none

/-- Header word 1 (R400): the page's enable. -/
def HDR.ENABLE (p : Nat) : Fld := ⟨p, 0x004, 0, 1, 0, .rw, pageDom p, .any, false⟩
/-- Header word 1 (R400): BLOCK_RESET. -/
def HDR.BLOCK_RESET (p : Nat) : Fld := ⟨p, 0x004, 1, 1, 0, .wo, pageDom p, .any, false⟩
/-- Header word 2 (R400): BUSY. -/
def HDR.BUSY (p : Nat) : Fld := ⟨p, 0x008, 0, 1, 0, .ro, pageDom p, .any, false⟩
/-- Header word 2 (R400, R401): PENDING_OFF. -/
def HDR.PENDING_OFF (p : Nat) : Fld := ⟨p, 0x008, 1, 1, 0, .ro, pageDom p, .any, false⟩
/-- Header word 2 (R400): FAULT. -/
def HDR.FAULT (p : Nat) : Fld := ⟨p, 0x008, 2, 1, 0, .ro, pageDom p, .any, false⟩
/-- Header word 2 (R400, R404): EXPERT. -/
def HDR.EXPERT (p : Nat) : Fld := ⟨p, 0x008, 3, 1, 0, .ro, pageDom p, .any, false⟩
/-- Header word 2 (R400, R402): IN_RESET. -/
def HDR.IN_RESET (p : Nat) : Fld := ⟨p, 0x008, 4, 1, 0, .ro, pageDom p, .any, false⟩
/-- Header word 3 (R400, R403): EVT_RAW. -/
def HDR.EVT_RAW (p : Nat) : Fld := ⟨p, 0x00C, 0, 32, 0, .ro, pageDom p, .any, false⟩
/-- Header word 4 (R400, R403): EVT_ENABLE. -/
def HDR.EVT_ENABLE (p : Nat) : Fld := ⟨p, 0x010, 0, 32, 0, .rw, pageDom p, .any, false⟩
/-- Header word 6 (R391): POINT of CANARY. -/
def HDR.POINT (p : Nat) : Fld := ⟨p, 0x018, 0, 5, 0, .rwe, .block, .any, false⟩
/-- Not a register: 1 while the last write of EXPERT_KEY was 0x0000_5A5A (R404). -/
def HDR.KEY_STEP (p : Nat) : Fld := ⟨p, 0x01C, 32, 1, 0, .wo, pageDom p, .any, false⟩
/-- Not a register: 1 while an enable written during a shutdown is remembered (R401). -/
def HDR.REMEMBERED (p : Nat) : Fld := ⟨p, 0x004, 32, 1, 0, .wo, pageDom p, .any, false⟩
/-- Not a register: the HI word latched by the last read of the LO word at `off` of page `p` (R396). -/
def HDR.LATCH (p off : Nat) : Fld := ⟨p, off, 32, 32, 0, .wo, pageDom p, .any, false⟩

/-- HP 0x020 [1:0] MODE: Port mode by R38; reset 0. A write while PAGE_CTRL enable is 1 is ignored and raises MODE_REJECT -/
def HP.MODE (n : Nat) : Fld :=
  ⟨(0x10 + n), 0x020, 0, 2, 0, .rw, .datapath, .any, false⟩

/-- HP 0x020 [4] PFC_EN: Priority flow control; reset 0 -/
def HP.PFC_EN (n : Nat) : Fld :=
  ⟨(0x10 + n), 0x020, 4, 1, 0, .rw, .datapath, .any, false⟩

/-- HP 0x020 [15:8] PFC_PRIO: One bit per priority; reset 0x00 -/
def HP.PFC_PRIO (n : Nat) : Fld :=
  ⟨(0x10 + n), 0x020, 8, 8, 0, .rw, .datapath, .any, false⟩

/-- HP 0x024 [7:0] LINK_UP: Per sub-link -/
def HP.LINK_UP (n : Nat) : Fld :=
  ⟨(0x10 + n), 0x024, 0, 8, 0, .ro, .datapath, .any, false⟩

/-- HP 0x024 [15:8] REMOTE_FAULT: Per sub-link -/
def HP.REMOTE_FAULT (n : Nat) : Fld :=
  ⟨(0x10 + n), 0x024, 8, 8, 0, .ro, .datapath, .any, false⟩

/-- HP 0x024 [23:16] HI_BER: Per sub-link -/
def HP.HI_BER (n : Nat) : Fld :=
  ⟨(0x10 + n), 0x024, 16, 8, 0, .ro, .datapath, .any, false⟩

/-- HP 0x040, 0x044 [31:0] RX_FRAMES_LO, _HI: Frames received -/
def HP.RX_FRAMES (n : Nat) : Fld :=
  ⟨(0x10 + n), 0x040, 0, 64, 0, .ro, .datapath, .any, true⟩

/-- HP 0x048, 0x04C [31:0] TX_FRAMES_LO, _HI: Frames sent -/
def HP.TX_FRAMES (n : Nat) : Fld :=
  ⟨(0x10 + n), 0x048, 0, 64, 0, .ro, .datapath, .any, true⟩

/-- HP 0x050, 0x054 [31:0] RX_FCS_ERR_LO, _HI: Frames with bad FCS -/
def HP.RX_FCS_ERR (n : Nat) : Fld :=
  ⟨(0x10 + n), 0x050, 0, 64, 0, .ro, .datapath, .any, true⟩

/-- HP 0x058, 0x05C [31:0] FEC_CORR_LO, _HI: Corrected codewords -/
def HP.FEC_CORR (n : Nat) : Fld :=
  ⟨(0x10 + n), 0x058, 0, 64, 0, .ro, .datapath, .any, true⟩

/-- HP 0x060, 0x064 [31:0] FEC_UNCORR_LO, _HI: Uncorrectable codewords -/
def HP.FEC_UNCORR (n : Nat) : Fld :=
  ⟨(0x10 + n), 0x060, 0, 64, 0, .ro, .datapath, .any, true⟩

/-- HP 0x068, 0x06C [31:0] PFC_RX_LO, _HI: PFC frames received -/
def HP.PFC_RX (n : Nat) : Fld :=
  ⟨(0x10 + n), 0x068, 0, 64, 0, .ro, .datapath, .any, true⟩

/-- HP 0x070, 0x074 [31:0] PFC_TX_LO, _HI: PFC frames sent -/
def HP.PFC_TX (n : Nat) : Fld :=
  ⟨(0x10 + n), 0x070, 0, 64, 0, .ro, .datapath, .any, true⟩

/-- HP 0x100 + 8s [31:0] MAC_LO_s: Link s MAC address [31:0] -/
def HP.MAC_LO (n : Nat) (i : Nat) : Fld :=
  ⟨(0x10 + n), (0x100 + 0x8 * i), 0, 32, 0, .rw, .datapath, .any, false⟩

/-- HP 0x104 + 8s [15:0] MAC_HI_s: Link s MAC address [47:32] -/
def HP.MAC_HI (n : Nat) (i : Nat) : Fld :=
  ⟨(0x10 + n), (0x104 + 0x8 * i), 0, 16, 0, .rw, .datapath, .any, false⟩

/-- HP 0x104 + 8s [27:16] VID_s: Link s VLAN ID -/
def HP.VID (n : Nat) (i : Nat) : Fld :=
  ⟨(0x10 + n), (0x104 + 0x8 * i), 16, 12, 0, .rw, .datapath, .any, false⟩

/-- HP 0x104 + 8s [30:28] PCP_s: PCP for frames the device originates (ARP, neighbour discovery) -/
def HP.PCP (n : Nat) (i : Nat) : Fld :=
  ⟨(0x10 + n), (0x104 + 0x8 * i), 28, 3, 0, .rw, .datapath, .any, false⟩

/-- HP 0x104 + 8s [31] VLAN_EN_s: 1: frames carry a tag with VID_s; 0: frames carry no tag. Received frames that break this are dropped by R428 -/
def HP.VLAN_EN (n : Nat) (i : Nat) : Fld :=
  ⟨(0x10 + n), (0x104 + 0x8 * i), 31, 1, 0, .rw, .datapath, .any, false⟩

/-- HP 0x400 [1:0] LOOPBACK: 0 off, 1 near-end PCS, 2 far-end PMA; 3 reserved -/
def HP.LOOPBACK (n : Nat) : Fld :=
  ⟨(0x10 + n), 0x400, 0, 2, 0, .rwe, .datapath, (.ignore 0 2), false⟩

/-- HP 0x408 [6:0] PFC_XOFF_PCT: XOFF threshold in percent, 20 to 95; reset 75. Values outside the range are treated as the nearest bound -/
def HP.PFC_XOFF_PCT (n : Nat) : Fld :=
  ⟨(0x10 + n), 0x408, 0, 7, 75, .rwe, .datapath, (.clamp 20 95), false⟩

/-- XPT 0x020 [15:0] UDP_PORT: Cleartext Rossil port; reset 36,170 -/
def XPT.UDP_PORT (n : Nat) : Fld :=
  ⟨(0x20 + n), 0x020, 0, 16, 36170, .rw, .datapath, .any, false⟩

/-- XPT 0x020 [31:16] UDP_PORT_SEALED: Sealed Rossil port; reset 36,171 -/
def XPT.UDP_PORT_SEALED (n : Nat) : Fld :=
  ⟨(0x20 + n), 0x020, 16, 16, 36171, .rw, .datapath, .any, false⟩

/-- XPT 0x024 [0] IPV4_EN: Accept IPv4; reset 1 -/
def XPT.IPV4_EN (n : Nat) : Fld :=
  ⟨(0x20 + n), 0x024, 0, 1, 1, .rw, .datapath, .any, false⟩

/-- XPT 0x024 [1] IPV6_EN: Accept IPv6; reset 1 -/
def XPT.IPV6_EN (n : Nat) : Fld :=
  ⟨(0x20 + n), 0x024, 1, 1, 1, .rw, .datapath, .any, false⟩

/-- XPT 0x024 [2] SEAL_EN: Sealed transport on; reset 0 -/
def XPT.SEAL_EN (n : Nat) : Fld :=
  ⟨(0x20 + n), 0x024, 2, 1, 0, .rw, .datapath, .any, false⟩

/-- XPT 0x024 [3] SEAL_REQUIRED: Drop cleartext Rossil; reset 0 -/
def XPT.SEAL_REQUIRED (n : Nat) : Fld :=
  ⟨(0x20 + n), 0x024, 3, 1, 0, .rw, .datapath, .any, false⟩

/-- XPT 0x024 [6:4] SEAL_CH: Line channel LC_0 … LC_7 -/
def XPT.SEAL_CH (n : Nat) : Fld :=
  ⟨(0x20 + n), 0x024, 4, 3, 0, .rw, .datapath, .any, false⟩

/-- XPT 0x024 [13:8] DSCP_TX: DSCP of transmitted datagrams; reset 0 -/
def XPT.DSCP_TX (n : Nat) : Fld :=
  ⟨(0x20 + n), 0x024, 8, 6, 0, .rw, .datapath, .any, false⟩

/-- XPT 0x028 [31:0] SEAL_TX_KEY: Key instance for sealing answers -/
def XPT.SEAL_TX_KEY (n : Nat) : Fld :=
  ⟨(0x20 + n), 0x028, 0, 32, 0, .rw, .datapath, .any, false⟩

/-- XPT counter RX_REQ at 0x040 (LO, then HI). -/
def XPT.RX_REQ (n : Nat) : Fld :=
  ⟨(0x20 + n), 0x040, 0, 64, 0, .ro, .datapath, .any, true⟩

/-- XPT counter RX_DUP at 0x048 (LO, then HI). -/
def XPT.RX_DUP (n : Nat) : Fld :=
  ⟨(0x20 + n), 0x048, 0, 64, 0, .ro, .datapath, .any, true⟩

/-- XPT counter RX_STALE at 0x050 (LO, then HI). -/
def XPT.RX_STALE (n : Nat) : Fld :=
  ⟨(0x20 + n), 0x050, 0, 64, 0, .ro, .datapath, .any, true⟩

/-- XPT counter RX_DROP at 0x058 (LO, then HI). -/
def XPT.RX_DROP (n : Nat) : Fld :=
  ⟨(0x20 + n), 0x058, 0, 64, 0, .ro, .datapath, .any, true⟩

/-- XPT counter TX_RSP at 0x060 (LO, then HI). -/
def XPT.TX_RSP (n : Nat) : Fld :=
  ⟨(0x20 + n), 0x060, 0, 64, 0, .ro, .datapath, .any, true⟩

/-- XPT counter TX_ACK at 0x068 (LO, then HI). -/
def XPT.TX_ACK (n : Nat) : Fld :=
  ⟨(0x20 + n), 0x068, 0, 64, 0, .ro, .datapath, .any, true⟩

/-- XPT counter TX_NAK at 0x070 (LO, then HI). -/
def XPT.TX_NAK (n : Nat) : Fld :=
  ⟨(0x20 + n), 0x070, 0, 64, 0, .ro, .datapath, .any, true⟩

/-- XPT counter AUTH_FAIL at 0x078 (LO, then HI). -/
def XPT.AUTH_FAIL (n : Nat) : Fld :=
  ⟨(0x20 + n), 0x078, 0, 64, 0, .ro, .datapath, .any, true⟩

/-- XPT counter FWD at 0x080 (LO, then HI). -/
def XPT.FWD (n : Nat) : Fld :=
  ⟨(0x20 + n), 0x080, 0, 64, 0, .ro, .datapath, .any, true⟩

/-- XPT counter RX_RETX at 0x088 (LO, then HI). -/
def XPT.RX_RETX (n : Nat) : Fld :=
  ⟨(0x20 + n), 0x088, 0, 64, 0, .ro, .datapath, .any, true⟩

/-- XPT 0x100 + 0x20s [31:0] IPV4_s: Link s IPv4 address -/
def XPT.IPV4 (n : Nat) (i : Nat) : Fld :=
  ⟨(0x20 + n), (0x100 + 0x20 * i), 0, 32, 0, .rw, .datapath, .any, false⟩

/-- XPT 0x104 + 0x20s … 0x110 + 0x20s [31:0] IPV6_s: Link s IPv6 address, most significant word at the lowest offset -/
def XPT.IPV6_W0 (n : Nat) (i : Nat) : Fld :=
  ⟨(0x20 + n), (0x104 + 0x20 * i), 0, 32, 0, .rw, .datapath, .any, false⟩

/-- XPT 0x104 + 0x20s … 0x110 + 0x20s [31:0] IPV6_s: Link s IPv6 address, most significant word at the lowest offset -/
def XPT.IPV6_W1 (n : Nat) (i : Nat) : Fld :=
  ⟨(0x20 + n), (0x108 + 0x20 * i), 0, 32, 0, .rw, .datapath, .any, false⟩

/-- XPT 0x104 + 0x20s … 0x110 + 0x20s [31:0] IPV6_s: Link s IPv6 address, most significant word at the lowest offset -/
def XPT.IPV6_W2 (n : Nat) (i : Nat) : Fld :=
  ⟨(0x20 + n), (0x10C + 0x20 * i), 0, 32, 0, .rw, .datapath, .any, false⟩

/-- XPT 0x104 + 0x20s … 0x110 + 0x20s [31:0] IPV6_s: Link s IPv6 address, most significant word at the lowest offset -/
def XPT.IPV6_W3 (n : Nat) (i : Nat) : Fld :=
  ⟨(0x20 + n), (0x110 + 0x20 * i), 0, 32, 0, .rw, .datapath, .any, false⟩

/-- XPT 0x400 [15:0] NAK_LIMIT: Final NAKs per epoch for R53; reset 64 -/
def XPT.NAK_LIMIT (n : Nat) : Fld :=
  ⟨(0x20 + n), 0x400, 0, 16, 64, .rwe, .datapath, .any, false⟩

/-- XPT 0x404 [6:0] ACK_RUNS_MAX: Runs per ACK, 1 to 64; reset 64; 0 is treated as 1, and values above 64 are treated as 64 -/
def XPT.ACK_RUNS_MAX (n : Nat) : Fld :=
  ⟨(0x20 + n), 0x404, 0, 7, 64, .rwe, .datapath, (.clamp 1 64), false⟩

/-- EPC 0x020 [0] ALIGN_EN: 1: use the EPOCH input; 0: ignore it, by R427. Reset value 1 -/
def EPC.ALIGN_EN : Fld :=
  ⟨0x05, 0x020, 0, 1, 1, .rw, .datapath, .any, false⟩

/-- EPC 0x020 [1] RELAY_EN: 1: send markers (leader) or follow them (follower). Reset value 1 -/
def EPC.RELAY_EN : Fld :=
  ⟨0x05, 0x020, 1, 1, 1, .rw, .datapath, .any, false⟩

/-- EPC 0x024 [2:0] STATE: 0 SEARCH, 1 ALIGNED, 2 RELAY, 3 HOLDOVER; other values reserved -/
def EPC.STATE : Fld :=
  ⟨0x05, 0x024, 0, 3, 0, .ro, .datapath, .any, false⟩

/-- EPC 0x024 [3] HOLDOVER: 1 while STATE = HOLDOVER -/
def EPC.HOLDOVER : Fld :=
  ⟨0x05, 0x024, 3, 1, 0, .ro, .datapath, .any, false⟩

/-- EPC 0x024 [4] LEADER: Copy of the TWIN_POS strap inverted: 1 at position 0 -/
def EPC.LEADER : Fld :=
  ⟨0x05, 0x024, 4, 1, 0, .ro, .datapath, .any, false⟩

/-- EPC 0x024 [5] DLL_LOCK: Epoch DLL locked -/
def EPC.DLL_LOCK : Fld :=
  ⟨0x05, 0x024, 5, 1, 0, .ro, .datapath, .any, false⟩

/-- EPC 0x028 [31:0] EPOCH_LO: Current epoch number [31:0]; reading it latches EPOCH_HI -/
def EPC.EPOCH_LO : Fld :=
  ⟨0x05, 0x028, 0, 32, 0, .ro, .datapath, .any, false⟩

/-- EPC 0x02C [31:0] EPOCH_HI: Current epoch number [63:32], as latched -/
def EPC.EPOCH_HI : Fld :=
  ⟨0x05, 0x02C, 0, 32, 0, .ro, .datapath, .any, false⟩

/-- EPC 0x030 [22:0] PERIOD_MEAS: Period in core cycles, [22:8] integer, [7:0] fraction -/
def EPC.PERIOD_MEAS : Fld :=
  ⟨0x05, 0x030, 0, 23, 0, .ro, .datapath, .any, false⟩

/-- EPC 0x034 [7:0] FLAGS_LAST: FLAGS of the last good frame -/
def EPC.FLAGS_LAST : Fld :=
  ⟨0x05, 0x034, 0, 8, 0, .ro, .datapath, .any, false⟩

/-- EPC 0x038 [31:0] MISSED: Missed frames counted by R25 while ALIGNED; saturates at 0xFFFF_FFFF -/
def EPC.MISSED : Fld :=
  ⟨0x05, 0x038, 0, 32, 0, .ro, .datapath, .any, false⟩

/-- EPC 0x03C [31:0] STEP_SKIP: Epoch numbers skipped by steps; saturates -/
def EPC.STEP_SKIP : Fld :=
  ⟨0x05, 0x03C, 0, 32, 0, .ro, .datapath, .any, false⟩

/-- EPC 0x040 [31:0] ADIT_DELAY: Measured one-way adit delay in core cycles -/
def EPC.ADIT_DELAY : Fld :=
  ⟨0x05, 0x040, 0, 32, 0, .ro, .datapath, .any, false⟩

/-- EPC 0x400 [5:0] WIN_TOL: Window half-width in ns, 1 to 63; reset value 20; 0 is treated as 1 -/
def EPC.WIN_TOL : Fld :=
  ⟨0x05, 0x400, 0, 6, 20, .rwe, .datapath, (.clamp 1 63), false⟩

/-- EPC 0x404 [0] FORCE_HOLDOVER: 1: ignore EPOCH and relay markers and hold over; for rehearsal only -/
def EPC.FORCE_HOLDOVER : Fld :=
  ⟨0x05, 0x404, 0, 1, 0, .rwe, .datapath, .any, false⟩

/-- QMG 0x020 [14:0] QCTX_SEL: Queue whose context the window shows; reset 0 -/
def QMG.QCTX_SEL : Fld :=
  ⟨0x30, 0x020, 0, 15, 0, .rw, .datapath, .any, false⟩

/-- QMG 0x024 [0] OVERSUBSCRIBED: Set at the commit of a contract accepted beyond deliverable; cleared at the first boundary with SCALE 1, by R102 -/
def QMG.OVERSUBSCRIBED : Fld :=
  ⟨0x30, 0x024, 0, 1, 0, .ro, .datapath, .any, false⟩

/-- QMG 0x040 … 0x07C [31:0] QCTX_0 … QCTX_15: Context of queue QCTX_SEL, by R77, word n at offset 4n -/
def QMG.QCTX (i : Nat) : Fld :=
  ⟨0x30, (0x040 + 0x4 * i), 0, 32, 0, .ro, .datapath, .any, false⟩

/-- QMG 0x080 … 0x08C [31:0] D_WR, D_RD, D_FL, D_REQ: Deliverable figures by R101 -/
def QMG.D_WR : Fld :=
  ⟨0x30, 0x080, 0, 32, 0, .ro, .datapath, .any, false⟩

/-- QMG 0x080 … 0x08C [31:0] D_WR, D_RD, D_FL, D_REQ: Deliverable figures by R101 -/
def QMG.D_RD : Fld :=
  ⟨0x30, 0x084, 0, 32, 0, .ro, .datapath, .any, false⟩

/-- QMG 0x080 … 0x08C [31:0] D_WR, D_RD, D_FL, D_REQ: Deliverable figures by R101 -/
def QMG.D_FL : Fld :=
  ⟨0x30, 0x088, 0, 32, 0, .ro, .datapath, .any, false⟩

/-- QMG 0x080 … 0x08C [31:0] D_WR, D_RD, D_FL, D_REQ: Deliverable figures by R101 -/
def QMG.D_REQ : Fld :=
  ⟨0x30, 0x08C, 0, 32, 0, .ro, .datapath, .any, false⟩

/-- QMG 0x090 … 0x0AC [31:0] SUM_WR, SUM_RD, SUM_FL, SUM_REQ, each LO then HI: Contract sums by R102 -/
def QMG.SUM_WR : Fld :=
  ⟨0x30, 0x090, 0, 64, 0, .ro, .datapath, .any, true⟩

/-- QMG 0x090 … 0x0AC [31:0] SUM_WR, SUM_RD, SUM_FL, SUM_REQ, each LO then HI: Contract sums by R102 -/
def QMG.SUM_RD : Fld :=
  ⟨0x30, 0x098, 0, 64, 0, .ro, .datapath, .any, true⟩

/-- QMG 0x090 … 0x0AC [31:0] SUM_WR, SUM_RD, SUM_FL, SUM_REQ, each LO then HI: Contract sums by R102 -/
def QMG.SUM_FL : Fld :=
  ⟨0x30, 0x0A0, 0, 64, 0, .ro, .datapath, .any, true⟩

/-- QMG 0x090 … 0x0AC [31:0] SUM_WR, SUM_RD, SUM_FL, SUM_REQ, each LO then HI: Contract sums by R102 -/
def QMG.SUM_REQ : Fld :=
  ⟨0x30, 0x0A8, 0, 64, 0, .ro, .datapath, .any, true⟩

/-- QMG 0x0B0 [16:0] SCALE: floor(SCALE × 65,536); reset 0x1_0000 -/
def QMG.SCALE : Fld :=
  ⟨0x30, 0x0B0, 0, 17, 65536, .ro, .datapath, .any, false⟩

/-- QMG 0x0B4 [15:0] ACTIVE_QUEUES: Queues not FREE -/
def QMG.ACTIVE_QUEUES : Fld :=
  ⟨0x30, 0x0B4, 0, 16, 0, .ro, .datapath, .any, false⟩

/-- QMG 0x0C0 [0] ADM0_DOORBELL: 1: submit the queue 0 request, by R82 -/
def QMG.ADM0_DOORBELL : Fld :=
  ⟨0x30, 0x0C0, 0, 1, 0, .wo, .datapath, .any, false⟩

/-- QMG 0x0C4 [0] BUSY: Queue 0 request in progress -/
def QMG.BUSY : Fld :=
  ⟨0x30, 0x0C4, 0, 1, 0, .ro, .datapath, .any, false⟩

/-- QMG 0x0C4 [1] DONE: Answer complete; cleared by a doorbell write -/
def QMG.DONE : Fld :=
  ⟨0x30, 0x0C4, 1, 1, 0, .ro, .datapath, .any, false⟩

/-- QMG 0x0C4 [15:8] SEGS: Answer segments written -/
def QMG.SEGS : Fld :=
  ⟨0x30, 0x0C4, 8, 8, 0, .ro, .datapath, .any, false⟩

/-- QMG 0x0D0, 0x0D4 [31:0] OVER_CONTRACT_LO, _HI: Requests admitted after their arrival epoch, by R100 -/
def QMG.OVER_CONTRACT : Fld :=
  ⟨0x30, 0x0D0, 0, 64, 0, .ro, .datapath, .any, true⟩

/-- QMG 0x0D8, 0x0DC [31:0] SEAL_HELD_LO, _HI: Requests held by a line channel, by R100 -/
def QMG.SEAL_HELD : Fld :=
  ⟨0x30, 0x0D8, 0, 64, 0, .ro, .datapath, .any, true⟩

/-- QMG 0x400 [0] OVERSUB_EN: 1: accept oversubscription by R102; reset 0 -/
def QMG.OVERSUB_EN : Fld :=
  ⟨0x30, 0x400, 0, 1, 0, .rwe, .datapath, .any, false⟩

/-- QMG 0x408 [6:0] FL_SHARE_PCT: Flash share for D_FL, 10 to 80; reset 50. Values outside the range are treated as the nearest bound -/
def QMG.FL_SHARE_PCT : Fld :=
  ⟨0x30, 0x408, 0, 7, 50, .rwe, .datapath, (.clamp 10 80), false⟩

/-- WIN 0x020 [17:0] WIN_SEL: Window shown in DESC; reset 0 -/
def WIN.WIN_SEL : Fld :=
  ⟨0x31, 0x020, 0, 18, 0, .rw, .datapath, .any, false⟩

/-- WIN 0x024 [11:0] DOM_SEL: Domain shown in DOM; reset 0 -/
def WIN.DOM_SEL : Fld :=
  ⟨0x31, 0x024, 0, 12, 0, .rw, .datapath, .any, false⟩

/-- WIN 0x028 [3:0] WLB_PIPE_SEL: Pipeline whose WLB counters are shown -/
def WIN.WLB_PIPE_SEL : Fld :=
  ⟨0x31, 0x028, 0, 4, 0, .rw, .datapath, .any, false⟩

/-- WIN 0x02C [18:0] WINDOWS_USED: Windows not FREE, 0 to 262,144 -/
def WIN.WINDOWS_USED : Fld :=
  ⟨0x31, 0x02C, 0, 19, 0, .ro, .datapath, .any, false⟩

/-- WIN 0x030 [12:0] DOMAINS_USED: Domains not FREE -/
def WIN.DOMAINS_USED : Fld :=
  ⟨0x31, 0x030, 0, 13, 0, .ro, .datapath, .any, false⟩

/-- WIN 0x040 … 0x07C [31:0] DESC_0 … DESC_15: Descriptor of window WIN_SEL by R113, word n at offset 4n -/
def WIN.DESC (i : Nat) : Fld :=
  ⟨0x31, (0x040 + 0x4 * i), 0, 32, 0, .ro, .datapath, .any, false⟩

/-- WIN 0x080 … 0x09C [31:0] DOM_0 … DOM_7: Descriptor of domain DOM_SEL by R111 -/
def WIN.DOM (i : Nat) : Fld :=
  ⟨0x31, (0x080 + 0x4 * i), 0, 32, 0, .ro, .datapath, .any, false⟩

/-- WIN 0x0A0, 0x0A4 [31:0] WLB_HIT_LO, _HI: Hits in the selected pipeline -/
def WIN.WLB_HIT : Fld :=
  ⟨0x31, 0x0A0, 0, 64, 0, .ro, .datapath, .any, true⟩

/-- WIN 0x0A8, 0x0AC [31:0] WLB_MISS_LO, _HI: Misses -/
def WIN.WLB_MISS : Fld :=
  ⟨0x31, 0x0A8, 0, 64, 0, .ro, .datapath, .any, true⟩

/-- WIN 0x0B0, 0x0B4 [31:0] PF_USED_LO, _HI: Side-buffer entries moved into the WLB -/
def WIN.PF_USED : Fld :=
  ⟨0x31, 0x0B0, 0, 64, 0, .ro, .datapath, .any, true⟩

/-- WIN 0x0B8, 0x0BC [31:0] VIOL_LO, _HI: ACCESS_VIOLATION at step 11 -/
def WIN.VIOL : Fld :=
  ⟨0x31, 0x0B8, 0, 64, 0, .ro, .datapath, .any, true⟩

/-- WIN 0x0C0, 0x0C4 [31:0] VIOL_SUPPRESSED_LO, _HI: Reports suppressed by R122 -/
def WIN.VIOL_SUPPRESSED : Fld :=
  ⟨0x31, 0x0C0, 0, 64, 0, .ro, .datapath, .any, true⟩

/-- WIN 0x400 [0] SINGLE_EN: 1: OPEN may set DUPLEX = 1; reset 0 -/
def WIN.SINGLE_EN : Fld :=
  ⟨0x31, 0x400, 0, 1, 0, .rwe, .datapath, .any, false⟩

/-- WIN 0x404 [0] PF_NEXT_ONLY: 1: next-line prefetch in every state; reset 0 -/
def WIN.PF_NEXT_ONLY : Fld :=
  ⟨0x31, 0x404, 0, 1, 0, .rwe, .datapath, .any, false⟩

/-- CMT 0x024 [2:0] TWIN_STATE: 0 START, 1 PAIRED, 2 ALONE, 3 RETURNING; others reserved -/
def CMT.TWIN_STATE : Fld :=
  ⟨0x32, 0x024, 0, 3, 0, .ro, .datapath, .any, false⟩

/-- CMT 0x024 [3] DIVERGED: Set by R138; cleared on PAIRED -/
def CMT.DIVERGED : Fld :=
  ⟨0x32, 0x024, 3, 1, 0, .ro, .datapath, .any, false⟩

/-- CMT 0x024 [4] REHOME_SRC: Sending a re-homing -/
def CMT.REHOME_SRC : Fld :=
  ⟨0x32, 0x024, 4, 1, 0, .ro, .datapath, .any, false⟩

/-- CMT 0x028 [31:0] CLAIM: Claim in force; reloaded from the claim log -/
def CMT.CLAIM : Fld :=
  ⟨0x32, 0x028, 0, 32, 0, .ro, .datapath, .any, false⟩

/-- CMT 0x02C [31:0] PEER_CLAIM: Claim in the last tally or RESUME received; 0 if none -/
def CMT.PEER_CLAIM : Fld :=
  ⟨0x32, 0x02C, 0, 32, 0, .ro, .datapath, .any, false⟩

/-- CMT 0x030, 0x034 [31:0] COMMITTED_LO, _HI: Last committed epoch -/
def CMT.COMMITTED : Fld :=
  ⟨0x32, 0x030, 0, 64, 0, .ro, .datapath, .any, true⟩

/-- CMT 0x038, 0x03C [31:0] PLACED_LO, _HI: PLACED_EPOCH by R136 -/
def CMT.PLACED : Fld :=
  ⟨0x32, 0x038, 0, 64, 0, .ro, .datapath, .any, true⟩

/-- CMT 0x040, 0x044 [31:0] HASH_LO, _HI: H after COMMITTED -/
def CMT.HASH : Fld :=
  ⟨0x32, 0x040, 0, 64, 0, .ro, .datapath, .any, true⟩

/-- CMT 0x048 [25:0] STAGED_BYTES: Staging SRAM in use -/
def CMT.STAGED_BYTES : Fld :=
  ⟨0x32, 0x048, 0, 26, 0, .ro, .datapath, .any, false⟩

/-- CMT 0x050, 0x054 [31:0] TALLY_LATE_LO, _HI: Late tallies -/
def CMT.TALLY_LATE : Fld :=
  ⟨0x32, 0x050, 0, 64, 0, .ro, .datapath, .any, true⟩

/-- CMT 0x058, 0x05C [31:0] REPAIRED_LO, _HI: Keys received by repair -/
def CMT.REPAIRED : Fld :=
  ⟨0x32, 0x058, 0, 64, 0, .ro, .datapath, .any, true⟩

/-- CMT 0x060, 0x064 [31:0] DROPPED_LO, _HI: Keys dropped by R144 -/
def CMT.DROPPED : Fld :=
  ⟨0x32, 0x060, 0, 64, 0, .ro, .datapath, .any, true⟩

/-- CMT 0x068 [31:0] REHOME_DONE_MIB: Re-homing progress -/
def CMT.REHOME_DONE_MIB : Fld :=
  ⟨0x32, 0x068, 0, 32, 0, .ro, .datapath, .any, false⟩

/-- CMT 0x06C [31:0] REHOME_TOTAL_MIB: Re-homing size -/
def CMT.REHOME_TOTAL_MIB : Fld :=
  ⟨0x32, 0x06C, 0, 32, 0, .ro, .datapath, .any, false⟩

/-- CMT 0x400 [7:0] PAIR_TMO: Seconds for R147, 1 to 255; reset 30; 0 is treated as 1 -/
def CMT.PAIR_TMO : Fld :=
  ⟨0x32, 0x400, 0, 8, 30, .rwe, .datapath, (.clamp 1 255), false⟩

/-- CMT 0x404 [0] FORCE_FRESH: 1: count the device as fresh by R148 while it is in START without a valid restore; reset 0 -/
def CMT.FORCE_FRESH : Fld :=
  ⟨0x32, 0x404, 0, 1, 0, .rwe, .datapath, .any, false⟩

/-- ADT 0x020 [0] SEAL_EN: Sealed frames by R154; reset 1 -/
def ADT.SEAL_EN : Fld :=
  ⟨0x33, 0x020, 0, 1, 1, .rw, .datapath, .any, false⟩

/-- ADT 0x024 [15:0] LANE_OK: Per-lane lock -/
def ADT.LANE_OK : Fld :=
  ⟨0x33, 0x024, 0, 16, 0, .ro, .datapath, .any, false⟩

/-- ADT 0x024 [16] ALIGNED: Alignment by R151 -/
def ADT.ALIGNED : Fld :=
  ⟨0x33, 0x024, 16, 1, 0, .ro, .datapath, .any, false⟩

/-- ADT 0x024 [17] LINK_UP: Aligned, and keys present when SEAL_EN is 1 -/
def ADT.LINK_UP : Fld :=
  ⟨0x33, 0x024, 17, 1, 0, .ro, .datapath, .any, false⟩

/-- ADT 0x024 [18] KEY_WAIT: Sealing keys missing -/
def ADT.KEY_WAIT : Fld :=
  ⟨0x33, 0x024, 18, 1, 1, .ro, .datapath, .any, false⟩

/-- ADT 0x028 [31:0] SEAL_TX_KEY: Key instance for frames sent -/
def ADT.SEAL_TX_KEY : Fld :=
  ⟨0x33, 0x028, 0, 32, 0, .rw, .datapath, .any, false⟩

/-- ADT 0x02C [31:0] SEAL_RX_KEY: Key instance for frames received -/
def ADT.SEAL_RX_KEY : Fld :=
  ⟨0x33, 0x02C, 0, 32, 0, .rw, .datapath, .any, false⟩

/-- ADT counter TX_FRAMES at 0x040 (LO, then HI). -/
def ADT.TX_FRAMES : Fld :=
  ⟨0x33, 0x040, 0, 64, 0, .ro, .datapath, .any, true⟩

/-- ADT counter RX_FRAMES at 0x048 (LO, then HI). -/
def ADT.RX_FRAMES : Fld :=
  ⟨0x33, 0x048, 0, 64, 0, .ro, .datapath, .any, true⟩

/-- ADT counter RX_DROP at 0x050 (LO, then HI). -/
def ADT.RX_DROP : Fld :=
  ⟨0x33, 0x050, 0, 64, 0, .ro, .datapath, .any, true⟩

/-- ADT counter RESEND_TX at 0x058 (LO, then HI). -/
def ADT.RESEND_TX : Fld :=
  ⟨0x33, 0x058, 0, 64, 0, .ro, .datapath, .any, true⟩

/-- ADT counter RESEND_RX at 0x060 (LO, then HI). -/
def ADT.RESEND_RX : Fld :=
  ⟨0x33, 0x060, 0, 64, 0, .ro, .datapath, .any, true⟩

/-- ADT counter FEC_CORR at 0x068 (LO, then HI). -/
def ADT.FEC_CORR : Fld :=
  ⟨0x33, 0x068, 0, 64, 0, .ro, .datapath, .any, true⟩

/-- ADT counter FEC_UNCORR at 0x070 (LO, then HI). -/
def ADT.FEC_UNCORR : Fld :=
  ⟨0x33, 0x070, 0, 64, 0, .ro, .datapath, .any, true⟩

/-- ADT counter MARKER_MISS at 0x078 (LO, then HI). -/
def ADT.MARKER_MISS : Fld :=
  ⟨0x33, 0x078, 0, 64, 0, .ro, .datapath, .any, true⟩

/-- ADT 0x400 [1:0] LOOPBACK: 0 off, 1 near-end PCS, 2 far-end PMA; 3 reserved -/
def ADT.LOOPBACK : Fld :=
  ⟨0x33, 0x400, 0, 2, 0, .rwe, .datapath, (.ignore 0 2), false⟩

/-- GNG 0x020 [1:0] SIZE: Members minus 1; reset 0. A write while the page is enabled is ignored -/
def GNG.SIZE : Fld :=
  ⟨0x37, 0x020, 0, 2, 0, .rw, .datapath, .any, false⟩

/-- GNG 0x020 [8] FWD_EN: Forwarding by R165 and R166; reset 1 -/
def GNG.FWD_EN : Fld :=
  ⟨0x37, 0x020, 8, 1, 1, .rw, .datapath, .any, false⟩

/-- GNG 0x024 [1:0] POS: Gang position by R158 -/
def GNG.POS : Fld :=
  ⟨0x37, 0x024, 0, 2, 0, .ro, .datapath, .any, false⟩

/-- GNG 0x024 [2] FORMED: Gang formed by R160 -/
def GNG.FORMED : Fld :=
  ⟨0x37, 0x024, 2, 1, 0, .ro, .datapath, .any, false⟩

/-- GNG 0x024 [5:3] LINKS_UP: Per drift link -/
def GNG.LINKS_UP : Fld :=
  ⟨0x37, 0x024, 3, 3, 0, .ro, .datapath, .any, false⟩

/-- GNG 0x028 [15:0] DEV_ID: Own device ID -/
def GNG.DEV_ID : Fld :=
  ⟨0x37, 0x028, 0, 16, 0, .rw, .datapath, .any, false⟩

/-- GNG 0x028 [31:16] TWIN_DEV_ID: Twin's device ID -/
def GNG.TWIN_DEV_ID : Fld :=
  ⟨0x37, 0x028, 16, 16, 0, .rw, .datapath, .any, false⟩

/-- GNG 0x02C … 0x038 [31:0] MEMBER_0 … MEMBER_3: Member p: ID [15:0], twin ID [31:16]; 0 if absent -/
def GNG.MEMBER (i : Nat) : Fld :=
  ⟨0x37, (0x02C + 0x4 * i), 0, 32, 0, .ro, .datapath, .any, false⟩

/-- GNG 0x040 [31:0] SPAN_GIB: By R163 -/
def GNG.SPAN_GIB : Fld :=
  ⟨0x37, 0x040, 0, 32, 0, .ro, .datapath, .any, false⟩

/-- GNG 0x400 [9:0] GUARD_NS: Guard by R169, 50 to 1,000; reset 200. Values outside the range are treated as the nearest bound -/
def GNG.GUARD_NS : Fld :=
  ⟨0x37, 0x400, 0, 10, 200, .rwe, .datapath, (.clamp 50 1000), false⟩

/-- DFT 0x020 [0] LINK_EN: Link enabled; reset 1 -/
def DFT.LINK_EN (n : Nat) : Fld :=
  ⟨(0x34 + n), 0x020, 0, 1, 1, .rw, .datapath, .any, false⟩

/-- DFT 0x024 [15:0] LANE_OK: Per-lane lock -/
def DFT.LANE_OK (n : Nat) : Fld :=
  ⟨(0x34 + n), 0x024, 0, 16, 0, .ro, .datapath, .any, false⟩

/-- DFT 0x024 [16] ALIGNED: Alignment by R151 -/
def DFT.ALIGNED (n : Nat) : Fld :=
  ⟨(0x34 + n), 0x024, 16, 1, 0, .ro, .datapath, .any, false⟩

/-- DFT 0x024 [17] LINK_UP: Link up -/
def DFT.LINK_UP (n : Nat) : Fld :=
  ⟨(0x34 + n), 0x024, 17, 1, 0, .ro, .datapath, .any, false⟩

/-- DFT 0x024 [19:18] PEER_POS: Peer's gang position -/
def DFT.PEER_POS (n : Nat) : Fld :=
  ⟨(0x34 + n), 0x024, 18, 2, 0, .ro, .datapath, .any, false⟩

/-- DFT 0x028 [31:0] DELAY: One-way delay in core cycles -/
def DFT.DELAY (n : Nat) : Fld :=
  ⟨(0x34 + n), 0x028, 0, 32, 0, .ro, .datapath, .any, false⟩

/-- DFT counter TX_FRAMES at 0x040 (LO, then HI). -/
def DFT.TX_FRAMES (n : Nat) : Fld :=
  ⟨(0x34 + n), 0x040, 0, 64, 0, .ro, .datapath, .any, true⟩

/-- DFT counter RX_FRAMES at 0x048 (LO, then HI). -/
def DFT.RX_FRAMES (n : Nat) : Fld :=
  ⟨(0x34 + n), 0x048, 0, 64, 0, .ro, .datapath, .any, true⟩

/-- DFT counter RX_DROP at 0x050 (LO, then HI). -/
def DFT.RX_DROP (n : Nat) : Fld :=
  ⟨(0x34 + n), 0x050, 0, 64, 0, .ro, .datapath, .any, true⟩

/-- DFT counter FWD_BYTES_TX at 0x058 (LO, then HI). -/
def DFT.FWD_BYTES_TX (n : Nat) : Fld :=
  ⟨(0x34 + n), 0x058, 0, 64, 0, .ro, .datapath, .any, true⟩

/-- DFT counter FWD_BYTES_RX at 0x060 (LO, then HI). -/
def DFT.FWD_BYTES_RX (n : Nat) : Fld :=
  ⟨(0x34 + n), 0x060, 0, 64, 0, .ro, .datapath, .any, true⟩

/-- DFT counter FEC_CORR at 0x068 (LO, then HI). -/
def DFT.FEC_CORR (n : Nat) : Fld :=
  ⟨(0x34 + n), 0x068, 0, 64, 0, .ro, .datapath, .any, true⟩

/-- DFT counter FEC_UNCORR at 0x070 (LO, then HI). -/
def DFT.FEC_UNCORR (n : Nat) : Fld :=
  ⟨(0x34 + n), 0x070, 0, 64, 0, .ro, .datapath, .any, true⟩

/-- DFT counter MARKER_MISS at 0x078 (LO, then HI). -/
def DFT.MARKER_MISS (n : Nat) : Fld :=
  ⟨(0x34 + n), 0x078, 0, 64, 0, .ro, .datapath, .any, true⟩

/-- DFT 0x400 [1:0] LOOPBACK: 0 off, 1 near-end PCS, 2 far-end PMA; 3 reserved -/
def DFT.LOOPBACK (n : Nat) : Fld :=
  ⟨(0x34 + n), 0x400, 0, 2, 0, .rwe, .datapath, (.ignore 0 2), false⟩

/-- TIR 0x020 [0] PROMOTE_EN: Promotion by reads; reset 1 -/
def TIR.PROMOTE_EN : Fld :=
  ⟨0x38, 0x020, 0, 1, 1, .rw, .datapath, .any, false⟩

/-- TIR 0x020 [1] DEMOTE_EN: Demotion by R181; reset 1. With 0, only R176 demotes -/
def TIR.DEMOTE_EN : Fld :=
  ⟨0x38, 0x020, 1, 1, 1, .rw, .datapath, .any, false⟩

/-- TIR 0x024 [15:0] MOVES_ACTIVE: Moves past START -/
def TIR.MOVES_ACTIVE : Fld :=
  ⟨0x38, 0x024, 0, 16, 0, .ro, .datapath, .any, false⟩

/-- TIR 0x028 [31:0] HOT_MIB: Hot frames in use, in MiB -/
def TIR.HOT_MIB : Fld :=
  ⟨0x38, 0x028, 0, 32, 0, .ro, .datapath, .any, false⟩

/-- TIR 0x02C [31:0] WARM_MIB: Warm frames in use, in MiB -/
def TIR.WARM_MIB : Fld :=
  ⟨0x38, 0x02C, 0, 32, 0, .ro, .datapath, .any, false⟩

/-- TIR 0x030 [31:0] FLASH_GIB: FLASH extents, in GiB -/
def TIR.FLASH_GIB : Fld :=
  ⟨0x38, 0x030, 0, 32, 0, .ro, .datapath, .any, false⟩

/-- TIR 0x034 [31:0] VOL_MIB: V by R184, in MiB -/
def TIR.VOL_MIB : Fld :=
  ⟨0x38, 0x034, 0, 32, 0, .ro, .datapath, .any, false⟩

/-- TIR 0x038 [11:0] DOM_SEL: Domain shown in the book registers; reset 0 -/
def TIR.DOM_SEL : Fld :=
  ⟨0x38, 0x038, 0, 12, 0, .rw, .datapath, .any, false⟩

/-- TIR 0x03C … 0x044 [31:0] BOOK_HOT, BOOK_WARM, BOOK_FLASH: Tier books of DOM_SEL by R182, in MiB -/
def TIR.BOOK_HOT : Fld :=
  ⟨0x38, 0x03C, 0, 32, 0, .ro, .datapath, .any, false⟩

/-- TIR 0x03C … 0x044 [31:0] BOOK_HOT, BOOK_WARM, BOOK_FLASH: Tier books of DOM_SEL by R182, in MiB -/
def TIR.BOOK_WARM : Fld :=
  ⟨0x38, 0x040, 0, 32, 0, .ro, .datapath, .any, false⟩

/-- TIR 0x03C … 0x044 [31:0] BOOK_HOT, BOOK_WARM, BOOK_FLASH: Tier books of DOM_SEL by R182, in MiB -/
def TIR.BOOK_FLASH : Fld :=
  ⟨0x38, 0x044, 0, 32, 0, .ro, .datapath, .any, false⟩

/-- TIR 0x048 [31:0] OWNED_MIB: Owned extents of DOM_SEL by R183, in MiB -/
def TIR.OWNED_MIB : Fld :=
  ⟨0x38, 0x048, 0, 32, 0, .ro, .datapath, .any, false⟩

/-- TIR counter PROMOTIONS at 0x050 (LO, then HI). -/
def TIR.PROMOTIONS : Fld :=
  ⟨0x38, 0x050, 0, 64, 0, .ro, .datapath, .any, true⟩

/-- TIR counter DEMOTE_HOT_WARM at 0x058 (LO, then HI). -/
def TIR.DEMOTE_HOT_WARM : Fld :=
  ⟨0x38, 0x058, 0, 64, 0, .ro, .datapath, .any, true⟩

/-- TIR counter DEMOTE_FLASH at 0x060 (LO, then HI). -/
def TIR.DEMOTE_FLASH : Fld :=
  ⟨0x38, 0x060, 0, 64, 0, .ro, .datapath, .any, true⟩

/-- TIR counter ABANDONED at 0x068 (LO, then HI). -/
def TIR.ABANDONED : Fld :=
  ⟨0x38, 0x068, 0, 64, 0, .ro, .datapath, .any, true⟩

/-- TIR counter READS_UNPROMOTED at 0x070 (LO, then HI). -/
def TIR.READS_UNPROMOTED : Fld :=
  ⟨0x38, 0x070, 0, 64, 0, .ro, .datapath, .any, true⟩

/-- TIR counter PLACE_WAIT at 0x078 (LO, then HI). -/
def TIR.PLACE_WAIT : Fld :=
  ⟨0x38, 0x078, 0, 64, 0, .ro, .datapath, .any, true⟩

/-- TIR 0x400 [6:0] HOT_HI_PCT: Reset 95 -/
def TIR.HOT_HI_PCT : Fld :=
  ⟨0x38, 0x400, 0, 7, 95, .rwe, .datapath, (.ignore 50 99), false⟩

/-- TIR 0x404 [6:0] HOT_LO_PCT: Reset 90 -/
def TIR.HOT_LO_PCT : Fld :=
  ⟨0x38, 0x404, 0, 7, 90, .rwe, .datapath, (.ignore 50 99), false⟩

/-- TIR 0x408 [6:0] VHC_HI_PCT: Reset 97 -/
def TIR.VHC_HI_PCT : Fld :=
  ⟨0x38, 0x408, 0, 7, 97, .rwe, .datapath, (.ignore 50 99), false⟩

/-- TIR 0x40C [6:0] VHC_LO_PCT: Reset 93 -/
def TIR.VHC_LO_PCT : Fld :=
  ⟨0x38, 0x40C, 0, 7, 93, .rwe, .datapath, (.ignore 50 99), false⟩

/-- MUS 0x020 [0] PFAIL_EN: Trigger 1; reset 1 -/
def MUS.PFAIL_EN : Fld :=
  ⟨0x39, 0x020, 0, 1, 1, .rw, .supervisor, .any, false⟩

/-- MUS 0x020 [1] BI_EN: Trigger 2; reset 1 -/
def MUS.BI_EN : Fld :=
  ⟨0x39, 0x020, 1, 1, 1, .rw, .supervisor, .any, false⟩

/-- MUS 0x024 [2:0] STATE: 0 UNREADY, 1 ARMED, 2 MUSTERING, 3 MUSTERED, 4 RESTORING; others reserved -/
def MUS.STATE : Fld :=
  ⟨0x39, 0x024, 0, 3, 0, .ro, .datapath, .any, false⟩

/-- MUS 0x024 [3] DECL_LOCKED: Declaration taken by R185 -/
def MUS.DECL_LOCKED : Fld :=
  ⟨0x39, 0x024, 3, 1, 0, .ro, .supervisor, .any, false⟩

/-- MUS 0x024 [4] AREA_NEXT: Area of the next muster -/
def MUS.AREA_NEXT : Fld :=
  ⟨0x39, 0x024, 4, 1, 0, .ro, .datapath, .any, false⟩

/-- MUS 0x024 [5] AREA_READY: AREA_NEXT wholly erased -/
def MUS.AREA_READY : Fld :=
  ⟨0x39, 0x024, 5, 1, 0, .ro, .datapath, .any, false⟩

/-- MUS 0x024 [6] VHC_SHORT: V above VHC_EFF by R186 -/
def MUS.VHC_SHORT : Fld :=
  ⟨0x39, 0x024, 6, 1, 0, .ro, .datapath, .any, false⟩

/-- MUS 0x024 [7] RESTORE_VALID: Last restore valid by R196 -/
def MUS.RESTORE_VALID : Fld :=
  ⟨0x39, 0x024, 7, 1, 0, .ro, .datapath, .any, false⟩

/-- MUS 0x024 [14:8] LAST_CAUSES: One bit per cause code 1 to 6 and 7 (bit 14) reserved, for the last muster -/
def MUS.LAST_CAUSES : Fld :=
  ⟨0x39, 0x024, 8, 7, 0, .ro, .datapath, .any, false⟩

/-- MUS 0x028 [15:0] DECL_J: Declared energy in joules, written by R185 -/
def MUS.DECL_J : Fld :=
  ⟨0x39, 0x028, 0, 16, 0, .rw, .supervisor, .any, false⟩

/-- MUS 0x02C [15:0] VHC_MAX: GiB by R186 -/
def MUS.VHC_MAX : Fld :=
  ⟨0x39, 0x02C, 0, 16, 0, .ro, .datapath, .any, false⟩

/-- MUS 0x030 [15:0] VHC: GiB; lowered only, by R186; reset: the value of VHC_MAX -/
def MUS.VHC : Fld :=
  ⟨0x39, 0x030, 0, 16, 0, .rw, .datapath, .any, false⟩

/-- MUS 0x034 [15:0] VHC_EFF: GiB by R186 -/
def MUS.VHC_EFF : Fld :=
  ⟨0x39, 0x034, 0, 16, 0, .ro, .datapath, .any, false⟩

/-- MUS 0x038 [4:0] BI_CH: Board-input sense channel, SCN_CH_0 … SCN_CH_30; reset 0 -/
def MUS.BI_CH : Fld :=
  ⟨0x39, 0x038, 0, 5, 0, .rw, .supervisor, .any, false⟩

/-- MUS 0x03C [13:0] BI_MIN: Brown-out threshold as a 14-bit code; reset 0 -/
def MUS.BI_MIN : Fld :=
  ⟨0x39, 0x03C, 0, 14, 0, .rw, .supervisor, .any, false⟩

/-- MUS 0x040 [31:0] LAST_SERIAL: SERIAL of the last record made or restored -/
def MUS.LAST_SERIAL : Fld :=
  ⟨0x39, 0x040, 0, 32, 0, .ro, .datapath, .any, false⟩

/-- MUS 0x044 [31:0] LAST_MUSTER_US: DURATION_US of the last muster -/
def MUS.LAST_MUSTER_US : Fld :=
  ⟨0x39, 0x044, 0, 32, 0, .ro, .datapath, .any, false⟩

/-- MUS 0x048 [31:0] LAST_RESTORE_MS: Duration of the last restore -/
def MUS.LAST_RESTORE_MS : Fld :=
  ⟨0x39, 0x048, 0, 32, 0, .ro, .datapath, .any, false⟩

/-- MUS 0x04C [31:0] MUSTERS: Musters since power-on; saturates -/
def MUS.MUSTERS : Fld :=
  ⟨0x39, 0x04C, 0, 32, 0, .ro, .supervisor, .any, false⟩

/-- MUS 0x050 [0] ARM: 1: leave UNREADY by R200; ignored in any other state -/
def MUS.ARM : Fld :=
  ⟨0x39, 0x050, 0, 1, 0, .wo, .datapath, .any, false⟩

/-- MUS 0x054 [31:0] MR_MBS: MR of R186, in MB/s -/
def MUS.MR_MBS : Fld :=
  ⟨0x39, 0x054, 0, 32, 0, .ro, .datapath, .any, false⟩

/-- MUS 0x400 [8:0] AREA_GIB: User bytes per muster area, 16 to 320 GiB; reset 288. Writes outside STATE UNREADY or outside the range are ignored -/
def MUS.AREA_GIB : Fld :=
  ⟨0x39, 0x400, 0, 9, 288, .rwe, .datapath, (.ignore 16 320), false⟩

/-- STK 0x020 [0] DRAIN: Drain by R226; reset 0 -/
def STK.DRAIN (n : Nat) : Fld :=
  ⟨(0x40 + n), 0x020, 0, 1, 0, .rw, .datapath, .any, false⟩

/-- STK 0x024 [0] IN_SERVICE: Stack in service -/
def STK.IN_SERVICE (n : Nat) : Fld :=
  ⟨(0x40 + n), 0x024, 0, 1, 0, .ro, .datapath, .any, false⟩

/-- STK 0x024 [1] DRAINED: By R226 -/
def STK.DRAINED (n : Nat) : Fld :=
  ⟨(0x40 + n), 0x024, 1, 1, 0, .ro, .datapath, .any, false⟩

/-- STK 0x024 [2] REF_X2: Doubled interval by R217 -/
def STK.REF_X2 (n : Nat) : Fld :=
  ⟨(0x40 + n), 0x024, 2, 1, 0, .ro, .datapath, .any, false⟩

/-- STK 0x024 [3] TRAINED: Bring-up training done by R223 -/
def STK.TRAINED (n : Nat) : Fld :=
  ⟨(0x40 + n), 0x024, 3, 1, 0, .ro, .datapath, .any, false⟩

/-- STK 0x024 [17:4] SLICE_FAILED: Bit 4 + j: slice j marked failed by R210 -/
def STK.SLICE_FAILED (n : Nat) : Fld :=
  ⟨(0x40 + n), 0x024, 4, 14, 0, .ro, .datapath, .any, false⟩

/-- STK 0x028 [7:0] TEMP_C: Stack sensor, °C, read every 1 ms -/
def STK.TEMP_C (n : Nat) : Fld :=
  ⟨(0x40 + n), 0x028, 0, 8, 0, .ro, .datapath, .any, false⟩

/-- STK counter CORR at 0x040 (LO, then HI). -/
def STK.CORR (n : Nat) : Fld :=
  ⟨(0x40 + n), 0x040, 0, 64, 0, .ro, .datapath, .any, true⟩

/-- STK counter UNCORR at 0x048 (LO, then HI). -/
def STK.UNCORR (n : Nat) : Fld :=
  ⟨(0x40 + n), 0x048, 0, 64, 0, .ro, .datapath, .any, true⟩

/-- STK counter CA_PARITY at 0x050 (LO, then HI). -/
def STK.CA_PARITY (n : Nat) : Fld :=
  ⟨(0x40 + n), 0x050, 0, 64, 0, .ro, .datapath, .any, true⟩

/-- STK counter REF_POSTPONED at 0x058 (LO, then HI). -/
def STK.REF_POSTPONED (n : Nat) : Fld :=
  ⟨(0x40 + n), 0x058, 0, 64, 0, .ro, .datapath, .any, true⟩

/-- STK 0x080 + 4j [31:0] SLICE_CORR_j: Corrections of slice j, j = 0 to 13, in the current scrub pass; saturates -/
def STK.SLICE_CORR (n : Nat) (i : Nat) : Fld :=
  ⟨(0x40 + n), (0x080 + 0x4 * i), 0, 32, 0, .ro, .datapath, .any, false⟩

/-- STK 0x400 [0] FORCE_X2: 1: doubled interval at all temperatures; reset 0 -/
def STK.FORCE_X2 (n : Nat) : Fld :=
  ⟨(0x40 + n), 0x400, 0, 1, 0, .rwe, .datapath, .any, false⟩

/-- DCH 0x020 [1:0] FSP: Set point by R225; reset 0 -/
def DCH.FSP (n : Nat) : Fld :=
  ⟨(0x48 + n), 0x020, 0, 2, 0, .rw, .datapath, .any, false⟩

/-- DCH 0x020 [2] DRAIN: Drain by R226; reset 0 -/
def DCH.DRAIN (n : Nat) : Fld :=
  ⟨(0x48 + n), 0x020, 2, 1, 0, .rw, .datapath, .any, false⟩

/-- DCH 0x020 [5:4] RANK_EN: Populated ranks; reset 0b11. A write while the page is enabled is ignored -/
def DCH.RANK_EN (n : Nat) : Fld :=
  ⟨(0x48 + n), 0x020, 4, 2, 3, .rw, .datapath, .any, false⟩

/-- DCH 0x024 [0] IN_SERVICE: Channel in service -/
def DCH.IN_SERVICE (n : Nat) : Fld :=
  ⟨(0x48 + n), 0x024, 0, 1, 0, .ro, .datapath, .any, false⟩

/-- DCH 0x024 [1] DRAINED: By R226 -/
def DCH.DRAINED (n : Nat) : Fld :=
  ⟨(0x48 + n), 0x024, 1, 1, 0, .ro, .datapath, .any, false⟩

/-- DCH 0x024 [3:2] FSP_ACTIVE: Set point in use -/
def DCH.FSP_ACTIVE (n : Nat) : Fld :=
  ⟨(0x48 + n), 0x024, 2, 2, 0, .ro, .datapath, .any, false⟩

/-- DCH 0x024 [5:4] REF_X2: Doubled interval, per rank -/
def DCH.REF_X2 (n : Nat) : Fld :=
  ⟨(0x48 + n), 0x024, 4, 2, 0, .ro, .datapath, .any, false⟩

/-- DCH 0x024 [6] TRAINED: Bring-up training done at every set point -/
def DCH.TRAINED (n : Nat) : Fld :=
  ⟨(0x48 + n), 0x024, 6, 1, 0, .ro, .datapath, .any, false⟩

/-- DCH 0x024 [7] TEMP_OVER: By R217 -/
def DCH.TEMP_OVER (n : Nat) : Fld :=
  ⟨(0x48 + n), 0x024, 7, 1, 0, .ro, .datapath, .any, false⟩

/-- DCH 0x028 [27:0] DEV_FAILED: Bit 14r + j: device j of rank r marked failed -/
def DCH.DEV_FAILED (n : Nat) : Fld :=
  ⟨(0x48 + n), 0x028, 0, 28, 0, .ro, .datapath, .any, false⟩

/-- DCH counter CORR at 0x040 (LO, then HI). -/
def DCH.CORR (n : Nat) : Fld :=
  ⟨(0x48 + n), 0x040, 0, 64, 0, .ro, .datapath, .any, true⟩

/-- DCH counter UNCORR at 0x048 (LO, then HI). -/
def DCH.UNCORR (n : Nat) : Fld :=
  ⟨(0x48 + n), 0x048, 0, 64, 0, .ro, .datapath, .any, true⟩

/-- DCH counter CA_PARITY at 0x050 (LO, then HI). -/
def DCH.CA_PARITY (n : Nat) : Fld :=
  ⟨(0x48 + n), 0x050, 0, 64, 0, .ro, .datapath, .any, true⟩

/-- DCH counter FSP_FALLS at 0x058 (LO, then HI). -/
def DCH.FSP_FALLS (n : Nat) : Fld :=
  ⟨(0x48 + n), 0x058, 0, 64, 0, .ro, .datapath, .any, true⟩

/-- DCH counter REF_POSTPONED at 0x060 (LO, then HI). -/
def DCH.REF_POSTPONED (n : Nat) : Fld :=
  ⟨(0x48 + n), 0x060, 0, 64, 0, .ro, .datapath, .any, true⟩

/-- DCH counter MASKED_WRITES at 0x068 (LO, then HI). -/
def DCH.MASKED_WRITES (n : Nat) : Fld :=
  ⟨(0x48 + n), 0x068, 0, 64, 0, .ro, .datapath, .any, true⟩

/-- DCH 0x080 + 4k [31:0] DEV_CORR_k: Corrections of device k = 14r + j in the current scrub pass; saturates -/
def DCH.DEV_CORR (n : Nat) (i : Nat) : Fld :=
  ⟨(0x48 + n), (0x080 + 0x4 * i), 0, 32, 0, .ro, .datapath, .any, false⟩

/-- DCH 0x400 [0] DFE_EN: DFE at FSP_0; reset 1 -/
def DCH.DFE_EN (n : Nat) : Fld :=
  ⟨(0x48 + n), 0x400, 0, 1, 1, .rwe, .datapath, .any, false⟩

/-- DCH 0x404 [0] FORCE_X2: 1: doubled interval on both ranks; reset 0 -/
def DCH.FORCE_X2 (n : Nat) : Fld :=
  ⟨(0x48 + n), 0x404, 0, 1, 0, .rwe, .datapath, .any, false⟩

/-- CEL 0x020 [1:0] HOT_ORDER: Order by R216; reset 1 (RoCoBa) -/
def CEL.HOT_ORDER : Fld :=
  ⟨0x50, 0x020, 0, 2, 1, .rw, .datapath, .any, false⟩

/-- CEL 0x020 [5:2] HOT_GRAIN: Grain 2^(8 + value) bytes, 0 to 8; reset 2. Values above 8 are treated as 8 -/
def CEL.HOT_GRAIN : Fld :=
  ⟨0x50, 0x020, 2, 4, 2, .rw, .datapath, (.clamp 0 8), false⟩

/-- CEL 0x020 [7:6] HOT_WAYS: Ways 2^value; reset 0 -/
def CEL.HOT_WAYS : Fld :=
  ⟨0x50, 0x020, 6, 2, 0, .rw, .datapath, .any, false⟩

/-- CEL 0x020 [9:8] WARM_ORDER: Reset 1 -/
def CEL.WARM_ORDER : Fld :=
  ⟨0x50, 0x020, 8, 2, 1, .rw, .datapath, .any, false⟩

/-- CEL 0x020 [13:10] WARM_GRAIN: Reset 2 -/
def CEL.WARM_GRAIN : Fld :=
  ⟨0x50, 0x020, 10, 4, 2, .rw, .datapath, (.clamp 0 8), false⟩

/-- CEL 0x020 [15:14] WARM_WAYS: Reset 0 -/
def CEL.WARM_WAYS : Fld :=
  ⟨0x50, 0x020, 14, 2, 0, .rw, .datapath, .any, false⟩

/-- CEL 0x020 [16] UE_YIELD_EN: By R212; reset 1 -/
def CEL.UE_YIELD_EN : Fld :=
  ⟨0x50, 0x020, 16, 1, 1, .rw, .datapath, .any, false⟩

/-- CEL 0x024 [0] FILL_START: 1: fill by R214 -/
def CEL.FILL_START : Fld :=
  ⟨0x50, 0x024, 0, 1, 0, .wo, .datapath, .any, false⟩

/-- CEL 0x028 [0] FILL_BUSY: Fill running -/
def CEL.FILL_BUSY : Fld :=
  ⟨0x50, 0x028, 0, 1, 0, .ro, .datapath, .any, false⟩

/-- CEL 0x028 [1] FILL_DONE: Fill complete -/
def CEL.FILL_DONE : Fld :=
  ⟨0x50, 0x028, 1, 1, 0, .ro, .datapath, .any, false⟩

/-- CEL 0x028 [14:8] SCRUB_PCT: Progress of the scrub pass -/
def CEL.SCRUB_PCT : Fld :=
  ⟨0x50, 0x028, 8, 7, 0, .ro, .datapath, .any, false⟩

/-- CEL 0x02C [31:0] SCRUB_PASSES: Passes completed; saturates -/
def CEL.SCRUB_PASSES : Fld :=
  ⟨0x50, 0x02C, 0, 32, 0, .ro, .datapath, .any, false⟩

/-- CEL 0x030 [31:0] SCRUB_STRAY: Cells counted by R220; saturates -/
def CEL.SCRUB_STRAY : Fld :=
  ⟨0x50, 0x030, 0, 32, 0, .ro, .datapath, .any, false⟩

/-- CEL 0x034 [31:0] G_RD: By R221 -/
def CEL.G_RD : Fld :=
  ⟨0x50, 0x034, 0, 32, 0, .ro, .datapath, .any, false⟩

/-- CEL 0x038 [31:0] G_WR: By R221 -/
def CEL.G_WR : Fld :=
  ⟨0x50, 0x038, 0, 32, 0, .ro, .datapath, .any, false⟩

/-- CEL 0x03C [31:0] H: By R221 -/
def CEL.H : Fld :=
  ⟨0x50, 0x03C, 0, 32, 0, .ro, .datapath, .any, false⟩

/-- CEL 0x100 + 16k [31:0] USED_k: Bytes charged to port k in the last epoch, k = 0 to 21 -/
def CEL.USED (i : Nat) : Fld :=
  ⟨0x50, (0x100 + 0x10 * i), 0, 32, 0, .ro, .datapath, .any, false⟩

/-- CEL 0x104 + 16k [0] BEHIND_k: Port k behind by R222 -/
def CEL.BEHIND (i : Nat) : Fld :=
  ⟨0x50, (0x104 + 0x10 * i), 0, 1, 0, .ro, .datapath, .any, false⟩

/-- CEL 0x400 [6:0] EFF_PCT: By R221, 40 to 85; reset 70. Values outside the range are treated as the nearest bound -/
def CEL.EFF_PCT : Fld :=
  ⟨0x50, 0x400, 0, 7, 70, .rwe, .datapath, (.clamp 40 85), false⟩

/-- CEL 0x404 [6:0] HOST_RD_PCT: By R221, 10 to 90; reset 50. Values outside the range are treated as the nearest bound -/
def CEL.HOST_RD_PCT : Fld :=
  ⟨0x50, 0x404, 0, 7, 50, .rwe, .datapath, (.clamp 10 90), false⟩

/-- CEL 0x408 [15:0] FAIL_THR: Corrections per pass for R210; reset 1,024 -/
def CEL.FAIL_THR : Fld :=
  ⟨0x50, 0x408, 0, 16, 1024, .rwe, .datapath, .any, false⟩

/-- CEL 0x500 + 16k [31:0] RSV_k: Reservation of port k, k = 16 to 21, by R221 -/
def CEL.RSV (i : Nat) : Fld :=
  ⟨0x50, (0x500 + 0x10 * i), 0, 32, (if i = 16 then 2097152 else if i = 18 then 65536 else if i = 19 ∨ i = 20 then 2097152 else if i = 21 then 524288 else 0), .rwe, .datapath, .any, false⟩

/-- FCH 0x020 [4:0] DIES: Populated dies, 0 to 16, by R231; reset 0. Values above 16 are treated as 16. A write while the page is enabled is ignored -/
def FCH.DIES (n : Nat) : Fld :=
  ⟨(0x60 + n), 0x020, 0, 5, 0, .rw, .datapath, (.clamp 0 16), false⟩

/-- FCH 0x020 [10:8] RATE: 0: 3,600, 1: 3,200, 2: 2,400, 3: 1,600, 4: 800 MT/s; others reserved. A write while the page is enabled is ignored -/
def FCH.RATE (n : Nat) : Fld :=
  ⟨(0x60 + n), 0x020, 8, 3, 0, .rw, .datapath, (.ignore 0 4), false⟩

/-- FCH 0x024 [0] TRAINED: Interface trained at RATE -/
def FCH.TRAINED (n : Nat) : Fld :=
  ⟨(0x60 + n), 0x024, 0, 1, 0, .ro, .datapath, .any, false⟩

/-- FCH 0x024 [1] IN_SERVICE: Channel in service -/
def FCH.IN_SERVICE (n : Nat) : Fld :=
  ⟨(0x60 + n), 0x024, 1, 1, 0, .ro, .datapath, .any, false⟩

/-- FCH 0x028 [15:0] DIE_PRESENT: Bit k: local die k answered Read ID -/
def FCH.DIE_PRESENT (n : Nat) : Fld :=
  ⟨(0x60 + n), 0x028, 0, 16, 0, .ro, .datapath, .any, false⟩

/-- FCH 0x02C [15:0] DIE_FAILED: Bit k: die declared failed by *Parity across flash dies* -/
def FCH.DIE_FAILED (n : Nat) : Fld :=
  ⟨(0x60 + n), 0x02C, 0, 16, 0, .ro, .datapath, .any, false⟩

/-- FCH counter PAGE_READS at 0x040 (LO, then HI). -/
def FCH.PAGE_READS (n : Nat) : Fld :=
  ⟨(0x60 + n), 0x040, 0, 64, 0, .ro, .datapath, .any, true⟩

/-- FCH counter PAGE_PROGRAMS at 0x048 (LO, then HI). -/
def FCH.PAGE_PROGRAMS (n : Nat) : Fld :=
  ⟨(0x60 + n), 0x048, 0, 64, 0, .ro, .datapath, .any, true⟩

/-- FCH counter BLOCK_ERASES at 0x050 (LO, then HI). -/
def FCH.BLOCK_ERASES (n : Nat) : Fld :=
  ⟨(0x60 + n), 0x050, 0, 64, 0, .ro, .datapath, .any, true⟩

/-- FCH counter CORR_BITS at 0x058 (LO, then HI). -/
def FCH.CORR_BITS (n : Nat) : Fld :=
  ⟨(0x60 + n), 0x058, 0, 64, 0, .ro, .datapath, .any, true⟩

/-- FCH counter READ_RETRIES at 0x060 (LO, then HI). -/
def FCH.READ_RETRIES (n : Nat) : Fld :=
  ⟨(0x60 + n), 0x060, 0, 64, 0, .ro, .datapath, .any, true⟩

/-- FCH counter CW_UNCORR at 0x068 (LO, then HI). -/
def FCH.CW_UNCORR (n : Nat) : Fld :=
  ⟨(0x60 + n), 0x068, 0, 64, 0, .ro, .datapath, .any, true⟩

/-- FCH counter PROGRAM_FAIL at 0x070 (LO, then HI). -/
def FCH.PROGRAM_FAIL (n : Nat) : Fld :=
  ⟨(0x60 + n), 0x070, 0, 64, 0, .ro, .datapath, .any, true⟩

/-- FCH counter ERASE_FAIL at 0x078 (LO, then HI). -/
def FCH.ERASE_FAIL (n : Nat) : Fld :=
  ⟨(0x60 + n), 0x078, 0, 64, 0, .ro, .datapath, .any, true⟩

/-- FCH 0x400 [3:0] RETRY_MAX: Retry levels for R247, 1 to 15; reset 8; 0 is treated as 1 -/
def FCH.RETRY_MAX (n : Nat) : Fld :=
  ⟨(0x60 + n), 0x400, 0, 4, 8, .rwe, .datapath, (.clamp 1 15), false⟩

/-- FTL 0x020 [0] SLC_EN: SLC fills by R244; reset 1 -/
def FTL.SLC_EN : Fld :=
  ⟨0xA0, 0x020, 0, 1, 1, .rw, .datapath, .any, false⟩

/-- FTL 0x024 [19:0] PRES_LB: By R232 -/
def FTL.PRES_LB : Fld :=
  ⟨0xA0, 0x024, 0, 20, 0, .ro, .datapath, .any, false⟩

/-- FTL 0x028 [10:0] LOGS_FREE: Free logs -/
def FTL.LOGS_FREE : Fld :=
  ⟨0xA0, 0x028, 0, 11, 0, .ro, .datapath, .any, false⟩

/-- FTL 0x02C [16:0] SLC_USED: SLC superblocks holding data -/
def FTL.SLC_USED : Fld :=
  ⟨0xA0, 0x02C, 0, 17, 0, .ro, .datapath, .any, false⟩

/-- FTL 0x030 [16:0] SLC_TARGET: S_T by R244 -/
def FTL.SLC_TARGET : Fld :=
  ⟨0xA0, 0x030, 0, 17, 0, .ro, .datapath, .any, false⟩

/-- FTL 0x034 [23:0] FREE_BLOCKS: F by R244 -/
def FTL.FREE_BLOCKS : Fld :=
  ⟨0xA0, 0x034, 0, 24, 0, .ro, .datapath, .any, false⟩

/-- FTL 0x038 [23:0] RETIRED: Retired blocks -/
def FTL.RETIRED : Fld :=
  ⟨0xA0, 0x038, 0, 24, 0, .ro, .datapath, .any, false⟩

/-- FTL 0x03C [7:0] WEAR_MIN: Lowest wear class of a block not retired -/
def FTL.WEAR_MIN : Fld :=
  ⟨0xA0, 0x03C, 0, 8, 0, .ro, .datapath, .any, false⟩

/-- FTL 0x03C [15:8] WEAR_MAX: Highest wear class -/
def FTL.WEAR_MAX : Fld :=
  ⟨0xA0, 0x03C, 8, 8, 0, .ro, .datapath, .any, false⟩

/-- FTL counter USER_BYTES at 0x040 (LO, then HI). -/
def FTL.USER_BYTES : Fld :=
  ⟨0xA0, 0x040, 0, 64, 0, .ro, .datapath, .any, true⟩

/-- FTL counter PROG_BYTES at 0x048 (LO, then HI). -/
def FTL.PROG_BYTES : Fld :=
  ⟨0xA0, 0x048, 0, 64, 0, .ro, .datapath, .any, true⟩

/-- FTL counter SWITCH_MERGES at 0x050 (LO, then HI). -/
def FTL.SWITCH_MERGES : Fld :=
  ⟨0xA0, 0x050, 0, 64, 0, .ro, .datapath, .any, true⟩

/-- FTL counter PARTIAL_MERGES at 0x058 (LO, then HI). -/
def FTL.PARTIAL_MERGES : Fld :=
  ⟨0xA0, 0x058, 0, 64, 0, .ro, .datapath, .any, true⟩

/-- FTL counter FULL_MERGES at 0x060 (LO, then HI). -/
def FTL.FULL_MERGES : Fld :=
  ⟨0xA0, 0x060, 0, 64, 0, .ro, .datapath, .any, true⟩

/-- FTL counter FOLDS at 0x068 (LO, then HI). -/
def FTL.FOLDS : Fld :=
  ⟨0xA0, 0x068, 0, 64, 0, .ro, .datapath, .any, true⟩

/-- FTL 0x400 [7:0] LOG_RESERVE: By R238 and R239, 8 to 128; reset 32. Values outside the range are treated as the nearest bound -/
def FTL.LOG_RESERVE : Fld :=
  ⟨0xA0, 0x400, 0, 8, 32, .rwe, .datapath, (.clamp 8 128), false⟩

/-- FTL 0x404 [7:0] SLC_ENTER_MS: By R244, 1 to 255; reset 4; 0 is treated as 1 -/
def FTL.SLC_ENTER_MS : Fld :=
  ⟨0xA0, 0x404, 0, 8, 4, .rwe, .datapath, (.clamp 1 255), false⟩

/-- FTL 0x408 [3:0] ROW_HOLD_MS: By R238, 1 to 15; reset 5; 0 is treated as 1 -/
def FTL.ROW_HOLD_MS : Fld :=
  ⟨0xA0, 0x408, 0, 4, 5, .rwe, .datapath, (.clamp 1 15), false⟩

/-- FTL 0x40C [15:0] ENDURANCE: Erase count for WEAR_LIMIT by R242; reset 3,000 -/
def FTL.ENDURANCE : Fld :=
  ⟨0xA0, 0x40C, 0, 16, 3000, .rwe, .datapath, .any, false⟩

/-- PTL 0x020 [4:0] PERIOD_DAYS: Pass period, 1 to 30; reset 7. Values outside the range are treated as the nearest bound. A change re-paces the current pass -/
def PTL.PERIOD_DAYS : Fld :=
  ⟨0xA2, 0x020, 0, 5, 7, .rw, .datapath, (.clamp 1 30), false⟩

/-- PTL 0x024 [6:0] PASS_PCT: Progress by R246 -/
def PTL.PASS_PCT : Fld :=
  ⟨0xA2, 0x024, 0, 7, 0, .ro, .datapath, .any, false⟩

/-- PTL 0x024 [7] BEHIND: Behind by R222 -/
def PTL.BEHIND : Fld :=
  ⟨0xA2, 0x024, 7, 1, 0, .ro, .datapath, .any, false⟩

/-- PTL 0x028 [31:0] PASSES: Passes completed; saturates -/
def PTL.PASSES : Fld :=
  ⟨0xA2, 0x028, 0, 32, 0, .ro, .datapath, .any, false⟩

/-- PTL 0x02C [31:0] LAST_PASS_S: Duration of the last pass in seconds -/
def PTL.LAST_PASS_S : Fld :=
  ⟨0xA2, 0x02C, 0, 32, 0, .ro, .datapath, .any, false⟩

/-- PTL counter PAGES_READ at 0x040 (LO, then HI). -/
def PTL.PAGES_READ : Fld :=
  ⟨0xA2, 0x040, 0, 64, 0, .ro, .datapath, .any, true⟩

/-- PTL counter REFRESHES at 0x048 (LO, then HI). -/
def PTL.REFRESHES : Fld :=
  ⟨0xA2, 0x048, 0, 64, 0, .ro, .datapath, .any, true⟩

/-- PTL counter PARITY_MISMATCH at 0x050 (LO, then HI). -/
def PTL.PARITY_MISMATCH : Fld :=
  ⟨0xA2, 0x050, 0, 64, 0, .ro, .datapath, .any, true⟩

/-- PTL counter RETRY_PAGES at 0x058 (LO, then HI). -/
def PTL.RETRY_PAGES : Fld :=
  ⟨0xA2, 0x058, 0, 64, 0, .ro, .datapath, .any, true⟩

/-- PTL 0x400 [7:0] REFRESH_BITS: Corrected bits per codeword for R247, 8 to 120; reset 48. Values outside the range are treated as the nearest bound -/
def PTL.REFRESH_BITS : Fld :=
  ⟨0xA2, 0x400, 0, 8, 48, .rwe, .datapath, (.clamp 8 120), false⟩

/-- PAR 0x020 [0] REBUILD_EN: Rebuild by R259; reset 1 -/
def PAR.REBUILD_EN : Fld :=
  ⟨0xA1, 0x020, 0, 1, 1, .rw, .datapath, .any, false⟩

/-- PAR 0x024 [0] REBUILDING: Rebuild running -/
def PAR.REBUILDING : Fld :=
  ⟨0xA1, 0x024, 0, 1, 0, .ro, .datapath, .any, false⟩

/-- PAR 0x024 [1] RESHAPING: Reshape running -/
def PAR.RESHAPING : Fld :=
  ⟨0xA1, 0x024, 1, 1, 0, .ro, .datapath, .any, false⟩

/-- PAR 0x024 [2] REBUILD_STALL: By R261 -/
def PAR.REBUILD_STALL : Fld :=
  ⟨0xA1, 0x024, 2, 1, 0, .ro, .datapath, .any, false⟩

/-- PAR 0x024 [3] MA_DEGRADED: A muster stripe includes a failed die -/
def PAR.MA_DEGRADED : Fld :=
  ⟨0xA1, 0x024, 3, 1, 0, .ro, .datapath, .any, false⟩

/-- PAR 0x024 [4] LOST_FULL: By R260 -/
def PAR.LOST_FULL : Fld :=
  ⟨0xA1, 0x024, 4, 1, 0, .ro, .datapath, .any, false⟩

/-- PAR 0x028 [10:0] DIES_HEALTHY: Healthy populated dies -/
def PAR.DIES_HEALTHY : Fld :=
  ⟨0xA1, 0x028, 0, 11, 0, .ro, .datapath, .any, false⟩

/-- PAR 0x028 [26:16] DIES_FAILED: Dies on the failed-die list -/
def PAR.DIES_FAILED : Fld :=
  ⟨0xA1, 0x028, 16, 11, 0, .ro, .datapath, .any, false⟩

/-- PAR 0x02C [15:0] ROWS: Rows in the table -/
def PAR.ROWS : Fld :=
  ⟨0xA1, 0x02C, 0, 16, 0, .ro, .datapath, .any, false⟩

/-- PAR 0x02C [31:16] ROWS_OPEN: Open rows by R255 -/
def PAR.ROWS_OPEN : Fld :=
  ⟨0xA1, 0x02C, 16, 16, 0, .ro, .datapath, .any, false⟩

/-- PAR 0x030 [19:0] REBUILD_LEFT: Logical blocks left in the rebuild set -/
def PAR.REBUILD_LEFT : Fld :=
  ⟨0xA1, 0x030, 0, 20, 0, .ro, .datapath, .any, false⟩

/-- PAR 0x034 [19:0] RESHAPE_LB: Boundary by R268 -/
def PAR.RESHAPE_LB : Fld :=
  ⟨0xA1, 0x034, 0, 20, 0, .ro, .datapath, .any, false⟩

/-- PAR 0x038 [16:0] LOST_USED: Lost-list entries in use -/
def PAR.LOST_USED : Fld :=
  ⟨0xA1, 0x038, 0, 17, 0, .ro, .datapath, .any, false⟩

/-- PAR 0x03C [15:0] LAYOUT_SEL: Row shown in LAYOUT; reset 0 -/
def PAR.LAYOUT_SEL : Fld :=
  ⟨0xA1, 0x03C, 0, 16, 0, .rw, .datapath, .any, false⟩

/-- PAR 0x040 … 0x060 [31:0] LAYOUT_0 … LAYOUT_8: Members 2w in [15:0] and 2w + 1 in [31:16] of the selected row -/
def PAR.LAYOUT (i : Nat) : Fld :=
  ⟨0xA1, (0x040 + 0x4 * i), 0, 32, 0, .ro, .datapath, .any, false⟩

/-- PAR 0x064 [0] START: 1: begin a reshape by R267 -/
def PAR.START : Fld :=
  ⟨0xA1, 0x064, 0, 1, 0, .wo, .datapath, .any, false⟩

/-- PAR 0x064 [2:1] KIND: 0 ADD, 1 SPREAD; others reserved -/
def PAR.KIND : Fld :=
  ⟨0xA1, 0x064, 1, 2, 0, .wo, .datapath, .any, false⟩

/-- PAR 0x064 [14:8] NEW_SPREAD: SPREAD value for KIND 1, 8 to 64 -/
def PAR.NEW_SPREAD : Fld :=
  ⟨0xA1, 0x064, 8, 7, 0, .wo, .datapath, .any, false⟩

/-- PAR counter TIMEOUTS at 0x080 (LO, then HI). -/
def PAR.TIMEOUTS : Fld :=
  ⟨0xA1, 0x080, 0, 64, 0, .ro, .datapath, .any, true⟩

/-- PAR counter RECON_READS at 0x088 (LO, then HI). -/
def PAR.RECON_READS : Fld :=
  ⟨0xA1, 0x088, 0, 64, 0, .ro, .datapath, .any, true⟩

/-- PAR counter Q_RECON at 0x090 (LO, then HI). -/
def PAR.Q_RECON : Fld :=
  ⟨0xA1, 0x090, 0, 64, 0, .ro, .datapath, .any, true⟩

/-- PAR counter LOST_SECTORS at 0x098 (LO, then HI). -/
def PAR.LOST_SECTORS : Fld :=
  ⟨0xA1, 0x098, 0, 64, 0, .ro, .datapath, .any, true⟩

/-- PAR counter PARITY_LOCATED at 0x0A0 (LO, then HI). -/
def PAR.PARITY_LOCATED : Fld :=
  ⟨0xA1, 0x0A0, 0, 64, 0, .ro, .datapath, .any, true⟩

/-- PAR counter PARITY_UNLOCATED at 0x0A8 (LO, then HI). -/
def PAR.PARITY_UNLOCATED : Fld :=
  ⟨0xA1, 0x0A8, 0, 64, 0, .ro, .datapath, .any, true⟩

/-- PAR counter REBUILT_LB at 0x0B0 (LO, then HI). -/
def PAR.REBUILT_LB : Fld :=
  ⟨0xA1, 0x0B0, 0, 64, 0, .ro, .datapath, .any, true⟩

/-- PAR counter VOID_GROUPS at 0x0B8 (LO, then HI). -/
def PAR.VOID_GROUPS : Fld :=
  ⟨0xA1, 0x0B8, 0, 64, 0, .ro, .datapath, .any, true⟩

/-- PAR 0x400 [14:0] READ_TMO_US: By R256, 500 to 32,000; reset 4,000. Values outside the range are treated as the nearest bound -/
def PAR.READ_TMO_US : Fld :=
  ⟨0xA1, 0x400, 0, 15, 4000, .rwe, .datapath, (.clamp 500 32000), false⟩

/-- PAR 0x404 [7:0] RECON_AT_US: By R256, 20 to 140; reset 100. Values outside the range are treated as the nearest bound -/
def PAR.RECON_AT_US : Fld :=
  ⟨0xA1, 0x404, 0, 8, 100, .rwe, .datapath, (.clamp 20 140), false⟩

/-- PAR 0x408 [6:0] SPREAD: Rows per die used at format, 8 to 64; reset 64. Values outside the range are treated as the nearest bound -/
def PAR.SPREAD : Fld :=
  ⟨0xA1, 0x408, 0, 7, 64, .rwe, .datapath, (.clamp 8 64), false⟩

/-- PAR 0x40C [7:0] REBUILD_TARGET_MIN: By R259, 5 to 240; reset 30. Values outside the range are treated as the nearest bound -/
def PAR.REBUILD_TARGET_MIN : Fld :=
  ⟨0xA1, 0x40C, 0, 8, 30, .rwe, .datapath, (.clamp 5 240), false⟩

/-- PAR 0x410 [9:0] CLEAR_DIE: Device die number for R258; reads 0 -/
def PAR.CLEAR_DIE : Fld :=
  ⟨0xA1, 0x410, 0, 10, 0, .rwe, .datapath, .any, false⟩

/-- PAR 0x410 [31] CLEAR_GO: 1: take CLEAR_DIE off the failed-die list by R258; reads 0 -/
def PAR.CLEAR_GO : Fld :=
  ⟨0xA1, 0x410, 31, 1, 0, .rwe, .datapath, .any, false⟩

/-- ACC 0x020 [9:0] JRN_SEL: Journal shown below; reset 0 -/
def ACC.JRN_SEL : Fld :=
  ⟨0xD0, 0x020, 0, 10, 0, .rw, .datapath, .any, false⟩

/-- ACC 0x024 [0] BOUND: Selected journal bound by R270 -/
def ACC.BOUND : Fld :=
  ⟨0xD0, 0x024, 0, 1, 0, .ro, .datapath, .any, false⟩

/-- ACC 0x024 [1] KEY_OK: Its key instance is loaded -/
def ACC.KEY_OK : Fld :=
  ⟨0xD0, 0x024, 1, 1, 0, .ro, .datapath, .any, false⟩

/-- ACC 0x024 [2] FULL: Last DATA record refused by R277 -/
def ACC.FULL : Fld :=
  ⟨0xD0, 0x024, 2, 1, 0, .ro, .datapath, .any, false⟩

/-- ACC 0x028 [17:0] JRN_WINDOW: Bound window -/
def ACC.JRN_WINDOW : Fld :=
  ⟨0xD0, 0x028, 0, 18, 0, .ro, .datapath, .any, false⟩

/-- ACC 0x02C [31:0] KEY_INST: By R271 -/
def ACC.KEY_INST : Fld :=
  ⟨0xD0, 0x02C, 0, 32, 0, .rw, .datapath, .any, false⟩

/-- ACC 0x030, 0x034 [31:0] NEXT_ACC_LO, _HI: Next accession number -/
def ACC.NEXT_ACC : Fld :=
  ⟨0xD0, 0x030, 0, 64, 0, .ro, .datapath, .any, true⟩

/-- ACC 0x038, 0x03C [31:0] WP_LO, _HI: WP [47:0] -/
def ACC.WP : Fld :=
  ⟨0xD0, 0x038, 0, 64, 0, .ro, .datapath, .any, true⟩

/-- ACC 0x040, 0x044 [31:0] LAST_SEAL_LO, _HI: Number of the last SEAL record; 0 if none -/
def ACC.LAST_SEAL : Fld :=
  ⟨0xD0, 0x040, 0, 64, 0, .ro, .datapath, .any, true⟩

/-- ACC 0x048 [11:0] ASM_USED: Assembly buffers held -/
def ACC.ASM_USED : Fld :=
  ⟨0xD0, 0x048, 0, 12, 0, .ro, .datapath, .any, false⟩

/-- ACC counter RECORDS at 0x080 (LO, then HI). -/
def ACC.RECORDS : Fld :=
  ⟨0xD0, 0x080, 0, 64, 0, .ro, .datapath, .any, true⟩

/-- ACC counter SEALS at 0x088 (LO, then HI). -/
def ACC.SEALS : Fld :=
  ⟨0xD0, 0x088, 0, 64, 0, .ro, .datapath, .any, true⟩

/-- ACC counter CLOCK_RECORDS at 0x090 (LO, then HI). -/
def ACC.CLOCK_RECORDS : Fld :=
  ⟨0xD0, 0x090, 0, 64, 0, .ro, .datapath, .any, true⟩

/-- ACC counter CLOCK_UNRECORDED at 0x098 (LO, then HI). -/
def ACC.CLOCK_UNRECORDED : Fld :=
  ⟨0xD0, 0x098, 0, 64, 0, .ro, .datapath, .any, true⟩

/-- ACC counter RESTARTS at 0x0A0 (LO, then HI). -/
def ACC.RESTARTS : Fld :=
  ⟨0xD0, 0x0A0, 0, 64, 0, .ro, .datapath, .any, true⟩

/-- ACC counter GAPS at 0x0A8 (LO, then HI). -/
def ACC.GAPS : Fld :=
  ⟨0xD0, 0x0A8, 0, 64, 0, .ro, .datapath, .any, true⟩

/-- ACC counter TAG_HELD at 0x0B0 (LO, then HI). -/
def ACC.TAG_HELD : Fld :=
  ⟨0xD0, 0x0B0, 0, 64, 0, .ro, .datapath, .any, true⟩

/-- ACC 0x400 [2:0] PC_COUNT: Privileged channels for R278, 1 to 4; reset 2. Values outside the range are treated as the nearest bound -/
def ACC.PC_COUNT : Fld :=
  ⟨0xD0, 0x400, 0, 3, 2, .rwe, .datapath, (.clamp 1 4), false⟩

/-- CPH 0x020 [31:0] STORE_KEY: Storage instance by R295 and R296; reloaded from NOR bank 2 -/
def CPH.STORE_KEY : Fld :=
  ⟨0xB0, 0x020, 0, 32, 0, .rw, .datapath, .any, false⟩

/-- CPH 0x024 [0] ENT_OK: Entropy health tests passing -/
def CPH.ENT_OK : Fld :=
  ⟨0xB0, 0x024, 0, 1, 0, .ro, .datapath, .any, false⟩

/-- CPH 0x024 [1] DRBG_SEEDED: DRBG seeded and not halted -/
def CPH.DRBG_SEEDED : Fld :=
  ⟨0xB0, 0x024, 1, 1, 0, .ro, .datapath, .any, false⟩

/-- CPH 0x024 [2] PRIV_ERASED: Privileged keys erased by R299 -/
def CPH.PRIV_ERASED : Fld :=
  ⟨0xB0, 0x024, 2, 1, 0, .ro, .datapath, .any, false⟩

/-- CPH 0x024 [12:8] ALARM_CAUSE: Bit 8 voltage, 9 clock, 10 temperature, 11 Vitrine, 12 mesh -/
def CPH.ALARM_CAUSE : Fld :=
  ⟨0xB0, 0x024, 8, 5, 0, .ros, .block, .any, false⟩

/-- CPH 0x028 [31:0] PINNED: Extents pinned by R301 -/
def CPH.PINNED : Fld :=
  ⟨0xB0, 0x028, 0, 32, 0, .ro, .datapath, .any, false⟩

/-- CPH counter MISMATCH at 0x040 (LO, then HI). -/
def CPH.MISMATCH : Fld :=
  ⟨0xB0, 0x040, 0, 64, 0, .ro, .datapath, .any, true⟩

/-- CPH counter SUSPENDS at 0x048 (LO, then HI). -/
def CPH.SUSPENDS : Fld :=
  ⟨0xB0, 0x048, 0, 64, 0, .ro, .datapath, .any, true⟩

/-- CPH counter STORE_AUTH_FAIL at 0x050 (LO, then HI). -/
def CPH.STORE_AUTH_FAIL : Fld :=
  ⟨0xB0, 0x050, 0, 64, 0, .ro, .datapath, .any, true⟩

/-- CPH counter UNTRUSTED_DELIVERED at 0x058 (LO, then HI). -/
def CPH.UNTRUSTED_DELIVERED : Fld :=
  ⟨0xB0, 0x058, 0, 64, 0, .ro, .datapath, .any, true⟩

/-- CPH counter DRBG_RESEEDS at 0x060 (LO, then HI). -/
def CPH.DRBG_RESEEDS : Fld :=
  ⟨0xB0, 0x060, 0, 64, 0, .ro, .datapath, .any, true⟩

/-- CPH 0x400 [0] DELIVER_UNTRUSTED: By R301; reset 0 -/
def CPH.DELIVER_UNTRUSTED : Fld :=
  ⟨0xB0, 0x400, 0, 1, 0, .rwe, .datapath, .any, false⟩

/-- KST 0x020 [31:0] INST_SEL: Instance shown below; reset 0 -/
def KST.INST_SEL : Fld :=
  ⟨0xB1, 0x020, 0, 32, 0, .rw, .datapath, .any, false⟩

/-- KST 0x024 [0] LOADED: Selected instance loaded -/
def KST.LOADED : Fld :=
  ⟨0xB1, 0x024, 0, 1, 0, .ro, .datapath, .any, false⟩

/-- KST 0x024 [2:1] ALG: By R287 -/
def KST.ALG : Fld :=
  ⟨0xB1, 0x024, 1, 2, 0, .ro, .datapath, .any, false⟩

/-- KST 0x024 [6:3] MODE: By R287 -/
def KST.MODE : Fld :=
  ⟨0xB1, 0x024, 3, 4, 0, .ro, .datapath, .any, false⟩

/-- KST 0x024 [11:8] CLASS: By R287 -/
def KST.CLASS : Fld :=
  ⟨0xB1, 0x024, 8, 4, 0, .ro, .datapath, .any, false⟩

/-- KST 0x024 [12] LEGACY: By R287 -/
def KST.LEGACY : Fld :=
  ⟨0xB1, 0x024, 12, 1, 0, .ro, .datapath, .any, false⟩

/-- KST 0x024 [13] RETIRED: By R291 -/
def KST.RETIRED : Fld :=
  ⟨0xB1, 0x024, 13, 1, 0, .ro, .datapath, .any, false⟩

/-- KST 0x028 [31:0] KEK_OF_SEL: KEK_INST of the selected instance -/
def KST.KEK_OF_SEL : Fld :=
  ⟨0xB1, 0x028, 0, 32, 0, .ro, .datapath, .any, false⟩

/-- KST 0x030, 0x034 [31:0] COUNTER_LO, _HI: Hardware counter by R290 -/
def KST.COUNTER : Fld :=
  ⟨0xB1, 0x030, 0, 64, 0, .ro, .datapath, .any, true⟩

/-- KST 0x038, 0x03C [31:0] MARK_LO, _HI: Highest mark by R290 -/
def KST.MARK : Fld :=
  ⟨0xB1, 0x038, 0, 64, 0, .ro, .datapath, .any, true⟩

/-- KST 0x040 [12:0] INSTANCES_USED: Loaded instances -/
def KST.INSTANCES_USED : Fld :=
  ⟨0xB1, 0x040, 0, 13, 0, .ro, .datapath, .any, false⟩

/-- KST 0x044 [13:0] MARKS_USED: Mark-table entries -/
def KST.MARKS_USED : Fld :=
  ⟨0xB1, 0x044, 0, 14, 0, .ro, .datapath, .any, false⟩

/-- KST 0x048 [31:0] ROOT_ID: Root key identifier by R289 -/
def KST.ROOT_ID : Fld :=
  ⟨0xB1, 0x048, 0, 32, 0, .ro, .datapath, .any, false⟩

/-- KST 0x400 [0] KS_FORMAT: 1: erase every blob record and mark, and unload every instance; reads 0. Ignored, with FORMAT_REJECT, while any instance is in use by R288. Serving as the KEK_INST of another instance does not count, since KS_FORMAT unloads that instance too -/
def KST.KS_FORMAT : Fld :=
  ⟨0xB1, 0x400, 0, 1, 0, .rwe, .datapath, .any, false⟩

/-- CCH 0x024 [0] IN_SERVICE: Channel in service -/
def CCH.IN_SERVICE (n : Nat) : Fld :=
  ⟨(0xB2 + n), 0x024, 0, 1, 0, .ro, .datapath, .any, false⟩

/-- CCH 0x024 [1] LEGACY_ACTIVE: Processing a LEGACY key -/
def CCH.LEGACY_ACTIVE (n : Nat) : Fld :=
  ⟨(0xB2 + n), 0x024, 1, 1, 0, .ro, .datapath, .any, false⟩

/-- CCH 0x024 [4:2] CTX_USED: Saved contexts, 0 to 4 -/
def CCH.CTX_USED (n : Nat) : Fld :=
  ⟨(0xB2 + n), 0x024, 2, 3, 0, .ro, .datapath, .any, false⟩

/-- CCH 0x024 [12:8] SUBST: Index of the channel carrying this channel's work by R298; its own index while in service -/
def CCH.SUBST (n : Nat) : Fld :=
  ⟨(0xB2 + n), 0x024, 8, 5, 0, .ro, .datapath, .any, false⟩

/-- CCH counter BLOCKS at 0x040 (LO, then HI). -/
def CCH.BLOCKS (n : Nat) : Fld :=
  ⟨(0xB2 + n), 0x040, 0, 64, 0, .ro, .datapath, .any, true⟩

/-- CCH counter MESSAGES at 0x048 (LO, then HI). -/
def CCH.MESSAGES (n : Nat) : Fld :=
  ⟨(0xB2 + n), 0x048, 0, 64, 0, .ro, .datapath, .any, true⟩

/-- CCH counter AUTH_FAIL at 0x050 (LO, then HI). -/
def CCH.AUTH_FAIL (n : Nat) : Fld :=
  ⟨(0xB2 + n), 0x050, 0, 64, 0, .ro, .datapath, .any, true⟩

/-- CCH counter MISMATCH at 0x058 (LO, then HI). -/
def CCH.MISMATCH (n : Nat) : Fld :=
  ⟨(0xB2 + n), 0x058, 0, 64, 0, .ro, .datapath, .any, true⟩

/-- CCH counter SUSPENDS at 0x060 (LO, then HI). -/
def CCH.SUSPENDS (n : Nat) : Fld :=
  ⟨(0xB2 + n), 0x060, 0, 64, 0, .ro, .datapath, .any, true⟩

/-- CCH counter LEGACY_BLOCKS at 0x068 (LO, then HI). -/
def CCH.LEGACY_BLOCKS (n : Nat) : Fld :=
  ⟨(0xB2 + n), 0x068, 0, 64, 0, .ro, .datapath, .any, true⟩

/-- CLK 0x020 [16:0] DLL_EN: Bit i: DLL i enabled by R307 -/
def CLK.DLL_EN : Fld :=
  ⟨0x04, 0x020, 0, 17, 0, .ro, .datapath, .any, false⟩

/-- CLK 0x024 [0] LOCK: By R311 -/
def CLK.LOCK : Fld :=
  ⟨0x04, 0x024, 0, 1, 0, .ro, .datapath, .any, false⟩

/-- CLK 0x024 [1] CORE_SYN_LOCK: By R306 -/
def CLK.CORE_SYN_LOCK : Fld :=
  ⟨0x04, 0x024, 1, 1, 0, .ro, .datapath, .any, false⟩

/-- CLK 0x024 [5:2] SRD_SYN_LOCK: By R306 -/
def CLK.SRD_SYN_LOCK : Fld :=
  ⟨0x04, 0x024, 2, 4, 0, .ro, .datapath, .any, false⟩

/-- CLK 0x024 [6] RETRAIN_BUSY: Retraining running -/
def CLK.RETRAIN_BUSY : Fld :=
  ⟨0x04, 0x024, 6, 1, 0, .ro, .datapath, .any, false⟩

/-- CLK 0x024 [7] MSCAN_BUSY: Margin scan running -/
def CLK.MSCAN_BUSY : Fld :=
  ⟨0x04, 0x024, 7, 1, 0, .ro, .datapath, .any, false⟩

/-- CLK 0x024 [8] LOCK_PATH_FAULT: By R312 -/
def CLK.LOCK_PATH_FAULT : Fld :=
  ⟨0x04, 0x024, 8, 1, 0, .ro, .datapath, .any, false⟩

/-- CLK 0x028 [16:0] DLL_IN_WIN: By R307 -/
def CLK.DLL_IN_WIN : Fld :=
  ⟨0x04, 0x028, 0, 17, 0, .ro, .datapath, .any, false⟩

/-- CLK 0x02C [13:0] SENSE_CODE: Last conversion of channel 31 -/
def CLK.SENSE_CODE : Fld :=
  ⟨0x04, 0x02C, 0, 14, 0, .ro, .datapath, .any, false⟩

/-- CLK 0x030 [4:0] DLL_SEL: DLL shown below; reset 0 -/
def CLK.DLL_SEL : Fld :=
  ⟨0x04, 0x030, 0, 5, 0, .rw, .datapath, .any, false⟩

/-- CLK 0x030 [9:8] FSP_SEL: Set point shown below; reset 0 -/
def CLK.FSP_SEL : Fld :=
  ⟨0x04, 0x030, 8, 2, 0, .rw, .datapath, .any, false⟩

/-- CLK 0x034 [13:0] DLL_CODE: Stored code of DLL_SEL at FSP_SEL by R313 -/
def CLK.DLL_CODE : Fld :=
  ⟨0x04, 0x034, 0, 14, 0, .ro, .datapath, .any, false⟩

/-- CLK 0x034 [16] CODE_VALID: A code is stored -/
def CLK.CODE_VALID : Fld :=
  ⟨0x04, 0x034, 16, 1, 0, .ro, .datapath, .any, false⟩

/-- CLK 0x038 [15:0] PHASE_ERR_PS: e_i of DLL_SEL -/
def CLK.PHASE_ERR_PS : Fld :=
  ⟨0x04, 0x038, 0, 16, 0, .ro, .datapath, .any, false⟩

/-- CLK 0x03C [0] CAL_EN: Background calibration by R316; reset 1 -/
def CLK.CAL_EN : Fld :=
  ⟨0x04, 0x03C, 0, 1, 1, .rw, .datapath, .any, false⟩

/-- CLK 0x040 [0] START: 1: margin scan by R320 -/
def CLK.START : Fld :=
  ⟨0x04, 0x040, 0, 1, 0, .wo, .datapath, .any, false⟩

/-- CLK 0x040 [12:8] MEMBER: DLL index of the member to scan -/
def CLK.MEMBER : Fld :=
  ⟨0x04, 0x040, 8, 5, 0, .rw, .datapath, .any, false⟩

/-- CLK 0x040 [19:16] SUB: Rank (warm) or sub-channel (stack) -/
def CLK.SUB : Fld :=
  ⟨0x04, 0x040, 16, 4, 0, .rw, .datapath, .any, false⟩

/-- CLK 0x044 [10:0] LANE_SEL: Lane whose result is shown -/
def CLK.LANE_SEL : Fld :=
  ⟨0x04, 0x044, 0, 11, 0, .rw, .datapath, .any, false⟩

/-- CLK 0x048 [31:0] MSCAN_RESULT: LEFT [7:0], RIGHT [15:8], VLOW [23:16], VHIGH [31:24] -/
def CLK.MSCAN_RESULT : Fld :=
  ⟨0x04, 0x048, 0, 32, 0, .ro, .datapath, .any, false⟩

/-- CLK 0x04C [7:0] RETRAIN_RESULT: By R322 -/
def CLK.RETRAIN_RESULT : Fld :=
  ⟨0x04, 0x04C, 0, 8, 0, .ro, .datapath, .any, false⟩

/-- CLK counter CAL_STEPS at 0x050 (LO, then HI). -/
def CLK.CAL_STEPS : Fld :=
  ⟨0x04, 0x050, 0, 64, 0, .ro, .datapath, .any, true⟩

/-- CLK counter CAL_SAVES at 0x058 (LO, then HI). -/
def CLK.CAL_SAVES : Fld :=
  ⟨0x04, 0x058, 0, 64, 0, .ro, .datapath, .any, true⟩

/-- CLK counter RECORD_CRC_FAIL at 0x060 (LO, then HI). -/
def CLK.RECORD_CRC_FAIL : Fld :=
  ⟨0x04, 0x060, 0, 64, 0, .ro, .datapath, .any, true⟩

/-- CLK counter LOCK_LOSSES at 0x068 (LO, then HI). -/
def CLK.LOCK_LOSSES : Fld :=
  ⟨0x04, 0x068, 0, 64, 0, .ro, .datapath, .any, true⟩

/-- CLK 0x070 [0] RETRAIN_START: 1: retrain by R322 -/
def CLK.RETRAIN_START : Fld :=
  ⟨0x04, 0x070, 0, 1, 0, .wo, .datapath, .any, false⟩

/-- CLK 0x070 [12:8] RETRAIN_MEMBER: DLL index, 1 to 16; reset 1 -/
def CLK.RETRAIN_MEMBER : Fld :=
  ⟨0x04, 0x070, 8, 5, 1, .rw, .datapath, .any, false⟩

/-- CLK 0x400 [13:0] LOCK_THR: By R311; reset 8,192 -/
def CLK.LOCK_THR : Fld :=
  ⟨0x04, 0x400, 0, 14, 8192, .rwe, .datapath, .any, false⟩

/-- CLK 0x408 [7:0] CAL_SLOT_EPOCHS: By R316, 8 to 255; reset 64. Values below 8 are treated as 8 -/
def CLK.CAL_SLOT_EPOCHS : Fld :=
  ⟨0x04, 0x408, 0, 8, 64, .rwe, .datapath, (.clamp 8 255), false⟩

/-- CLK 0x40C [5:0] SEED_WIN: By R315, 2 to 63; reset 8. Values below 2 are treated as 2 -/
def CLK.SEED_WIN : Fld :=
  ⟨0x04, 0x40C, 0, 6, 8, .rwe, .datapath, (.clamp 2 63), false⟩

/-- CLK 0x410 [6:0] MSCAN_MIN: By R321, 8 to 63; reset 24. Values outside the range are treated as the nearest bound -/
def CLK.MSCAN_MIN : Fld :=
  ⟨0x04, 0x410, 0, 7, 24, .rwe, .datapath, (.clamp 8 63), false⟩

/-- PSQ 0x020 [0] SEQ_GO: 1: lock the table and start power-up by R325; SMBus only -/
def PSQ.SEQ_GO : Fld :=
  ⟨0x02, 0x020, 0, 1, 0, .wo, .supervisor, .any, false⟩

/-- PSQ 0x020 [1] PARK: By R343 and R344; reset 0 -/
def PSQ.PARK : Fld :=
  ⟨0x02, 0x020, 1, 1, 0, .rw, .supervisor, .any, false⟩

/-- PSQ 0x020 [2] WAKE_SIG_EN: SIGNAL wake by R344; reset 0 -/
def PSQ.WAKE_SIG_EN : Fld :=
  ⟨0x02, 0x020, 2, 1, 0, .rw, .supervisor, .any, false⟩

/-- PSQ 0x024 [2:0] SEQ_STATE: 0 IDLE, 1 RISING, 2 ON, 3 FALLING, 4 OFF, 5 FAULT; others reserved -/
def PSQ.SEQ_STATE : Fld :=
  ⟨0x02, 0x024, 0, 3, 0, .ro, .supervisor, .any, false⟩

/-- PSQ 0x024 [3] SEQ_LOCKED: Table locked -/
def PSQ.SEQ_LOCKED : Fld :=
  ⟨0x02, 0x024, 3, 1, 0, .ro, .supervisor, .any, false⟩

/-- PSQ 0x024 [5:4] PARK_STATE: 0 AWAKE, 1 PARKING, 2 PARKED, 3 WAKING -/
def PSQ.PARK_STATE : Fld :=
  ⟨0x02, 0x024, 4, 2, 0, .ro, .supervisor, .any, false⟩

/-- PSQ 0x024 [10:8] WAKE_REASON: Bit 8 LOCAL, 9 TWIN, 10 SIGNAL -/
def PSQ.WAKE_REASON : Fld :=
  ⟨0x02, 0x024, 8, 3, 0, .ro, .supervisor, .any, false⟩

/-- PSQ 0x028 [4:0] SEQ_LEN: Entries, 0 to 16; SMBus only, until locked -/
def PSQ.SEQ_LEN : Fld :=
  ⟨0x02, 0x028, 0, 5, 0, .rw, .supervisor, .any, false⟩

/-- PSQ 0x02C [3:0] FAIL_ENTRY: Entry of the last SEQ_FAULT -/
def PSQ.FAIL_ENTRY : Fld :=
  ⟨0x02, 0x02C, 0, 4, 0, .ro, .supervisor, .any, false⟩

/-- PSQ 0x030 [15:0] DIS_LATE: Bit k: entry k missed DIS_MAX in the last shutdown -/
def PSQ.DIS_LATE : Fld :=
  ⟨0x02, 0x030, 0, 16, 0, .ro, .supervisor, .any, false⟩

/-- PSQ 0x100 + 16k [3:0] EN_k: SEQ_EN output of entry k; SMBus only, until locked -/
def PSQ.EN (i : Nat) : Fld :=
  ⟨0x02, (0x100 + 0x10 * i), 0, 4, 0, .rw, .supervisor, .any, false⟩

/-- PSQ 0x100 + 16k [8:4] CH_k: Judging channel, 0 to 30 -/
def PSQ.CH (i : Nat) : Fld :=
  ⟨0x02, (0x100 + 0x10 * i), 4, 5, 0, .rw, .supervisor, .any, false⟩

/-- PSQ 0x100 + 16k [23:16] DELAY_MS_k: Wait after good, 0 to 255 ms -/
def PSQ.DELAY_MS (i : Nat) : Fld :=
  ⟨0x02, (0x100 + 0x10 * i), 16, 8, 0, .rw, .supervisor, .any, false⟩

/-- PSQ 0x100 + 16k [31:24] UP_TMO_MS_k: Up timeout, 1 to 255 ms; 0 is treated as 1 -/
def PSQ.UP_TMO_MS (i : Nat) : Fld :=
  ⟨0x02, (0x100 + 0x10 * i), 24, 8, 0, .rw, .supervisor, (.clamp 1 255), false⟩

/-- PSQ 0x104 + 16k [13:0] GOOD_MIN_k: Good window, lower code -/
def PSQ.GOOD_MIN (i : Nat) : Fld :=
  ⟨0x02, (0x104 + 0x10 * i), 0, 14, 0, .rw, .supervisor, .any, false⟩

/-- PSQ 0x104 + 16k [29:16] GOOD_MAX_k: Good window, upper code -/
def PSQ.GOOD_MAX (i : Nat) : Fld :=
  ⟨0x02, (0x104 + 0x10 * i), 16, 14, 0, .rw, .supervisor, .any, false⟩

/-- PSQ 0x108 + 16k [13:0] DIS_MAX_k: Discharged level, code -/
def PSQ.DIS_MAX (i : Nat) : Fld :=
  ⟨0x02, (0x108 + 0x10 * i), 0, 14, 0, .rw, .supervisor, .any, false⟩

/-- PSQ 0x108 + 16k [23:16] DIS_TMO_MS_k: Discharge timeout, 1 to 50 ms; 0 is treated as 1 -/
def PSQ.DIS_TMO_MS (i : Nat) : Fld :=
  ⟨0x02, (0x108 + 0x10 * i), 16, 8, 0, .rw, .supervisor, (.clamp 1 255), false⟩

/-- SCN 0x020 [31:0] SCANS: Scans completed; saturates -/
def SCN.SCANS : Fld :=
  ⟨0x03, 0x020, 0, 32, 0, .ro, .supervisor, .any, false⟩

/-- SCN 0x024 [30:0] CH_USED: Bit c: channel named by the table or by MUS.BI_CH -/
def SCN.CH_USED : Fld :=
  ⟨0x03, 0x024, 0, 31, 0, .ro, .supervisor, .any, false⟩

/-- SCN 0x040 + 4c [13:0] CODE_c: Last conversion of channel c, c = 0 to 31, by R331 -/
def SCN.CODE (i : Nat) : Fld :=
  ⟨0x03, (0x040 + 0x4 * i), 0, 14, 0, .ro, .supervisor, .any, false⟩

/-- RST 0x020 [0] SW_MGMT: 1: management reset -/
def RST.SW_MGMT : Fld :=
  ⟨0x01, 0x020, 0, 1, 0, .wo, .supervisor, .any, false⟩

/-- RST 0x020 [1] SW_DP: 1: management and datapath reset; ignored from a curator -/
def RST.SW_DP : Fld :=
  ⟨0x01, 0x020, 1, 1, 0, .wo, .supervisor, .any, false⟩

/-- RST 0x024 [7:0] CAUSE: Bit 0 power-on, 1 brown-out, 2 RESET_N, 3 watchdog, 4 software, 5 debug, 6 clock failure, 7 lock-up -/
def RST.CAUSE : Fld :=
  ⟨0x01, 0x024, 0, 8, 0, .w1c, .supervisor, .any, false⟩

/-- RST 0x028 [8x+3:8x] STRETCH_x: By R337, 0 to 10; reset 7. Values above 10 are treated as 10 -/
def RST.STRETCH (i : Nat) : Fld :=
  ⟨0x01, 0x028, (0 + 8 * i), 4, 7, .rw, .supervisor, (.clamp 0 10), false⟩

/-- RST 0x028 [8x+5:8x+4] SRC_x: Bit 8x+4 datapath, bit 8x+5 management; reset 0b01 -/
def RST.SRC (i : Nat) : Fld :=
  ⟨0x01, 0x028, (4 + 8 * i), 2, 1, .rw, .supervisor, .any, false⟩

/-- RST 0x02C [0] RESET_N_LEVEL: Filtered RESET_N -/
def RST.RESET_N_LEVEL : Fld :=
  ⟨0x01, 0x02C, 0, 1, 0, .ro, .supervisor, .any, false⟩

/-- RST 0x02C [1] ON_BACKUP: Core clock on the ring oscillator by R339 -/
def RST.ON_BACKUP : Fld :=
  ⟨0x01, 0x02C, 1, 1, 0, .ro, .supervisor, .any, false⟩

/-- THM 0x024 [0] THROTTLED: By R341 -/
def THM.THROTTLED : Fld :=
  ⟨0x0C, 0x024, 0, 1, 0, .ro, .supervisor, .any, false⟩

/-- THM 0x024 [1] TRIPPED: By R342 -/
def THM.TRIPPED : Fld :=
  ⟨0x0C, 0x024, 1, 1, 0, .ro, .supervisor, .any, false⟩

/-- THM 0x024 [2] SENSOR_LOW: Fewer than 12 valid sensors -/
def THM.SENSOR_LOW : Fld :=
  ⟨0x0C, 0x024, 2, 1, 0, .ro, .supervisor, .any, false⟩

/-- THM 0x028 [7:0] TJ_C: Tj, signed °C -/
def THM.TJ_C : Fld :=
  ⟨0x0C, 0x028, 0, 8, 0, .ro, .supervisor, .any, false⟩

/-- THM 0x02C [7:0] TJ_PEAK_C: Highest Tj since the supervisor reset -/
def THM.TJ_PEAK_C : Fld :=
  ⟨0x0C, 0x02C, 0, 8, 0, .ro, .supervisor, .any, false⟩

/-- THM 0x030 [4:0] SENSOR_SEL: Sensor shown below, 0 to 23; reset 0 -/
def THM.SENSOR_SEL : Fld :=
  ⟨0x0C, 0x030, 0, 5, 0, .rw, .supervisor, .any, false⟩

/-- THM 0x034 [7:0] SENSOR_C: Selected sensor, signed °C -/
def THM.SENSOR_C : Fld :=
  ⟨0x0C, 0x034, 0, 8, 0, .ro, .supervisor, .any, false⟩

/-- THM 0x034 [8] SENSOR_VALID: Selected sensor valid by R340 -/
def THM.SENSOR_VALID : Fld :=
  ⟨0x0C, 0x034, 8, 1, 0, .ro, .supervisor, .any, false⟩

/-- THM 0x038 [23:0] THRESHOLDS: 105 in [7:0], 100 in [15:8], 120 in [23:16] -/
def THM.THRESHOLDS : Fld :=
  ⟨0x0C, 0x038, 0, 24, 0, .ro, .supervisor, .any, false⟩

/-- THM 0x040, 0x044 [31:0] THROTTLE_EPOCHS_LO, _HI: Epochs spent throttled -/
def THM.THROTTLE_EPOCHS : Fld :=
  ⟨0x0C, 0x040, 0, 64, 0, .ro, .supervisor, .any, true⟩

/-- THM 0x400 [6:0] THROTTLE_PCT: By R341, 25 to 90; reset 50. Values outside the range are treated as the nearest bound -/
def THM.THROTTLE_PCT : Fld :=
  ⟨0x0C, 0x400, 0, 7, 50, .rwe, .supervisor, (.clamp 25 90), false⟩

/-- NOR 0x020 [25:0] ADDR: Byte address; word-aligned for a program, any address in the sector for an erase -/
def NOR.ADDR : Fld :=
  ⟨0x08, 0x020, 0, 26, 0, .rw, .management, .any, false⟩

/-- NOR 0x024 [31:0] DATA: Word to program -/
def NOR.DATA : Fld :=
  ⟨0x08, 0x024, 0, 32, 0, .rw, .management, .any, false⟩

/-- NOR 0x028 [1:0] OP: 1 program, 2 erase; 0 and 3 ignored -/
def NOR.OP : Fld :=
  ⟨0x08, 0x028, 0, 2, 0, .wo, .management, .any, false⟩

/-- NOR 0x02C [3:0] BANK_BUSY: Bit b: bank b busy -/
def NOR.BANK_BUSY : Fld :=
  ⟨0x08, 0x02C, 0, 4, 0, .ro, .management, .any, false⟩

/-- NOR 0x02C [10:8] RESULT: Last curator operation: 0 OK, 1 NOT_ERASED, 2 FENCED, 3 BANK_BUSY; others reserved -/
def NOR.RESULT : Fld :=
  ⟨0x08, 0x02C, 8, 3, 0, .ro, .management, .any, false⟩

/-- NOR 0x030 [0] COMMIT_REQ: 1: commit by R360 -/
def NOR.COMMIT_REQ : Fld :=
  ⟨0x08, 0x030, 0, 1, 0, .wo, .management, .any, false⟩

/-- NOR 0x030 [1] COMMIT_BANK: Bank to commit -/
def NOR.COMMIT_BANK : Fld :=
  ⟨0x08, 0x030, 1, 1, 0, .wo, .management, .any, false⟩

/-- NOR 0x034 [7:0] COMMIT_RESULT: By R360 -/
def NOR.COMMIT_RESULT : Fld :=
  ⟨0x08, 0x034, 0, 8, 0, .ro, .management, .any, false⟩

/-- NOR 0x034 [8] COMMIT_BUSY: Verifier running -/
def NOR.COMMIT_BUSY : Fld :=
  ⟨0x08, 0x034, 8, 1, 0, .ro, .management, .any, false⟩

/-- NOR 0x038 [0] ACTIVE_BANK: Bank booted -/
def NOR.ACTIVE_BANK : Fld :=
  ⟨0x08, 0x038, 0, 1, 0, .ro, .management, .any, false⟩

/-- NOR 0x038 [1] NEXT_BANK: Bank selected for the next boot -/
def NOR.NEXT_BANK : Fld :=
  ⟨0x08, 0x038, 1, 1, 0, .ro, .management, .any, false⟩

/-- NOR 0x038 [31:8] DL_BYTES: Bytes downloaded since OFFSET 0 -/
def NOR.DL_BYTES : Fld :=
  ⟨0x08, 0x038, 8, 24, 0, .ro, .management, .any, false⟩

/-- NOR counter PROGRAMS at 0x040 (LO, then HI). -/
def NOR.PROGRAMS : Fld :=
  ⟨0x08, 0x040, 0, 64, 0, .ro, .management, .any, true⟩

/-- NOR counter ERASES at 0x048 (LO, then HI). -/
def NOR.ERASES : Fld :=
  ⟨0x08, 0x048, 0, 64, 0, .ro, .management, .any, true⟩

/-- NOR counter NOT_ERASED at 0x050 (LO, then HI). -/
def NOR.NOT_ERASED : Fld :=
  ⟨0x08, 0x050, 0, 64, 0, .ro, .management, .any, true⟩

/-- NOR counter READ_STALLS at 0x058 (LO, then HI). -/
def NOR.READ_STALLS : Fld :=
  ⟨0x08, 0x058, 0, 64, 0, .ro, .management, .any, true⟩

/-- NOR counter PF_HITS at 0x060 (LO, then HI). -/
def NOR.PF_HITS : Fld :=
  ⟨0x08, 0x060, 0, 64, 0, .ro, .management, .any, true⟩

/-- NOR counter BC_HITS at 0x068 (LO, then HI). -/
def NOR.BC_HITS : Fld :=
  ⟨0x08, 0x068, 0, 64, 0, .ro, .management, .any, true⟩

/-- NOR 0x400 [0] PF_EN: Prefetch by R353; reset 1 -/
def NOR.PF_EN : Fld :=
  ⟨0x08, 0x400, 0, 1, 1, .rwe, .management, .any, false⟩

/-- NOR 0x400 [1] BC_EN: Branch cache by R353; reset 1 -/
def NOR.BC_EN : Fld :=
  ⟨0x08, 0x400, 1, 1, 1, .rwe, .management, .any, false⟩

/-- CUR 0x020 [3:0] RUN: Bit c: curator c released; bit 0 reads 1, and a write of 0 to it is ignored -/
def CUR.RUN : Fld :=
  ⟨0x09, 0x020, 0, 4, 1, .rw, .management, .any, false⟩

/-- CUR 0x024 [0] FW_READY: Set by firmware by R359; cleared by the management reset -/
def CUR.FW_READY : Fld :=
  ⟨0x09, 0x024, 0, 1, 0, .rw, .management, .any, false⟩

/-- CUR 0x024 [1] FALLBACK: By R359 -/
def CUR.FALLBACK : Fld :=
  ⟨0x09, 0x024, 1, 1, 0, .ro, .management, .any, false⟩

/-- CUR 0x024 [2] RECOVERY: Recovery loader running -/
def CUR.RECOVERY : Fld :=
  ⟨0x09, 0x024, 2, 1, 0, .ro, .management, .any, false⟩

/-- CUR 0x024 [7:4] RUNNING: Bit 4 + c: curator c executing -/
def CUR.RUNNING : Fld :=
  ⟨0x09, 0x024, 4, 4, 0, .ro, .management, .any, false⟩

/-- CUR 0x028 + 8c [0] WDT_EN_c: By R361; set only -/
def CUR.WDT_EN (i : Nat) : Fld :=
  ⟨0x09, (0x028 + 0x8 * i), 0, 1, 0, .rw, .management, .any, false⟩

/-- CUR 0x028 + 8c [4:1] WDT_PERIOD_c: 0 to 12; values above 12 are treated as 12; ignored once enabled -/
def CUR.WDT_PERIOD (i : Nat) : Fld :=
  ⟨0x09, (0x028 + 0x8 * i), 1, 4, 0, .rw, .management, (.clamp 0 12), false⟩

/-- CUR 0x02C + 8c [31:0] WDT_KICK_c: By R361 -/
def CUR.WDT_KICK (i : Nat) : Fld :=
  ⟨0x09, (0x02C + 0x8 * i), 0, 32, 0, .wo, .management, .any, false⟩

/-- CUR 0x048 [3:0] LAST_WDT: Bit c: curator c's watchdog caused the last reset -/
def CUR.LAST_WDT : Fld :=
  ⟨0x09, 0x048, 0, 4, 0, .ro, .supervisor, .any, false⟩

/-- CUR 0x048 [7:4] LAST_LOCKUP: Bit 4 + c: curator c locked up -/
def CUR.LAST_LOCKUP : Fld :=
  ⟨0x09, 0x048, 4, 4, 0, .ro, .supervisor, .any, false⟩

/-- CUR 0x04C [15:0] BOOT_MS: Duration of the last boot -/
def CUR.BOOT_MS : Fld :=
  ⟨0x09, 0x04C, 0, 16, 0, .ro, .management, .any, false⟩

/-- CUR 0x050 [31:0] BAD_KICKS: Ignored kick values; saturates -/
def CUR.BAD_KICKS : Fld :=
  ⟨0x09, 0x050, 0, 32, 0, .ro, .management, .any, false⟩

/-- FEN 0x024 [2:0] LAST_CAUSE: Cause of the last attempt by R362 -/
def FEN.LAST_CAUSE : Fld :=
  ⟨0x0A, 0x024, 0, 3, 0, .ro, .supervisor, .any, false⟩

/-- FEN 0x024 [5:4] LAST_CURATOR: Curator that made it -/
def FEN.LAST_CURATOR : Fld :=
  ⟨0x0A, 0x024, 4, 2, 0, .ro, .supervisor, .any, false⟩

/-- FEN 0x028 [31:0] LAST_ADDR: Curator address, or port number for cause 1 -/
def FEN.LAST_ADDR : Fld :=
  ⟨0x0A, 0x028, 0, 32, 0, .ro, .supervisor, .any, false⟩

/-- FEN 0x040 + 4k [31:0] COUNT_k: Attempts of cause k, k = 1 to 6; saturates -/
def FEN.COUNT (i : Nat) : Fld :=
  ⟨0x0A, (0x040 + 0x4 * i), 0, 32, 0, .ro, .supervisor, .any, false⟩

/-- CEN 0x020 [5:0] PERIOD_MIN: By R370, 1 to 60; reset 60. Values outside the range are treated as the nearest bound -/
def CEN.PERIOD_MIN : Fld :=
  ⟨0x07, 0x020, 0, 6, 60, .rw, .supervisor, (.clamp 1 60), false⟩

/-- CEN 0x024 [0] FULL: By R373 -/
def CEN.FULL : Fld :=
  ⟨0x07, 0x024, 0, 1, 0, .ro, .supervisor, .any, false⟩

/-- CEN 0x024 [1] CLEARING: By R376 -/
def CEN.CLEARING : Fld :=
  ⟨0x07, 0x024, 1, 1, 0, .ro, .supervisor, .any, false⟩

/-- CEN 0x024 [2] HELD: By R373 -/
def CEN.HELD : Fld :=
  ⟨0x07, 0x024, 2, 1, 0, .ro, .supervisor, .any, false⟩

/-- CEN 0x028 [16:0] NEXT_SLOT: Slot of the next record -/
def CEN.NEXT_SLOT : Fld :=
  ⟨0x07, 0x028, 0, 17, 0, .ro, .supervisor, .any, false⟩

/-- CEN 0x02C [16:0] CURSOR: By R374; reset 0 -/
def CEN.CURSOR : Fld :=
  ⟨0x07, 0x02C, 0, 17, 0, .rw, .supervisor, .any, false⟩

/-- CEN 0x030 [31:0] DROPPED: By R373; saturates -/
def CEN.DROPPED : Fld :=
  ⟨0x07, 0x030, 0, 32, 0, .ro, .supervisor, .any, false⟩

/-- CEN 0x034 [31:0] OOC_SUPPRESSED: By R372; saturates -/
def CEN.OOC_SUPPRESSED : Fld :=
  ⟨0x07, 0x034, 0, 32, 0, .ro, .supervisor, .any, false⟩

/-- CEN 0x038 [31:0] SAMPLES: Scans in the current period -/
def CEN.SAMPLES : Fld :=
  ⟨0x07, 0x038, 0, 32, 0, .ro, .supervisor, .any, false⟩

/-- CEN 0x100 + 4w [31:0] WIN_w: Word w of slot CURSOR, w = 0 to 63 -/
def CEN.WIN (i : Nat) : Fld :=
  ⟨0x07, (0x100 + 0x4 * i), 0, 32, 0, .ro, .supervisor, .any, false⟩

/-- CEN 0x200 + 8k, 0x204 + 8k [31:0] RAIL_SUM_k_LO, _HI: By R369, k = 0 to 15; LO latches HI -/
def CEN.RAIL_SUM (i : Nat) : Fld :=
  ⟨0x07, (0x200 + 0x8 * i), 0, 64, 0, .ro, .supervisor, .any, true⟩

/-- CEN 0x400 [5:0] OOC_PER_HOUR: By R372, 0 to 60; reset 4. Values above 60 are treated as 60 -/
def CEN.OOC_PER_HOUR : Fld :=
  ⟨0x07, 0x400, 0, 6, 4, .rwe, .supervisor, (.clamp 0 60), false⟩

/-- CEN 0x404 [7:0] TJ_WARN: °C for code 2, 60 to 104; reset 95. Values outside the range are treated as the nearest bound -/
def CEN.TJ_WARN : Fld :=
  ⟨0x07, 0x404, 0, 8, 95, .rwe, .supervisor, (.clamp 60 104), false⟩

/-- RTC 0x020 [5:0] SEC: 0 to 59 -/
def RTC.SEC : Fld :=
  ⟨0x06, 0x020, 0, 6, 0, .ro, .none, .any, false⟩

/-- RTC 0x020 [13:8] MIN: 0 to 59 -/
def RTC.MIN : Fld :=
  ⟨0x06, 0x020, 8, 6, 0, .ro, .none, .any, false⟩

/-- RTC 0x020 [20:16] HOUR: 0 to 23 -/
def RTC.HOUR : Fld :=
  ⟨0x06, 0x020, 16, 5, 0, .ro, .none, .any, false⟩

/-- RTC 0x024 [4:0] DAY: 1 to 31 -/
def RTC.DAY : Fld :=
  ⟨0x06, 0x024, 0, 5, 0, .ro, .none, .any, false⟩

/-- RTC 0x024 [11:8] MONTH: 1 to 12 -/
def RTC.MONTH : Fld :=
  ⟨0x06, 0x024, 8, 4, 0, .ro, .none, .any, false⟩

/-- RTC 0x024 [24:16] YEAR_OFS: Year − 2000 -/
def RTC.YEAR_OFS : Fld :=
  ⟨0x06, 0x024, 16, 9, 0, .ro, .none, .any, false⟩

/-- RTC 0x028 [14:0] FRAC: 1/32,768 s -/
def RTC.FRAC : Fld :=
  ⟨0x06, 0x028, 0, 15, 0, .ro, .none, .any, false⟩

/-- RTC 0x02C, 0x030 [31:0; 7:0] CAL_SEC_LO, _HI: CAL_SEC [39:0] -/
def RTC.CAL_SEC : Fld :=
  ⟨0x06, 0x02C, 0, 64, 0, .ro, .none, .any, true⟩

/-- RTC 0x034 [0] CAL_VALID: By R378 and R379 -/
def RTC.CAL_VALID : Fld :=
  ⟨0x06, 0x034, 0, 1, 0, .ro, .none, .any, false⟩

/-- RTC 0x034 [1] BAD_DATE: By R379 -/
def RTC.BAD_DATE : Fld :=
  ⟨0x06, 0x034, 1, 1, 0, .w1c, .supervisor, .any, false⟩

/-- RTC 0x034 [2] CAL_END: By R377 -/
def RTC.CAL_END : Fld :=
  ⟨0x06, 0x034, 2, 1, 0, .ro, .none, .any, false⟩

/-- RTC 0x034 [3] OSC_FAIL: By R378 -/
def RTC.OSC_FAIL : Fld :=
  ⟨0x06, 0x034, 3, 1, 0, .w1c, .supervisor, .any, false⟩

/-- RTC 0x040 [20:0] SET_TIME: SEC, MIN, HOUR in the bits of 0x020 -/
def RTC.SET_TIME : Fld :=
  ⟨0x06, 0x040, 0, 21, 0, .rw, .supervisor, .any, false⟩

/-- RTC 0x044 [24:0] SET_DATE: DAY, MONTH, YEAR_OFS in the bits of 0x024 -/
def RTC.SET_DATE : Fld :=
  ⟨0x06, 0x044, 0, 25, 0, .rw, .supervisor, .any, false⟩

/-- RTC 0x048 [0] APPLY: 1: set by R379 -/
def RTC.APPLY : Fld :=
  ⟨0x06, 0x048, 0, 1, 0, .wo, .supervisor, .any, false⟩

/-- VIT 0x020 [0] JTAG_LOCK: By R382; set only -/
def VIT.JTAG_LOCK : Fld :=
  ⟨0x0B, 0x020, 0, 1, 0, .rw, .supervisor, .any, false⟩

/-- VIT 0x024 [0] FROZEN: In Vitrine -/
def VIT.FROZEN : Fld :=
  ⟨0x0B, 0x024, 0, 1, 0, .ro, .supervisor, .any, false⟩

/-- VIT 0x024 [2:1] CAUSE: Last entry: 1 pin, 2 JTAG; 0 none -/
def VIT.CAUSE : Fld :=
  ⟨0x0B, 0x024, 1, 2, 0, .ro, .supervisor, .any, false⟩

/-- VIT 0x024 [3] DEFERRED: Last entry deferred by R384 -/
def VIT.DEFERRED : Fld :=
  ⟨0x0B, 0x024, 3, 1, 0, .ro, .supervisor, .any, false⟩

/-- VIT 0x028 [31:0] ENTRIES: Entries; saturates -/
def VIT.ENTRIES : Fld :=
  ⟨0x0B, 0x028, 0, 32, 0, .ro, .supervisor, .any, false⟩

/-- VIT 0x02C, 0x030 [31:0; 7:0] ENTRY_SEC_LO, _HI: CAL_SEC of the last entry; LO latches HI -/
def VIT.ENTRY_SEC : Fld :=
  ⟨0x0B, 0x02C, 0, 64, 0, .ro, .supervisor, .any, true⟩

/-- VIT 0x034, 0x038 [31:0] ENTRY_EPOCH_LO, _HI: Epoch number at the last entry -/
def VIT.ENTRY_EPOCH : Fld :=
  ⟨0x0B, 0x034, 0, 64, 0, .ro, .supervisor, .any, true⟩

/-- VIT 0x040 [31:0] CANARY_COUNT: Injections; saturates -/
def VIT.CANARY_COUNT : Fld :=
  ⟨0x0B, 0x040, 0, 32, 0, .ro, .supervisor, .any, false⟩

/-- VIT 0x044 [31:0] CANARY_REFUSED: By R391; saturates -/
def VIT.CANARY_REFUSED : Fld :=
  ⟨0x0B, 0x044, 0, 32, 0, .ro, .supervisor, .any, false⟩

/-- VIT 0x048 [12:0] LAST_INJ: Page [7:0], POINT [12:8] -/
def VIT.LAST_INJ : Fld :=
  ⟨0x0B, 0x048, 0, 13, 0, .ro, .supervisor, .any, false⟩

/-- SYS 0x020 [15:0] PART: 0x9640, by R3 -/
def SYS.PART : Fld :=
  ⟨0x00, 0x020, 0, 16, 0, .ro, .supervisor, .any, false⟩

/-- SYS 0x020 [23:16] STEPPING: 0xB1 -/
def SYS.STEPPING : Fld :=
  ⟨0x00, 0x020, 16, 8, 0, .ro, .supervisor, .any, false⟩

/-- SYS 0x024 [0] TWIN_POS: Strap, sampled by R338 -/
def SYS.TWIN_POS : Fld :=
  ⟨0x00, 0x024, 0, 1, 0, .ro, .datapath, .any, false⟩

/-- SYS 0x024 [2:1] GANG_ID: GANG_ID_1 in bit 2, GANG_ID_0 in bit 1 -/
def SYS.GANG_ID : Fld :=
  ⟨0x00, 0x024, 1, 2, 0, .ro, .datapath, .any, false⟩

/-- SYS 0x024 [3] ENERGY_DECL_EN: Strap, sampled by R338 -/
def SYS.ENERGY_DECL_EN : Fld :=
  ⟨0x00, 0x024, 3, 1, 0, .ro, .supervisor, .any, false⟩

/-- SYS 0x028 [0] OPEN: Data service open -/
def SYS.OPEN : Fld :=
  ⟨0x00, 0x028, 0, 1, 0, .ro, .datapath, .any, false⟩

/-- SYS 0x028 [15:8] MIN_SET: The conditions of R13 in their listed order, bit 8 first: supervisor, curator, image, epoch, host link, commit engine, volatile member, dies -/
def SYS.MIN_SET : Fld :=
  ⟨0x00, 0x028, 8, 8, 0, .ro, .datapath, .any, false⟩

/-- SYS 0x028 [16] FILLED: CEL.STATUS.FILL_DONE, by R214 -/
def SYS.FILLED : Fld :=
  ⟨0x00, 0x028, 16, 1, 0, .ro, .datapath, .any, false⟩

/-- SYS 0x028 [17] LOCKED: CLK.STATUS.LOCK, by R312 -/
def SYS.LOCKED : Fld :=
  ⟨0x00, 0x028, 17, 1, 0, .ro, .datapath, .any, false⟩

/-- SYS 0x028 [18] GANG_OK: GNG.STATUS.FORMED, by R160 -/
def SYS.GANG_OK : Fld :=
  ⟨0x00, 0x028, 18, 1, 0, .ro, .datapath, .any, false⟩

/-- SYS 0x028 [19] VHC_OK: VHC_EFF of at least 1 GiB, by R187 -/
def SYS.VHC_OK : Fld :=
  ⟨0x00, 0x028, 19, 1, 0, .ro, .datapath, .any, false⟩

/-- SYS 0x030 … 0x03C [31:0] SERIAL_0 … SERIAL_3: The SERIAL of IDENTIFY, byte 0 at the lowest address -/
def SYS.SERIAL (i : Nat) : Fld :=
  ⟨0x00, (0x030 + 0x4 * i), 0, 32, 0x20202020, .ro, .supervisor, .any, false⟩

/-- SYS 0x040 … 0x05C [31:0] PEND_0 … PEND_7: Bit p mod 32 of PEND_(p ÷ 32): page p pending by R403 -/
def SYS.PEND (i : Nat) : Fld :=
  ⟨0x00, (0x040 + 0x4 * i), 0, 32, 0, .ro, .supervisor, .any, false⟩

/-- SYS 0x060 … 0x07C [31:0] PCIE_MASK_0 … _7: 1: page contributes to the PCIe interrupt; reset 0 -/
def SYS.PCIE_MASK (i : Nat) : Fld :=
  ⟨0x00, (0x060 + 0x4 * i), 0, 32, 0, .rw, .supervisor, .any, false⟩

/-- SYS 0x080 … 0x09C [31:0] CUR_MASK_0 … _7: 1: page contributes to the curator interrupt; reset 0 -/
def SYS.CUR_MASK (i : Nat) : Fld :=
  ⟨0x00, (0x080 + 0x4 * i), 0, 32, 0, .rw, .management, .any, false⟩

/-- SYS 0x0A0 [31:0] BAD_ACCESS: Accesses refused by R396; saturates -/
def SYS.BAD_ACCESS : Fld :=
  ⟨0x00, 0x0A0, 0, 32, 0, .ro, .supervisor, .any, false⟩

/-- SYS 0x0A4 [19:0] LAST_BAD_ADDR: Offset of the last access counted in BAD_ACCESS by R396 or in EXPERT_DENIED by R404 -/
def SYS.LAST_BAD_ADDR : Fld :=
  ⟨0x00, 0x0A4, 0, 20, 0, .ro, .supervisor, .any, false⟩

/-- SYS 0x0A4 [22:20] LAST_BAD_PATH: 0 PCIe, 1 SMBus, 2 to 5 curator 0 to 3 -/
def SYS.LAST_BAD_PATH : Fld :=
  ⟨0x00, 0x0A4, 20, 3, 0, .ro, .supervisor, .any, false⟩

/-- SYS 0x0A4 [25:24] LAST_BAD_KIND: 0 width or alignment, 1 reserved page, 2 expert denied -/
def SYS.LAST_BAD_KIND : Fld :=
  ⟨0x00, 0x0A4, 24, 2, 0, .ro, .supervisor, .any, false⟩

/-- SYS 0x0A8 [31:0] EXPERT_DENIED: Writes ignored by R404; saturates -/
def SYS.EXPERT_DENIED : Fld :=
  ⟨0x00, 0x0A8, 0, 32, 0, .ro, .supervisor, .any, false⟩

/-- SYS 0x0B0 … 0x0BC [31:0] SCRATCH_0 … _3: For the integrator; no effect on the device; reset 0 -/
def SYS.SCRATCH (i : Nat) : Fld :=
  ⟨0x00, (0x0B0 + 0x4 * i), 0, 32, 0, .rw, .supervisor, .any, false⟩

/-- SYS 0x400 [0] CANARY_ARM: 1: CANARY registers accept writes, by R391; reset 0 -/
def SYS.CANARY_ARM : Fld :=
  ⟨0x00, 0x400, 0, 1, 0, .rwe, .supervisor, .any, false⟩

/-- PCE 0x020 [0] LINK_UP: Link trained -/
def PCE.LINK_UP : Fld :=
  ⟨0xE0, 0x020, 0, 1, 0, .ro, .supervisor, .any, false⟩

/-- PCE 0x020 [3:1] SPEED: 1 to 5: 2.5, 5, 8, 16, 32 GT/s -/
def PCE.SPEED : Fld :=
  ⟨0xE0, 0x020, 1, 3, 0, .ro, .supervisor, .any, false⟩

/-- PCE 0x020 [6:4] WIDTH: Lanes: 1, 2 or 4 -/
def PCE.WIDTH : Fld :=
  ⟨0xE0, 0x020, 4, 3, 0, .ro, .supervisor, .any, false⟩

/-- PCE 0x024 [0] MSIX_EN: Copy of the MSI-X enable of configuration space -/
def PCE.MSIX_EN : Fld :=
  ⟨0xE0, 0x024, 0, 1, 0, .ro, .supervisor, .any, false⟩

/-- PCE 0x024 [1] MSIX_MASKED: Function or vector masked -/
def PCE.MSIX_MASKED : Fld :=
  ⟨0xE0, 0x024, 1, 1, 0, .ro, .supervisor, .any, false⟩

/-- PCE counter CORR_ERR at 0x040 (LO, then HI). -/
def PCE.CORR_ERR : Fld :=
  ⟨0xE0, 0x040, 0, 64, 0, .ro, .supervisor, .any, true⟩

/-- PCE counter UNCORR_ERR at 0x048 (LO, then HI). -/
def PCE.UNCORR_ERR : Fld :=
  ⟨0xE0, 0x048, 0, 64, 0, .ro, .supervisor, .any, true⟩

/-- PCE counter TLP_RX at 0x050 (LO, then HI). -/
def PCE.TLP_RX : Fld :=
  ⟨0xE0, 0x050, 0, 64, 0, .ro, .supervisor, .any, true⟩

/-- PCE 0x100 … 0x10C [31:0] MSIX_ADDR_LO, MSIX_ADDR_HI, MSIX_DATA, MSIX_CTRL: The MSI-X table entry of vector 0; MSIX_CTRL bit 0 masks it -/
def PCE.MSIX_ADDR_LO : Fld :=
  ⟨0xE0, 0x100, 0, 32, 0, .rw, .supervisor, .any, false⟩

/-- PCE 0x100 … 0x10C [31:0] MSIX_ADDR_LO, MSIX_ADDR_HI, MSIX_DATA, MSIX_CTRL: The MSI-X table entry of vector 0; MSIX_CTRL bit 0 masks it -/
def PCE.MSIX_ADDR_HI : Fld :=
  ⟨0xE0, 0x104, 0, 32, 0, .rw, .supervisor, .any, false⟩

/-- PCE 0x100 … 0x10C [31:0] MSIX_ADDR_LO, MSIX_ADDR_HI, MSIX_DATA, MSIX_CTRL: The MSI-X table entry of vector 0; MSIX_CTRL bit 0 masks it -/
def PCE.MSIX_DATA : Fld :=
  ⟨0xE0, 0x108, 0, 32, 0, .rw, .supervisor, .any, false⟩

/-- PCE 0x100 … 0x10C [31:0] MSIX_ADDR_LO, MSIX_ADDR_HI, MSIX_DATA, MSIX_CTRL: The MSI-X table entry of vector 0; MSIX_CTRL bit 0 masks it -/
def PCE.MSIX_CTRL : Fld :=
  ⟨0xE0, 0x10C, 0, 32, 0, .rw, .supervisor, .any, false⟩

/-- PCE 0x200 [0] MSIX_PBA: Pending bit of vector 0 -/
def PCE.MSIX_PBA : Fld :=
  ⟨0xE0, 0x200, 0, 1, 0, .ro, .supervisor, .any, false⟩

/-- SMB 0x020 [0] PEC_REQ: 1: transactions without PEC are discarded by R398; reset 0 -/
def SMB.PEC_REQ : Fld :=
  ⟨0xE1, 0x020, 0, 1, 0, .rw, .supervisor, .any, false⟩

/-- SMB 0x024 [6:0] ADDR: Target address by R398 -/
def SMB.ADDR : Fld :=
  ⟨0xE1, 0x024, 0, 7, 0, .ro, .supervisor, .any, false⟩

/-- SMB 0x028 [31:0] TRANSACTIONS: Transactions completed; saturates -/
def SMB.TRANSACTIONS : Fld :=
  ⟨0xE1, 0x028, 0, 32, 0, .ro, .supervisor, .any, false⟩

/-- SMB 0x02C [31:0] PEC_ERR: Discarded for PEC; saturates -/
def SMB.PEC_ERR : Fld :=
  ⟨0xE1, 0x02C, 0, 32, 0, .ro, .supervisor, .any, false⟩

/-- SMB 0x030 [31:0] TIMEOUTS: Clock-low timeouts; saturates -/
def SMB.TIMEOUTS : Fld :=
  ⟨0xE1, 0x030, 0, 32, 0, .ro, .supervisor, .any, false⟩

/-- SMB 0x034 [31:0] NAKED: Transactions NAKed by R398; saturates -/
def SMB.NAKED : Fld :=
  ⟨0xE1, 0x034, 0, 32, 0, .ro, .supervisor, .any, false⟩

/-- The fields of page SYS outside its header, in the table's order. -/
def SYS.fields : List Fld :=
  [SYS.PART, SYS.STEPPING, SYS.TWIN_POS, SYS.GANG_ID, SYS.ENERGY_DECL_EN, SYS.OPEN, SYS.MIN_SET, SYS.FILLED, SYS.LOCKED, SYS.GANG_OK, SYS.VHC_OK] ++
  (List.range 4).map (SYS.SERIAL) ++
  (List.range 8).map (SYS.PEND) ++
  (List.range 8).map (SYS.PCIE_MASK) ++
  (List.range 8).map (SYS.CUR_MASK) ++
  [SYS.BAD_ACCESS, SYS.LAST_BAD_ADDR, SYS.LAST_BAD_PATH, SYS.LAST_BAD_KIND, SYS.EXPERT_DENIED] ++
  (List.range 4).map (SYS.SCRATCH) ++
  [SYS.CANARY_ARM]

/-- The fields of page RST outside its header, in the table's order. -/
def RST.fields : List Fld :=
  [RST.SW_MGMT, RST.SW_DP, RST.CAUSE] ++
  (List.range 4).map (RST.STRETCH) ++
  (List.range 4).map (RST.SRC) ++
  [RST.RESET_N_LEVEL, RST.ON_BACKUP]

/-- The fields of page PSQ outside its header, in the table's order. -/
def PSQ.fields : List Fld :=
  [PSQ.SEQ_GO, PSQ.PARK, PSQ.WAKE_SIG_EN, PSQ.SEQ_STATE, PSQ.SEQ_LOCKED, PSQ.PARK_STATE, PSQ.WAKE_REASON, PSQ.SEQ_LEN, PSQ.FAIL_ENTRY, PSQ.DIS_LATE] ++
  (List.range 16).map (PSQ.EN) ++
  (List.range 16).map (PSQ.CH) ++
  (List.range 16).map (PSQ.DELAY_MS) ++
  (List.range 16).map (PSQ.UP_TMO_MS) ++
  (List.range 16).map (PSQ.GOOD_MIN) ++
  (List.range 16).map (PSQ.GOOD_MAX) ++
  (List.range 16).map (PSQ.DIS_MAX) ++
  (List.range 16).map (PSQ.DIS_TMO_MS)

/-- The fields of page SCN outside its header, in the table's order. -/
def SCN.fields : List Fld :=
  [SCN.SCANS, SCN.CH_USED] ++
  (List.range 32).map (SCN.CODE)

/-- The fields of page CLK outside its header, in the table's order. -/
def CLK.fields : List Fld :=
  [CLK.DLL_EN, CLK.LOCK, CLK.CORE_SYN_LOCK, CLK.SRD_SYN_LOCK, CLK.RETRAIN_BUSY, CLK.MSCAN_BUSY, CLK.LOCK_PATH_FAULT, CLK.DLL_IN_WIN, CLK.SENSE_CODE, CLK.DLL_SEL, CLK.FSP_SEL, CLK.DLL_CODE, CLK.CODE_VALID, CLK.PHASE_ERR_PS, CLK.CAL_EN, CLK.START, CLK.MEMBER, CLK.SUB, CLK.LANE_SEL, CLK.MSCAN_RESULT, CLK.RETRAIN_RESULT, CLK.CAL_STEPS, CLK.CAL_SAVES, CLK.RECORD_CRC_FAIL] ++
  [CLK.LOCK_LOSSES, CLK.RETRAIN_START, CLK.RETRAIN_MEMBER, CLK.LOCK_THR, CLK.CAL_SLOT_EPOCHS, CLK.SEED_WIN, CLK.MSCAN_MIN]

/-- The fields of page EPC outside its header, in the table's order. -/
def EPC.fields : List Fld :=
  [EPC.ALIGN_EN, EPC.RELAY_EN, EPC.STATE, EPC.HOLDOVER, EPC.LEADER, EPC.DLL_LOCK, EPC.EPOCH_LO, EPC.EPOCH_HI, EPC.PERIOD_MEAS, EPC.FLAGS_LAST, EPC.MISSED, EPC.STEP_SKIP, EPC.ADIT_DELAY, EPC.WIN_TOL, EPC.FORCE_HOLDOVER]

/-- The fields of page RTC outside its header, in the table's order. -/
def RTC.fields : List Fld :=
  [RTC.SEC, RTC.MIN, RTC.HOUR, RTC.DAY, RTC.MONTH, RTC.YEAR_OFS, RTC.FRAC, RTC.CAL_SEC, RTC.CAL_VALID, RTC.BAD_DATE, RTC.CAL_END, RTC.OSC_FAIL, RTC.SET_TIME, RTC.SET_DATE, RTC.APPLY]

/-- The fields of page CEN outside its header, in the table's order. -/
def CEN.fields : List Fld :=
  [CEN.PERIOD_MIN, CEN.FULL, CEN.CLEARING, CEN.HELD, CEN.NEXT_SLOT, CEN.CURSOR, CEN.DROPPED, CEN.OOC_SUPPRESSED, CEN.SAMPLES] ++
  (List.range 64).map (CEN.WIN) ++
  (List.range 16).map (CEN.RAIL_SUM) ++
  [CEN.OOC_PER_HOUR, CEN.TJ_WARN]

/-- The fields of page NOR outside its header, in the table's order. -/
def NOR.fields : List Fld :=
  [NOR.ADDR, NOR.DATA, NOR.OP, NOR.BANK_BUSY, NOR.RESULT, NOR.COMMIT_REQ, NOR.COMMIT_BANK, NOR.COMMIT_RESULT, NOR.COMMIT_BUSY, NOR.ACTIVE_BANK, NOR.NEXT_BANK, NOR.DL_BYTES, NOR.PROGRAMS, NOR.ERASES, NOR.NOT_ERASED, NOR.READ_STALLS, NOR.PF_HITS, NOR.BC_HITS, NOR.PF_EN, NOR.BC_EN]

/-- The fields of page CUR outside its header, in the table's order. -/
def CUR.fields : List Fld :=
  [CUR.RUN, CUR.FW_READY, CUR.FALLBACK, CUR.RECOVERY, CUR.RUNNING] ++
  (List.range 4).map (CUR.WDT_EN) ++
  (List.range 4).map (CUR.WDT_PERIOD) ++
  (List.range 4).map (CUR.WDT_KICK) ++
  [CUR.LAST_WDT, CUR.LAST_LOCKUP, CUR.BOOT_MS, CUR.BAD_KICKS]

/-- The fields of page FEN outside its header, in the table's order. -/
def FEN.fields : List Fld :=
  [FEN.LAST_CAUSE, FEN.LAST_CURATOR, FEN.LAST_ADDR] ++
  (List.range 7).map (FEN.COUNT)

/-- The fields of page VIT outside its header, in the table's order. -/
def VIT.fields : List Fld :=
  [VIT.JTAG_LOCK, VIT.FROZEN, VIT.CAUSE, VIT.DEFERRED, VIT.ENTRIES, VIT.ENTRY_SEC, VIT.ENTRY_EPOCH, VIT.CANARY_COUNT, VIT.CANARY_REFUSED, VIT.LAST_INJ]

/-- The fields of page THM outside its header, in the table's order. -/
def THM.fields : List Fld :=
  [THM.THROTTLED, THM.TRIPPED, THM.SENSOR_LOW, THM.TJ_C, THM.TJ_PEAK_C, THM.SENSOR_SEL, THM.SENSOR_C, THM.SENSOR_VALID, THM.THRESHOLDS, THM.THROTTLE_EPOCHS, THM.THROTTLE_PCT]

/-- The fields of page HP outside its header, in the table's order. -/
def HP.fields (n : Nat) : List Fld :=
  [HP.MODE n, HP.PFC_EN n, HP.PFC_PRIO n, HP.LINK_UP n, HP.REMOTE_FAULT n, HP.HI_BER n, HP.RX_FRAMES n, HP.TX_FRAMES n, HP.RX_FCS_ERR n, HP.FEC_CORR n, HP.FEC_UNCORR n, HP.PFC_RX n, HP.PFC_TX n] ++
  (List.range 8).map (HP.MAC_LO n) ++
  (List.range 8).map (HP.MAC_HI n) ++
  (List.range 8).map (HP.VID n) ++
  (List.range 8).map (HP.PCP n) ++
  (List.range 8).map (HP.VLAN_EN n) ++
  [HP.LOOPBACK n, HP.PFC_XOFF_PCT n]

/-- The fields of page XPT outside its header, in the table's order. -/
def XPT.fields (n : Nat) : List Fld :=
  [XPT.UDP_PORT n, XPT.UDP_PORT_SEALED n, XPT.IPV4_EN n, XPT.IPV6_EN n, XPT.SEAL_EN n, XPT.SEAL_REQUIRED n, XPT.SEAL_CH n, XPT.DSCP_TX n, XPT.SEAL_TX_KEY n, XPT.RX_REQ n, XPT.RX_DUP n, XPT.RX_STALE n, XPT.RX_DROP n, XPT.TX_RSP n, XPT.TX_ACK n, XPT.TX_NAK n, XPT.AUTH_FAIL n, XPT.FWD n, XPT.RX_RETX n] ++
  (List.range 8).map (XPT.IPV4 n) ++
  (List.range 8).map (XPT.IPV6_W0 n) ++
  (List.range 8).map (XPT.IPV6_W1 n) ++
  (List.range 8).map (XPT.IPV6_W2 n) ++
  (List.range 8).map (XPT.IPV6_W3 n) ++
  [XPT.NAK_LIMIT n, XPT.ACK_RUNS_MAX n]

/-- The fields of page QMG outside its header, in the table's order. -/
def QMG.fields : List Fld :=
  [QMG.QCTX_SEL, QMG.OVERSUBSCRIBED] ++
  (List.range 16).map (QMG.QCTX) ++
  [QMG.D_WR, QMG.D_RD, QMG.D_FL, QMG.D_REQ, QMG.SUM_WR, QMG.SUM_RD, QMG.SUM_FL, QMG.SUM_REQ, QMG.SCALE, QMG.ACTIVE_QUEUES, QMG.ADM0_DOORBELL, QMG.BUSY, QMG.DONE, QMG.SEGS, QMG.OVER_CONTRACT, QMG.SEAL_HELD, QMG.OVERSUB_EN, QMG.FL_SHARE_PCT]

/-- The fields of page WIN outside its header, in the table's order. -/
def WIN.fields : List Fld :=
  [WIN.WIN_SEL, WIN.DOM_SEL, WIN.WLB_PIPE_SEL, WIN.WINDOWS_USED, WIN.DOMAINS_USED] ++
  (List.range 16).map (WIN.DESC) ++
  (List.range 8).map (WIN.DOM) ++
  [WIN.WLB_HIT, WIN.WLB_MISS, WIN.PF_USED, WIN.VIOL, WIN.VIOL_SUPPRESSED, WIN.SINGLE_EN, WIN.PF_NEXT_ONLY]

/-- The fields of page CMT outside its header, in the table's order. -/
def CMT.fields : List Fld :=
  [CMT.TWIN_STATE, CMT.DIVERGED, CMT.REHOME_SRC, CMT.CLAIM, CMT.PEER_CLAIM, CMT.COMMITTED, CMT.PLACED, CMT.HASH, CMT.STAGED_BYTES, CMT.TALLY_LATE, CMT.REPAIRED, CMT.DROPPED, CMT.REHOME_DONE_MIB, CMT.REHOME_TOTAL_MIB, CMT.PAIR_TMO, CMT.FORCE_FRESH]

/-- The fields of page ADT outside its header, in the table's order. -/
def ADT.fields : List Fld :=
  [ADT.SEAL_EN, ADT.LANE_OK, ADT.ALIGNED, ADT.LINK_UP, ADT.KEY_WAIT, ADT.SEAL_TX_KEY, ADT.SEAL_RX_KEY, ADT.TX_FRAMES, ADT.RX_FRAMES, ADT.RX_DROP, ADT.RESEND_TX, ADT.RESEND_RX, ADT.FEC_CORR, ADT.FEC_UNCORR, ADT.MARKER_MISS, ADT.LOOPBACK]

/-- The fields of page DFT outside its header, in the table's order. -/
def DFT.fields (n : Nat) : List Fld :=
  [DFT.LINK_EN n, DFT.LANE_OK n, DFT.ALIGNED n, DFT.LINK_UP n, DFT.PEER_POS n, DFT.DELAY n, DFT.TX_FRAMES n, DFT.RX_FRAMES n, DFT.RX_DROP n, DFT.FWD_BYTES_TX n, DFT.FWD_BYTES_RX n, DFT.FEC_CORR n, DFT.FEC_UNCORR n, DFT.MARKER_MISS n, DFT.LOOPBACK n]

/-- The fields of page GNG outside its header, in the table's order. -/
def GNG.fields : List Fld :=
  [GNG.SIZE, GNG.FWD_EN, GNG.POS, GNG.FORMED, GNG.LINKS_UP, GNG.DEV_ID, GNG.TWIN_DEV_ID] ++
  (List.range 4).map (GNG.MEMBER) ++
  [GNG.SPAN_GIB, GNG.GUARD_NS]

/-- The fields of page TIR outside its header, in the table's order. -/
def TIR.fields : List Fld :=
  [TIR.PROMOTE_EN, TIR.DEMOTE_EN, TIR.MOVES_ACTIVE, TIR.HOT_MIB, TIR.WARM_MIB, TIR.FLASH_GIB, TIR.VOL_MIB, TIR.DOM_SEL, TIR.BOOK_HOT, TIR.BOOK_WARM, TIR.BOOK_FLASH, TIR.OWNED_MIB, TIR.PROMOTIONS, TIR.DEMOTE_HOT_WARM, TIR.DEMOTE_FLASH, TIR.ABANDONED, TIR.READS_UNPROMOTED, TIR.PLACE_WAIT, TIR.HOT_HI_PCT, TIR.HOT_LO_PCT, TIR.VHC_HI_PCT, TIR.VHC_LO_PCT]

/-- The fields of page MUS outside its header, in the table's order. -/
def MUS.fields : List Fld :=
  [MUS.PFAIL_EN, MUS.BI_EN, MUS.STATE, MUS.DECL_LOCKED, MUS.AREA_NEXT, MUS.AREA_READY, MUS.VHC_SHORT, MUS.RESTORE_VALID, MUS.LAST_CAUSES, MUS.DECL_J, MUS.VHC_MAX, MUS.VHC, MUS.VHC_EFF, MUS.BI_CH, MUS.BI_MIN, MUS.LAST_SERIAL, MUS.LAST_MUSTER_US, MUS.LAST_RESTORE_MS, MUS.MUSTERS, MUS.ARM, MUS.MR_MBS, MUS.AREA_GIB]

/-- The fields of page STK outside its header, in the table's order. -/
def STK.fields (n : Nat) : List Fld :=
  [STK.DRAIN n, STK.IN_SERVICE n, STK.DRAINED n, STK.REF_X2 n, STK.TRAINED n, STK.SLICE_FAILED n, STK.TEMP_C n, STK.CORR n, STK.UNCORR n, STK.CA_PARITY n, STK.REF_POSTPONED n] ++
  (List.range 14).map (STK.SLICE_CORR n) ++
  [STK.FORCE_X2 n]

/-- The fields of page DCH outside its header, in the table's order. -/
def DCH.fields (n : Nat) : List Fld :=
  [DCH.FSP n, DCH.DRAIN n, DCH.RANK_EN n, DCH.IN_SERVICE n, DCH.DRAINED n, DCH.FSP_ACTIVE n, DCH.REF_X2 n, DCH.TRAINED n, DCH.TEMP_OVER n, DCH.DEV_FAILED n, DCH.CORR n, DCH.UNCORR n, DCH.CA_PARITY n, DCH.FSP_FALLS n, DCH.REF_POSTPONED n, DCH.MASKED_WRITES n] ++
  (List.range 28).map (DCH.DEV_CORR n) ++
  [DCH.DFE_EN n, DCH.FORCE_X2 n]

/-- The fields of page CEL outside its header, in the table's order. -/
def CEL.fields : List Fld :=
  [CEL.HOT_ORDER, CEL.HOT_GRAIN, CEL.HOT_WAYS, CEL.WARM_ORDER, CEL.WARM_GRAIN, CEL.WARM_WAYS, CEL.UE_YIELD_EN, CEL.FILL_START, CEL.FILL_BUSY, CEL.FILL_DONE, CEL.SCRUB_PCT, CEL.SCRUB_PASSES, CEL.SCRUB_STRAY, CEL.G_RD, CEL.G_WR, CEL.H] ++
  (List.range 22).map (CEL.USED) ++
  (List.range 22).map (CEL.BEHIND) ++
  [CEL.EFF_PCT, CEL.HOST_RD_PCT, CEL.FAIL_THR] ++
  (List.range 6).map (fun i => CEL.RSV (16 + i))

/-- The fields of page FCH outside its header, in the table's order. -/
def FCH.fields (n : Nat) : List Fld :=
  [FCH.DIES n, FCH.RATE n, FCH.TRAINED n, FCH.IN_SERVICE n, FCH.DIE_PRESENT n, FCH.DIE_FAILED n, FCH.PAGE_READS n, FCH.PAGE_PROGRAMS n, FCH.BLOCK_ERASES n, FCH.CORR_BITS n, FCH.READ_RETRIES n, FCH.CW_UNCORR n, FCH.PROGRAM_FAIL n, FCH.ERASE_FAIL n, FCH.RETRY_MAX n]

/-- The fields of page FTL outside its header, in the table's order. -/
def FTL.fields : List Fld :=
  [FTL.SLC_EN, FTL.PRES_LB, FTL.LOGS_FREE, FTL.SLC_USED, FTL.SLC_TARGET, FTL.FREE_BLOCKS, FTL.RETIRED, FTL.WEAR_MIN, FTL.WEAR_MAX, FTL.USER_BYTES, FTL.PROG_BYTES, FTL.SWITCH_MERGES, FTL.PARTIAL_MERGES, FTL.FULL_MERGES, FTL.FOLDS, FTL.LOG_RESERVE, FTL.SLC_ENTER_MS, FTL.ROW_HOLD_MS, FTL.ENDURANCE]

/-- The fields of page PAR outside its header, in the table's order. -/
def PAR.fields : List Fld :=
  [PAR.REBUILD_EN, PAR.REBUILDING, PAR.RESHAPING, PAR.REBUILD_STALL, PAR.MA_DEGRADED, PAR.LOST_FULL, PAR.DIES_HEALTHY, PAR.DIES_FAILED, PAR.ROWS, PAR.ROWS_OPEN, PAR.REBUILD_LEFT, PAR.RESHAPE_LB, PAR.LOST_USED, PAR.LAYOUT_SEL] ++
  (List.range 9).map (PAR.LAYOUT) ++
  [PAR.START, PAR.KIND, PAR.NEW_SPREAD, PAR.TIMEOUTS, PAR.RECON_READS, PAR.Q_RECON, PAR.LOST_SECTORS, PAR.PARITY_LOCATED, PAR.PARITY_UNLOCATED, PAR.REBUILT_LB, PAR.VOID_GROUPS, PAR.READ_TMO_US, PAR.RECON_AT_US, PAR.SPREAD, PAR.REBUILD_TARGET_MIN, PAR.CLEAR_DIE, PAR.CLEAR_GO]

/-- The fields of page PTL outside its header, in the table's order. -/
def PTL.fields : List Fld :=
  [PTL.PERIOD_DAYS, PTL.PASS_PCT, PTL.BEHIND, PTL.PASSES, PTL.LAST_PASS_S, PTL.PAGES_READ, PTL.REFRESHES, PTL.PARITY_MISMATCH, PTL.RETRY_PAGES, PTL.REFRESH_BITS]

/-- The fields of page CPH outside its header, in the table's order. -/
def CPH.fields : List Fld :=
  [CPH.STORE_KEY, CPH.ENT_OK, CPH.DRBG_SEEDED, CPH.PRIV_ERASED, CPH.ALARM_CAUSE, CPH.PINNED, CPH.MISMATCH, CPH.SUSPENDS, CPH.STORE_AUTH_FAIL, CPH.UNTRUSTED_DELIVERED, CPH.DRBG_RESEEDS, CPH.DELIVER_UNTRUSTED]

/-- The fields of page KST outside its header, in the table's order. -/
def KST.fields : List Fld :=
  [KST.INST_SEL, KST.LOADED, KST.ALG, KST.MODE, KST.CLASS, KST.LEGACY, KST.RETIRED, KST.KEK_OF_SEL, KST.COUNTER, KST.MARK, KST.INSTANCES_USED, KST.MARKS_USED, KST.ROOT_ID, KST.KS_FORMAT]

/-- The fields of page CCH outside its header, in the table's order. -/
def CCH.fields (n : Nat) : List Fld :=
  [CCH.IN_SERVICE n, CCH.LEGACY_ACTIVE n, CCH.CTX_USED n, CCH.SUBST n, CCH.BLOCKS n, CCH.MESSAGES n, CCH.AUTH_FAIL n, CCH.MISMATCH n, CCH.SUSPENDS n, CCH.LEGACY_BLOCKS n]

/-- The fields of page ACC outside its header, in the table's order. -/
def ACC.fields : List Fld :=
  [ACC.JRN_SEL, ACC.BOUND, ACC.KEY_OK, ACC.FULL, ACC.JRN_WINDOW, ACC.KEY_INST, ACC.NEXT_ACC, ACC.WP, ACC.LAST_SEAL, ACC.ASM_USED, ACC.RECORDS, ACC.SEALS, ACC.CLOCK_RECORDS, ACC.CLOCK_UNRECORDED, ACC.RESTARTS, ACC.GAPS, ACC.TAG_HELD, ACC.PC_COUNT]

/-- The fields of page PCE outside its header, in the table's order. -/
def PCE.fields : List Fld :=
  [PCE.LINK_UP, PCE.SPEED, PCE.WIDTH, PCE.MSIX_EN, PCE.MSIX_MASKED, PCE.CORR_ERR, PCE.UNCORR_ERR, PCE.TLP_RX, PCE.MSIX_ADDR_LO, PCE.MSIX_ADDR_HI, PCE.MSIX_DATA, PCE.MSIX_CTRL, PCE.MSIX_PBA]

/-- The fields of page SMB outside its header, in the table's order. -/
def SMB.fields : List Fld :=
  [SMB.PEC_REQ, SMB.ADDR, SMB.TRANSACTIONS, SMB.PEC_ERR, SMB.TIMEOUTS, SMB.NAKED]

/-- The fields of page `p` outside its header. -/
def pageFields (p : Nat) : List Fld :=
  if p == 0x00 then SYS.fields else
  if p == 0x01 then RST.fields else
  if p == 0x02 then PSQ.fields else
  if p == 0x03 then SCN.fields else
  if p == 0x04 then CLK.fields else
  if p == 0x05 then EPC.fields else
  if p == 0x06 then RTC.fields else
  if p == 0x07 then CEN.fields else
  if p == 0x08 then NOR.fields else
  if p == 0x09 then CUR.fields else
  if p == 0x0A then FEN.fields else
  if p == 0x0B then VIT.fields else
  if p == 0x0C then THM.fields else
  if 0x10 ≤ p && p < 0x20 then HP.fields (p - 0x10) else
  if 0x20 ≤ p && p < 0x30 then XPT.fields (p - 0x20) else
  if p == 0x30 then QMG.fields else
  if p == 0x31 then WIN.fields else
  if p == 0x32 then CMT.fields else
  if p == 0x33 then ADT.fields else
  if 0x34 ≤ p && p < 0x37 then DFT.fields (p - 0x34) else
  if p == 0x37 then GNG.fields else
  if p == 0x38 then TIR.fields else
  if p == 0x39 then MUS.fields else
  if 0x40 ≤ p && p < 0x48 then STK.fields (p - 0x40) else
  if 0x48 ≤ p && p < 0x50 then DCH.fields (p - 0x48) else
  if p == 0x50 then CEL.fields else
  if 0x60 ≤ p && p < 0xA0 then FCH.fields (p - 0x60) else
  if p == 0xA0 then FTL.fields else
  if p == 0xA1 then PAR.fields else
  if p == 0xA2 then PTL.fields else
  if p == 0xB0 then CPH.fields else
  if p == 0xB1 then KST.fields else
  if 0xB2 ≤ p && p < 0xC8 then CCH.fields (p - 0xB2) else
  if p == 0xD0 then ACC.fields else
  if p == 0xE0 then PCE.fields else
  if p == 0xE1 then SMB.fields else
  []

/-! ## The event bits of the pages -/

/-- HP event bit 0: A sub-link lost link -/
def HP.evLINK_DOWN : Nat := 0

/-- HP event bit 1: A sub-link came up -/
def HP.evLINK_UP_EVT : Nat := 1

/-- HP event bit 2: A sub-link entered high bit-error state -/
def HP.evHI_BER_EVT : Nat := 2

/-- HP event bit 3: An uncorrectable codeword -/
def HP.evFEC_UNCORR_EVT : Nat := 3

/-- HP event bit 4: A priority held in XOFF for more than 1 ms -/
def HP.evPFC_HELD : Nat := 4

/-- HP event bit 5: MODE written while enabled -/
def HP.evMODE_REJECT : Nat := 5

/-- XPT event bit 0: Datagram dropped by R43 for a bad ICRC; other drops raise no event -/
def XPT.evICRC_ERR : Nat := 0

/-- XPT event bit 1: STALE_REQUEST sent -/
def XPT.evSTALE : Nat := 1

/-- XPT event bit 2: NAK suppressed by R53 -/
def XPT.evNAK_LIMITED : Nat := 2

/-- XPT event bit 3: Tag failure by R71 -/
def XPT.evAUTH_FAIL_EVT : Nat := 3

/-- XPT event bit 4: Datagram dropped by R69 -/
def XPT.evSEAL_DROP : Nat := 4

/-- XPT event bit 5: Device request cap of R56 reached this epoch -/
def XPT.evREQ_CAP : Nat := 5

/-- EPC event bit 0: Alignment reached or reacquired -/
def EPC.evALIGNED : Nat := 0

/-- EPC event bit 1: EPOCH declared lost -/
def EPC.evLOST : Nat := 1

/-- EPC event bit 2: Holdover entered -/
def EPC.evHOLDOVER_ENTER : Nat := 2

/-- EPC event bit 3: Relay followed -/
def EPC.evRELAY_ENTER : Nat := 3

/-- EPC event bit 4: Bad frame, CRC or stuffing: raised for every frame whose SYNC is recognised and whose stuffing or CRC fails, in every state and whether or not the SYNC falls in the window -/
def EPC.evCRC_ERR : Nat := 4

/-- EPC event bit 5: Good frame with unexpected number -/
def EPC.evNUM_MISMATCH : Nat := 5

/-- EPC event bit 6: Source number refused -/
def EPC.evNUM_BEHIND : Nat := 6

/-- EPC event bit 7: Spacing outside the legal range during search -/
def EPC.evPERIOD_ILLEGAL : Nat := 7

/-- EPC event bit 8: Reserved flag bit set -/
def EPC.evRSVD_FLAGS : Nat := 8

/-- EPC event bit 9: Reacquisition step -/
def EPC.evSTEP : Nat := 9

/-- EPC event bit 10: A good frame of the own input disagreed with the relay, by R32 -/
def EPC.evSRC_DISAGREE : Nat := 10

/-- QMG event bit 0: SCALE changed -/
def QMG.evGUARANTEE_CHANGE : Nat := 0

/-- QMG event bit 1: An ACCESSION queue froze -/
def QMG.evQUEUE_FROZEN_EVT : Nat := 1

/-- QMG event bit 2: ADMISSION_REFUSED by R102 -/
def QMG.evCONTRACT_REFUSED : Nat := 2

/-- QMG event bit 3: Oversubscribed contract accepted -/
def QMG.evOVERSUB_ACCEPT : Nat := 3

/-- QMG event bit 4: Doorbell while BUSY -/
def QMG.evADM0_OVERRUN : Nat := 4

/-- QMG event bit 5: Queue 0 answer complete -/
def QMG.evADM0_DONE : Nat := 5

/-- WIN event bit 0: Report posted by R122 -/
def WIN.evVIOLATION : Nat := 0

/-- WIN event bit 1: An OPEN took effect -/
def WIN.evWINDOW_IN_FORCE : Nat := 1

/-- WIN event bit 2: A fence epoch began -/
def WIN.evFENCE : Nat := 2

/-- WIN event bit 3: A REVOKE or CLOSE answered -/
def WIN.evREVOKE_DONE : Nat := 3

/-- WIN event bit 4: A request or segment ended by the cut-offs of R118 -/
def WIN.evCUTOFF : Nat := 4

/-- WIN event bit 5: DISCARD or CLOSE refused for retention -/
def WIN.evRETENTION_BLOCK : Nat := 5

/-- CMT event bit 0: Late tally by R133 -/
def CMT.evTALLY_LATE : Nat := 0

/-- CMT event bit 1: Declaration by R144 -/
def CMT.evTWIN_LOST : Nat := 1

/-- CMT event bit 2: Hash mismatch -/
def CMT.evDIVERGED_EVT : Nat := 2

/-- CMT event bit 3: Union not whole in time by R136 -/
def CMT.evREPAIR_OVER : Nat := 3

/-- CMT event bit 4: Pair formed or resumed -/
def CMT.evPAIRED_EVT : Nat := 4

/-- CMT event bit 5: Re-homing began -/
def CMT.evREHOME_START : Nat := 5

/-- CMT event bit 6: Join at J -/
def CMT.evREHOME_DONE : Nat := 6

/-- CMT event bit 7: DEPART or YIELD received -/
def CMT.evDEPART_RX : Nat := 7

/-- CMT event bit 8: Claim changed -/
def CMT.evCLAIM_CHANGE : Nat := 8

/-- ADT event bit 0: LINK_UP fell -/
def ADT.evLINK_DOWN : Nat := 0

/-- ADT event bit 1: LINK_UP rose -/
def ADT.evLINK_UP_EVT : Nat := 1

/-- ADT event bit 2: Two markers missing -/
def ADT.evALIGN_LOST : Nat := 2

/-- ADT event bit 3: Uncorrectable codeword -/
def ADT.evFEC_UNCORR_EVT : Nat := 3

/-- ADT event bit 4: Frame dropped by R152 -/
def ADT.evFRAME_DROP : Nat := 4

/-- ADT event bit 5: KEY_WAIT set -/
def ADT.evKEY_WAIT_EVT : Nat := 5

/-- ADT event bit 6: Frame requested but no longer kept -/
def ADT.evRESEND_FAIL : Nat := 6

/-- GNG event bit 0: FORMED rose -/
def GNG.evGANG_FORMED : Nat := 0

/-- GNG event bit 1: Disagreement by R160 -/
def GNG.evGANG_MISMATCH : Nat := 1

/-- GNG event bit 2: By R168 -/
def GNG.evMEMBER_LOST : Nat := 2

/-- GNG event bit 3: NOT_HOME by R166 -/
def GNG.evNOT_HOME_SENT : Nat := 3

/-- DFT event bit 0: LINK_UP fell -/
def DFT.evLINK_DOWN : Nat := 0

/-- DFT event bit 1: LINK_UP rose -/
def DFT.evLINK_UP_EVT : Nat := 1

/-- DFT event bit 2: Two markers missing -/
def DFT.evALIGN_LOST : Nat := 2

/-- DFT event bit 3: Uncorrectable codeword -/
def DFT.evFEC_UNCORR_EVT : Nat := 3

/-- DFT event bit 4: Frame dropped by R152 -/
def DFT.evFRAME_DROP : Nat := 4

/-- DFT event bit 5: Peer position breaks R159 -/
def DFT.evPEER_WRONG : Nat := 5

/-- TIR event bit 0: A write held by R187 -/
def TIR.evCEILING : Nat := 0

/-- TIR event bit 1: A write held, or a move refused, for a tier book -/
def TIR.evQUOTA_FULL : Nat := 1

/-- TIR event bit 2: A move abandoned -/
def TIR.evMOVE_ABANDON : Nat := 2

/-- TIR event bit 3: A placement waited by R180 -/
def TIR.evPLACE_WAIT_EVT : Nat := 3

/-- TIR event bit 4: Reserve of R187 exhausted -/
def TIR.evRESERVE_EMPTY : Nat := 4

/-- MUS event bit 0: Step 1 began -/
def MUS.evMUSTER_START : Nat := 0

/-- MUS event bit 1: Step 6 reached -/
def MUS.evMUSTER_DONE : Nat := 1

/-- MUS event bit 2: Restore valid and complete -/
def MUS.evRESTORE_DONE : Nat := 2

/-- MUS event bit 3: Restore failed verification -/
def MUS.evRESTORE_INVALID : Nat := 3

/-- MUS event bit 4: VHC_SHORT set -/
def MUS.evVHC_SHORT_EVT : Nat := 4

/-- MUS event bit 5: VHC_EFF below 1 GiB -/
def MUS.evDECL_LOW : Nat := 5

/-- MUS event bit 6: Write above VHC ignored -/
def MUS.evVHC_RAISE : Nat := 6

/-- MUS event bit 7: AREA_READY set -/
def MUS.evAREA_READY_EVT : Nat := 7

/-- STK event bit 0: A slice marked failed -/
def STK.evDEV_FAILED : Nat := 0

/-- STK event bit 1: Uncorrectable cell by R211 -/
def STK.evUNCORR_EVT : Nat := 1

/-- STK event bit 2: Replay by R224 -/
def STK.evCA_PARITY_EVT : Nat := 2

/-- STK event bit 3: Stack left service by R224 -/
def STK.evOUT_OF_SERVICE : Nat := 3

/-- STK event bit 4: REF_X2 changed -/
def STK.evREF_X2_EVT : Nat := 4

/-- STK event bit 5: By R226 -/
def STK.evDISABLE_REJECT : Nat := 5

/-- DCH event bit 0: A device marked failed -/
def DCH.evDEV_FAILED_EVT : Nat := 0

/-- DCH event bit 1: Uncorrectable cell by R211 -/
def DCH.evUNCORR_EVT : Nat := 1

/-- DCH event bit 2: Replay by R224 -/
def DCH.evCA_PARITY_EVT : Nat := 2

/-- DCH event bit 3: Set point lowered by R224 -/
def DCH.evFSP_FALL : Nat := 3

/-- DCH event bit 4: Set point write ignored by R225 -/
def DCH.evFSP_REJECT : Nat := 4

/-- DCH event bit 5: Channel left service by R224 -/
def DCH.evOUT_OF_SERVICE : Nat := 5

/-- DCH event bit 6: TEMP_OVER set -/
def DCH.evTEMP_OVER_EVT : Nat := 6

/-- DCH event bit 7: By R226 -/
def DCH.evDISABLE_REJECT : Nat := 7

/-- CEL event bit 0: Fill complete -/
def CEL.evFILL_DONE_EVT : Nat := 0

/-- CEL event bit 1: A poison bit set by R211 -/
def CEL.evPOISON : Nat := 1

/-- CEL event bit 2: YIELD sent by R212 -/
def CEL.evUE_YIELD : Nat := 2

/-- CEL event bit 3: Scrub pass complete -/
def CEL.evSCRUB_PASS : Nat := 3

/-- CEL event bit 4: By R221 -/
def CEL.evRSV_REJECT : Nat := 4

/-- CEL event bit 5: A background port behind by R222 -/
def CEL.evBEHIND_EVT : Nat := 5

/-- FCH event bit 0: By R231 -/
def FCH.evDIE_MISMATCH : Nat := 0

/-- FCH event bit 1: A die below DIES did not answer -/
def FCH.evDIE_ABSENT : Nat := 1

/-- FCH event bit 2: Block retired by R241 -/
def FCH.evPROGRAM_FAIL_EVT : Nat := 2

/-- FCH event bit 3: Block retired by R241 -/
def FCH.evERASE_FAIL_EVT : Nat := 3

/-- FCH event bit 4: Codeword uncorrectable after retry -/
def FCH.evCW_UNCORR_EVT : Nat := 4

/-- FTL event bit 0: LOGS_FREE below LOG_RESERVE ÷ 2 -/
def FTL.evLOG_SHORT : Nat := 0

/-- FTL event bit 1: By R232 -/
def FTL.evSPARE_LOW : Nat := 1

/-- FTL event bit 2: By R242 -/
def FTL.evWEAR_LIMIT : Nat := 2

/-- FTL event bit 3: SLC_USED above SLC_TARGET -/
def FTL.evSLC_OVER : Nat := 3

/-- FTL event bit 4: A placement waits by R240 or R243 -/
def FTL.evZERO_WAIT : Nat := 4

/-- PTL event bit 0: Pass complete -/
def PTL.evPASS_DONE : Nat := 0

/-- PTL event bit 1: Block due for refresh by R247 -/
def PTL.evREFRESH_EVT : Nat := 1

/-- PTL event bit 2: By R248 -/
def PTL.evPARITY_MISMATCH_EVT : Nat := 2

/-- PTL event bit 3: BEHIND set -/
def PTL.evBEHIND_EVT : Nat := 3

/-- PAR event bit 0: Die declared failed by R256 -/
def PAR.evDIE_FAILED_EVT : Nat := 0

/-- PAR event bit 1: Read timeout -/
def PAR.evTIMEOUT_EVT : Nat := 1

/-- PAR event bit 2: Rebuild began or grew -/
def PAR.evREBUILD_START : Nat := 2

/-- PAR event bit 3: REBUILD_LEFT reached 0 -/
def PAR.evREBUILD_DONE : Nat := 3

/-- PAR event bit 4: By R261 -/
def PAR.evREBUILD_STALL_EVT : Nat := 4

/-- PAR event bit 5: Lost-list entry made by R260 -/
def PAR.evSECTOR_LOST : Nat := 5

/-- PAR event bit 6: Reshape complete -/
def PAR.evRESHAPE_DONE : Nat := 6

/-- PAR event bit 7: Command ignored by R267 -/
def PAR.evRESHAPE_REJECT : Nat := 7

/-- PAR event bit 8: Lost list full -/
def PAR.evLOST_FULL_EVT : Nat := 8

/-- PAR event bit 9: Die taken off the failed-die list by R258 -/
def PAR.evDIE_CLEARED : Nat := 9

/-- ACC event bit 0: By R277 -/
def ACC.evJOURNAL_FULL : Nat := 0

/-- ACC event bit 1: CLOCK record not written by R277 -/
def ACC.evRESERVE_EXHAUSTED : Nat := 1

/-- ACC event bit 2: ACCESSION_GAP by R276 or R282 -/
def ACC.evGAP : Nat := 2

/-- ACC event bit 3: CLOCK records appended by R280 -/
def ACC.evCLOCK_STEP : Nat := 3

/-- ACC event bit 4: RESTART record appended -/
def ACC.evRESTART_REC : Nat := 4

/-- ACC event bit 5: KEY_INST write ignored by R271 -/
def ACC.evKEY_REJECT : Nat := 5

/-- CPH event bit 0: Alarm by R299 -/
def CPH.evALARM : Nat := 0

/-- CPH event bit 1: Health test failed by R297 -/
def CPH.evENT_FAIL : Nat := 1

/-- CPH event bit 2: Channels halted by R297 -/
def CPH.evDRBG_HALT : Nat := 2

/-- CPH event bit 3: Channel out of service by R298 -/
def CPH.evCHANNEL_FAULT : Nat := 3

/-- CPH event bit 4: By R301 -/
def CPH.evSTORE_AUTH_FAIL_EVT : Nat := 4

/-- CPH event bit 5: By R296 -/
def CPH.evSTORE_KEY_REJECT : Nat := 5

/-- KST event bit 0: LOAD completed -/
def KST.evKEY_LOADED : Nat := 0

/-- KST event bit 1: Record not reloaded by R289 -/
def KST.evKEY_RELOAD_FAIL : Nat := 1

/-- KST event bit 2: By R291 -/
def KST.evKEY_RETIRED : Nat := 2

/-- KST event bit 3: The last free entry of the mark table was taken. A LOAD later refused for a full table by R288 raises nothing further -/
def KST.evMARK_FULL : Nat := 3

/-- KST event bit 4: KS_FORMAT ignored -/
def KST.evFORMAT_REJECT : Nat := 4

/-- CCH event bit 0: A message failed its tag -/
def CCH.evAUTH_FAIL_EVT : Nat := 0

/-- CCH event bit 1: Comparison mismatch by R298 -/
def CCH.evMISMATCH_EVT : Nat := 1

/-- CCH event bit 2: Channel left service by R298 -/
def CCH.evOUT_OF_SERVICE : Nat := 2

/-- CCH event bit 3: Keys erased by R299; privileged channels only -/
def CCH.evKEY_ERASED : Nat := 3

/-- CCH event bit 4: A message waited for a context by R300 -/
def CCH.evCTX_FULL : Nat := 4

/-- CLK event bit 0: LOCK declared -/
def CLK.evLOCK_GAINED : Nat := 0

/-- CLK event bit 1: By R312 -/
def CLK.evLOCK_LOST : Nat := 1

/-- CLK event bit 2: By R312 -/
def CLK.evLOCK_PATH_FAULT_EVT : Nat := 2

/-- CLK event bit 3: A DLL left its window by R308 -/
def CLK.evDLL_OUT : Nat := 3

/-- CLK event bit 4: Margin scan complete -/
def CLK.evMSCAN_DONE : Nat := 4

/-- CLK event bit 5: Retraining complete -/
def CLK.evRETRAIN_DONE : Nat := 5

/-- CLK event bit 6: By R322 -/
def CLK.evRETRAIN_REFUSED : Nat := 6

/-- CLK event bit 7: Record programmed by R318 -/
def CLK.evCAL_SAVED : Nat := 7

/-- PSQ event bit 0: Power-up complete -/
def PSQ.evSEQ_DONE : Nat := 0

/-- PSQ event bit 1: By R327 -/
def PSQ.evSEQ_FAULT : Nat := 1

/-- PSQ event bit 2: By R326 -/
def PSQ.evTABLE_REJECT : Nat := 2

/-- PSQ event bit 3: By R329 -/
def PSQ.evRAIL_OUT : Nat := 3

/-- PSQ event bit 4: By R330 -/
def PSQ.evDIS_LATE_EVT : Nat := 4

/-- PSQ event bit 5: By R343 -/
def PSQ.evPARK_REJECT : Nat := 5

/-- PSQ event bit 6: PARKED entered -/
def PSQ.evPARKED_EVT : Nat := 6

/-- PSQ event bit 7: AWAKE entered by R344 -/
def PSQ.evWOKEN : Nat := 7

/-- SCN event bit 0: A used channel converted at code 0 or 16,383 -/
def SCN.evSAT : Nat := 0

/-- RST event bit 0: By R339 -/
def RST.evCLOCK_FAIL : Nat := 0

/-- RST event bit 1: A management-only reset took place -/
def RST.evMGMT_RESET : Nat := 1

/-- RST event bit 2: Record programmed by R332 -/
def RST.evLAST_RECORD : Nat := 2

/-- THM event bit 0: Throttle entered -/
def THM.evTHROTTLE_ON : Nat := 0

/-- THM event bit 1: Throttle left -/
def THM.evTHROTTLE_OFF : Nat := 1

/-- THM event bit 2: By R342 -/
def THM.evTRIP : Nat := 2

/-- THM event bit 3: By R340 -/
def THM.evSENSOR_FAULT : Nat := 3

/-- NOR event bit 0: Curator operation ended -/
def NOR.evOP_DONE : Nat := 0

/-- NOR event bit 1: By R352 -/
def NOR.evNOT_ERASED_EVT : Nat := 1

/-- NOR event bit 2: By R354 -/
def NOR.evFENCED_EVT : Nat := 2

/-- NOR event bit 3: Record programmed by R360 -/
def NOR.evCOMMIT_DONE : Nat := 3

/-- NOR event bit 4: Verification failed -/
def NOR.evCOMMIT_FAIL : Nat := 4

/-- CUR event bit 0: The last reset came from a watchdog -/
def CUR.evWDT_RESET : Nat := 0

/-- CUR event bit 1: The last reset came from a lock-up -/
def CUR.evLOCKUP_RESET : Nat := 1

/-- CUR event bit 2: Booted by fallback -/
def CUR.evFALLBACK_BOOT : Nat := 2

/-- CUR event bit 3: FW_READY set -/
def CUR.evFW_READY_EVT : Nat := 3

/-- FEN event bit k - 1: An attempt of cause k, k = 1 to 6 -/
def FEN.evCAUSE (k : Nat) : Nat := k - 1

/-- CEN event bit 0: SUMMARY record written -/
def CEN.evSUMMARY_DONE : Nat := 0

/-- CEN event bit 1: OUT_OF_CYCLE record written -/
def CEN.evOOC_DONE : Nat := 1

/-- CEN event bit 2: FULL set -/
def CEN.evSTORE_FULL : Nat := 2

/-- CEN event bit 3: A record written with OVF -/
def CEN.evOVF_EVT : Nat := 3

/-- CEN event bit 4: Clear complete -/
def CEN.evCLEAR_DONE : Nat := 4

/-- RTC event bit 0: Set refused -/
def RTC.evBAD_DATE_EVT : Nat := 0

/-- RTC event bit 1: Set accepted -/
def RTC.evSET_DONE : Nat := 1

/-- RTC event bit 2: End of range reached -/
def RTC.evCAL_END_EVT : Nat := 2

/-- RTC event bit 3: By R378 -/
def RTC.evOSC_FAIL_EVT : Nat := 3

/-- VIT event bit 0: Entry by R383 -/
def VIT.evVITRINE_ENTERED : Nat := 0

/-- VIT event bit 1: By R382 -/
def VIT.evJTAG_REFUSED : Nat := 1

/-- VIT event bit 2: An injection took place -/
def VIT.evCANARY_FIRED : Nat := 2

/-- VIT event bit 3: By R391 -/
def VIT.evCANARY_REFUSED_EVT : Nat := 3

/-- SYS event bit 0: An access counted by R396 -/
def SYS.evBAD_ACCESS_EVT : Nat := 0

/-- SYS event bit 1: A write ignored by R404 -/
def SYS.evEXPERT_DENIED_EVT : Nat := 1

/-- SYS event bit 2: OPEN rose -/
def SYS.evSERVICE_OPENED : Nat := 2

/-- SYS event bit 3: OPEN fell -/
def SYS.evSERVICE_CLOSED : Nat := 3

/-- PCE event bit 0: LINK_UP fell -/
def PCE.evLINK_DOWN : Nat := 0

/-- PCE event bit 1: LINK_UP rose -/
def PCE.evLINK_UP_EVT : Nat := 1

/-- PCE event bit 2: An uncorrectable error was logged -/
def PCE.evUNCORR_EVT : Nat := 2

/-- SMB event bit 0: A transaction discarded for PEC -/
def SMB.evPEC_ERR_EVT : Nat := 0

/-- SMB event bit 1: A clock-low timeout -/
def SMB.evTIMEOUT_EVT : Nat := 1

/-- How many event bits the layout of page `p` defines. -/
def pageEvents (p : Nat) : Nat :=
  if p == 0x00 then 4 else
  if p == 0x01 then 3 else
  if p == 0x02 then 8 else
  if p == 0x03 then 1 else
  if p == 0x04 then 8 else
  if p == 0x05 then 11 else
  if p == 0x06 then 4 else
  if p == 0x07 then 5 else
  if p == 0x08 then 5 else
  if p == 0x09 then 4 else
  if p == 0x0A then 6 else
  if p == 0x0B then 4 else
  if p == 0x0C then 4 else
  if 0x10 ≤ p && p < 0x20 then 6 else
  if 0x20 ≤ p && p < 0x30 then 6 else
  if p == 0x30 then 6 else
  if p == 0x31 then 6 else
  if p == 0x32 then 9 else
  if p == 0x33 then 7 else
  if 0x34 ≤ p && p < 0x37 then 6 else
  if p == 0x37 then 4 else
  if p == 0x38 then 5 else
  if p == 0x39 then 8 else
  if 0x40 ≤ p && p < 0x48 then 6 else
  if 0x48 ≤ p && p < 0x50 then 8 else
  if p == 0x50 then 6 else
  if 0x60 ≤ p && p < 0xA0 then 5 else
  if p == 0xA0 then 5 else
  if p == 0xA1 then 10 else
  if p == 0xA2 then 4 else
  if p == 0xB0 then 6 else
  if p == 0xB1 then 5 else
  if 0xB2 ≤ p && p < 0xC8 then 5 else
  if p == 0xD0 then 6 else
  if p == 0xE0 then 3 else
  if p == 0xE1 then 2 else
  0

end Sys2Proof.Machine
end

