-- ==== Sys2Proof/Machine/Types.lean ====
section
/-! DEFINITION. The parts of the machine's state, chapter by chapter: plain data. Numbers that the spec gives a width
are kept below it by the operations that write them; counts and epoch numbers that do not wrap in service are plain
numbers. -/

namespace Sys2Proof.Machine

/-! ## Epochs (R16 to R37) -/

/-- EPC.STATE (R25, R30, R31). -/
inductive EpState | search | aligned | relay | holdover
  deriving DecidableEq, Repr

/-- EPC.STATE as its field shows it. -/
def EpState.code : EpState → Nat
  | .search => 0 | .aligned => 1 | .relay => 2 | .holdover => 3

/-- A pair of frames that met R23: the second frame's edge and number, and the spacing. -/
structure AlignPair where
  edge : Nat
  num : Nat
  spacing : Nat
  deriving DecidableEq, Repr

/-- A relay marker received (R28): epoch number and arrival. -/
structure Marker where
  num : Nat
  arrival : Nat
  deriving DecidableEq, Repr

/-- The epoch receiver. -/
structure EpochSt where
  state : EpState := .search
  /-- The current epoch number. -/
  num : Nat := 0
  /-- The last boundary, in 1/256 of a core cycle. -/
  last256 : Nat := 0
  /-- Has any boundary been issued since the datapath reset? -/
  running : Bool := false
  /-- PERIOD_MEAS: the period in 1/256 of a core cycle; 0 before a measurement. -/
  period : Nat := 0
  /-- The spacings in the measurement, newest first, at most 256 (R22). -/
  spacings : List Nat := []
  /-- The last good frame: edge and number (R23). -/
  lastGood : Option (Nat × Nat) := none
  /-- The SYNC edge at which the current epoch's boundary was issued, if it was. -/
  edge : Option Nat := none
  /-- Was a frame checked since the last boundary? -/
  seen : Bool := false
  /-- Missed frames in a row (R26). -/
  missRow : Nat := 0
  /-- An alignment or a reacquisition decided but not yet in effect (R23, R33). -/
  target : Option AlignPair := none
  /-- EPOCH lost and the leader's markers usable: RELAY from the next boundary (R30). -/
  relayNext : Bool := false
  /-- Agreeing good frames seen in RELAY (R32). -/
  agree : Nat := 0
  /-- The count reached 16: back to the own input at the next boundary (R32). -/
  returning : Bool := false
  /-- The relay markers received that are not behind the current epoch, oldest first (R29). -/
  markers : List Marker := []
  /-- Expected boundaries in a row without a marker (R30). -/
  markerMiss : Nat := 0
  deriving DecidableEq, Repr

/-! ## Host links, requests and answers (R38 to R73) -/

/-- The return addresses of a request (R44): where an answer goes, and over which drift link when the request was
forwarded (R165). -/
structure RetAddr where
  link : HostLink
  ip6 : Bool := false
  mac : BitVec 48 := 0
  ip : BitVec 128 := 0
  port : BitVec 16 := 0
  tag : Option VlanTag := none
  sport : BitVec 16 := 0
  sealed : Bool := false
  drift : Option (Fin 3) := none
  deriving DecidableEq, Repr

/-- A request as the device holds it. -/
structure Req where
  hdr : ReqHdr
  op : Nat
  payload : List Byte := []
  /-- When it arrived, in core cycles. -/
  time : Nat := 0
  /-- The epoch of its tag (R130). -/
  epoch : Nat := 0
  /-- The epoch in which it arrived. -/
  arrived : Nat := 0
  /-- The epoch in which step 12 admitted it. -/
  admitted : Option Nat := none
  /-- A refusal that it carries (R130). -/
  refusal : Option Nat := none
  /-- Did its seal tag fail (R71)? -/
  authBad : Bool := false
  /-- Where its answer goes; `none` on a request that arrived only by repair. -/
  ret : Option RetAddr := none
  /-- Did a line channel's, or the tag allowance, hold it (R100, R278)? -/
  sealHeld : Bool := false
  tagHeld : Bool := false
  /-- Executed again as a duplicate (R58)? -/
  dup : Bool := false
  /-- The array faults that the cells it touches show (R210). -/
  cells : List CellFault := []
  deriving DecidableEq, Repr

/-- An entry of the recent-request table (R56, R58). -/
structure RrtEntry where
  key : ReqKey
  epoch : Nat
  answered : Bool := false
  isNak : Bool := false
  readOnly : Bool := false
  /-- The request's TWIN_MASK leaves this device out (R55). -/
  mute : Bool := false
  status : Nat := 0
  data : List Byte := []
  /-- The epoch that the answer carried (R49), and whether a refusal was not sent (R124). -/
  told : Nat := 0
  quiet : Bool := false
  /-- Of a request received: its return addresses and its arrival, for the ACK of its epoch (R61). -/
  ret : Option RetAddr := none
  time : Nat := 0
  deriving DecidableEq, Repr

/-- A read, or a segment of one, that waits (R90, R118, R256). -/
structure Pending where
  req : Req
  /-- Flash pages it waits for, as extent × 4 + page of the slot. -/
  fetch : List Nat := []
  /-- Pages that failed authentication, in the same form (R301), and pages that are lost (R260). -/
  bad : List Nat := []
  gone : List Nat := []
  /-- The range of gang addresses that it reads. -/
  ga : Nat := 0
  len : Nat := 0
  /-- Segments already sent, with their statuses. -/
  sent : NMap Nat := []
  /-- Remote data asked for and not yet arrived, by tag; what arrived: gang address, status, data (R167). -/
  asked : List Nat := []
  remote : List (Nat × Nat × List Byte) := []
  /-- Does it still wait for an overlapping staged write (R90)? -/
  blocked : Bool := false
  /-- Did any of its extents have no promotion (R301)? -/
  unpromoted : Bool := false
  deriving DecidableEq, Repr

/-- The header of a datagram that the device sends to a host (R48). -/
structure AnsHdr where
  typ : Nat
  twinPos : Bool
  last : Bool := false
  retry : Bool := false
  srcEp : Nat := 0
  devId : Nat := 0
  qid : Nat := 0
  claim : Nat := 0
  seq : Nat := 0
  epochLo : Nat := 0
  status : Nat := 0
  untrusted : Bool := false
  singleTwin : Bool := false
  duplicate : Bool := false
  scaled : Bool := false
  creditSeq : Nat := 0
  segment : Nat := 0
  op : Nat := 0
  deriving DecidableEq, Repr

/-- A datagram that waits to be sent: its link is paused (R41), or its sealing instance waits for a mark (R290). -/
structure Waiting where
  dst : RetAddr
  hdr : AnsHdr
  data : List Byte
  /-- The queue and the sequence whose slot returns once it is sent (R60). -/
  slot : Option (Nat × Nat) := none
  /-- Of a final answer, the class that its latency counts under, and the request's arrival (R367). -/
  lat : Option (Nat × Nat) := none
  deriving DecidableEq, Repr

/-- The Ethernet and IP headers of a frame sent on a host link (R39, R40, R44). -/
structure FrameHead where
  dstMac : BitVec 48
  srcMac : BitVec 48
  tag : Option VlanTag
  ip6 : Bool
  dstIp : BitVec 128
  srcIp : BitVec 128
  /-- DSCP and ECN. -/
  tos : Byte
  /-- DF of an IPv4 header. -/
  df : Bool
  deriving DecidableEq, Repr

/-- A UDP header's ports and checksum (R39, R44). -/
structure UdpHead where
  srcPort : BitVec 16
  dstPort : BitVec 16
  sum : Nat
  deriving DecidableEq, Repr

/-- The network side: host ports and the recent-request table. -/
structure NetSt where
  /-- Until when PFC pauses a transmit priority, by link × 8 + priority (R41). -/
  paused : NMap Nat := []
  /-- Datagrams that wait to be sent, in order. -/
  waiting : List Waiting := []
  /-- Forwarded answers that wait for a paused priority (R165). -/
  relays : List (RetAddr × List Byte) := []
  /-- Priorities for which XOFF is in force towards the link (R41). -/
  xoff : NMap Nat := []
  /-- Final NAKs sent in this epoch, per port (R53). -/
  naks : NMap Nat := []
  /-- The recent-request table, by key. -/
  rrt : NMap RrtEntry := []
  /-- Entries created in this epoch, and the carried excess (R56). -/
  count : Nat := 0
  excess : Nat := 0
  /-- Requests held at step 12, in order of arrival (R99, R131). -/
  held : List Req := []
  /-- Read-only requests not yet answered, in order of arrival. -/
  reads : List Pending := []
  deriving DecidableEq, Repr

/-! ## Queues (R74 to R110) -/

/-- A queue's state (R76). -/
inductive QState | free | active | frozen | deleting
  deriving DecidableEq, Repr

/-- The STATE code of a queue context (R77). -/
def QState.code : QState → Nat
  | .free => 0 | .active => 1 | .frozen => 2 | .deleting => 3

/-- A queue contract: write, read and flash bytes and requests per epoch (R77). -/
structure Contract where
  wr : Nat := 0
  rd : Nat := 0
  fl : Nat := 0
  reqs : Nat := 0
  deriving DecidableEq, Repr

/-- A queue: its context of R77 and what the device keeps beside it. -/
structure Queue where
  state : QState := .free
  /-- CLASS of R77: 0 ADMIN, 1 DATA, 2 ACCESSION. -/
  cls : Nat := 0
  priv : Bool := false
  depth : Nat := 0
  srcEp : Nat := 0
  domain : Nat := 0
  journal : Nat := 0
  key : Nat := 0
  initSeq : Nat := 0
  floor : Nat := 0
  ret : Nat := 0
  high : Nat := 0
  ct : Contract := {}
  inFlight : Nat := 0
  freezeSeq : Nat := 0
  freezeStatus : Nat := 0
  freezeEpoch : Nat := 0
  /-- Allowances of R99. -/
  alWr : Int := 0
  alRd : Int := 0
  alFl : Int := 0
  alReq : Int := 0
  /-- Sequences past RET whose slots have returned (R60). -/
  returned : List Nat := []
  /-- A QUEUE CREATE or QUEUE RESTART committed, in effect at the next boundary (R76). -/
  activate : Bool := false
  /-- A QUEUE DELETE committed: its epoch (R76). -/
  delEpoch : Option Nat := none
  /-- A SET FEATURE QUEUE_CONTRACT committed, in effect at the next boundary (R102). -/
  newCt : Option Contract := none
  /-- Return addresses of the most recent request, by epoch (R61). -/
  addrs : List (Nat × RetAddr) := []
  /-- The record that an ACCESSION queue is assembling: its bytes so far, and the next sequence (R275). -/
  buffer : List Byte := []
  bufSeq : Option Nat := none
  bufEpoch : Nat := 0
  /-- Last accession number committed from the queue (R105). -/
  lastAcc : Nat := 0
  deriving DecidableEq, Repr

/-- An event of an event page (R105). -/
structure Event where
  num : Nat
  epoch : Nat
  typ : Nat
  qid : Nat
  detail : Nat
  deriving DecidableEq, Repr

/-- An ADMIN queue's event page (R105). -/
structure EventPage where
  next : Nat := 0
  lost : Nat := 0
  events : List Event := []
  deriving DecidableEq, Repr

/-- The queue manager. -/
structure QueueSt where
  q : NMap Queue := []
  /-- Deliverable figures as last computed (R101). -/
  fig : Contract := {}
  /-- SCALE as QMG.SCALE holds it (R102). -/
  scale : Nat := 65536
  /-- SCALE in force, as a ratio (R102). -/
  scaleIn : Nat × Nat := (1, 1)
  oversub : Bool := false
  /-- Must the figures be computed again at the next boundary (R103)? -/
  refigure : Bool := true
  pages : NMap EventPage := []
  /-- Allowance of each line channel (R99). -/
  alLine : NMap Int := []
  /-- Queue 0: request buffer and answer slots of memory region 1 (R82), by byte offset. -/
  region1 : NMap Byte := []
  adm0Busy : Bool := false
  adm0Done : Bool := false
  adm0Segs : Nat := 0
  deriving DecidableEq, Repr

/-! ## Domains and windows (R111 to R129) -/

/-- A domain's state; `opening` and `ending` stand for a CREATE and a DELETE committed and not yet in effect (R112). -/
inductive DState | free | opening | active | ending
  deriving DecidableEq, Repr

/-- The STATE code of R111: of a domain whose DELETE has committed DELETING. DESIGN CHOICE (log entry 71): R111 has no code for
one whose CREATE has committed, which shows 0. -/
def DState.code : DState → Nat
  | .free => 0 | .opening => 0 | .active => 1 | .ending => 2

/-- A protection domain (R111). -/
structure Domain where
  state : DState := .free
  quotaHot : Nat := 0
  quotaWarm : Nat := 0
  quotaFlash : Nat := 0
  deriving DecidableEq, Repr

/-- A window's state (R113). -/
inductive WState | free | opening | open | revoking | closing
  deriving DecidableEq, Repr

/-- The STATE code of R113. -/
def WState.code : WState → Nat
  | .free => 0 | .opening => 1 | .open => 2 | .revoking => 3 | .closing => 4

/-- What a window admits: generation, key and rights (R113), and the retention that holds back a DISCARD (R121). -/
structure Grant where
  gen : Nat := 0
  key : Nat := 0
  rights : Nat := 0
  retain : Nat := 0
  deriving DecidableEq, Repr

/-- A window descriptor (R113) and what revocation keeps beside it (R118). -/
structure Window where
  state : WState := .free
  cur : Grant := {}
  pendKey : Nat := 0
  pendRights : Nat := 0
  base : Nat := 0
  length : Nat := 0
  domain : Nat := 0
  tierPref : Nat := 0
  duplex : Bool := false
  worm : Bool := false
  homeHint : Nat := 0
  journalEn : Bool := false
  journal : Nat := 0
  retain : Nat := 0
  effect : Nat := 0
  fence : Nat := 0
  /-- Has the boundary that begins the fence epoch passed? -/
  fenced : Bool := false
  /-- From which epoch on what was in force, latest first; `none` from where nothing is (R117, R118, R121). -/
  hist : List (Nat × Option Grant) := []
  /-- MODIFY committed, in effect at the next boundary: TIER_PREF and RETAIN_UNTIL (R117). -/
  modify : Option (Nat × Nat) := none
  /-- The REVOKE or CLOSE to answer when its conditions hold (R118). -/
  answer : Option Req := none
  deriving DecidableEq, Repr

/-- A window lookaside buffer entry set of one ingress pipeline (R125). -/
structure Wlb where
  /-- Three banks of 16 window numbers. -/
  banks : List (List (Option Nat)) := []
  /-- The 15-bit recency tree of each bank. -/
  trees : List Nat := []
  /-- The banks in order of use, least recent first. -/
  order : List Nat := []
  /-- The side buffer, oldest first. -/
  side : List Nat := []
  deriving DecidableEq, Repr

/-- Domains, windows and the lookaside buffers. -/
structure WinSt where
  dom : NMap Domain := []
  win : NMap Window := []
  wlb : NMap Wlb := []
  /-- WLB counters per pipeline: hits, misses, side-buffer uses. -/
  hits : NMap Nat := []
  misses : NMap Nat := []
  pfUsed : NMap Nat := []
  /-- (SRC_EP, WINDOW) pairs reported in this epoch (R122). -/
  reported : List (Nat × Nat) := []
  /-- Table changes received, to be applied at the boundary (R169): gang position, order, epoch C, payload. -/
  tables : List (Nat × Nat × Nat × List Byte) := []
  deriving DecidableEq, Repr

/-! ## Commit and the twin (R130 to R157) -/

/-- CMT.TWIN_STATE (R143). -/
inductive TwinState | start | paired | alone | returning
  deriving DecidableEq, Repr

/-- The TWIN_STATE code of the CMT page. -/
def TwinState.code : TwinState → Nat
  | .start => 0 | .paired => 1 | .alone => 2 | .returning => 3

/-- The peer's tally for an epoch, as far as it has arrived (R132). -/
structure PeerTally where
  hashPrev : Nat := 0
  placed : Nat := 0
  calSec : Nat := 0
  claim : Nat := 0
  runs : Nat := 0
  wrBytes : Nat := 0
  holdover : Bool := false
  /-- Has its first frame, with the fixed part, arrived? -/
  first : Bool := false
  /-- Keys named so far, in arrival order. -/
  keys : List ReqKey := []
  entries : Nat := 0
  whole : Bool := false
  /-- When its last frame came, in core cycles (R133). -/
  wholeAt : Nat := 0
  /-- Was TALLY_LATE raised for it? -/
  late : Bool := false
  deriving DecidableEq, Repr

/-- What a twin knows of one epoch that has not yet committed and placed. -/
structure EpochRec where
  /-- The requests it holds tagged with the epoch, by rank in commit order's key (R130, R134). -/
  reqs : NMap Req := []
  /-- The keys its own tally names (R132). -/
  own : List ReqKey := []
  ownSent : Bool := false
  peer : PeerTally := {}
  /-- UNION_WHOLE received, and sent (R134). -/
  peerHolds : Bool := false
  saidWhole : Bool := false
  repaired : Bool := false
  /-- ACKs sent (R61). -/
  acked : Bool := false
  /-- Keys committed, and those dropped (R144). -/
  done : List Nat := []
  dropped : List Nat := []
  /-- Writes committed and not yet placed, by key. -/
  toPlace : List Nat := []
  /-- Commit records of the keys committed so far, by key (R137). -/
  records : NMap (List Byte) := []
  /-- FLOOR of each queue when commit of the epoch began (R135). -/
  floors : NMap Nat := []
  begun : Bool := false
  committed : Bool := false
  /-- Status and data of the commands that wait for their placement, by key. -/
  results : NMap (Nat × List Byte) := []
  /-- Of the serving twin alone: it ended before this twin joined (R149). -/
  ofPeer : Bool := false
  /-- Ended while this twin was ALONE: its own keys are the union (R143). -/
  solo : Bool := false
  /-- Promises extended by four epochs (R136). -/
  extended : Bool := false
  /-- The calendar second its commit uses (R123). -/
  calSec : Nat := 0
  deriving DecidableEq, Repr

/-- A RESUME as sent or received (R152). -/
structure Resume where
  claim : Nat
  twin : TwinState
  /-- A valid restore, or in service. -/
  valid : Bool
  fresh : Bool
  committed : Nat
  hash : Nat
  deriving DecidableEq, Repr

/-- A frame that the device sends on the adit link or a drift link (R152, R170). -/
structure OutFrame where
  typ : Nat
  last : Bool := false
  fseq : Nat := 0
  epoch : Nat := 0
  payload : List Byte := []
  deriving DecidableEq, Repr

/-- A step that R146, R147, R148 or R149 settled, in effect at the next boundary (ALONE once R13 is met). -/
inductive TwinNext | stay | pair | newPair (claim : Nat) | alone
  deriving DecidableEq, Repr

/-- The commit engine and the adit link. -/
structure CommitSt where
  twin : TwinState := .start
  diverged : Bool := false
  claim : Nat := 0
  /-- The claim log of bank 2 holds a claim (R140). -/
  claimLogged : Bool := false
  peerClaim : Nat := 0
  /-- FORCE_FRESH has been written 1 since the datapath reset (R148). -/
  forced : Bool := false
  /-- Is data service being given (a restore taken into service or a pair formed)? -/
  inService : Bool := false
  /-- Last committed epoch, the state hash after it, PLACED_EPOCH. -/
  committed : Nat := 0
  hash : Nat := 0
  placed : Nat := 0
  /-- The peer's PLACED_EPOCH (R128). -/
  peerPlaced : Nat := 0
  /-- The peer's calendar second from its last tally (R123, R280). -/
  lastCal : Option (Nat × Nat) := none
  /-- Epoch records by epoch number. -/
  ep : NMap EpochRec := []
  /-- Consecutive empty epochs (R144). -/
  empties : Nat := 0
  /-- Epochs that have ended and are not yet committed, in order; those committed and not yet placed, in order. -/
  ended : List Nat := []
  unplaced : List Nat := []
  /-- FLUSHes committed and not yet answered, with their epochs (R128). -/
  flushes : List (Req × Nat) := []
  /-- PLACED_EPOCH as the last tally sent reported it. -/
  told : Nat := 0
  /-- DEPART or YIELD received, acted on at the next boundary. -/
  departed : Bool := false
  /-- YIELD sent at the last boundary for damage (R212): nothing commits until the next boundary settles it. -/
  yieldNext : Bool := false
  /-- Bytes staged and received by repair, by epoch (R131). -/
  staged : NMap Nat := []
  /-- A transition at the next boundary (R146, R148). -/
  next : TwinNext := .stay
  /-- RESUME sent, and RESUME exchanged, since the link came up or the restore ended. -/
  resumeSent : Bool := false
  resumed : Bool := false
  peerResume : Option Resume := none
  /-- Frames to send, in the order in which they arose (R152). -/
  txq : List OutFrame := []
  /-- Next FSEQ to send and the next expected. -/
  txSeq : Nat := 0
  rxSeq : Nat := 0
  /-- Frame numbers missed and asked for again (R153). -/
  rxGap : List Nat := []
  /-- Has a frame been accepted since training? -/
  rxAny : Bool := false
  /-- The returning twin's last compare of H with the serving twin's. -/
  agrees : Bool := false
  /-- Frames kept for RESEND as they were first sent, sealed ones with their count and ciphertext: those of the current and the
  previous epoch (R153, R294), with the epoch each was sent in. -/
  kept : List (Nat × OutFrame × Option (Nat × List Byte)) := []
  /-- Re-homing at the serving twin (R149): is it the source, are the table records still to send, the extent number that the copy
  has reached, extents sent, and extents in all. -/
  rehomeSrc : Bool := false
  rehomeRecs : Bool := false
  rehomePos : Nat := 0
  rehomeSent : Nat := 0
  rehomeAll : Nat := 0
  /-- Re-homing at the returning twin: the epoch after whose commit each extent received was copied, the first extent
  above the copy boundary, and whether the copy is complete. -/
  rehomed : NMap Nat := []
  rehomeUpTo : Nat := 0
  /-- HIGH_SEQ of each queue at the copy: FLOOR at the join (log entry 22). -/
  rehomeHigh : NMap Nat := []
  rehomeDone : Bool := false
  unions : Nat := 0
  /-- Violations of AC keys are counted by the cipher; this link's one-way delay (R29). -/
  delay : Nat := 0
  /-- Highest epoch number committed for R34, kept across power loss by epoch marks (R195). -/
  highest : Nat := 0
  deriving DecidableEq, Repr

/-! ## Gang (R158 to R172) -/

/-- What a gang peer said at training (R160). -/
structure GangPeer where
  pos : Nat
  size : Nat
  devId : Nat
  twinId : Nat
  capacityGib : Nat := 0
  deriving DecidableEq, Repr

/-- The gang. -/
structure GangSt where
  /-- The peer behind each drift link, once exchanged. -/
  peers : NMap GangPeer := []
  formed : Bool := false
  /-- Drift links whose member was lost after forming (R168). -/
  lost : List Nat := []
  /-- Frames to send on each drift link, in the order in which they arose (R170), and its next FSEQ. -/
  txq : NMap (List OutFrame) := []
  txSeq : NMap Nat := []
  /-- MEM_PLACE writes held until the member's PLACE_END (R167): position, epoch, index, DA, data. -/
  placing : List (Nat × Nat × Nat × Nat × List Byte) := []
  /-- Writes stored here that a write of lower order may still meet (R167): commit epoch, position, index, device address,
  bytes. -/
  applied : List (Nat × Nat × Nat × Nat × Nat) := []
  /-- MEM_READs of other members that wait for a member of memory here to issue accesses again (R308): drift link, payload, cell
  faults. -/
  waiting : List (Nat × List Byte × List CellFault) := []
  /-- PLACE_END received: highest epoch by position. -/
  placeEnd : NMap Nat := []
  /-- Remote data asked for, by tag: gang address and length (R167). -/
  remote : NMap (Nat × Nat) := []
  nextTag : Nat := 0
  /-- MEM_PLACE frames sent and not yet closed by PLACE_END, by epoch. -/
  index : NMap Nat := []
  deriving DecidableEq, Repr

/-! ## Tiers and the muster (R173 to R202) -/

/-- The state of an extent (R173) that is not NONE: an extent the table does not list is NONE. -/
inductive Home | zero | hot (frame : Nat) | warm (frame : Nat) | flash | wait
  deriving DecidableEq, Repr

/-- Where a move past START goes (R178). -/
inductive Dest | hot (frame : Nat) | warm (frame : Nat) | flash
  deriving DecidableEq, Repr

/-- An extent of the device address space: its home, its owning domain and its directory entry (R174). An extent in
`wait` holds committed bytes that wait for a frame (R180). -/
structure Extent where
  home : Home
  owner : Nat := 0
  lastUse : Nat := 0
  move : Option Dest := none
  /-- When the running move began (R222), in core cycles, and the epoch in progress then. -/
  moveAt : Nat := 0
  moveEp : Nat := 0
  /-- Sectors written since it gained its home, a bit each (R181). -/
  written : Nat := 0
  /-- The TIER_PREF of the window that gave it its home (R181). -/
  pref : Nat := 0
  /-- Pages of the running promotion that have arrived, and those of them that failed authentication, a bit each
  (R301). -/
  got : Nat := 0
  bad : Nat := 0
  /-- Does a committed write wait for its promotion (R180)? -/
  due : Bool := false
  /-- Is its frame still to be written with zeros, which the first placement does (R175)? -/
  raw : Bool := false
  deriving DecidableEq, Repr

/-- The tier manager. -/
structure TierSt where
  ext : NMap Extent := []
  /-- Demotion from hot to warm, and from volatile homes to flash: begun past HI and not yet below LO (R181). -/
  hotRun : Bool := false
  volRun : Bool := false
  /-- Poisoned sectors of volatile homes, and of flash homes that took poison along (R178, R211), by sector number. -/
  poison : List Nat := []
  /-- Sectors that are UNTRUSTED (R301), by sector number. -/
  untrusted : List Nat := []
  deriving DecidableEq, Repr

/-- MUS.STATE (R200). -/
inductive MusState | unready | armed | mustering | mustered | restoring
  deriving DecidableEq, Repr

/-- The code of MUS.STATE. -/
def MusState.code : MusState → Nat
  | .unready => 0 | .armed => 1 | .mustering => 2 | .mustered => 3 | .restoring => 4

/-- The step of R190 that a muster has reached. -/
inductive MusStep | idle | commit | image | record | done
  deriving DecidableEq, Repr

/-! ## Power, reset and temperature (R325 to R348) -/

/-- PSQ.SEQ_STATE. -/
inductive SeqState | idle | rising | on | falling | off | fault
  deriving DecidableEq, Repr

/-- The code of PSQ.SEQ_STATE. -/
def SeqState.code : SeqState → Nat
  | .idle => 0 | .rising => 1 | .on => 2 | .falling => 3 | .off => 4 | .fault => 5

/-- PSQ.PARK_STATE. -/
inductive ParkState | awake | parking | parked | waking
  deriving DecidableEq, Repr

/-- The code of PSQ.PARK_STATE. -/
def ParkState.code : ParkState → Nat
  | .awake => 0 | .parking => 1 | .parked => 2 | .waking => 3

/-- What the sequencer waits for in its entry (R327, R330). -/
inductive SeqWait | none | good | delay | discharged
  deriving DecidableEq, Repr

/-- The supervisor: sequencer, parking, resets, clock and thermal state. -/
structure PowerSt where
  seq : SeqState := .idle
  wait : SeqWait := .none
  entry : Nat := 0
  locked : Bool := false
  failEntry : Nat := 0
  disLate : Nat := 0
  /-- Where a shutdown ends: OFF, or FAULT after a failed power-up. -/
  toFault : Bool := false
  /-- SEQ_EN outputs driven high, a bit each. -/
  seqEn : Nat := 0
  /-- Is VSUP above its threshold (R332)? -/
  vsupOk : Bool := true
  /-- RESET_N low and honoured, that is, as filtered; the reset that it holds in force (R335). -/
  resetLow : Bool := false
  resetN : Bool := false
  /-- The datapath held in reset by a clock failure until CORE_SYN_LOCK returns (R339). -/
  clockHold : Bool := false
  onBackup : Bool := false
  /-- RSTOUT_N_x: the conditions in force, and the outputs in their stretch, a bit each (R337). -/
  rstCond : Nat := 15
  /-- Has a power-up completed since power-on (R337)? -/
  everOn : Bool := false
  rstStretch : Nat := 0
  /-- MUSTER_DONE_N asserted, that is low (R338). -/
  musterDoneN : Bool := false
  park : ParkState := .awake
  wakeReason : Nat := 0
  /-- A PARK write or a wake waiting for the next boundary (R343, R344). -/
  parkReq : Bool := false
  wakeReq : Bool := false
  reparkReq : Bool := false
  hostSerdes : Bool := true
  throttled : Bool := false
  tripped : Bool := false
  /-- Sensor readings, and those excluded (R340). -/
  sensors : NMap Int := []
  excluded : List Nat := []
  tj : Int := 0
  tjPeak : Int := 0
  /-- Straps as the board holds them (R338): GANG_ID, TWIN_POS, ENERGY_DECL_EN. -/
  strapGang : Nat := 3
  strapTwin : Nat := 1
  strapEnergy : Nat := 1
  /-- Straps as last sampled. -/
  gangId : Nat := 3
  twinPos : Nat := 1
  energyEn : Bool := true
  deriving DecidableEq, Repr

/-! ## Memory members and ports (R203 to R229) -/

/-- Which members carry what: stack n is member n, warm channel n is member 8 + n (R215). -/
structure MemberSt where
  /-- Refresh credit of each target, in 1/256 of a core cycle (R217): rank 0 or the stack, then rank 1. -/
  credit : List Nat := [0, 0]
  /-- Refresh commands postponed (R218), per target. -/
  postponed : List Nat := [0, 0]
  /-- Refresh commands issued since reset, per target. -/
  issued : List Nat := [0, 0]
  /-- Is the doubled interval asked for by temperature (R217)? Stack, or rank 0 and rank 1. -/
  hotRank : List Bool := [false, false]
  /-- Does a device of the rank ask for more than twice the base rate (R217)? -/
  overRank : List Bool := [false, false]
  /-- Failures in a row of one command (R224). -/
  caRow : Nat := 0
  /-- A set point written and not yet in use (R225). -/
  fspReq : Option Nat := none
  /-- Set points with a stored delay code, and the codes (R313). -/
  codes : NMap Nat := []
  /-- Is its DLL in its window; when did it leave it (R307, R308)? -/
  inWindow : Bool := false
  outSince : Option Nat := none
  phaseErr : Nat := 0
  /-- What bring-up training found beside the record in force, per set point: a free value, and the window it searched (R315). -/
  seeds : NMap (Nat × Nat) := []
  /-- Steps of background calibration since (R316, R318), per lane and field at each set point. -/
  drift : NMap Int := []
  lastSave : Option Nat := none
  deriving DecidableEq, Repr

/-- The memory channels. -/
structure MemSt where
  members : NMap MemberSt := []
  /-- Tokens left at each memory port (R221), and bytes charged in this epoch. -/
  tokens : NMap Nat := []
  charged : NMap Nat := []
  /-- H, G_RD and G_WR as last computed (R221). -/
  h : Nat := 0
  gRd : Nat := 0
  gWr : Nat := 0
  fillBusy : Bool := false
  fillDone : Bool := false
  /-- Units scrubbed in the current pass, and the time the pass began (R219). -/
  scrubbed : Nat := 0
  scrubStart : Nat := 0
  /-- The twin was PAIRED as a poison bit was set, or a member lost, since the last boundary (R212). -/
  damaged : Bool := false
  /-- Poison bits of sectors of the reserved region (R220): member, and sector there. -/
  poison : List (Nat × Nat) := []
  /-- The members that the fill engine has written over, which of their frames (warm or not, number) have since held an extent,
  and the units (member, number there) that the scrubber has rewritten with the fill pattern after that (R214, R220). -/
  filled : List Nat := []
  touched : List (Bool × Nat) := []
  refilled : List (Nat × Nat) := []
  deriving DecidableEq, Repr

/-! ## Flash translation (R230 to R251) -/

/-- What a superblock is used for (R233, R241). -/
inductive SbUse | data | log | slc
  deriving DecidableEq, Repr

/-- What the headers of a slot's pages say (R234): STATE, ROLE, PAD, extent, owning domain, epoch of the move or merge. -/
structure SlotHdr where
  state : Nat := 0
  role : Nat := 0
  pad : Bool := false
  ext : Nat := 0
  domain : Nat := 0
  epoch : Nat := 0
  deriving DecidableEq, Repr

/-- Rows of a superblock programmed together: the first, how many, and the storage key, its instance and the hardware counter of
the first page, which settle the ciphertext and the tag records of every page (R292, R295). -/
structure RowSeal where
  first : Nat
  rows : Nat
  inst : Nat
  alg : Nat
  key : List Byte
  counter : Nat
  deriving DecidableEq, Repr

/-- What a merge wrote into a data superblock from slot `first` on: the slots that no header lists are those of extents NONE of the
logical block (R234, R239). -/
structure MergeMark where
  lb : Nat
  epoch : Nat
  first : Nat
  role : Nat
  deriving DecidableEq, Repr

/-- A superblock: its layout row, its use, its 18 blocks as device block numbers die × 10,912 + block (R235), the headers of its
slots programmed (R234), and what its pages hold: the clear bytes of each slot that holds an extent, by offset, those that are 0
left out, and the seals of its rows. P and Q follow from the data pages as programmed (R252). -/
structure Superblock where
  row : Nat
  use : SbUse
  blocks : List Nat
  hdrs : NMap SlotHdr := []
  data : NMap (List Host.Cell) := []
  seals : List RowSeal := []
  merged : Option MergeMark := none
  deriving DecidableEq, Repr

/-- A log (R238): the logical block it is bound to, its superblock, and its slots in order of append. -/
structure FlashLog where
  lb : Nat
  sb : Nat
  /-- Slots used: the extent each holds, `none` for PAD or a void slot. -/
  slots : List (Option Nat) := []
  /-- Slots whose group has been programmed with pass status. -/
  programmed : Nat := 0
  /-- Index entries: the slot of an extent, or 0xFFFE for ZERO. -/
  index : NMap Nat := []
  sawZero : Bool := false
  /-- Groups that the journal's replay made void (R265). -/
  void : List Nat := []
  /-- When the first slot of the open group was filled (R238). -/
  groupStart : Nat := 0
  lastAppend : Nat := 0
  deriving DecidableEq, Repr

/-- An entry of the logical-block table (R235). -/
structure LbtEntry where
  /-- 0 UNMAPPED, 1 ZERO, 2 TLC, 3 SLC. -/
  state : Nat := 0
  merging : Bool := false
  log : Option Nat := none
  fill : Nat := 0
  base : Option Nat := none
  slc : List Nat := []
  zeros : Nat := 0
  /-- Rows of the fill programmed (R233), and whether it has ended before its 6,144 extents (R244, R265). -/
  slcRows : Nat := 0
  fillOver : Bool := false
  /-- When the fill was opened (R244). -/
  fillAt : Nat := 0
  /-- The destination superblock of the running merge, and its kind: 0 partial, 1 full, 2 fold (R239, R244). -/
  dest : Option Nat := none
  kind : Nat := 0
  /-- Due for a full merge: for a refresh (R247), or because of a void group (R265). -/
  dueMerge : Bool := false
  /-- Extents whose ZERO waits for a merge to commit or for a log (R240, R243). -/
  zeroWait : List Nat := []
  deriving DecidableEq, Repr

/-- The capacity tier. -/
structure FlashSt where
  presLb : Nat := 0
  lbt : NMap LbtEntry := []
  sbs : NMap Superblock := []
  logs : NMap FlashLog := []
  /-- Erase counts by block number, and blocks retired. -/
  erases : NMap Nat := []
  retired : List Nat := []
  /-- The two muster areas (R245): below which block of a die every one that is not retired is theirs, how many those are, and
  the dies of the layout rows that they were given. -/
  maDie : NMap Nat := []
  maBlocks : NMap Nat := []
  maRows : List (List Nat) := []
  /-- AREA_GIB as the format took it (R245). -/
  maGib : Nat := 0
  /-- What the dies of each channel on the board answer to Read ID, and those in a channel that is up which answered with another
  geometry (R231). -/
  board : NMap DieAnswers := []
  odd : List Nat := []
  /-- The blocks of superblocks freed while page reads issued to them were out, with those pages as extent × 4 + page: erased and
  allocated again only once the reads have ended (R239). -/
  draining : List (List Nat × List Nat) := []
  /-- Extents whose state a page's header has told, for a write that waits for it (R237). -/
  known : List Nat := []
  /-- Patrol progress (R246). -/
  patrolRead : Nat := 0
  patrolTotal : Nat := 0
  patrolStart : Nat := 0
  /-- The page after the last one read: superblock, row, member (R246). -/
  patrolAt : Nat × Nat × Nat := (0, 0, 0)
  deriving DecidableEq, Repr

/-- An entry of the stripe journal (R262): superblock, group, kind, aborted. -/
structure StripeEntry where
  sb : Nat
  group : Nat
  kind : Nat
  aborted : Bool := false
  deriving DecidableEq, Repr

/-- Parity: the layout table, failed dies, the lost list and the stripe journal (R252 to R269). -/
structure ParitySt where
  /-- Layout rows: 18 device die numbers each, by row number. -/
  rows : NMap (List Nat) := []
  /-- The failed-die list, and rows older than a running reshape. -/
  failed : List Nat := []
  oldRows : List Nat := []
  /-- Dies taken off the list that no reshape of kind ADD has taken in yet (R258). -/
  cleared : List Nat := []
  /-- Times of the last timeouts of each die (R256). -/
  timeouts : NMap (List Nat) := []
  rebuildStart : Nat := 0
  rebuildFrom : Nat := 0
  reshaping : Bool := false
  reshapeLb : Nat := 0
  mergedBytes : Nat := 0
  checkpoint : Nat := 0
  stall : Bool := false
  maDegraded : Bool := false
  /-- Lost sectors: extent number to a 16-bit mask (R260). -/
  lost : NMap Nat := []
  /-- Groups whose program is in flight, and those that wait for it (R262). -/
  journal : List StripeEntry := []
  queued : List StripeEntry := []
  /-- Logical blocks in the rebuild set when it was last looked at (R269). -/
  rebuildLeft : Nat := 0
  deriving DecidableEq, Repr

/-! ## Accession journals (R270 to R283) -/

/-- An accession journal. -/
structure Journal where
  window : Option Nat := none
  keyInst : Nat := 0
  next : Nat := 1
  wp : Nat := 0
  lastSeal : Nat := 0
  lastTag : List Byte := List.replicate 16 0
  full : Bool := false
  /-- The accession index: record number to its offset and stored length in the bound window (R281). -/
  index : NMap (Nat × Nat) := []
  deriving DecidableEq, Repr

/-- The accession engine. -/
structure AccSt where
  jrn : NMap Journal := []
  /-- The tag allowance of R278. -/
  tagAl : Int := 0
  deriving DecidableEq, Repr

/-! ## Keys and cipher channels (R284 to R305) -/

/-- A loaded key instance (R286, R287, R290). -/
structure KeyInst where
  kek : Nat := 0
  alg : Nat := 0
  mode : Nat := 0
  cls : Nat := 0
  legacy : Bool := false
  material : List Byte := []
  counter : Nat := 0
  retired : Bool := false
  /-- Is a mark programmed for this load (R290)? -/
  ready : Bool := false
  deriving DecidableEq, Repr

/-- A blob record of the key sectors (R289). -/
structure BlobRec where
  inst : Nat
  kek : Nat
  pad : Bool
  blob : List Byte
  deriving DecidableEq, Repr

/-- What a message runs under (R300): its instance, its nonce, the additional data, the ciphertext where the message brings it,
and of flash pages the first: superblock, member and row. -/
structure MsgCtx where
  inst : Nat := 0
  nonce : List Byte := []
  aad : List Byte := []
  data : List Byte := []
  page : Option (Nat × Nat × Nat) := none
  deriving DecidableEq, Repr

/-- A message on a cipher channel (R300): its priority, 1 the highest, what is left of it in 64ths of a byte, and whether its
key has LEGACY set (R297). -/
structure ChanJob where
  prio : Nat
  left : Nat
  legacy : Bool := false
  total : Nat := 0
  ctx : MsgCtx := {}
  deriving DecidableEq, Repr

/-- A cipher channel (R300) as it stood in core cycle `since`: the running message, those suspended, which hold a context each,
and those that wait. -/
structure ChanSt where
  run : Option ChanJob := none
  saved : List ChanJob := []
  waiting : List ChanJob := []
  since : Nat := 0
  deriving DecidableEq, Repr

/-- Key store and cipher channels. -/
structure KeySt where
  /-- What the cipher channels process, hold saved and have waiting (R300). -/
  chan : NMap ChanSt := []
  inst : NMap KeyInst := []
  records : List BlobRec := []
  /-- A blob record to program, or the instance whose record to invalidate, once bank 2 is free (R288, R289). -/
  heldRec : Option (BlobRec ⊕ Nat) := none
  /-- The LOAD or UNLOAD whose answer waits for that record, and its answer; a KS_FORMAT that waits. -/
  heldAns : Option (Req × List Byte) := none
  heldFormat : Bool := false
  marks : NMap Nat := []
  /-- Marks waiting to be programmed: instance and mark. -/
  marking : List (Nat × Nat) := []
  /-- The root key and the identifiers fused at manufacture (R289, R359). -/
  rootKey : List Byte := List.replicate 32 0
  rootId : Nat := 0
  pubDigests : List (List Byte) := [[], [], [], []]
  rootGone : Bool := false
  /-- The DRBG: the seeds before the last, with the requests made under each, the free value that the last is, and the requests
  since (R285, R297). -/
  drbgPast : List (Nat × Nat) := []
  drbgSeed : Nat := 0
  drbgReqs : Nat := 0
  /-- Blob records still to unwrap after a datapath reset: the first waits for the mark of its key-encryption key (R289, R290). -/
  reload : List BlobRec := []
  /-- Entropy tests pass; the DRBG is seeded; it has halted (R297). -/
  entOk : Bool := true
  seeded : Bool := true
  halted : Bool := false
  /-- Channels out of service, and the times of recent mismatches (R298). -/
  outCh : List Nat := []
  mismatches : NMap (List Nat) := []
  /-- The storage key as NOR bank 2 keeps it (R296). -/
  storeKeyNor : Nat := 0
  /-- The adit frame-count bases, sent and received (R294); `none` before training. -/
  txBase : Option Nat := none
  rxBase : Option Nat := none
  /-- The last frame count accepted (R294). -/
  rxLast : Nat := 0
  /-- Messages that wait for halted channels (R297) or for the mark of their instance (R290): requests with their OPCODE and the
  drift link they came on, and adit frames with their TYPE. -/
  haltRx : List (Nat × Dgram × Option (Fin 3)) := []
  haltAdit : List (Nat × LinkFrame) := []
  /-- Flash pages, and a command of queue 0, that wait for channels or for a mark (R290, R297). -/
  haltPages : List PageDone := []
  haltLoad : Option Req := none
  deriving DecidableEq, Repr

/-! ## Clocks and calibration (R306 to R324) -/

/-- A margin-scan result of one lane (R320). -/
structure LaneMargin where
  left : Nat := 0xFF
  right : Nat := 0xFF
  vlow : Nat := 0xFF
  vhigh : Nat := 0xFF
  deriving DecidableEq, Repr

/-- Clocks, lock and calibration. -/
structure ClockSt where
  lock : Bool := false
  coreLock : Bool := true
  srdLock : Nat := 15
  /-- Conversions in a row at or above LOCK_THR (R311); scans in a row of disagreement (R312). -/
  above : Nat := 0
  disagree : Nat := 0
  pathFault : Bool := false
  /-- The epoch DLL is in its window; the code that its search at bring-up found (R313). -/
  epochDllIn : Bool := false
  epochCode : Option Nat := none
  epochPhase : Nat := 0
  /-- A margin scan running, of a member; the rank or sub-channel scanned; its results by lane. -/
  scan : Option Nat := none
  scanSub : Nat := 0
  margins : NMap LaneMargin := []
  /-- A retraining running, of a member, and whether in service. -/
  retrain : Option (Nat × Bool) := none
  /-- Its set point, the slots it has had, and the epoch of the last (R323). -/
  retrainFsp : Nat := 0
  retrainSlots : Nat := 0
  retrainAt : Option Nat := none
  /-- Histograms of the auxiliary samplers since the last slot (R316), by member × 2048 + lane: transition positions, voltage
  decisions. -/
  hist : NMap (List Nat × List Nat) := []
  /-- Epochs since the last calibration slot (R316). -/
  slots : Nat := 0
  deriving DecidableEq, Repr

/-! ## Curators and NOR (R349 to R365) -/

/-- Who asked for a NOR operation, for its end: a write of NOR.OP, a FIRMWARE DOWNLOAD, a CENSUS CLEAR. -/
inductive NorBy | curator | firmware | census
  deriving DecidableEq, Repr

/-- A NOR operation in flight in a bank (R351, R352). -/
structure NorOp where
  erase : Bool
  addr : Nat
  data : Nat := 0
  owner : NorBy := .curator
  deriving DecidableEq, Repr

/-- What waits for a NOR operation in flight to end (R356): a reset with its bit of RST.CAUSE, of the management domain or
of both, step 1 of a muster with its cause, or a shutdown after a trip. -/
inductive NorWait | reset (cause : Nat) (dp : Bool) | muster (cause : Nat) | off
  deriving DecidableEq, Repr

/-- Curators, embedded NOR and its firmware images. -/
structure CurSt where
  /-- NOR words that are not erased, by byte address. -/
  words : NMap Nat := []
  /-- The operation in flight in each bank, and what the same owner does after it. -/
  busy : NMap NorOp := []
  todo : NMap (List NorOp) := []
  /-- Firmware commands committed and not yet answered, in commit order (R350). -/
  fw : List Req := []
  /-- The download: bytes since OFFSET 0, ranges written, latest first, sectors erased (R107). -/
  dlBytes : Nat := 0
  dlRanges : List (Nat × Nat) := []
  dlSectors : List Nat := []
  /-- The bank that the boot ROM's verifier checks for a commit, and whether FIRMWARE COMMIT asked for it (R360). -/
  verifying : Option (Nat × Bool) := none
  /-- The image has passed, and the bank-select record waits for bank 2 (R356, R360). -/
  selecting : Bool := false
  /-- A boot is running (R359). -/
  booting : Bool := false
  active : Nat := 0
  recovery : Bool := false
  fallback : Bool := false
  verified : Bool := false
  /-- What the device itself waits to do in bank 2, in order (R356): byte address and the word to program, or `none` to
  erase the sector. -/
  devWait : List (Nat × Option Nat) := []
  /-- What waits for the operations in flight (R356), in order. -/
  waits : List NorWait := []
  /-- Curator datagram allowance of each port (R362 cause 1). -/
  alPort : NMap Nat := []
  /-- Their datagrams that wait for it, with their ports. -/
  txq : List (Nat × List Byte) := []
  /-- The 2 MiB of curator SRAM: the bytes that are not 0 (R12, R349). -/
  sram : List Host.Cell := []
  /-- The NOR lines in each curator's prefetch buffer and branch cache, oldest first (R353). -/
  prefetch : NMap (List Nat) := []
  branch : NMap (List Nat) := []
  /-- Curators that have locked up, or whose watchdog has expired, until the management reset that follows (R361). -/
  dead : List Nat := []
  deriving DecidableEq, Repr

/-! ## Census and the calendar (R366 to R381) -/

/-- A rail's extremes in a period (R369). -/
structure RailStat where
  seen : Bool := false
  min : Nat := 16383
  max : Nat := 0
  tMin : Nat := 0
  tMax : Nat := 0
  sum : Nat := 0
  deriving DecidableEq, Repr

/-- The Census recorder. -/
structure CensusSt where
  /-- Histograms: class × 32 + bin. -/
  hist : NMap Nat := []
  counts : NMap Nat := []
  rails : NMap RailStat := []
  corrStk : NMap Nat := []
  corrDch : NMap Nat := []
  dieBits : NMap Nat := []
  tjMin : Option Int := none
  tjMax : Option Int := none
  stkMax : Option Int := none
  /-- V in GiB: now, and its extremes in the period. -/
  vNow : Nat := 0
  vMin : Nat := 0
  vMax : Nat := 0
  ovf : Bool := false
  injected : Bool := false
  /-- Calendar time at which the period began, in 1/32,768 s, and the period in force, in minutes (R370). -/
  start : Nat := 0
  period : Nat := 60
  /-- Tokens of each code's bucket (R372). -/
  tokens : NMap Nat := []
  nextSlot : Nat := 0
  /-- The slot of the newest record (R376). -/
  newest : Option Nat := none
  full : Bool := false
  clearing : Bool := false
  clearAnswer : List Req := []
  /-- The held SUMMARY and OUT_OF_CYCLE records (R372, R373). -/
  heldSum : Option (List Byte) := none
  heldOoc : Option (List Byte) := none
  deriving DecidableEq, Repr

/-- The calendar (R377, R378): CAL_SEC, and the core-clock time at which the second began. -/
structure CalSt where
  sec : Nat := 0
  tickAt : Nat := 0
  valid : Bool := false
  ended : Bool := false
  /-- Time was lost while VSUP was absent (R378). -/
  lost : Bool := false
  deriving DecidableEq, Repr

/-! ## Vitrine, JTAG and the SMBus target (R382 to R413) -/

/-- What the TAP does with the output pins (R390). -/
inductive PinDrive | device | boundary | clamped | floating
  deriving DecidableEq, Repr

/-- Vitrine and the TAP. -/
structure VitrineSt where
  frozen : Bool := false
  deferred : Option Nat := none
  /-- The instruction register and the selected chain. -/
  ir : Nat := 1
  chain : Nat := 0
  bsr : Nat := 0
  drive : PinDrive := .device
  pulsing : Bool := false
  deriving DecidableEq, Repr

/-- The SMBus target's read pointer. -/
structure SmbusSt where
  ptr : Nat := 0
  deriving DecidableEq, Repr

/-! ## The muster engine (R189 to R202) -/

/-- Where a block of the image comes from (R192): the reserved region's block k, staging SRAM, translation SRAM, or the frame
of an extent. -/
inductive BlockSrc | reserved (k : Nat) | staging (k : Nat) | onChip (k : Nat) | hot (frame ext : Nat) | warm (frame ext : Nat)
  deriving DecidableEq, Repr

/-- A 64 KiB block of the image: its source address, the muster's serial number and its CRC-32 (R192). -/
structure ImageBlock where
  src : BlockSrc
  serial : Nat
  crc : Nat
  deriving DecidableEq, Repr

/-- The image of a muster in one muster area (R192): its blocks in order, sixteen to a stripe, and what they hold, which restore
brings back; staged requests are among it (R191). -/
structure Image where
  serial : Nat
  blocks : List ImageBlock := []
  staged : NMap EpochRec := []
  q : NMap Queue := []
  dom : NMap Domain := []
  win : NMap Window := []
  ext : NMap Extent := []
  poison : List Nat := []
  untrusted : List Nat := []
  /-- The poison table's bits for the reserved region itself (R211). -/
  tablePoison : List (Nat × Nat) := []
  mem : List Host.Cell := []
  jrn : NMap Journal := []
  fl : FlashSt := {}
  par : ParitySt := {}
  lastCal : Option (Nat × Nat) := none
  deriving DecidableEq, Repr

/-- The muster engine. -/
structure MusSt where
  state : MusState := .unready
  step : MusStep := .idle
  cause : Nat := 0
  mode : Bool := false
  /-- LAST_CAUSES, a bit per cause code. -/
  causes : Nat := 0
  areaNext : Nat := 0
  /-- Areas not wholly erased, and those whose background erase runs (R197). -/
  dirty : List Nat := []
  erasing : List Nat := []
  /-- MUS.VHC: VHC_MAX as the declaration or a datapath reset took it, or what firmware lowered it to (R186). -/
  vhc : Nat := 0
  restoreValid : Bool := false
  /-- Has a restore, or the format in its place, ended since the datapath reset (R200)? -/
  restored : Bool := false
  /-- TWIN_STATE of the record restored (R147). -/
  recordTwin : TwinState := .start
  /-- At detection (R190, R193): the time and the epoch, V in units of 64 KiB, and CAL_SEC. -/
  t0 : Nat := 0
  ep0 : Nat := 0
  v0 : Nat := 0
  cal0 : Nat := 0
  /-- The MUSTER commands to answer at step 3 (R198). -/
  answers : List Req := []
  /-- Step 1 has stopped admission (R190). -/
  stopped : Bool := false
  /-- The first epoch whose tallies are both empty has committed in a cause 4 muster: no other commits (R191). -/
  emptied : Bool := false
  /-- The restored record whose CONSUMED is not yet programmed (R197). -/
  consuming : Option Nat := none
  images : NMap Image := []
  formatted : Bool := false
  deriving DecidableEq, Repr

end Sys2Proof.Machine
end

