-- ==== Sys2Proof/Machine/State.lean ====
section
/-! DEFINITION. The machine's state, its reset value, and the reasons a command can stop. -/

namespace Sys2Proof.Machine

/-- What the block sends or drives outward, in the order it does so. -/
inductive Out
  /-- A datagram to a host: return addresses, device header, data, the wire bytes when it is sealed, and the frame's headers. -/
  | host (dst : RetAddr) (hdr : AnsHdr) (data : List Byte) (sealed : Option (Nat × Nat × List Byte)) (head : FrameHead)
      (udp : UdpHead)
  /-- A segment of a queue 0 answer written into memory region 1 (R82). -/
  | adm0 (seg : Nat) (hdr : AnsHdr) (data : List Byte)
  /-- An ARP reply, and a neighbour advertisement (R39). -/
  | arp (link : HostLink) (mac : BitVec 48) (ip : BitVec 128) (head : FrameHead)
  | neighbour (link : HostLink) (mac : BitVec 48) (ip : BitVec 128) (head : FrameHead)
  /-- A PFC frame: XOFF or XON for priorities (R41). -/
  | pfc (link : HostLink) (prio : Nat) (xoff : Bool)
  /-- A forwarded answer sent unchanged on a host link (R165). -/
  | relayed (link : HostLink) (bytes : List Byte) (head : FrameHead)
  /-- A datagram of a curator on a host port (R362). -/
  | curator (port : Nat) (bytes : List Byte)
  /-- What a curator's load returns (R349, R357). -/
  | coreData (c : Fin 4) (value : Nat)
  /-- The frame-count base of a training, sent to the peer (R294). -/
  | aditBase (base : Nat)
  /-- A frame on the adit link, and on drift link j. -/
  | adit (f : OutFrame) (sealed : Option (Nat × List Byte))
  | drift (j : Nat) (f : OutFrame)
  /-- The MSI-X message of the PCIe endpoint (R409). -/
  | msix (addr data : Nat)
  /-- The data a register read returns, on its path. -/
  | regData (path : Path) (addr data : Nat)
  /-- A SMBus transaction NAKed, and the bytes of a block read. -/
  | smbNak
  | smbData (bytes : List Byte)
  /-- LOCK_A at a new pulse density, in 1/6000 (R309). -/
  | lockA (density : Nat)
  /-- Bits shifted out on TDO. -/
  | tdo (width value : Nat)
  deriving DecidableEq, Repr

/-- The state of the block. -/
structure State where
  /-- The commands that wait, first in, first out. -/
  pending : List Instr
  /-- Core-clock cycles since power-on reset. -/
  now : Nat
  /-- Register fields that differ from their reset value, by key. -/
  reg : NMap Nat
  /-- Snapshots behind the indirect table windows (R408), by page and window. -/
  snap : NMap (List Nat)
  /-- What has been sent and driven outward. -/
  out : List Out
  /-- The model's own counter of free values taken. -/
  free : Nat
  ep : EpochSt
  net : NetSt
  q : QueueSt
  win : WinSt
  cm : CommitSt
  gang : GangSt
  tier : TierSt
  mus : MusSt
  /-- Memory: the bytes of the device address space that are not 0. -/
  mem : List Host.Cell
  pwr : PowerSt
  mc : MemSt
  fl : FlashSt
  par : ParitySt
  acc : AccSt
  key : KeySt
  clk : ClockSt
  cur : CurSt
  cen : CensusSt
  cal : CalSt
  vit : VitrineSt
  smb : SmbusSt
  deriving DecidableEq, Repr

/-- Why the block stops with a fault. -/
inductive Fault
  /-- Raised by a command that names a device address beyond the presented capacity (R232), an address that the spec
  says does not exist. Safe: no claim is made of what follows. -/
  | deviceAddressAbsent
  deriving DecidableEq, Repr

/-- Why a command is refused. -/
inductive Refusal
  /-- Raised by the dispatch arm of a command that has no meaning yet. Safe: nothing is claimed of it. -/
  | notModelled (mnemonic : String)
  deriving DecidableEq, Repr

/-- What a command answers. -/
abbrev Result := Host.Outcome State Fault Refusal

/-- The block right after power-on reset: RST.CAUSE names it (R334), OSC_FAIL says that the calendar has no time (R378), and
the claim is the one that an empty claim log gives at the strapped position (R140). -/
def State.reset : State where
  pending := []
  now := 0
  reg := mofList [(RST.CAUSE.key, 1), (RTC.OSC_FAIL.key, 1), ((HDR.EVT_RAW RTC.page).key, 2 ^ RTC.evOSC_FAIL_EVT)]
  snap := []
  out := []
  free := 0
  ep := {}
  net := {}
  q := {}
  win := {}
  cm := { claim := 1 }
  gang := {}
  tier := {}
  mus := {}
  mem := []
  pwr := {}
  mc := {}
  fl := {}
  par := {}
  acc := {}
  key := {}
  clk := {}
  cur := {}
  cen := {}
  cal := {}
  vit := {}
  smb := {}

end Sys2Proof.Machine
end

