-- ==== Sys2Proof/Machine/Ops.lean ====
section
/-! DEFINITION. The named operations every meaning is written in: registers, events and interrupts (R403, R405, R409),
what is sent, free values, which domains are up, the tables of queues, domains, windows and extents, memory, and the
event pages (R105). -/

namespace Sys2Proof.Machine

/-! ## Registers -/

/-- The value of a field. -/
def State.get (s : State) (f : Fld) : Nat := mgetD s.reg f.key f.rst

/-- Is a field non-zero? -/
def State.flag (s : State) (f : Fld) : Bool := s.get f != 0

/-- A field at `v`, cut to its width. -/
def State.put (s : State) (f : Fld) (v : Nat) : State :=
  { s with reg := mset f.rst s.reg f.key (v % 2 ^ f.width) }

/-- A one-bit field at a truth value. -/
def State.putb (s : State) (f : Fld) (b : Bool) : State := s.put f (b2n b)

/-- A count up by `n`, stopping at the field's highest value (log entry 3). -/
def State.inc (s : State) (f : Fld) (n : Nat := 1) : State :=
  s.put f (min (2 ^ f.width - 1) (s.get f + n))

/-- A bit of a field set. -/
def State.setb (s : State) (f : Fld) (i : Nat) (b : Bool) : State := s.put f (setBit (s.get f) i b)

/-- The page, offset and bit of a register key. -/
def keyPage (k : Nat) : Nat := k / 16 / 64 / 4096

/-- The offset of a register key. -/
def keyOff (k : Nat) : Nat := k / 16 / 64 % 4096

/-- The reset column of a register key. -/
def keyDom (k : Nat) : Nat := k / 2 % 8

/-- Is the field of this key ROS? -/
def keyRos (k : Nat) : Bool := k % 2 == 1

/-! ## Sending -/

/-- Something sent or driven outward. -/
def State.send (s : State) (o : Out) : State := { s with out := s.out ++ [o] }

/-! ## Events and interrupts (R403, R409) -/

/-- EVT_PENDING of a page: EVT_RAW AND EVT_ENABLE (R403). -/
def State.evtPending (s : State) (p : Nat) : Nat :=
  Nat.land (s.get (HDR.EVT_RAW p)) (s.get (HDR.EVT_ENABLE p))

/-- Does page `p` contribute to the PCIe interrupt: pending and unmasked (R409)? -/
def State.pcieIrqOf (s : State) (p : Nat) : Bool :=
  s.evtPending p != 0 && bitOf (s.get (SYS.PCIE_MASK (p / 32))) (p % 32)

/-- The OR of PEND_w AND PCIE_MASK_w over all words (R409). A page that has never raised an event is not pending. -/
def State.pcieIrq (s : State) : Bool :=
  s.reg.any fun e => keyOff e.1 == 0x00C && s.pcieIrqOf (keyPage e.1)

/-- The level input to every curator (R409). -/
def State.curatorIrq (s : State) : Bool :=
  s.reg.any fun e => keyOff e.1 == 0x00C && s.evtPending (keyPage e.1) != 0 &&
    bitOf (s.get (SYS.CUR_MASK (keyPage e.1 / 32))) (keyPage e.1 % 32)

/-- The MSI-X message of vector 0, or its pending bit while the vector or the function is masked or MSI-X is off
(R409, R411). -/
def State.msix (s : State) : State :=
  if s.flag PCE.MSIX_EN && !s.flag PCE.MSIX_MASKED && !bitOf (s.get PCE.MSIX_CTRL) 0 && s.flag PCE.LINK_UP then
    s.send (.msix (s.get PCE.MSIX_ADDR_LO + 2 ^ 32 * s.get PCE.MSIX_ADDR_HI) (s.get PCE.MSIX_DATA))
  else s.put PCE.MSIX_PBA 1

/-- `s'`, with the message sent when the interrupt level has risen since `s` (R409). -/
def State.irqEdge (s s' : State) : State := if s'.pcieIrq && !s.pcieIrq then s'.msix else s'

/-- A detection: the page's EVT_RAW bit set, whatever EVT_ENABLE holds (R403). -/
def State.raise (s : State) (page bit : Nat) : State :=
  s.irqEdge (s.put (HDR.EVT_RAW page) (setBit (s.get (HDR.EVT_RAW page)) bit true))

/-- Is an event in EVT_RAW of its page (R403)? -/
def State.evt (s : State) (page bit : Nat) : Bool := bitOf (s.get (HDR.EVT_RAW page)) bit

/-- A detection only when a condition holds. -/
def State.raiseIf (s : State) (c : Bool) (page bit : Nat) : State := if c then s.raise page bit else s

/-! ## Free values -/

/-- A free bit, and the state that has taken it. -/
def State.freeBit (s : State) : Bool × State := (Config.freeBit s.free, { s with free := s.free + 1 })

/-- A free number, and the state that has taken it. -/
def State.freeNat (s : State) : Nat × State := (Config.freeNat s.free, { s with free := s.free + 1 })

/-- Time seen on a command. -/
def State.at (s : State) (t : Nat) : State := { s with now := max s.now t }

/-! ## Which domains are up (R327, R332, R334, R335, R339, R383) -/

/-- The management domain is out of reset and clocked. -/
def State.mgUp (s : State) : Bool :=
  s.pwr.seq == .on && s.pwr.vsupOk && !s.pwr.resetN && !s.pwr.clockHold && !s.vit.frozen

/-- The datapath domain is out of reset and clocked. -/
def State.dpUp (s : State) : Bool := s.mgUp && s.mus.state != .mustered

/-- One microsecond and one millisecond in core cycles of 0.625 ns (R22). -/
def usCycles : Nat := 1600

/-- One millisecond in core cycles. -/
def msCycles : Nat := 1600000

/-- One second in core cycles. -/
def secCycles : Nat := 1600000000

/-! ## Queues (R74, R77) -/

/-- Queue 0: ADMIN, privileged, of depth 1, always ACTIVE, in domain 0 (R74, R111). -/
def queue0 : Queue := { state := .active, priv := true, depth := 1 }

/-- A queue's context. -/
def State.queue (s : State) (n : Nat) : Queue := if n = 0 then queue0 else mgetD s.q.q n {}

/-- A queue's context written; a context of zeros is listed nowhere (R77). -/
def State.setQueue (s : State) (n : Nat) (q : Queue) : State :=
  { s with q := { s.q with q := mset {} s.q.q n q } }

/-! ## Domains and windows (R111, R113) -/

/-- Domain 0 as it starts without restored state (R111). -/
def domain0 : Domain :=
  { state := .active, quotaHot := 0xFFFFFFFF, quotaWarm := 0xFFFFFFFF, quotaFlash := 0xFFFFFFFF }

/-- What an unlisted domain is: domain 0 ACTIVE, every other FREE (R111). -/
def domainDefault (n : Nat) : Domain := if n = 0 then domain0 else {}

/-- A domain. -/
def State.domain (s : State) (n : Nat) : Domain := mgetD s.win.dom n (domainDefault n)

/-- A domain written. -/
def State.setDomain (s : State) (n : Nat) (d : Domain) : State :=
  { s with win := { s.win with dom := mset (domainDefault n) s.win.dom n d } }

/-- A window descriptor. -/
def State.window (s : State) (n : Nat) : Window := mgetD s.win.win n {}

/-- A window descriptor written. -/
def State.setWindow (s : State) (n : Nat) (w : Window) : State :=
  { s with win := { s.win with win := mset {} s.win.win n w } }

/-! ## Extents (R173) -/

/-- The extent that holds a device address. -/
def extOf (da : Nat) : Nat := da / 65536

/-- The sector that holds a device address. -/
def secOf (da : Nat) : Nat := da / 4096

/-- An extent, `none` while its state is NONE (R173). -/
def State.extent (s : State) (e : Nat) : Option Extent := mget s.tier.ext e

/-- An extent written. -/
def State.setExtent (s : State) (e : Nat) (x : Extent) : State :=
  { s with tier := { s.tier with ext := mput s.tier.ext e x } }

/-- A numbered thing in a list without repeats. -/
def addTo (l : List Nat) (n : Nat) : List Nat := if l.contains n then l else n :: l

/-- A member written. -/
def State.member (s : State) (m : Nat) : MemberSt := mgetD s.mc.members m {}

/-- A member written. -/
def State.setMember (s : State) (m : Nat) (x : MemberSt) : State :=
  { s with mc := { s.mc with members := mput s.mc.members m x } }

/-! ## Memory -/

/-- Memory: (device address, byte) pairs, addresses strictly rising, no byte 0: a byte that nothing has written in an
extent that has a home reads 0 (R175). -/
abbrev Memory := List Host.Cell

/-- One byte of memory. -/
def Memory.read (m : Memory) (a : Nat) : Byte := mgetD m a 0

/-- One byte written; the value an unlisted address reads as removes the entry. -/
def Memory.write (m : Memory) (a : Nat) (b : Byte) : Memory := mset 0 m a b

/-- The canonical form: addresses strictly rising and no listed byte 0. -/
def Memory.wf (m : Memory) : Bool := msorted none m && m.all (fun c => c.2 != 0)

/-- Bytes read from `a` up. -/
def Memory.readN (m : Memory) (a : Nat) : Nat → List Byte
  | 0 => []
  | n + 1 => Memory.read m a :: Memory.readN m (a + 1) n

/-- Bytes written from `a` up. -/
def Memory.writeN (m : Memory) (a : Nat) : List Byte → Memory
  | [] => m
  | b :: bs => Memory.writeN (Memory.write m a b) (a + 1) bs

/-- The bytes of `n` addresses from `a` up become 0. -/
def Memory.clear (m : Memory) (a n : Nat) : Memory := m.filter fun c => c.1 < a || a + n ≤ c.1

/-- Bytes of memory. -/
def State.readMem (s : State) (a n : Nat) : List Byte := Memory.readN s.mem a n

/-- Bytes written to memory. -/
def State.writeMem (s : State) (a : Nat) (bs : List Byte) : State := { s with mem := Memory.writeN s.mem a bs }

/-! ## Event pages (R105) -/

/-- An event entered on a page of 256: the oldest is overwritten and counted. -/
def EventPage.post (pg : EventPage) (epoch typ qid detail : Nat) : EventPage :=
  { next := pg.next + 1
    lost := if pg.events.length < 256 then pg.lost else pg.lost + 1
    events := (⟨pg.next, epoch, typ, qid, detail⟩ :: pg.events).take 256 }

/-- An event posted to one queue's page. -/
def State.postTo (s : State) (typ qid detail : Nat) (page : Nat) : State :=
  let pg := (mgetD s.q.pages page {}).post s.ep.num typ qid detail
  { s with q := { s.q with pages := mput s.q.pages page pg } }

/-- An event posted by R105: to queue 0 and to every ADMIN queue of domain `d`, or to every ADMIN queue when it is
device-wide (`d` is `none`). -/
def State.post (s : State) (d : Option Nat) (typ qid detail : Nat) : State :=
  ((List.range 16).filter fun n => n == 0 || ((s.queue n).state != .free &&
      (match d with | none => true | some d => (s.queue n).domain == d))).foldl
    (fun s n => s.postTo typ qid detail n) s

end Sys2Proof.Machine
end

