-- ==== Sys2Proof/Machine/Nor.lean ====
section
/-! DEFINITION. The embedded NOR (R351 to R356): words and sectors, the operations in flight, what the device itself
programs, and the records kept in two alternating areas (R355). -/

namespace Sys2Proof.Machine

/-- What an erased NOR word reads as (R351). -/
def norErased : Nat := 0xFFFFFFFF

/-- The bank of a NOR byte address. -/
def norBank (a : Nat) : Nat := a / 2 ^ 24 % 4

/-- Every line of a bank gone from every prefetch buffer and branch cache (R353). -/
def State.dropLines (s : State) (bank : Nat) : State :=
  let keep (_ : Nat) (ls : List Nat) : List Nat := ls.filter fun l => norBank (32 * l) != bank
  { s with cur := { s.cur with prefetch := mmap keep s.cur.prefetch, branch := mmap keep s.cur.branch } }

/-- The NOR word that holds byte address `a`; the four banks lie one after another, 16 MiB each (R351). -/
def State.norWord (s : State) (a : Nat) : Nat := mgetD s.cur.words (a / 4 * 4) norErased

/-- A NOR word at `v`. -/
def State.norSet (s : State) (a v : Nat) : State :=
  { s with cur := { s.cur with words := mset norErased s.cur.words (a / 4 * 4) v } }

/-- A word program: it can only clear bits (R351); no fetched line of the bank is kept (R353). -/
def State.norProgramWord (s : State) (a v : Nat) : State :=
  ((s.norSet a (Nat.land (s.norWord a) (v % 2 ^ 32))).inc NOR.PROGRAMS).dropLines (norBank a)

/-- Words programmed one after another from byte address `a` on, as `norProgramWord` programs each. -/
def State.norProgramWords (s : State) (a : Nat) (vs : List Nat) : State :=
  let words := (List.range vs.length).foldl (fun m i =>
    let k := a / 4 * 4 + 4 * i
    mset norErased m k (Nat.land (mgetD m k norErased) (vs.getD i 0 % 2 ^ 32))) s.cur.words
  (({ s with cur := { s.cur with words := words } }).inc NOR.PROGRAMS vs.length).dropLines (norBank a)

/-- A sector erase: every word of the 4 KiB sector reads erased (R351); no fetched line of the bank is kept (R353). -/
def State.norEraseSector (s : State) (a : Nat) : State :=
  let base := a / 4096 * 4096
  ({ s with cur := { s.cur with words := s.cur.words.filter fun e => e.1 < base || base + 4096 ≤ e.1 } }).inc NOR.ERASES
    |>.dropLines (norBank a)

/-- The byte address of a sector of a bank. -/
def norSector (bank sector : Nat) : Nat := bank * 2 ^ 24 + sector * 4096

/-- Is an operation in flight in the bank (R352)? -/
def State.norBusy (s : State) (bank : Nat) : Bool := (mget s.cur.busy bank).isSome

/-- Is an operation in flight in any bank? -/
def State.norInFlight (s : State) : Bool := !s.cur.busy.isEmpty

/-- A bank begins the first of `ops`, with the rest after it. -/
def State.norBegin (s : State) (bank : Nat) (ops : List NorOp) : State :=
  match ops with
  | [] => { s with cur := { s.cur with busy := mdel s.cur.busy bank, todo := mdel s.cur.todo bank } }
  | op :: rest =>
    { s with cur := { s.cur with busy := mput s.cur.busy bank op, todo := mset [] s.cur.todo bank rest } }

/-- The effect of an operation that ends (R352, R353). -/
def State.norApply (s : State) (op : NorOp) : State :=
  if op.erase then s.norEraseSector op.addr else s.norProgramWord op.addr op.data

/-- What a read of a bank finds: it stalls until an operation in flight there has ended (R352). -/
def State.norStalled (s : State) (bank : Nat) : State :=
  match mget s.cur.busy bank with
  | some op => s.norApply op
  | none => s

/-- A read of a bank counted where it stalls (R352). -/
def State.countStall (s : State) (bank : Nat) : State := if s.norBusy bank then s.inc NOR.READ_STALLS else s

/-- One thing the device does in bank 2 itself: a program, or `none` for a sector erase. -/
def State.devNorOne (s : State) (a : Nat) : Option Nat → State
  | some v => s.norProgramWord a v
  | none => s.norEraseSector a

/-- The device programs and erases in bank 2 itself: at once, or, while a curator operation is in flight there, when it
ends and before any other (R352, R356; log entry 5). -/
def State.devNor (s : State) (ops : List (Nat × Option Nat)) : State :=
  if s.norBusy 2 || !s.cur.devWait.isEmpty then { s with cur := { s.cur with devWait := s.cur.devWait ++ ops } }
  else ops.foldl (fun s o => s.devNorOne o.1 o.2) s

/-- What the device has waiting in bank 2 is done. -/
def State.devNorDrain (s : State) : State :=
  s.cur.devWait.foldl (fun s o => s.devNorOne o.1 o.2) { s with cur := { s.cur with devWait := [] } }

/-! ## Two alternating areas (R355) -/

/-- The bitwise complement of a word. -/
def notWord (v : Nat) : Nat := Nat.xor (v % 2 ^ 32) 0xFFFFFFFF

/-- Is an area valid: are its words 0 and 1 complements of each other (R355)? -/
def State.areaValid (s : State) (base : Nat) : Bool := s.norWord (base + 4) == notWord (s.norWord base)

/-- The active area of two: the valid one with the higher generation number (R355). -/
def State.activeArea (s : State) (a b : Nat) : Option Nat :=
  match s.areaValid a, s.areaValid b with
  | true, true => some (if s.norWord a < s.norWord b then b else a)
  | true, false => some a
  | false, true => some b
  | false, false => none

/-- The words of an area that are not erased, from byte `lo` of it up, in rising order. -/
def State.areaUsed (s : State) (base lo : Nat) : List (Nat × Nat) :=
  (s.cur.words.filter fun e => base + lo ≤ e.1 && e.1 < base + 4096).map fun e => (e.1 - base, e.2)

/-- The byte offset of the lowest entry of `len` bytes, from `lo` up, past every word programmed in the area. -/
def State.areaNext (s : State) (base lo len : Nat) : Nat :=
  match (s.areaUsed base lo).getLast? with
  | none => lo
  | some (o, _) => lo + ((o - lo) / len + 1) * len

/-- The check word of an entry: the bitwise complement of the XOR of its value words (R355). -/
def checkWord (ws : List Nat) : Nat := notWord (ws.foldl Nat.xor 0)

/-- Words programmed from a byte address up, in ascending order. -/
def wordsAt (a : Nat) (ws : List Nat) : List (Nat × Option Nat) :=
  (List.range ws.length).map fun i => (a + 4 * i, some (ws.getD i 0))

/-- An entry added to a record kept in two areas of one sector each: into the active area, or, where that has no room,
behind the next generation number and the words in force, `keep`, into the other area, after which the full one is erased (R355).
An area that is not valid is erased before it is used; generation numbers begin at 1 (log entry 6). What already waits for the bank
counts as done. -/
def State.areaAppend (s : State) (a b : Nat) (keep : State → List Nat) (entry : List Nat) : State :=
  let len := 4 * entry.length
  let v := s.devNorDrain
  match v.activeArea a b with
  | none => s.devNor ([(a, none), (a, some 1), (a + 4, some (notWord 1))] ++ wordsAt (a + 8) entry)
  | some act =>
    let other := if act = a then b else a
    let o := v.areaNext act 8 len
    if o + len ≤ 4096 then s.devNor (wordsAt (act + o) entry)
    else
      let g := (v.norWord act + 1) % 2 ^ 32
      s.devNor ([(other, none), (other, some g), (other + 4, some (notWord g))] ++
        wordsAt (other + 8) (keep v ++ entry) ++ [(act, none)])

/-- The last entry of `n` value words whose check word matches, in the active area (R355). -/
def State.areaLast (s : State) (a b n : Nat) : Option (List Nat) :=
  match s.activeArea a b with
  | none => none
  | some act =>
    let len := 4 * (n + 1)
    let count := (s.areaNext act 8 len - 8) / len
    ((List.range count).reverse.findSome? fun i =>
      let ws := (List.range n).map fun j => s.norWord (act + 8 + i * len + 4 * j)
      if s.norWord (act + 8 + i * len + 4 * n) == checkWord ws then some ws else none)

/-- The words of that entry, its check word last; none where there is no such entry. -/
def State.areaKeep (a b n : Nat) (s : State) : List Nat :=
  match s.areaLast a b n with
  | some ws => ws ++ [checkWord ws]
  | none => []

/-! ## The claim log, the epoch marks and the bank-select records (R140, R195, R360) -/

/-- A new claim programmed into the claim log: the claim and its check word (R140). -/
def State.logClaim (s : State) (claim : Nat) : State :=
  s.areaAppend (norSector 2 0) (norSector 2 1) (State.areaKeep (norSector 2 0) (norSector 2 1) 1) [claim, checkWord [claim]]

/-- The claim that the claim log holds. -/
def State.loggedClaim (s : State) : Option Nat :=
  (s.areaLast (norSector 2 0) (norSector 2 1) 1).map fun ws => ws.getD 0 0

/-- An epoch mark: K[31:0], K[63:32] and a check word (R195). -/
def State.logMark (s : State) (k : Nat) : State :=
  let ws := [k % 2 ^ 32, k / 2 ^ 32 % 2 ^ 32]
  s.areaAppend (norSector 2 2) (norSector 2 3) (State.areaKeep (norSector 2 2) (norSector 2 3) 2) (ws ++ [checkWord ws])

/-- The last epoch mark (R195). -/
def State.lastMark (s : State) : Option Nat :=
  (s.areaLast (norSector 2 2) (norSector 2 3) 2).map fun ws => ws.getD 0 0 + 2 ^ 32 * ws.getD 1 0

/-- The word that selects a bank (R360). -/
def bankWord (b : Bool) : Nat := if b then 0xB5E1FE01 else 0xB5E1FF00

/-- The bank-select record in force: the last word of the active area that holds one of the two values (R360). -/
def State.bankSelect (s : State) : Option Bool :=
  match s.activeArea (norSector 2 5) (norSector 2 6) with
  | none => none
  | some act =>
    (s.areaUsed act 8).reverse.findSome? fun e =>
      if e.2 == bankWord false then some false else if e.2 == bankWord true then some true else none

/-- A bank-select record programmed (R360). -/
def State.selectBank (s : State) (b : Bool) : State :=
  s.areaAppend (norSector 2 5) (norSector 2 6) (fun s => (s.bankSelect.map bankWord).toList) [bankWord b]

/-! ## Tables of whole records -/

/-- A record of `len` bytes put behind the last one programmed in sectors `lo` to `hi` of bank 2; where there is no room, the
sectors are erased and the records in force programmed before it (log entry 8). -/
def State.tableAppend (s : State) (lo hi : Nat) (keep : List (List Nat)) (entry : List Nat) : State :=
  let v := s.devNorDrain
  let base := norSector 2 lo
  let stop := norSector 2 (hi + 1)
  let len := 4 * entry.length
  let o := match (v.cur.words.filter fun e => base ≤ e.1 && e.1 < stop).getLast? with
    | none => base
    | some (x, _) => base + ((x - base) / len + 1) * len
  if o + len ≤ stop then s.devNor (wordsAt o entry)
  else
    s.devNor ((List.range (hi + 1 - lo)).map (fun i => (norSector 2 (lo + i), none)) ++ wordsAt base (keep.flatten ++ entry))

/-- Sectors `lo` to `hi` of bank 2 erased, those with a programmed word alone. -/
def State.tableErase (s : State) (lo hi : Nat) : State :=
  let v := s.devNorDrain
  s.devNor (((List.range (hi + 1 - lo)).filter fun i =>
    v.cur.words.any fun e => e.1 / 4096 * 4096 == norSector 2 (lo + i)).map fun i => (norSector 2 (lo + i), none))

/-! ## Bytes of NOR -/

/-- The highest SERIAL among records, as its record's address. -/
def State.newest (s : State) (l : List Nat) : Option Nat :=
  l.foldl (fun b a => match b with
    | none => some a
    | some b => if s.norWord (b + 4) < s.norWord (a + 4) then some a else some b) none

/-- `n` bytes of NOR from byte address `a` up, in the byte order of R8. -/
def State.norBytes (s : State) (a n : Nat) : List Byte :=
  (List.range n).map fun i => BitVec.ofNat 8 (s.norWord (a + i) / 256 ^ ((a + i) % 4))

end Sys2Proof.Machine
end

