-- ==== Sys2Proof/Machine/Census.lean ====
section
/-! DEFINITION. The calendar's arithmetic and the Census recorder: codes, counts, histograms, rails and records (R366 to
R374, R377 to R379), and the fences' record (R362). -/

namespace Sys2Proof.Machine

/-! ## The calendar (R377) -/

/-- The calendar's fraction of a second, in 1/32,768 s. -/
def State.calFrac (s : State) : Nat :=
  if s.cal.ended then 32767 else min 32767 ((s.now - s.cal.tickAt) * 32768 / secCycles)

/-- Calendar time in 1/32,768 s. -/
def State.calTime (s : State) : Nat := s.cal.sec * 32768 + s.calFrac

/-- Is this a leap year (R377)? -/
def leapYear (y : Nat) : Bool := y % 4 == 0 && y != 2100 && y != 2200 && y != 2300

/-- The days of a month. -/
def monthDays (y m : Nat) : Nat :=
  if m == 2 then (if leapYear y then 29 else 28)
  else if m == 4 || m == 6 || m == 9 || m == 11 then 30 else 31

/-- Days from 2000-01-01 to the first of January of year `y`: 365 a year and the leap days before it (R377). -/
def yearDays (y : Nat) : Nat :=
  let k := y - 2000
  365 * k + (k + 3) / 4 - b2n (2100 < y) - b2n (2200 < y) - b2n (2300 < y)

/-- The calendar second of a date and time. -/
def calOf (y mo d h mi se : Nat) : Nat :=
  let days := yearDays y + ((List.range (mo - 1)).map fun i => monthDays y (i + 1)).sum + (d - 1)
  ((days * 24 + h) * 60 + mi) * 60 + se

/-- The last second of the calendar's range. -/
def calLast : Nat := calOf 2399 12 31 23 59 59

/-- The year that day `d` of the calendar lies in. -/
def yearOfDay (d : Nat) : Nat :=
  let guess := 2000 + d / 366
  guess + ((List.range 3).filter fun i => yearDays (guess + i + 1) ≤ d).length

/-- The month and the day of the month of the `d`-th day of year `y`, both from 1. -/
def monthOfDay (y d : Nat) : Nat × Nat :=
  let starts := (List.range 12).map fun m => ((List.range m).map fun i => monthDays y (i + 1)).sum
  let m := (starts.filter (· ≤ d)).length
  (m, d - starts.getD (m - 1) 0 + 1)

/-- Is this date and time one a set may carry (R379)? -/
def calSetOk (y mo d h mi se : Nat) : Bool :=
  2000 ≤ y && y ≤ 2399 && 1 ≤ mo && mo ≤ 12 && 1 ≤ d && d ≤ monthDays y mo && h ≤ 23 && mi ≤ 59 && se ≤ 59

/-! ## Counts (R366 to R368) -/

/-- Where a 48-bit count saturates (R366). -/
def count48 : Nat := 2 ^ 48 - 1

/-- The recorder with a count of code `c` up. -/
def CensusSt.bump (x : CensusSt) (c : Nat) (n : Nat := 1) : CensusSt :=
  { x with counts := mput x.counts c (min count48 (mgetD x.counts c 0 + n)) }

/-- The 8-bit code of a count: the largest c whose value is at most n (R368). -/
def countCode (n : Nat) : Nat :=
  if n < 4 then n else 4 * (Nat.log2 n - 1) + (n / 2 ^ (Nat.log2 n - 2) - 4)

/-- What a code stands for (R368). -/
def codeValue (c : Nat) : Nat := if c / 4 = 0 then c % 4 else (4 + c % 4) * 2 ^ (c / 4 - 1)

/-- The bin of a latency in core cycles (R367): 16 ns is 25.6 cycles. -/
def latencyBin (cycles : Nat) : Nat := min 31 (Nat.log2 (cycles * 5 / 128))

/-- An answer counted in its class's histogram (R367). -/
def State.countLatency (s : State) (cls arrival : Nat) : State :=
  let i := cls * 32 + latencyBin (s.now - arrival)
  { s with cen := { s.cen with hist := mput s.cen.hist i (min count48 (mgetD s.cen.hist i 0 + 1)) } }

/-- Is a code marked "Yes" in R366: does it write OUT_OF_CYCLE records? -/
def oocCode (c : Nat) : Bool := !(c == 3 || c == 4 || c == 5) && c ≤ 15

/-! ## Records (R371) -/

/-- A rail entry's 40 bits (R371). -/
def railBits (r : RailStat) : Nat := r.min + 2 ^ 14 * r.max + 2 ^ 28 * r.tMin + 2 ^ 34 * r.tMax

/-- A temperature as a signed byte. -/
def tempByte (t : Int) : Byte := BitVec.ofInt 8 t

/-- The three dies of most corrected bits, most first (R371). -/
def CensusSt.topDies (x : CensusSt) : List (Nat × Nat) :=
  let pick (l : List (Nat × Nat)) : List (Nat × Nat) → Option (Nat × Nat) := fun done =>
    (l.filter fun e => !done.contains e && e.2 != 0).foldl (fun b e => match b with
      | none => some e
      | some b => some (if b.2 < e.2 then e else b)) none
  let a := pick x.dieBits []
  let b := pick x.dieBits a.toList
  let c := pick x.dieBits (a.toList ++ b.toList)
  a.toList ++ b.toList ++ c.toList

/-- Has a count or bin saturated in the period (R368)? -/
def CensusSt.saturated (x : CensusSt) : Bool :=
  x.ovf || [x.hist, x.counts, x.corrStk, x.corrDch, x.dieBits].any fun m => m.any fun e => e.2 == count48

/-- The 252 bytes of a record that its CRC covers, with SERIAL and TIME as given (R371). -/
def State.recordBytes (s : State) (kind trig idx : Nat) (step : Bool) : List Byte :=
  let x := s.cen
  let dies := (List.range 3).map fun i => match x.topDies[i]? with
    | some (d, n) => bytesLE 2 d ++ [BitVec.ofNat 8 (countCode n), 0]
    | none => [0xFF, 0xFF, 0, 0]
  bytesLE 4 0x43454E53 ++ bytesLE 4 x.nextSlot ++
    [BitVec.ofNat 8 kind,
     BitVec.ofNat 8 (b2n x.saturated + 2 * b2n x.injected + 4 * b2n step + 8 * b2n (!s.cal.valid))] ++
    bytesLE 2 (s.cal.sec - x.start / 32768) ++ [BitVec.ofNat 8 trig, BitVec.ofNat 8 idx, 0, 0] ++
    bytesLE 8 s.calTime ++
    (List.range 96).map (fun i => BitVec.ofNat 8 (countCode (mgetD x.hist i 0))) ++
    (List.range 16).map (fun i => BitVec.ofNat 8 (countCode (mgetD x.counts i 0))) ++
    (List.range 16).flatMap (fun k => bytesLE 5 (railBits (mgetD x.rails k {}))) ++
    [tempByte (x.tjMin.getD s.pwr.tj), tempByte (x.tjMax.getD s.pwr.tj), tempByte (x.stkMax.getD 0), 0] ++
    bytesLE 2 x.vMin ++ bytesLE 2 x.vMax ++
    (List.range 8).map (fun i => BitVec.ofNat 8 (countCode (mgetD x.corrStk i 0))) ++
    (List.range 8).map (fun i => BitVec.ofNat 8 (countCode (mgetD x.corrDch i 0))) ++
    dies.flatten

/-- The byte address of a record slot: slot s lies at 256 × s of bank 3 (R373). -/
def censusAddr (slot : Nat) : Nat := norSector 3 0 + 256 * slot

/-- The lowest record slot whose first word is erased (R373), from the words that are not erased. -/
def lowestSlot (words : NMap Nat) : Nat :=
  (words.filter fun e => censusAddr 0 ≤ e.1 && e.1 % 256 == 0).foldl
    (fun n e => if e.1 == censusAddr n then n + 1 else n) 0

/-- The lowest record slot whose first word is erased (R373). -/
def State.scanSlots (s : State) : Nat := lowestSlot s.cur.words

/-- The next slot found again: the lowest whose first word is erased (R373). -/
def State.findSlot (s : State) : State :=
  { s with cen := { s.cen with nextSlot := s.scanSlots, full := s.scanSlots == 65536 } }

/-- The lowest erased slot once the first word of the next slot is programmed: that word is never the erased one (R371, R373). -/
def State.slotAfter (s : State) : Nat := lowestSlot (mput s.cur.words (censusAddr s.cen.nextSlot) 0)

/-- SERIAL, TIME and CAL_INVALID put into a record at its writing (R371). -/
def State.stampRecord (s : State) (bs : List Byte) : List Byte :=
  let flags := (bs.getD 9 0).toNat % 8 + 8 * b2n (!s.cal.valid)
  bs.take 4 ++ bytesLE 4 s.cen.nextSlot ++ [bs.getD 8 0, BitVec.ofNat 8 flags] ++ slice bs 10 6 ++ bytesLE 8 s.calTime ++
    bs.drop 24

/-- The first `n` of a record's 64 words, the CRC word last, programmed into the next slot in ascending order (R371 to R373); the
next slot is then the lowest that is still erased. -/
def State.programWords (s : State) (bs : List Byte) (n : Nat) : State :=
  let bs := s.stampRecord bs
  let ws := wordsLE 64 (bs ++ bytesLE 4 (crc32 bs))
  let next := if n = 0 then s.scanSlots else s.slotAfter
  ({ s with cen := { s.cen with newest := some s.cen.nextSlot, nextSlot := next, full := next == 65536 } }).norProgramWords
    (censusAddr s.cen.nextSlot) (ws.take n)

/-- A record programmed whole (R371, R373). -/
def State.programRecord (s : State) (bs : List Byte) : State :=
  let s := s.programWords bs 64
  let full := s.cen.full
  let kind := (bs.getD 8 0).toNat
  let s := if kind == 1 then s.raise CEN.page CEN.evSUMMARY_DONE
    else if kind == 2 then s.raise CEN.page CEN.evOOC_DONE else s
  (s.raiseIf (bitOf (bs.getD 9 0).toNat 0) CEN.page CEN.evOVF_EVT).raiseIf full CEN.page CEN.evSTORE_FULL

/-- Is the store closed to a record for now: bank 3 busy, or a clear still to end (R373, R376)? -/
def State.storeBusy (s : State) : Bool := s.norBusy 3 || s.cen.clearing

/-- Has the period ended and its SUMMARY not yet been written (R370)? -/
def State.periodDue (s : State) : Bool :=
  s.cal.sec % (60 * s.cen.period) == 0 && s.cen.start < s.cal.sec * 32768

/-- A SUMMARY that is due: held while bank 3 is busy, written, or counted in DROPPED (R373). -/
def State.writeSummary (s : State) (bs : List Byte) : State :=
  if s.storeBusy then
    if s.cen.heldSum.isSome then s.inc CEN.DROPPED else { s with cen := { s.cen with heldSum := some bs } }
  else if s.cen.full then s.inc CEN.DROPPED
  else s.programRecord bs

/-- An OUT_OF_CYCLE record that is due, and whether it is written: held while bank 3 is busy and where it must follow a SUMMARY,
written, or counted in DROPPED (R372, R373). -/
def State.writeOoc (s : State) (wait : Bool) (bs : List Byte) : Bool × State :=
  if s.storeBusy || wait then
    if s.cen.heldOoc.isSome then (false, s.inc CEN.DROPPED)
    else (true, { s with cen := { s.cen with heldOoc := some bs } })
  else if s.cen.full then (false, s.inc CEN.DROPPED)
  else (true, s.programRecord bs)

/-- The held records written, the SUMMARY first (R372, R373). -/
def State.writeHeld (s : State) : State :=
  if s.storeBusy then s else
  let sum := s.cen.heldSum
  let ooc := s.cen.heldOoc
  let s := { s with cen := { s.cen with heldSum := none, heldOoc := none } }
  let s := match sum with
    | some b => s.writeSummary b
    | none => s
  match ooc with
  | some b => (s.writeOoc false b).2
  | none => s

/-- An OUT_OF_CYCLE record, if the code's bucket holds a token (R372), which the write takes; a bucket starts full (log entry 7).
While the period is due to close, and where `closing` says that the count closes it, the record follows the SUMMARY. -/
def State.outOfCycle (s : State) (code idx : Nat) (closing : Bool := false) : State :=
  let t := mgetD s.cen.tokens code 4
  if s.get CEN.OOC_PER_HOUR == 0 || t == 0 then s.inc CEN.OOC_SUPPRESSED
  else match s.writeOoc (closing || s.periodDue) (s.recordBytes 2 code (idx % 256) false) with
    | (true, s) => { s with cen := { s.cen with tokens := mput s.cen.tokens code (t - 1) } }
    | (false, s) => s.inc CEN.OOC_SUPPRESSED

/-- A Census entry: one count under a code of R366. -/
def State.census (s : State) (code idx : Nat) : State :=
  let s := { s with cen := s.cen.bump code }
  if oocCode code then s.outOfCycle code idx else s

/-- `n` counts of a code that writes no record. -/
def State.censusN (s : State) (code n : Nat) : State := { s with cen := s.cen.bump code n }

/-- An injected event (R366, R392): one count under code 15, and a record where the event's own code is marked. -/
def State.censusInjected (s : State) (marked : Bool) : State :=
  let s := { s with cen := { s.cen.bump 15 with injected := true } }
  if marked then s.outOfCycle 15 0 else s

/-- A period ends: its SUMMARY record, then everything cleared and the next period begun (R370); a record of a count that is
part of the SUMMARY follows it (R372). -/
def State.closePeriod (s : State) (step : Bool) : State :=
  let s := s.writeSummary (s.recordBytes 1 0 0 step)
  let x := s.cen
  let s := { s with cen := { x with
      hist := [], counts := [], rails := [], corrStk := [], corrDch := [], dieBits := [], tjMin := none, tjMax := none
      stkMax := none, vMin := x.vNow, vMax := x.vNow, ovf := false, injected := false, start := s.calTime
      period := s.get CEN.PERIOD_MIN } }
  ((List.range 16).foldl (fun s k => s.put (CEN.RAIL_SUM k) 0) (s.put CEN.SAMPLES 0)).writeHeld

/-- A calendar step counted (R366 code 9): part of the SUMMARY with STEP set that closes the period, its record after it (R370,
R372; log entry 75). -/
def State.stepCounted (s : State) : State :=
  (State.outOfCycle { s with cen := s.cen.bump 9 } 9 0 true).closePeriod true

/-- The calendar at a new second: a calendar step (R370, R379); the next period begins at the new time. -/
def State.calStep (s : State) (sec : Nat) : State :=
  let s := s.stepCounted
  let s := { s with cal := { s.cal with sec := sec, tickAt := s.now, valid := true, ended := false } }
  { s with cen := { s.cen with start := s.calTime } }

/-- A calendar set (R379): refused whole, or loaded as a calendar step; was it accepted? -/
def State.calSet (s : State) (y mo d h mi se : Nat) : Bool × State :=
  if calSetOk y mo d h mi se then (true, (s.calStep (calOf y mo d h mi se)).raise RTC.page RTC.evSET_DONE)
  else (false, (s.put RTC.BAD_DATE 1).raise RTC.page RTC.evBAD_DATE_EVT)

/-- The words of the slot at a cursor, 0xFFFF_FFFF beyond the store (R374). -/
def State.slotWord (s : State) (slot w : Nat) : Nat :=
  if slot < 65536 then (s.norStalled 3).norWord (censusAddr slot + 4 * w) else norErased

/-! ## Fences (R362) -/

/-- An attempt against a fence, recorded in FEN and in Census. -/
def State.fence (s : State) (cause : Nat) (curator : Option (Fin 4)) (addr : Nat) : State :=
  let s := s.put FEN.LAST_CAUSE cause
  let s := match curator with
    | some k => s.put FEN.LAST_CURATOR k.val
    | none => s
  ((s.put FEN.LAST_ADDR addr).inc (FEN.COUNT cause)).raise FEN.page (cause - 1) |>.census 8 (cause % 256)

end Sys2Proof.Machine
end

