-- ==== Sys2Proof/Machine/Keys.lean ====
section
/-! DEFINITION. The key store and the cipher channels (R284 to R301): loading and unloading key instances, hardware
counters and their marks, channels and what is lost with them. -/

namespace Sys2Proof.Machine

/-- A loaded key instance. -/
def State.keyInst (s : State) (n : Nat) : Option KeyInst := mget s.key.inst n

/-- A key instance written. -/
def State.setKeyInst (s : State) (n : Nat) (k : KeyInst) : State :=
  { s with key := { s.key with inst := mput s.key.inst n k } }

/-- The highest counter mark of an instance: 0 without an entry (R290). -/
def State.keyMark (s : State) (n : Nat) : Nat := mgetD s.key.marks n 0

/-- Is `n` the key of a bound journal (R288)? -/
def State.journalKey (s : State) (n : Nat) : Bool :=
  s.acc.jrn.any fun e => e.2.window.isSome && e.2.keyInst == n

/-- Do ADT, CPH or the XPT pages name the instance (R288)? -/
def State.keyNamed (s : State) (n : Nat) : Bool :=
  n != 0 && (s.get ADT.SEAL_TX_KEY == n || s.get ADT.SEAL_RX_KEY == n || s.get CPH.STORE_KEY == n ||
    (List.range 16).any fun p => s.flag (XPT.SEAL_EN p) && s.get (XPT.SEAL_TX_KEY p) == n)

/-- Is the instance in use (R288)? -/
def State.keyInUse (s : State) (n : Nat) : Bool := s.keyNamed n || s.journalKey n

/-! ## Policy words (R287) -/

/-- A policy word's key length in bytes. -/
def keyBytes (alg : Nat) : Nat := if alg = 0 then 16 else 32

/-- Does a policy word follow R287, with `len` bytes of key material, and LEGACY only with MODE KW (R288)? -/
def policyOk (p len : Nat) : Bool :=
  let alg := bitsOf p 0 2
  let mode := bitsOf p 2 4
  let cls := bitsOf p 8 4
  let legacy := bitOf p 12
  allBits p && alg ≤ 1 && (!legacy || mode == 3) &&
    ((cls == 1 && mode == 0 && len == keyBytes alg) || (cls == 2 && mode == 2 && len == 3 * keyBytes alg) ||
      (cls == 4 && mode == 0 && len == keyBytes alg) ||
      (cls == 8 && (mode == 1 || mode == 3) && len == keyBytes alg))
where
  /-- Bits that R287 does not list are reserved and 0. -/
  allBits (p : Nat) : Bool := bitsOf p 6 2 == 0 && p / 2 ^ 13 == 0

/-- The policy word of a loaded instance. -/
def KeyInst.policy (k : KeyInst) : Nat := k.alg + 4 * k.mode + 256 * k.cls + 4096 * b2n k.legacy

/-- The instance that an unwrapped blob installs. -/
def keyOfBlob (kek : Nat) (d : List Byte) : KeyInst :=
  let p := fieldBE d 0 8
  { kek := kek, alg := bitsOf p 0 2, mode := bitsOf p 2 4, cls := bitsOf p 8 4, legacy := bitOf p 12
    material := d.drop 8 }

/-- The key that unwraps under a KEK_INST: the root key for 0, else a loaded KW instance (R288, R289). -/
def State.kekOf (s : State) (n : Nat) : Option (List Byte) :=
  if n = 0 then (if s.key.rootGone then none else some s.key.rootKey)
  else match s.keyInst n with
    | some k => if k.mode == 3 then some k.material else none
    | none => none

/-- Unwrap of a blob, by KWP or KW (R286). -/
def unwrapBlob (key : List Byte) (pad : Bool) (blob : List Byte) : Option (List Byte) :=
  ((if pad then kwpUnwrap else kwUnwrap) (toNats key) (toNats blob)).map ofNats

/-! ## Marks and counters (R290, R291) -/

/-- The device begins to program a mark of the instance 2³² above its highest (R290). -/
def State.startMark (s : State) (n : Nat) : State :=
  { s with key := { s.key with marking := s.key.marking ++ [(n, s.keyMark n + 2 ^ 32)] } }

/-- Is a mark of the instance being programmed? -/
def State.marking (s : State) (n : Nat) : Bool := s.key.marking.any (·.1 == n)

/-- Is the instance loaded and waiting for its first mark: it then performs no operation (R290)? -/
def State.keyWaits (s : State) (n : Nat) : Bool := ((s.keyInst n).map fun k => !k.ready).getD false

/-- A key instance installed, its counter at the old highest mark and waiting for a new one (R290). -/
def State.installKey (s : State) (n : Nat) (k : KeyInst) : State :=
  (s.setKeyInst n { k with counter := s.keyMark n }).startMark n

/-- An instance retired with its counter at `c` (R291). -/
def State.retireKey (s : State) (n c : Nat) (k : KeyInst) : State :=
  (s.setKeyInst n { k with counter := c, retired := true }).raise KST.page KST.evKEY_RETIRED

/-- `c` operations under hardware nonces (R290, R291): not performed while the instance cannot perform them all (absent,
waiting for a mark, or retired). Those before the one that retires it are performed. -/
def State.useCounters (s : State) (n c : Nat) : Bool × State :=
  match s.keyInst n with
  | none => (false, s)
  | some k =>
    if k.retired || !k.ready || s.keyMark n < k.counter + c then (false, s)
    else if 2 ^ 64 - 2 ^ 32 ≤ k.counter + c then
      (false, s.retireKey n (max k.counter (2 ^ 64 - 2 ^ 32 - 1)) k)
    else
      let s' := s.setKeyInst n { k with counter := k.counter + c }
      (true, if s.keyMark n - 2 ^ 31 ≤ k.counter + c && !s.marking n then s'.startMark n else s')

/-- An operation under a hardware nonce (R290, R291): the counter it uses, `none` while the instance cannot perform one. -/
def State.useCounter (s : State) (n : Nat) : Option Nat × State :=
  match s.useCounters n 1 with
  | (true, t) => ((s.keyInst n).map (·.counter), t)
  | (false, t) => (none, t)

/-- Could the instance perform an operation now (R290, R291)? -/
def State.counterReady (s : State) (n : Nat) : Bool := (s.useCounter n).1.isSome

/-- The nonce be32(KEY_INST) followed by be64(counter) (R290). -/
def nonceOf (inst counter : Nat) : List Byte := bytesBE 4 inst ++ bytesBE 8 counter

/-- The words of a mark entry (R290): KEY_INST, the mark, and their CRC-32. -/
def markWords (n v : Nat) : List Nat :=
  let ws := [n, v % 2 ^ 32, v / 2 ^ 32 % 2 ^ 32]
  ws ++ [crc32 (ws.flatMap (bytesLE 4))]

/-! ## Load and unload (R288, R289) -/

/-- How many entries the mark table holds, those being programmed counted. -/
def State.markEntries (s : State) : Nat :=
  s.key.marks.length +
    (s.key.marking.filter fun m => (mget s.key.marks m.1).isNone).length

/-- Does a LOAD come to the unwrap: do the earlier rows of R288 not refuse it? -/
def State.loadUnwraps (s : State) (inst kek len : Nat) : Bool :=
  !s.flag CPH.PRIV_ERASED && inst != 0 && (s.keyInst inst).isNone && 32 ≤ len && len ≤ 112 && (s.kekOf kek).isSome

/-- What a LOAD of R288 comes to: its status, and the instance to install. -/
def State.loadJudge (s : State) (inst kek len : Nat) (pad : Bool) (blob : List Byte) : Nat × Option KeyInst :=
  if s.flag CPH.PRIV_ERASED then (0x0F, none)
  else if inst == 0 || (s.keyInst inst).isSome || len < 32 || 112 < len then (0x02, none)
  else match s.kekOf kek with
    | none => (0x02, none)
    | some key =>
      match unwrapBlob key pad blob with
      | none => (0x10, none)
      | some d =>
        if !policyOk (fieldBE d 0 8) (d.length - 8) then (0x02, none)
        else if 4096 ≤ s.key.inst.length || (8192 ≤ s.markEntries && (mget s.key.marks inst).isNone &&
            !s.marking inst) then (0x02, none)
        else (0, some (keyOfBlob kek d))

/-- The words of a blob record (R289): KEY_INST, KEK_INST, WRAP_PAD with the blob's length, the blob padded to 112 bytes, and the
CRC-32 that R356 asks for; their order is the model's (log entry 8). -/
def blobWords (r : BlobRec) : List Nat :=
  let ws := [r.inst, r.kek, b2n r.pad + 256 * r.blob.length] ++ wordsLE 28 (r.blob ++ List.replicate (112 - r.blob.length) 0)
  ws ++ [crc32 (ws.flatMap (bytesLE 4))]

/-- A blob record programmed, or the record of an instance invalidated: its words, which then fail their check (R356). -/
def State.applyRec (s : State) : BlobRec ⊕ Nat → State
  | .inl r =>
    let s := s.tableAppend 72 583 (s.key.records.map blobWords) (blobWords r)
    { s with key := { s.key with records := s.key.records ++ [r] } }
  | .inr n =>
    let as := (s.cur.words.filter fun e => norSector 2 72 ≤ e.1 && e.1 < norSector 2 584 && e.1 % 128 == 0 && e.2 == n).map (·.1)
    let s := s.devNor (as.flatMap fun a => (List.range 32).map fun i => (a + 4 * i, some 0))
    { s with key := { s.key with records := s.key.records.filter (·.inst != n) } }

/-- A change of the blob records: at once, or held while an operation is in flight in bank 2 (R356). -/
def State.keyRec (s : State) (c : BlobRec ⊕ Nat) : State :=
  if s.norBusy 2 then { s with key := { s.key with heldRec := some c } } else s.applyRec c

/-- A loaded instance erased. -/
def State.eraseKey (s : State) (n : Nat) : State :=
  { s with key := { s.key with inst := mdel s.key.inst n, marking := s.key.marking.filter (·.1 != n) } }

/-! ## Channels (R284, R298, R300) -/

/-- The first channel of the class of channel `i`, and how many it has: LC, SC, AC, PC (R284). -/
def chanClass (i : Nat) : Nat × Nat :=
  if i < 8 then (0, 8) else if i < 16 then (8, 8) else if i < 18 then (16, 2) else (18, 4)

/-- A channel's rate in 64ths of a byte per core cycle (R284); a quarter of it under a LEGACY key (R297). -/
def chanRate (i : Nat) (legacy : Bool) : Nat :=
  (if i < 8 then 8000 else if i < 16 then 1280 else if i < 18 then 17000 else 500) / (if legacy then 4 else 1)

/-- The channel that does channel `i`'s work: itself in service, else the next of its class in service, ascending with
wrap-around; AC_0 and AC_1 have no substitute (R298). -/
def State.channelOf (s : State) (i : Nat) : Option Nat :=
  let (base, n) := chanClass i
  if base == 16 then (if s.key.outCh.contains i then none else some i)
  else ((List.range n).map fun k => base + (i - base + k) % n).find? fun c => !s.key.outCh.contains c

/-- Does channel `i`'s work wait: the channels are halted, or none of the class is in service (R297, R298)? -/
def State.chanWaits (s : State) (i : Nat) : Bool := s.key.halted || (s.channelOf i).isNone

/-- The first message of the highest priority. -/
def bestJob (js : List ChanJob) : Option ChanJob :=
  js.foldl (fun b j => match b with
    | none => some j
    | some x => if j.prio < x.prio then some j else some x) none

/-- How many bytes of a message have been processed. -/
def ChanJob.position (j : ChanJob) : Nat := (j.total - j.left) / 64

/-- The counter block that a message goes on with (R285, R300). -/
def ChanJob.counterBlock (j : ChanJob) : List Byte := j.ctx.nonce ++ bytesBE 4 (j.position / 16 + 2)

/-- The GHASH accumulator of a message at its position, under the hash key `h` (R300). -/
def ChanJob.accumulator (j : ChanJob) (h : Nat) : Nat :=
  (blocks16 (toNats j.ctx.aad) ++ (blocks16 (toNats j.ctx.data)).take (j.position / 16)).foldl
    (fun y x => gmul128 128 (Nat.xor y x) h 0) 0

/-- A message stopped at its next 16-byte block boundary (R300). -/
def ChanJob.atBlock (j : ChanJob) : ChanJob := { j with left := j.left / 1024 * 1024 }

/-- A channel whose running message has ended: a suspended message resumes where nothing of higher priority waits (R300). -/
def ChanSt.next (c : ChanSt) : ChanSt :=
  match bestJob (c.saved ++ c.waiting) with
  | none => { c with run := none }
  | some j =>
    if c.saved.contains j then { c with run := some j, saved := c.saved.erase j }
    else { c with run := some j, waiting := c.waiting.erase j }

/-- A channel `n` core cycles on; the first argument bounds the messages that end. -/
def ChanSt.advance (rate : Bool → Nat) : Nat → ChanSt → Nat → ChanSt
  | 0, c, _ => c
  | k + 1, c, n => match c.run with
    | none => c
    | some j =>
      if j.left ≤ n * rate j.legacy then ChanSt.advance rate k c.next (n - ceilDiv j.left (rate j.legacy))
      else { c with run := some { j with left := j.left - n * rate j.legacy } }

/-- Channel `i` as it stands now. -/
def State.chanNow (s : State) (i : Nat) : ChanSt :=
  let c := mgetD s.key.chan i {}
  { c.advance (chanRate i) (1 + c.saved.length + c.waiting.length) (s.now - c.since) with since := s.now }

/-- A message given to a channel with `slots` contexts for it: whether it suspended the running one, and whether it found every
context in use (R300). -/
def ChanSt.start (c : ChanSt) (slots : Nat) (j : ChanJob) : ChanSt × Bool × Bool :=
  match c.run with
  | none => ({ c with run := some j }, false, false)
  | some r =>
    if r.prio ≤ j.prio then ({ c with waiting := c.waiting ++ [j] }, false, false)
    else if c.saved.length < slots then ({ c with run := some j, saved := c.saved ++ [r.atBlock] }, true, false)
    else ({ c with waiting := c.waiting ++ [j] }, false, true)

/-- A message on channel `c`; one context of AC_0 is RELAY's alone (R300). -/
def State.chanStart (s : State) (c : Nat) (j : ChanJob) : State :=
  let (x, susp, full) := (s.chanNow c).start (if c == 16 && j.prio != 1 then 3 else 4) j
  let s := { s with key := { s.key with chan := mput s.key.chan c x } }
  let s := if susp then (s.inc (CCH.SUSPENDS c)).inc CPH.SUSPENDS else s
  s.raiseIf full (CCH.page c) CCH.evCTX_FULL

/-- Messages of some bytes in all, of one priority, one after the other on the channel that does channel `i`'s work; a tag that
fails. The masks of each block are drawn from the DRBG, by one request (R297; log entry 74). -/
def State.channelMsg (s : State) (i bytes prio : Nat) (bad : Bool := false) (legacy : Bool := false) (count : Nat := 1)
    (ctx : MsgCtx := {}) : State :=
  match s.channelOf i with
  | none => s
  | some c =>
    let blocks := ceilDiv bytes 16
    let s := { s with key := { s.key with drbgReqs := s.key.drbgReqs + blocks } }
    let s := ((s.chanStart c ⟨prio, 64 * bytes, legacy, 64 * bytes, ctx⟩).inc (CCH.BLOCKS c) blocks).inc (CCH.MESSAGES c) count
    let s := if legacy then s.inc (CCH.LEGACY_BLOCKS c) blocks else s
    if bad then (s.inc (CCH.AUTH_FAIL c)).raise (CCH.page c) CCH.evAUTH_FAIL_EVT else s

/-- A blob unwrapped on a privileged channel (R284, R289, R297): the legacy mode of the key that unwraps it, and whether its
integrity check failed. -/
def State.unwrapMsg (s : State) (kek bytes : Nat) (bad : Bool) : State :=
  let legacy := match s.keyInst kek with
    | some k => kek != 0 && k.legacy
    | none => false
  s.channelMsg 18 bytes 2 bad legacy (ctx := { inst := kek })

/-- A channel out of service (R298): what it had goes on in the next of its class. -/
def State.chanOut (s : State) (c : Nat) : State :=
  let x := s.chanNow c
  let s := { s with key := { s.key with outCh := addTo s.key.outCh c, chan := mdel s.key.chan c } }
  let s := (s.raise (CCH.page c) CCH.evOUT_OF_SERVICE).raise CPH.page CPH.evCHANNEL_FAULT
  match s.channelOf c with
  | none => s
  | some d =>
    let y := s.chanNow d
    let y := { y with waiting := x.run.toList ++ x.saved ++ x.waiting ++ y.waiting }
    { s with key := { s.key with chan := mput s.key.chan d (if y.run.isNone then y.next else y) } }

/-- A comparison mismatch (R298): counted; the second of one block, or the third within one second, takes the channel out of
service. -/
def State.mismatch (s : State) (m : Mismatch) : State :=
  let c := m.chan.val
  if s.key.outCh.contains c then s
  else
    let n := 1 + b2n m.again
    let s := ((s.inc (CCH.MISMATCH c) n).inc CPH.MISMATCH n).raise (CCH.page c) CCH.evMISMATCH_EVT
    let ts := (List.replicate n m.time ++ mgetD s.key.mismatches c []).filter fun t => m.time ≤ t + secCycles
    let s := { s with key := { s.key with mismatches := mput s.key.mismatches c ts } }
    if m.again || 3 ≤ ts.length then s.chanOut c else s

/-- A record unwrapped after a datapath reset (R289). -/
def State.reloadOne (s : State) (r : BlobRec) : State :=
  match s.kekOf r.kek with
  | none => s.raise KST.page KST.evKEY_RELOAD_FAIL
  | some key =>
    match unwrapBlob key r.pad r.blob with
    | none => (s.unwrapMsg r.kek r.blob.length true).raise KST.page KST.evKEY_RELOAD_FAIL
    | some d => (s.unwrapMsg r.kek r.blob.length false).installKey r.inst (keyOfBlob r.kek d)

/-- Records unwrapped in order, up to one whose key-encryption key waits for its mark (R289, R290). -/
def State.reloadFrom : List BlobRec → State → State
  | [], s => { s with key := { s.key with reload := [] } }
  | r :: rest, s =>
    if s.keyWaits r.kek then { s with key := { s.key with reload := r :: rest } }
    else State.reloadFrom rest (s.reloadOne r)

/-- Every valid record unwrapped in order after a datapath reset (R289). -/
def State.reloadKeys (s : State) : State :=
  State.reloadFrom s.key.records { s with key := { s.key with inst := [], marking := [], rootGone := false } }

/-- A mark entry programmed (R290): its words in the mark table, the marks and MARK_FULL, the instance ready, and the records
that waited for it unwrapped (R289). -/
def State.markDone (s : State) (n v : Nat) : State :=
  let isNew := (mget s.key.marks n).isNone
  let s := s.tableAppend 584 647 (s.key.marks.map fun e => markWords e.1 e.2) (markWords n v)
  let s := { s with key := { s.key with marks := mput s.key.marks n v } }
  let s := s.raiseIf (isNew && s.key.marks.length == 8192) KST.page KST.evMARK_FULL
  let s := match s.keyInst n with
    | some k => s.setKeyInst n { k with ready := true }
    | none => s
  State.reloadFrom s.key.reload s

/-- What an alarm erases (R299): the root key's working copy and every privileged-class key, and on a mesh alarm every
key. -/
def State.eraseKeys (s : State) (mesh : Bool) : State :=
  let s := { s with key := { s.key with
      rootGone := true
      inst := if mesh then [] else s.key.inst.filter fun e => e.2.cls != 8 } }
  (List.range 4).foldl (fun s i => s.raise (CCH.page (18 + i)) CCH.evKEY_ERASED) s

/-- An alarm of R299: keys erased, the cause latched, PRIV_ERASED set. -/
def State.keyAlarm (s : State) (cause : Nat) : State :=
  let s := s.eraseKeys (cause == 4)
  let s := (s.setb CPH.ALARM_CAUSE cause true).put CPH.PRIV_ERASED 1
  s.raise CPH.page CPH.evALARM

/-- A loaded instance of a class with its key, as a consumer of that class sees it: a register that names an instance
of the wrong class leaves the consumer as if no key were present (R288). -/
def State.keyFor (s : State) (cls n : Nat) : Option KeyInst :=
  match s.keyInst n with
  | some k => if k.cls == cls && !s.key.halted then some k else none
  | none => none

/-- The GMAC key of a journal's instance, while the privileged keys stand (R271, R299). -/
def State.tagKey (s : State) (n : Nat) : Option (List Byte) :=
  match s.keyInst n with
  | some k => if k.cls == 8 && k.mode == 1 then some k.material else none
  | none => none

end Sys2Proof.Machine
end

