-- ==== Sys2Proof/Machine/Wire.lean ====
section
/-! DEFINITION. The formats on the wire and in device memory: the Rossil headers (R46, R48), runs (R51, R132), frames of
the adit and drift links (R152, R170), the gang address map (R163), and the descriptors of queues, domains and windows
(R77, R111, R113). -/

namespace Sys2Proof

open Machine

/-- LENGTH + 1: the byte count of a command that addresses data (R47). -/
def ReqHdr.count (h : ReqHdr) : Nat := h.length.toNat + 1

/-- A request's key as one number, in the order SRC_EP, QUEUE_ID, SEQ. -/
def ReqKey.code (k : ReqKey) : Nat := (k.srcEp.toNat * 2 ^ 15 + k.qid.toNat) * 2 ^ 32 + k.seq.toNat

/-- The key of a header. -/
def ReqHdr.key (h : ReqHdr) : ReqKey := ⟨h.srcEp, h.qid, h.seq⟩

/-- The 16-byte header of a link frame. -/
def frameHdr (typ flags len fseq epoch : Nat) : List Byte :=
  [BitVec.ofNat 8 typ, BitVec.ofNat 8 flags] ++ bytesBE 2 len ++ bytesBE 4 fseq ++ bytesBE 8 epoch

/-- The header of a received frame. -/
def LinkFrame.hdr (f : LinkFrame) (typ : Nat) : List Byte :=
  frameHdr typ f.flags.toNat f.body.length f.fseq.toNat f.epoch.toNat

/-- Is the frame's CRC-32 right: it covers header, payload and tag (R152)? -/
def LinkFrame.crcOk (f : LinkFrame) (typ : Nat) : Bool := crc32 (f.hdr typ ++ f.body ++ f.tag) == f.crc.toNat

/-- LAST: last frame of a tally or re-homing unit (R152). -/
def LinkFrame.last (f : LinkFrame) : Bool := bitOf f.flags.toNat 0

end Sys2Proof

namespace Sys2Proof.Machine

/-! ## Headers -/

/-- The 32 bytes of a request header with its OPCODE (R46). -/
def encodeReq (h : ReqHdr) (op : Nat) : List Byte :=
  [BitVec.ofNat 8 (h.typ.toNat * 64 + h.twinMask.toNat * 16 + h.length.toNat / 65536)] ++ bytesBE 3 h.srcEp.toNat ++
    bytesBE 2 h.dstDev.toNat ++ bytesBE 2 (b2n h.retx * 32768 + h.qid.toNat) ++ bytesBE 4 h.qkey.toNat ++
    bytesBE 4 h.seq.toNat ++ bytesBE 4 (h.window.toNat * 2 ^ 14 + h.gen.toNat * 64 + op % 64) ++
    bytesBE 4 h.wkey.toNat ++ bytesBE 6 h.offset.toNat ++ bytesBE 2 (h.length.toNat % 65536)

/-- The request header that bytes spell, and its OPCODE (R46). -/
def parseReq (b : List Byte) : ReqHdr × Nat :=
  let c := fieldBE b 0 1
  let q := fieldBE b 6 2
  let w := fieldBE b 16 4
  ({ typ := BitVec.ofNat 2 (c / 64), twinMask := BitVec.ofNat 2 (c / 16)
     length := BitVec.ofNat 20 (c % 16 * 65536 + fieldBE b 30 2)
     srcEp := BitVec.ofNat 24 (fieldBE b 1 3), dstDev := BitVec.ofNat 16 (fieldBE b 4 2)
     retx := bitOf q 15, qid := BitVec.ofNat 15 q, qkey := BitVec.ofNat 32 (fieldBE b 8 4)
     seq := BitVec.ofNat 32 (fieldBE b 12 4), window := BitVec.ofNat 18 (w / 2 ^ 14)
     gen := BitVec.ofNat 8 (w / 64), wkey := BitVec.ofNat 32 (fieldBE b 20 4)
     offset := BitVec.ofNat 48 (fieldBE b 24 6) }, w % 64)

/-- The FLAGS byte of a device header (R48). -/
def AnsHdr.flags (h : AnsHdr) : Nat :=
  b2n h.untrusted + 2 * b2n h.singleTwin + 4 * b2n h.duplicate + 8 * b2n h.scaled

/-- The 32 bytes of a device header over `len` bytes of payload (R48). -/
def encodeAns (h : AnsHdr) (len : Nat) : List Byte :=
  [BitVec.ofNat 8 (h.typ * 64 + b2n h.twinPos * 32 + b2n h.last * 16 + b2n h.retry * 8)] ++ bytesBE 3 h.srcEp ++
    bytesBE 2 h.devId ++ bytesBE 2 (h.qid % 32768) ++ bytesBE 4 h.claim ++ bytesBE 4 h.seq ++ bytesBE 2 h.epochLo ++
    [BitVec.ofNat 8 h.status, BitVec.ofNat 8 h.flags] ++ bytesBE 4 h.creditSeq ++
    [BitVec.ofNat 8 (h.segment % 128), BitVec.ofNat 8 (h.op % 64)] ++ bytesBE 2 (len % 2 ^ 14) ++ bytesBE 4 0

/-- The one's-complement sum of 16-bit words, most significant byte first; an odd last byte stands in the upper half. -/
def onesSum (acc : Nat) : List Byte → Nat
  | a :: b :: rest => onesSum (acc + 256 * a.toNat + b.toNat) rest
  | [a] => acc + 256 * a.toNat
  | [] => acc

/-- The UDP checksum (R39) of a datagram's payload under its addresses and ports, as the published standard forms it over the
pseudo header; a sum of 0 is sent as 0xFFFF. -/
def udpChecksum (h : FrameHead) (src dst : Nat) (payload : List Byte) : Nat :=
  let len := 8 + payload.length
  let ip (x : BitVec 128) : List Byte := if h.ip6 then bytesBE 16 x.toNat else bytesBE 4 x.toNat
  let t := onesSum 0 (ip h.srcIp ++ ip h.dstIp) + 17 + len + src + dst + len + onesSum 0 payload
  let c := 65535 - (if t = 0 then 0 else (t - 1) % 65535 + 1)
  if c = 0 then 65535 else c

/-- The 16-byte seal prefix (R69). -/
def sealPrefix (inst counter rsvd : Nat) : List Byte := bytesBE 4 inst ++ bytesBE 8 counter ++ bytesBE 4 rsvd

/-! ## Keys of requests and serial arithmetic (R57, R132) -/

/-- `(b − a) mod 2³²`. -/
def serialDiff (b a : Nat) : Nat := (b + 2 ^ 32 - a % 2 ^ 32) % 2 ^ 32

/-- Does `a` precede `b` by serial arithmetic on 32 bits (R57)? -/
def precedes (a b : Nat) : Bool := 1 ≤ serialDiff b a && serialDiff b a ≤ 2 ^ 31 - 1

/-- The later of two sequences (R57). -/
def laterSeq (a b : Nat) : Nat := if precedes a b then b else a

/-- Runs of consecutive sequences in a list in order: first and count. -/
def runsOf (max : Nat) : List Nat → List (Nat × Nat)
  | [] => []
  | x :: xs => match runsOf max xs with
    | (st, n) :: rest => if st == (x + 1) % 2 ^ 32 && n < max then (x, n + 1) :: rest else (x, 1) :: (st, n) :: rest
    | [] => [(x, 1)]

/-- The run entries of an ACK (R51). -/
def ackRuns (rs : List (Nat × Nat)) : List Byte :=
  rs.flatMap fun r => bytesBE 4 r.1 ++ bytesBE 2 r.2 ++ [0, 0]

/-- A list cut into pieces of at most `n`. -/
def chunks {α : Type} (n : Nat) (l : List α) : List (List α) :=
  (List.range (ceilDiv l.length n)).map fun i => (l.drop (n * i)).take n

/-- An ordered insertion. -/
def insertBy {α : Type} (le : α → α → Bool) (x : α) : List α → List α
  | [] => [x]
  | y :: ys => if le x y then x :: y :: ys else y :: insertBy le x ys

/-- A list in the order `le` gives. -/
def sortBy {α : Type} (le : α → α → Bool) (l : List α) : List α := l.foldr (insertBy le) []


/-! ## The state hash (R137) -/

/-- CRC-64 of R137 over bytes, from the previous H. -/
def crc64 (init : Nat) (bs : List Byte) : Nat := crcBytes 64 0x42F0E1EBA9EA3693 init bs

/-- A 32-byte commit record (R137). -/
def commitRecord (k : ReqKey) (op status bytes addr crc : Nat) : List Byte :=
  bytesBE 3 k.srcEp.toNat ++ [BitVec.ofNat 8 (op % 64)] ++ bytesBE 2 k.qid.toNat ++ [BitVec.ofNat 8 status, 0] ++
    bytesBE 4 k.seq.toNat ++ bytesBE 4 bytes ++ bytesBE 8 addr ++ bytesBE 4 crc ++ bytesBE 4 0

/-- Lanes per link of a port's mode: 8, 4, 2, 1 (R38). -/
def State.lanes (s : State) (port : Nat) : Nat := 2 ^ (3 - s.get (HP.MODE port))

/-! ## The gang address space (R163, R164) -/

/-- Members of the gang (R158). -/
def State.gangN (s : State) : Nat := s.get GNG.SIZE + 1

/-- The device's gang position: its straps, 0 in a gang of one (R158, R163). -/
def State.gangPos (s : State) : Nat := if s.gangN = 1 then 0 else s.pwr.gangId

/-- The gang position that the straps give (R158). -/
def State.strapPos (s : State) : Nat := s.pwr.gangId

/-- The home position of a gang address. -/
def State.homeOf (s : State) (ga : Nat) : Nat := ga / 2 ^ 30 % s.gangN

/-- The device address of a gang address at its home. -/
def State.daOf (s : State) (ga : Nat) : Nat := ga / 2 ^ 30 / s.gangN * 2 ^ 30 + ga % 2 ^ 30

/-- The gang address of a device address of this member. -/
def State.gaOf (s : State) (da : Nat) : Nat := (da / 2 ^ 30 * s.gangN + s.gangPos) * 2 ^ 30 + da % 2 ^ 30

/-- Bytes of a logical block: 6,144 extents (R243). -/
def lbBytes : Nat := 6144 * 65536

/-- Presented capacity in bytes (R232). -/
def State.presBytes (s : State) : Nat := s.fl.presLb * lbBytes

/-- GNG.SPAN_GIB: N times the smallest presented capacity among the members, in whole GiB (R163). -/
def State.spanGib (s : State) : Nat :=
  let own := s.presBytes / 2 ^ 30
  s.gangN * (if s.gangN = 1 then own else s.gang.peers.foldl (fun a e => min a e.2.capacityGib) own)

/-- A range of gang addresses cut at the 1 GiB chunks of R163: address and bytes of each piece. -/
def gangPieces (ga n : Nat) : List (Nat × Nat) :=
  let room := 2 ^ 30 - ga % 2 ^ 30
  if n = 0 then [] else if n ≤ room then [(ga, n)] else [(ga, room), (ga + room, n - room)]

/-- Bytes of a gang range that other members home. -/
def State.anyRemote (s : State) (ga n : Nat) : Bool := (gangPieces ga n).any fun p => s.homeOf p.1 != s.gangPos

/-! ## Descriptors -/

/-- The twelve words of the context of a queue and its freeze epoch, as 64 bytes (R77). A FREE queue's are zeros. -/
def Queue.bytes (q : Queue) : List Byte :=
  if q.state = .free then List.replicate 64 0 else
  bytesLE 4 (q.state.code + 16 * q.cls + 64 * b2n q.priv + 2 ^ 16 * q.depth) ++ bytesLE 4 q.srcEp ++
    bytesLE 4 (q.domain + 2 ^ 16 * q.journal) ++ bytesLE 4 q.key ++ bytesLE 4 q.initSeq ++ bytesLE 4 q.floor ++
    bytesLE 4 q.ret ++ bytesLE 4 q.high ++ bytesLE 4 q.ct.wr ++ bytesLE 4 q.ct.rd ++ bytesLE 4 q.ct.fl ++
    bytesLE 4 (q.ct.reqs + 2 ^ 18 * q.inFlight) ++ bytesLE 4 q.freezeSeq ++ bytesLE 4 q.freezeStatus ++
    bytesLE 8 q.freezeEpoch

/-- Queues of a domain that are not FREE (R111). -/
def State.domQueues (s : State) (d : Nat) : Nat :=
  (s.q.q.filter fun e => e.2.state != .free && e.2.domain == d).length + b2n (d == 0)

/-- Windows of a domain that are not FREE (R111). -/
def State.domWindows (s : State) (d : Nat) : Nat :=
  (s.win.win.filter fun e => e.2.state != .free && e.2.domain == d).length

/-- A domain's descriptor (R111). -/
def State.domBytes (s : State) (d : Nat) : List Byte :=
  let x := s.domain d
  bytesLE 4 x.state.code ++ bytesLE 4 (s.domQueues d) ++ bytesLE 4 (s.domWindows d) ++ bytesLE 4 x.quotaHot ++
    bytesLE 4 x.quotaWarm ++ bytesLE 4 x.quotaFlash ++ bytesLE 8 0

/-- A window's policy word (R113). -/
def Window.policy (w : Window) : Nat :=
  w.domain + 2 ^ 12 * w.tierPref + 2 ^ 14 * b2n w.duplex + 2 ^ 15 * b2n w.worm + 2 ^ 16 * w.homeHint +
    2 ^ 18 * b2n w.journalEn + 2 ^ 20 * w.journal

/-- A window's descriptor (R113). -/
def Window.bytes (w : Window) : List Byte :=
  bytesLE 4 (w.state.code + 2 ^ 8 * w.cur.gen + 2 ^ 16 * w.cur.rights + 2 ^ 20 * w.pendRights) ++
    bytesLE 4 w.cur.key ++ bytesLE 8 w.base ++ bytesLE 8 w.length ++ bytesLE 4 w.policy ++ bytesLE 4 w.pendKey ++
    bytesLE 8 w.retain ++ bytesLE 8 w.effect ++ bytesLE 8 w.fence ++ bytesLE 8 0

end Sys2Proof.Machine
end

