-- ==== Sys2Proof/Machine/Answers.lean ====
section
/-! DEFINITION. What the device sends to hosts: datagrams on a link or through a gang member (R44, R165), sealing (R70),
credits (R60), answers and their recent-request entries (R48 to R50, R55, R58, R92 to R94), and what queue 0 answers
(R82). -/

namespace Sys2Proof.Machine

/-- Does the device run ALONE (R143)? -/
def State.alone (s : State) : Bool := s.cm.twin == .alone

/-- Link k of HL_k: n × 8 + s (R38). -/
def linkNo (l : HostLink) : Nat := l.port.val * 8 + l.sub.val

/-- Is the host link up, its SerDes on? -/
def State.linkUp (s : State) (l : HostLink) : Bool :=
  s.pwr.hostSerdes && bitOf (s.get (HP.LINK_UP l.port.val)) l.sub.val

/-- The priority of a datagram sent: its tag's PCP, 0 without a tag. -/
def RetAddr.prio (d : RetAddr) : Nat := match d.tag with
  | some t => t.pcp.toNat
  | none => 0

/-- Is the datagram's priority paused on its link (R41)? -/
def State.pausedAt (s : State) (d : RetAddr) : Bool :=
  s.now < mgetD s.net.paused (linkNo d.link * 8 + d.prio) 0

/-! ## Credits (R60) -/

/-- RET past every returned slot. -/
def advanceRet : Nat → Nat → List Nat → Nat × List Nat
  | 0, r, l => (r, l)
  | n + 1, r, l => if l.contains r then advanceRet n ((r + 1) % 2 ^ 32) (l.filter (· != r)) else (r, l)

/-- A queue with RET as R60 defines it: past FLOOR and past every returned slot. -/
def Queue.settle (q : Queue) : Queue :=
  let r := if precedes q.floor q.ret then q.ret else (q.floor + 1) % 2 ^ 32
  let l := q.returned.filter fun x => x == r || precedes r x
  let (r, l) := advanceRet (l.length + 1) r l
  { q with ret := r, returned := l }

/-- CREDIT_SEQ: RET + GRANT − 1; 0 for a queue that is FREE, and for queue 0 (log entry 9). -/
def State.credit (s : State) (n : Nat) : Nat :=
  let q := s.queue n
  if n = 0 || q.state == .free then 0 else (q.ret + q.depth + 2 ^ 32 - 1) % 2 ^ 32

/-- A DELETING queue becomes FREE once no slot is in flight and 32 epochs have passed since its delete (R76). -/
def State.checkFree (s : State) (n : Nat) : State :=
  let q := s.queue n
  let due : Bool := match q.delEpoch with
    | some c => c + 32 ≤ s.ep.num
    | none => false
  if q.state == .deleting && q.inFlight == 0 && due then (s.setQueue n {}).post (some q.domain) 0x0005 n 0 else s

/-- A request's slot returns (R60). -/
def State.returnSlot (s : State) (n seq : Nat) : State :=
  let q := s.queue n
  if n = 0 || q.state == .free then s
  else (s.setQueue n ({ q with inFlight := q.inFlight - 1, returned := seq :: q.returned }).settle).checkFree n

/-! ## Datagrams -/

/-- The bytes of a datagram from the first byte after the UDP header: seal prefix, header, payload, tag and ICRC
(R42, R43). -/
def dgramBytes (hdr data : List Byte) (sealing : Option (Nat × Nat × List Byte)) : List Byte :=
  let b := match sealing with
    | none => hdr ++ data
    | some (inst, ctr, ct) => sealPrefix inst ctr 0 ++ hdr ++ ct
  b ++ bytesBE 4 (crc32 b)

/-- The return block of R170. -/
def returnBlock (d : RetAddr) : List Byte :=
  [BitVec.ofNat 8 (linkNo d.link), if d.ip6 then 6 else 4,
   BitVec.ofNat 8 (match d.tag with | some t => t.pcp.toNat | none => 0), BitVec.ofNat 8 (b2n d.tag.isSome)] ++
    bytesBE 2 (match d.tag with | some t => t.vid.toNat | none => 0) ++ bytesBE 6 d.mac.toNat ++
    bytesBE 16 d.ip.toNat ++ bytesBE 4 0

/-- A frame to be sent on drift link `j`, discarded while it is down (R170). -/
def State.sendDrift (s : State) (j typ epoch : Nat) (payload : List Byte) (last : Bool := false) : State :=
  let f : OutFrame := { typ := typ, last := last, epoch := epoch, payload := payload }
  if s.flag (DFT.LINK_UP j) then
    { s with gang := { s.gang with txq := mput s.gang.txq j (mgetD s.gang.txq j [] ++ [f]) } }
  else s

/-! ## Frames to the twin and to gang members (R151 to R154, R170, R294) -/

/-- The register that names the key instance of a direction. -/
def aditInst (tx : Bool) : Fld := if tx then ADT.SEAL_TX_KEY else ADT.SEAL_RX_KEY

/-- The key instance of a direction, if it is loaded and of the adit class (R154, R288). -/
def State.aditKey (s : State) (tx : Bool) : Option KeyInst :=
  match s.keyInst (s.get (aditInst tx)) with
  | some k => if k.cls == 4 then some k else none
  | none => none

/-- The frame count of the i-th frame after training (R294). -/
def State.frameCount (s : State) (i : Nat) : Nat := (s.key.txBase.getD 0) + i

/-- A frame as it goes on the wire: `none` where sealing is on and cannot be done now. -/
def State.sealFrame (s : State) (f : OutFrame) : Option (Option (Nat × List Byte)) :=
  if !s.flag ADT.SEAL_EN then some none
  else match s.aditKey true with
    | none => none
    | some k =>
      if s.chanWaits 16 then none
      else
        let n := s.get ADT.SEAL_TX_KEY
        let count := f.fseq
        let hdr := frameHdr f.typ (b2n f.last) f.payload.length (f.fseq % 2 ^ 32) f.epoch
        let ct := gcmCrypt k.material (nonceOf n count) f.payload
        some (some (count, ct ++ gcmTagOf k.material (nonceOf n count) hdr ct))

/-- A frame to be sent on the adit link, discarded while it is down (R152). -/
def State.sendAdit (s : State) (typ epoch : Nat) (payload : List Byte) (last : Bool := false) : State :=
  let f : OutFrame := { typ := typ, last := last, epoch := epoch, payload := payload }
  if s.flag ADT.LINK_UP then { s with cm := { s.cm with txq := s.cm.txq ++ [f] } } else s

/-- The priority of a frame of the adit link (R152) or of a drift link (R170), 1 the highest. -/
def framePrio (typ : Nat) : Nat :=
  if typ == 0x04 || typ == 0x11 then 1
  else if typ == 0x09 || typ == 0x12 then 2
  else if typ == 0x01 || typ == 0x13 || typ == 0x14 then 3
  else if typ == 0x03 || typ == 0x15 then 4
  else if typ == 0x05 || typ == 0x07 || typ == 0x08 || typ == 0x16 || typ == 0x17 then 5
  else if typ == 0x02 then 6
  else 7

/-- Frames by priority, those of one priority in their order (R152, R170). -/
def byPrio (fs : List OutFrame) : List OutFrame := sortBy (fun a b => framePrio a.typ ≤ framePrio b.typ) fs

/-- A frame put on the adit link: numbered, sealed, counted and kept for RESEND. While its sealing cannot be done it waits
(R297). -/
def State.txAdit (s : State) (g : OutFrame) : State :=
  let f := { g with fseq := s.frameCount s.cm.txSeq }
  match s.sealFrame f with
  | none => { s with cm := { s.cm with txq := s.cm.txq ++ [g] } }
  | some x =>
    let s := match x with
      | some (c, ct) =>
        let n := s.get ADT.SEAL_TX_KEY
        s.channelMsg 16 f.payload.length (framePrio f.typ) (ctx := {
          inst := n, nonce := nonceOf n c, data := ct.take f.payload.length
          aad := frameHdr f.typ (b2n f.last) f.payload.length (f.fseq % 2 ^ 32) f.epoch })
      | none => s
    let recent := s.cm.kept.filter fun e => s.ep.num ≤ e.1 + 1
    let s := { s with cm := { s.cm with txSeq := s.cm.txSeq + 1, kept := recent ++ [(s.ep.num, f, x)] } }
    (s.inc ADT.TX_FRAMES).send (.adit f x)

/-- A frame put on drift link `j`, numbered and counted. -/
def State.txDrift (s : State) (j : Nat) (f : OutFrame) : State :=
  let n := mgetD s.gang.txSeq j 0
  let s := { s with gang := { s.gang with txSeq := mput s.gang.txSeq j ((n + 1) % 2 ^ 32) } }
  (s.inc (DFT.TX_FRAMES j)).send (.drift j { f with fseq := n })

/-- Everything that a command has given the links to send, by priority (R152, R170); what a link that has gone down still had
to send is gone. -/
def State.flushLinks (s : State) : State :=
  let fs := s.cm.txq
  let ds := s.gang.txq
  let s := { s with cm := { s.cm with txq := [] }, gang := { s.gang with txq := [] } }
  let s := if s.flag ADT.LINK_UP then (byPrio fs).foldl State.txAdit s else s
  (List.range 3).foldl (fun s j =>
    if s.flag (DFT.LINK_UP j) then (byPrio (mgetD ds j [])).foldl (fun s f => s.txDrift j f) s else s) s

/-- The MAC address of a link. -/
def State.linkMac (s : State) (l : HostLink) : Nat :=
  s.get (HP.MAC_HI l.port.val l.sub.val) * 2 ^ 32 + s.get (HP.MAC_LO l.port.val l.sub.val)

/-- The IPv6 address of a link, its most significant word at the lowest offset. -/
def State.linkIp6 (s : State) (l : HostLink) : Nat :=
  let p := l.port.val
  let i := l.sub.val
  ((s.get (XPT.IPV6_W0 p i) * 2 ^ 32 + s.get (XPT.IPV6_W1 p i)) * 2 ^ 32 + s.get (XPT.IPV6_W2 p i)) * 2 ^ 32 +
    s.get (XPT.IPV6_W3 p i)

/-- The headers of a frame sent on a host link (R39, R40, R44): the link's own addresses as sources, ECN 0 and DSCP_TX, DF set
over IPv4. -/
def State.frameHead (s : State) (l : HostLink) (mac : BitVec 48) (ip6 : Bool) (ip : BitVec 128) (tag : Option VlanTag) :
    FrameHead :=
  { dstMac := mac, srcMac := BitVec.ofNat 48 (s.linkMac l), tag := tag, ip6 := ip6, dstIp := ip
    srcIp := BitVec.ofNat 128 (if ip6 then s.linkIp6 l else s.get (XPT.IPV4 l.port.val l.sub.val))
    tos := BitVec.ofNat 8 (4 * s.get (XPT.DSCP_TX l.port.val)), df := !ip6 }

/-- The headers of an answer: the request's addresses, VLAN ID and PCP (R44). -/
def State.answerHead (s : State) (d : RetAddr) : FrameHead := s.frameHead d.link d.mac d.ip6 d.ip d.tag

/-- The tag of a frame that the device originates on a link (ARP and neighbour discovery): VID_s and PCP_s with VLAN_EN_s. -/
def State.ownTag (s : State) (l : HostLink) : Option VlanTag :=
  let p := l.port.val
  let k := l.sub.val
  if s.flag (HP.VLAN_EN p k) then some ⟨BitVec.ofNat 12 (s.get (HP.VID p k)), BitVec.ofNat 3 (s.get (HP.PCP p k))⟩ else none

/-- Bytes charged against a line channel's allowance (R99). -/
def State.chargeLine (s : State) (ch bytes : Nat) : State :=
  match s.channelOf ch with
  | none => s
  | some c => { s with q := { s.q with alLine := mput s.q.alLine c (mgetD s.q.alLine c 0 - bytes) } }

/-- The datagram's counter: TX_RSP, TX_ACK or TX_NAK. -/
def txCounter (port typ : Nat) : Fld :=
  if typ == 1 then XPT.TX_RSP port else if typ == 2 then XPT.TX_ACK port else XPT.TX_NAK port

/-- A datagram put on the wire, sealed or in clear: in a frame on the request's link, with UDP_PORT as its source (R44); or
over a drift link from the UDP header on, with the request's destination port as its source (R170). The member that
transmits a forwarded answer alone knows its source address, so the checksum that travels with it is a free value (log entry
62). -/
def State.emit (s : State) (w : Waiting) (sealing : Option (Nat × Nat × List Byte)) : State :=
  let s := match w.lat with
    | some (c, t) => s.countLatency c t
    | none => s
  let bytes := dgramBytes (encodeAns w.hdr w.data.length) w.data sealing
  match w.dst.drift with
  | some j =>
    let (sum, s) := s.freeNat
    let udp := bytesBE 2 w.dst.sport.toNat ++ bytesBE 2 w.dst.port.toNat ++ bytesBE 2 (8 + bytes.length) ++
      bytesBE 2 (sum % 65536)
    (s.inc (DFT.FWD_BYTES_TX j.val) (8 + bytes.length)).sendDrift j.val 0x17 0 (returnBlock w.dst ++ udp ++ bytes)
  | none =>
    let p := w.dst.link.port.val
    let head := s.answerHead w.dst
    let port := s.get (XPT.UDP_PORT p)
    ((s.inc (txCounter p w.hdr.typ)).inc (HP.TX_FRAMES p)).send (.host w.dst w.hdr w.data sealing head
      ⟨BitVec.ofNat 16 port, w.dst.port, udpChecksum head port w.dst.port.toNat bytes⟩)

/-- What becomes of a datagram to send: on the wire, discarded where its link is down (R44) or its instance cannot ever
seal it (R70, R291; no rule counts such a datagram: log entry 62), or waiting. It carries the CREDIT_SEQ of the moment at
which it is sent (R60). -/
def State.trySend (s : State) (w : Waiting) : State × Bool :=
  let w := { w with hdr := { w.hdr with creditSeq := s.credit w.hdr.qid } }
  if w.dst.drift.isNone && !s.linkUp w.dst.link then (s.inc (XPT.RX_DROP w.dst.link.port.val), true)
  else if w.dst.drift.isNone && s.pausedAt w.dst then (s, false)
  else if w.dst.sealed then
    let p := w.dst.link.port.val
    let n := s.get (XPT.SEAL_TX_KEY p)
    if s.chanWaits (s.get (XPT.SEAL_CH p)) then (s, false)
    else match s.keyFor 1 n with
      | none => (s, true)
      | some k =>
        match s.useCounter n with
        | (some c, s) =>
          let hdr := encodeAns w.hdr w.data.length
          let pre := sealPrefix n c 0
          let ct := gcmCrypt k.material (nonceOf n c) w.data
          let ch := s.get (XPT.SEAL_CH p)
          let ctx : MsgCtx := { inst := n, nonce := nonceOf n c, aad := pre ++ hdr, data := ct }
          let s := (s.channelMsg ch w.data.length (if w.hdr.typ == 1 then 2 else 1) (ctx := ctx)).chargeLine ch (hdr.length + w.data.length + 32)
          (s.emit w (some (n, c, ct ++ gcmTagOf k.material (nonceOf n c) (pre ++ hdr) ct)), true)
        | (none, s) => (s, match s.keyInst n with
          | some k => k.retired
          | none => true)
  else (s.emit w none, true)

/-- The slot of a queue's sequence returns, where one is named (R60). -/
def State.slotBack (s : State) : Option (Nat × Nat) → State
  | some (n, seq) => s.returnSlot n seq
  | none => s

/-- A datagram sent, or kept waiting behind those that wait for the same link and priority; a slot that it holds returns once
it is sent (R60). -/
def State.sendDgram (s : State) (dst : RetAddr) (hdr : AnsHdr) (data : List Byte) (slot lat : Option (Nat × Nat) := none) :
    State :=
  let w : Waiting := ⟨dst, hdr, data, slot, lat⟩
  if s.net.waiting.any (fun v => v.dst.link == dst.link && v.dst.prio == dst.prio && v.dst.sealed == dst.sealed) then
    { s with net := { s.net with waiting := s.net.waiting ++ [w] } }
  else match s.trySend w with
    | (s, true) => s.slotBack slot
    | (s, false) => { s with net := { s.net with waiting := s.net.waiting ++ [w] } }

/-- A forwarded answer transmitted unchanged on the link of its request (R165), discarded where that is down (R44), or
waiting while its priority is paused. -/
def State.relayAnswer (s : State) (dst : RetAddr) (bytes : List Byte) : State :=
  let p := dst.link.port.val
  if !s.linkUp dst.link then s.inc (XPT.RX_DROP p)
  else if s.pausedAt dst then { s with net := { s.net with relays := s.net.relays ++ [(dst, bytes)] } }
  else (s.inc (HP.TX_FRAMES p)).send (.relayed dst.link bytes (s.answerHead dst))

/-- Everything that waits to be sent tried again, in order. -/
def State.flushWaiting (s : State) : State :=
  let ws := s.net.waiting
  let rs := s.net.relays
  let s := ws.foldl (fun s w => s.sendDgram w.dst w.hdr w.data w.slot w.lat) { s with net := { s.net with waiting := [], relays := [] } }
  rs.foldl (fun s r => s.relayAnswer r.1 r.2) s

/-! ## Answers -/

/-- A device header with what every datagram carries (R48, R60, R94). -/
def State.ansHdr (s : State) (typ : Nat) (h : ReqHdr) (op : Nat) : AnsHdr :=
  let qid := h.qid.toNat
  { typ := typ, twinPos := s.pwr.twinPos == 1, srcEp := h.srcEp.toNat, devId := s.get GNG.DEV_ID, qid := qid
    claim := s.cm.claim, seq := h.seq.toNat, singleTwin := s.alone
    scaled := (s.queue qid).cls != 0 && s.q.scale < 65536, creditSeq := s.credit qid, op := op }

/-- Is this device's position in TWIN_MASK (R55)? -/
def State.inMask (s : State) (h : ReqHdr) : Bool := bitOf h.twinMask.toNat (s.pwr.twinPos % 2)

/-- Must this device stay silent by the duplex policy (R124)? A twin running alone answers for every request. -/
def State.duplexMute (s : State) (h : ReqHdr) (op : Nat) : Bool :=
  let w := s.window h.window.toNat
  (op < 0x06 || (0x08 ≤ op && op ≤ 0x12)) && w.state != .free && w.duplex && !s.alone &&
    (h.window.toNat + h.offset.toNat / 65536) % 2 != s.pwr.twinPos % 2

/-- Does this device send no RESPONSE to the request (R55, R124)? -/
def State.silent (s : State) (r : Req) : Bool := !s.inMask r.hdr || s.duplexMute r.hdr r.op

/-- Where the answer to a request goes: its own return addresses, or, for a request held only by repair, those of its
queue's most recent request (R55, R61; log entry 10). -/
def State.retOf (s : State) (r : Req) : Option RetAddr :=
  match r.ret with
  | some a => some a
  | none => (s.queue r.hdr.qid.toNat).addrs.head?.map (·.2)

/-- REQ_CAP, where the entries created in this epoch and the carried excess have reached the device cap (R56, R73). The cap
is the device's, so every port's page shows it (log entry 62). -/
def State.capEvent (s : State) : State :=
  if s.net.count + s.net.excess < 131072 then s
  else (List.range 16).foldl (fun s p => s.raise (XPT.page p) XPT.evREQ_CAP) s

/-- The recent-request entry of a key. -/
def State.entry (s : State) (k : ReqKey) : Option RrtEntry := mget s.net.rrt k.code

/-- An entry written. -/
def State.setEntry (s : State) (e : RrtEntry) : State :=
  { s with net := { s.net with rrt := mput s.net.rrt e.key.code e } }

/-- The final answer of a request recorded in its entry (R56, R58): the entry is answered, with the status, the epoch that
the answer carries (R49) and up to 16 bytes of completion data; `quiet` says that it was not sent. -/
def State.recordAnswer (s : State) (k : ReqKey) (isNak readOnly : Bool) (status : Nat) (data : List Byte)
    (epoch : Nat := s.ep.num) (quiet : Bool := false) : State :=
  match s.entry k with
  | none => s
  | some e => s.setEntry { e with
      answered := true, isNak := isNak, readOnly := readOnly, status := status, data := data.take 16, told := epoch
      quiet := quiet }

/-- A NAK to return addresses: EPOCH_LO is the epoch of the refusal (R49). -/
def State.sendNak (s : State) (dst : RetAddr) (h : ReqHdr) (op status : Nat) (retry dup : Bool) (epoch : Nat := s.ep.num)
    (lat : Option (Nat × Nat) := none) : State :=
  s.sendDgram dst { s.ansHdr 3 h op with
    retry := retry, status := status, duplicate := dup, epochLo := epoch % 65536 } [] none lat

/-- A command that reads: R79's list, apart from the ADMIN ones. -/
def isRead (op : Nat) : Bool := op == 0x01 || op == 0x08 || op == 0x12

/-- Is a request read-only by R79? -/
def readOnly (op : Nat) (payload : List Byte) : Bool :=
  isRead op || op == 0x20 || op == 0x21 || op == 0x22 || op == 0x2C ||
    (op == 0x29 && fieldBE payload 0 1 == 3) || (op == 0x2A && fieldBE payload 0 1 == 4)

/-- A queue's class in Census: 0 ADMIN, 1 DATA, 2 ACCESSION. -/
def State.clsOf (s : State) (h : ReqHdr) : Nat := (s.queue h.qid.toNat).cls

/-- What a final answer counts its latency under once it is sent (R367). -/
def State.latOf (s : State) (h : ReqHdr) (time : Nat) : Option (Nat × Nat) := some (s.clsOf h, time)

/-- The epoch of the last commit, which a read of committed state reflects (R49): the epoch under way where one of its keys has
committed. -/
def State.reflected (s : State) : Nat :=
  match s.cm.ended.head?.bind fun n => (mget s.cm.ep n).map (n, ·) with
  | some (n, e) => if e.done.isEmpty then s.cm.committed else n
  | none => s.cm.committed

/-- One RESPONSE datagram (R48, R50), and the slot that returns once it is sent. -/
def State.sendSeg (s : State) (r : Req) (epoch status k : Nat) (last untrusted : Bool) (data : List Byte)
    (slot lat : Option (Nat × Nat) := none) : State :=
  match s.retOf r with
  | none => s.slotBack slot
  | some dst => s.sendDgram dst { s.ansHdr 1 r.hdr r.op with
      last := last, status := status, untrusted := untrusted, duplicate := r.dup, segment := k,
      epochLo := epoch % 65536 } data slot lat

/-- The answer data cut into segments of 8,192 bytes, at least one (R50). -/
def segments (data : List Byte) : List (List Byte) := if data.isEmpty then [[]] else chunks 8192 data

/-- A RESPONSE of one status with its data, in segments; nothing where the device stays silent. A slot named returns once
the last segment is sent. -/
def State.respondAt (s : State) (r : Req) (epoch status : Nat) (data : List Byte) (slot : Option (Nat × Nat) := none) :
    State :=
  if s.silent r then s.slotBack slot
  else
    let segs := segments data
    let lat := s.latOf r.hdr r.time
    (List.range segs.length).foldl
      (fun s k => s.sendSeg r epoch status k (k + 1 == segs.length) false (segs.getD k [])
        (if k + 1 == segs.length then slot else none) (if k + 1 == segs.length then lat else none)) s

/-- The slot of a request, `none` for one executed again as a duplicate: its slot has returned. -/
def Req.slot (r : Req) : Option (Nat × Nat) := if r.dup then none else some (r.hdr.qid.toNat, r.hdr.seq.toNat)

/-- The freeze of an ACCESSION queue at its failing request (R96): of a staged request in the epoch of its tag, of a read in
the current epoch (log entry 16). A duplicate executed again has ended before. -/
def State.freezeAt (s : State) (r : Req) (n status : Nat) : State :=
  let qid := r.hdr.qid.toNat
  let q := s.queue qid
  if q.cls != 2 || status == 0 || q.state != .active || r.dup then s
  else
    let seq := r.hdr.seq.toNat
    let s := s.setQueue qid { q with state := .frozen, freezeSeq := seq, freezeStatus := status, freezeEpoch := n }
    (s.post (some q.domain) 0x0002 qid (seq + status * 2 ^ 32)).raise QMG.page QMG.evQUEUE_FROZEN_EVT

/-- Does the freeze of its queue end a request (R96): one later in sequence than the freeze point, or of a later epoch? -/
def State.frozenAfter (s : State) (r : Req) : Bool :=
  let q := s.queue r.hdr.qid.toNat
  q.cls == 2 && q.state == .frozen && (precedes q.freezeSeq r.hdr.seq.toNat || q.freezeEpoch < r.epoch)

/-- The final answer of a state-changing request of queues 1 to 32,767: RESPONSE and entry (R49, R58), its slot having returned
when it committed (R60); none where the cut-offs of R118 have answered it. -/
def State.finish (s : State) (r : Req) (epoch status : Nat) (data : List Byte) : State :=
  let k := r.hdr.key
  let told : Bool := match s.entry k with
    | some e => e.answered
    | none => false
  if told then s
  else (s.respondAt r epoch status data).recordAnswer k false false status data epoch

/-- The final answer of a read-only request that carries one status and its data (R49). -/
def State.finishRead (s : State) (r : Req) (status : Nat) (data : List Byte) : State :=
  ((s.respondAt r s.reflected status data r.slot).recordAnswer r.hdr.key false true status data s.reflected).freezeAt
    r s.ep.num status

/-! ## Queue 0 (R82) -/

/-- The region offset of answer segment k. -/
def adm0Slot (k : Nat) : Nat := 0x4000 + k * 0x2020

/-- Bytes of memory region 1 written from an offset. -/
def State.setRegion1 (s : State) (off : Nat) (bs : List Byte) : State :=
  { s with q := { s.q with region1 :=
      (List.range bs.length).foldl (fun m i => mset 0 m (off + i) (bs.getD i 0)) s.q.region1 } }

/-- Bytes of memory region 1. -/
def State.getRegion1 (s : State) (off n : Nat) : List Byte :=
  (List.range n).map fun i => mgetD s.q.region1 (off + i) 0

/-- Queue 0's answer: its segments written into their slots, SEGS and DONE set, BUSY cleared (R82). That to a command which changes
state carries the epoch of its execution (R49; log entry 14). -/
def State.adm0Answer (s : State) (r : Req) (status : Nat) (data : List Byte) : State :=
  let segs := segments data
  let epoch := if readOnly r.op r.payload then s.reflected else r.epoch
  let s := (List.range segs.length).foldl (fun s k =>
    let d := segs.getD k []
    let h := { s.ansHdr 1 r.hdr r.op with
      last := k + 1 == segs.length, status := status, segment := k, epochLo := epoch % 65536 }
    (s.setRegion1 (adm0Slot k) (encodeAns h d.length ++ d)).send (.adm0 k h d)) s
  let s := { s with q := { s.q with adm0Busy := false, adm0Done := true, adm0Segs := segs.length } }
  (s.countLatency 0 r.time).raise QMG.page QMG.evADM0_DONE

/-- The NAK that a request on queue 0 gets, in segment 0 (R82, R92). -/
def State.adm0Nak (s : State) (r : Req) (status : Nat) : State :=
  let h := { s.ansHdr 3 r.hdr r.op with status := status, epochLo := s.ep.num % 65536 }
  let s := (s.setRegion1 (adm0Slot 0) (encodeAns h 0)).send (.adm0 0 h [])
  let s := { s with q := { s.q with adm0Busy := false, adm0Done := true, adm0Segs := 1 } }
  (s.countLatency 0 r.time).raise QMG.page QMG.evADM0_DONE

/-- The answer to an ADMIN command by its queue: queue 0's slots, or a RESPONSE under its commit epoch. -/
def State.adminAnswer (s : State) (r : Req) (epoch status : Nat) (data : List Byte) : State :=
  if r.hdr.qid == 0 then s.adm0Answer r status data else s.finish r epoch status data

end Sys2Proof.Machine
end

