-- ==== Sys2Proof/Machine/Layout.lean ====
section
/-! DEFINITION. The layout sectors of NOR bank 2 (R254, R257, R258, R268): records of the layout table, of the failed-die list and
of reshape checkpoints. The spec gives their content and their CRC-32; their words are the model's (log entry 8). -/

namespace Sys2Proof.Machine

/-- A record of the layout sectors: a table's rows, numbered from the first number up; a die failed, or taken off the list; a
reshape's checkpoint. -/
inductive LayoutRec | table (base : Nat) (rows : List (List Nat)) | failed (die : Nat) | cleared (die : Nat) | checkpoint (lb : Nat)
  deriving DecidableEq, Repr

/-- A row's 18 die numbers, three to a word. -/
def rowWords (r : List Nat) : List Nat :=
  (List.range 6).map fun i => r.getD (3 * i) 0 + 1024 * r.getD (3 * i + 1) 0 + 1048576 * r.getD (3 * i + 2) 0

/-- The row that six words hold. -/
def rowOfWords (ws : List Nat) : List Nat := ws.flatMap fun w => [bitsOf w 0 10, bitsOf w 10 10, bitsOf w 20 10]

/-- Lists of six. -/
def sixes (ws : List Nat) : List (List Nat) := (List.range (ws.length / 6)).map fun i => (ws.drop (6 * i)).take 6

/-- A record's kind and its words. -/
def LayoutRec.body : LayoutRec → Nat × List Nat
  | .table b rs => (1, b :: rs.flatMap rowWords)
  | .failed d => (2, [d])
  | .cleared d => (3, [d])
  | .checkpoint lb => (4, [lb])

/-- A record's words: kind and length, its body, and the CRC-32 by R43 last (R356). -/
def LayoutRec.words (r : LayoutRec) : List Nat :=
  let ws := r.body.1 :: r.body.2.length :: r.body.2
  ws ++ [crc32 (ws.flatMap (bytesLE 4))]

/-- The record that a kind and a body spell. -/
def layoutRecOf (kind : Nat) (ws : List Nat) : Option LayoutRec :=
  let v := ws.getD 0 0
  if kind = 1 then some (.table v ((sixes (ws.drop 1)).map rowOfWords))
  else if kind = 2 then some (.failed v)
  else if kind = 3 then some (.cleared v)
  else if kind = 4 then some (.checkpoint v)
  else none

/-- Sectors 8 to 71 of bank 2. -/
def layoutBase : Nat := norSector 2 8

/-- Where they end. -/
def layoutEnd : Nat := norSector 2 72

/-- The last word programmed there. -/
def State.layoutLast (s : State) : Option Nat :=
  ((s.cur.words.filter fun e => layoutBase ≤ e.1 && e.1 < layoutEnd).getLast?).map (·.1)

/-- The records in the sectors from byte address `a` up whose CRC holds, in order: what fails its check counts as never programmed
(R356). The first argument bounds the words looked at. -/
def State.layoutFrom (s : State) : Nat → Nat → List LayoutRec
  | 0, _ => []
  | k + 1, a =>
    let n := s.norWord (a + 4)
    let ws := (List.range (n + 2)).map fun i => s.norWord (a + 4 * i)
    if layoutEnd ≤ a then []
    else if a + 4 * n + 12 ≤ layoutEnd && s.norWord (a + 8 + 4 * n) == crc32 (ws.flatMap (bytesLE 4)) then
      match layoutRecOf (s.norWord a) (ws.drop 2) with
      | some r => r :: s.layoutFrom k (a + 4 * n + 12)
      | none => s.layoutFrom k (a + 4)
    else s.layoutFrom k (a + 4)

/-- One record taken: a table's rows make those before it old ones (R268), and take in the dies they name (R267). -/
def ParitySt.takeRec (p : ParitySt) : LayoutRec → ParitySt
  | .table b rs => { p with
      rows := (List.range rs.length).foldl (fun m i => mput m (b + i) (rs.getD i [])) p.rows
      oldRows := p.rows.map (·.1), reshaping := !p.rows.isEmpty
      cleared := p.cleared.filter fun d => !rs.any (·.contains d) }
  | .failed d => { p with failed := addTo p.failed d, cleared := p.cleared.filter (· != d) }
  | .cleared d => { p with failed := p.failed.filter (· != d), cleared := addTo p.cleared d }
  | .checkpoint lb => { p with checkpoint := lb }

/-- The failed-die list, the layout table and a reshape's checkpoint as NOR bank 2 holds them, which a datapath reset reloads. -/
def State.layoutReload (s : State) : ParitySt :=
  let v := s.devNorDrain
  let n := match v.layoutLast with
    | none => 0
    | some x => (x - layoutBase) / 4 + 1
  let p := (v.layoutFrom n layoutBase).foldl ParitySt.takeRec {}
  { p with reshapeLb := p.checkpoint }

/-- The records in force: the table, the rows of a running reshape after it, the dies of the list and those off it, the
checkpoint. -/
def ParitySt.records (p : ParitySt) : List LayoutRec :=
  let old := p.rows.filter fun e => p.oldRows.contains e.1
  let new := p.rows.filter fun e => !p.oldRows.contains e.1
  let table (l : NMap (List Nat)) : List LayoutRec := match l with
    | [] => []
    | e :: _ => [.table e.1 (l.map (·.2))]
  table old ++ table new ++ p.failed.map .failed ++ p.cleared.map .cleared ++ (if p.checkpoint = 0 then [] else [.checkpoint p.checkpoint])

/-- The layout sectors erased, and the records in force programmed. -/
def State.layoutRewrite (s : State) : State :=
  let s := s.tableErase 8 71
  s.devNor (wordsAt layoutBase (s.par.records.flatMap LayoutRec.words))

/-- A record programmed behind the last; where there is no room, the sectors are written anew, it among the records in force. -/
def State.layoutAppend (s : State) (r : LayoutRec) : State :=
  let v := s.devNorDrain
  let o := match v.layoutLast with
    | none => layoutBase
    | some x => x + 4
  if o + 4 * r.words.length ≤ layoutEnd then s.devNor (wordsAt o r.words) else s.layoutRewrite

end Sys2Proof.Machine
end

