-- ==== Sys2Proof/Machine/Memory.lean ====
section
/-! DEFINITION. The volatile tiers: the cell code (R203 to R211), members, groups and frames (R215), the memory ports and
their regulators (R221), refresh (R217, R218) and scrub (R219, R220). -/

namespace Sys2Proof.Machine

/-! ## The cell code -/

/-- The columns of the check matrix: which check bits each of the bits d0 … d7, c0 … c5 enters (R203). -/
def cellColumns : List Nat := [0x07, 0x0B, 0x15, 0x29, 0x16, 0x2A, 0x34, 0x38, 0x01, 0x02, 0x04, 0x08, 0x10, 0x20]

/-- The check bits of a byte under address key `a` (R203). -/
def checkBits (d : Nat) (a : Bool) : Nat :=
  Nat.xor ((onesBelow 8 d).foldl (fun c i => Nat.xor c (cellColumns.getD i 0)) 0) (if a then 0x30 else 0)

/-- The syndrome of a cell read: check bits recomputed from the data read XOR check bits read (R205). -/
def syndrome (cell : Nat) (a : Bool) : Nat := Nat.xor (checkBits (cell % 256) a) (cell / 256 % 64)

/-- What a syndrome says (R205). -/
inductive Verdict | good | fix (bit : Nat) | bad
  deriving DecidableEq, Repr

/-- The verdict of a syndrome: a column of R203 names the bit in error; every other non-zero one is uncorrectable
(R205). -/
def verdict (syn : Nat) : Verdict :=
  if syn = 0 then .good
  else match (List.range 14).find? fun i => cellColumns.getD i 0 == syn with
    | some i => .fix i
    | none => .bad

/-- The syndrome of a pattern of bits in error, whatever the cell holds: the code is linear. -/
def patternSyndrome (p : Nat) : Nat := (onesBelow 14 p).foldl (fun c i => Nat.xor c (cellColumns.getD i 0)) 0

/-- The cell that the fill engine writes: data 0x00 with c0 and c1 inverted (R214). -/
def fillCell (a : Bool) : Nat := 256 * Nat.xor (checkBits 0 a) 0x03

/-! ## Members, groups and frames (R215) -/

/-- Is member m in service: stack m, or warm channel m − 8? -/
def State.memberUp (s : State) (m : Nat) : Bool :=
  if m < 8 then s.flag (STK.IN_SERVICE m) else s.flag (DCH.IN_SERVICE (m - 8))

/-- Is DRAIN set on member m? -/
def State.draining (s : State) (m : Nat) : Bool :=
  if m < 8 then s.flag (STK.DRAIN m) else s.flag (DCH.DRAIN (m - 8))

/-- Members per interleave group of a tier (R215). -/
def State.ways (s : State) (warm : Bool) : Nat := 2 ^ (if warm then s.get CEL.WARM_WAYS else s.get CEL.HOT_WAYS)

/-- The grain of a tier in bytes; values above 8 are treated as 8 (R215). -/
def State.grain (s : State) (warm : Bool) : Nat :=
  2 ^ (8 + min 8 (if warm then s.get CEL.WARM_GRAIN else s.get CEL.HOT_GRAIN))

/-- The members of group k of a tier. -/
def State.groupMembers (s : State) (warm : Bool) (k : Nat) : List Nat :=
  (List.range (s.ways warm)).map fun i => (if warm then 8 else 0) + k * s.ways warm + i

/-- The groups of a tier: group numbers. -/
def State.groups (s : State) (warm : Bool) : List Nat := List.range (8 / s.ways warm)

/-- A member out of service takes its group out of service (R215). -/
def State.groupUp (s : State) (warm : Bool) (k : Nat) : Bool := (s.groupMembers warm k).all s.memberUp

/-- Frames of 64 KiB that a member holds: 32 GiB for a stack and for each populated rank of a channel (R216). -/
def State.memberFrames (s : State) (m : Nat) : Nat :=
  if m < 8 then 524288 else 524288 * popBelow 2 (s.get (DCH.RANK_EN (m - 8)))

/-- Frames of a group: each member gives as many as the smallest of them. -/
def State.groupFrames (s : State) (warm : Bool) (k : Nat) : Nat :=
  let ms := s.groupMembers warm k
  ms.length * ms.foldl (fun a m => min a (s.memberFrames m)) (2 * 524288)

/-- Frame numbers of a tier leave room for two ranks in every member: group k starts at k × WAYS × this. -/
def frameStride : Nat := 2 * 524288

/-- Members in service that carry the reserved region: the stacks, or, with none in service, the channels (R215);
a draining member gives its share up (R226). -/
def State.reservedMembers (s : State) : List Nat :=
  let up (w : Bool) : List Nat := ((s.groups w).filter fun k =>
    s.groupUp w k && !(s.groupMembers w k).any s.draining).flatMap (s.groupMembers w)
  let hot := up false
  if hot.isEmpty then up true else hot

/-- The frames of the reserved region in member m: floor(8,192 ÷ s), and one more in the lowest-numbered (R215). -/
def State.reservedShare (s : State) (m : Nat) : Nat :=
  let ms := s.reservedMembers
  let n := ms.length
  if ms.contains m then 8192 / n + b2n ((ms.filter (· < m)).length < 8192 % n) else 0

/-- The frames of a group that the reserved region takes: its lowest. -/
def State.groupReserved (s : State) (warm : Bool) (k : Nat) : Nat :=
  ((s.groupMembers warm k).map s.reservedShare).sum

/-- The frames of a tier that data may use, as intervals (first, count): groups in service, past the reserved region;
`alloc` leaves out groups with a draining member, where no new frame goes (R226). -/
def State.frameRuns (s : State) (warm alloc : Bool) : List (Nat × Nat) :=
  ((s.groups warm).filter fun k => s.groupUp warm k && !(alloc && (s.groupMembers warm k).any s.draining)).map fun k =>
    let r := s.groupReserved warm k
    (k * s.ways warm * frameStride + r, s.groupFrames warm k - r)

/-- Data frames of a tier in service. -/
def State.tierFrames (s : State) (warm : Bool) : Nat := ((s.frameRuns warm false).map (·.2)).sum

/-- The frames an extent holds of a tier: its home's and its move's destination. -/
def Extent.frames (x : Extent) (warm : Bool) : List Nat :=
  (match x.home, warm with
    | .hot f, false => [f]
    | .warm f, true => [f]
    | _, _ => []) ++
  (match x.move, warm with
    | some (.hot f), false => [f]
    | some (.warm f), true => [f]
    | _, _ => [])

/-- The frames of a tier in use. -/
def State.usedFrames (s : State) (warm : Bool) : List Nat := s.tier.ext.flatMap fun e => e.2.frames warm

/-- The frame at position i of a list of intervals. -/
def nthFrame : List (Nat × Nat) → Nat → Option Nat
  | [], _ => none
  | (b, n) :: rest, i => if i < n then some (b + i) else nthFrame rest (i - n)

/-- The frame, and the byte in it, at a member-local address: the reverse of R215's map. -/
def State.frameAt (s : State) (m local_ : Nat) : Nat × Nat :=
  let warm := 8 ≤ m
  let w := s.ways warm
  let g := s.grain warm
  let i := m % 8
  let ga := local_ / g * (g * w) + i % w * g + local_ % g
  (i / w * w * frameStride + ga / 65536, ga % 65536)

/-- A frame given out: what its cells held before is gone (R214, R220). -/
def State.takeFrame (s : State) (warm : Bool) (f : Nat) : State :=
  { s with mc := { s.mc with
      touched := if s.mc.touched.contains (warm, f) then s.mc.touched else (warm, f) :: s.mc.touched
      refilled := s.mc.refilled.filter fun u => !((s.frameAt u.1 (128 * u.2)).1 == f && decide (8 ≤ u.1) == warm) } }

/-- A free frame of a tier, none when every frame is in use: which one the spec leaves open (log entry 1). -/
def State.allocFrame (s : State) (warm : Bool) : Option Nat × State :=
  let runs := s.frameRuns warm true
  let total := (runs.map (·.2)).sum
  let used := s.usedFrames warm
  let (n, s) := s.freeNat
  if total = 0 then (none, s)
  else ((List.range (used.length + 1)).findSome? fun i => match nthFrame runs ((n + i) % total) with
      | some f => if used.contains f then none else some f
      | none => none).elim (none, s) fun f => (some f, s.takeFrame warm f)

/-- Is there a free frame in the tier? -/
def State.frameFree (s : State) (warm : Bool) : Bool := (s.allocFrame warm).1.isSome

/-- The member and the member-local address of byte `off` of a frame (R215). -/
def State.placeOf (s : State) (warm : Bool) (frame off : Nat) : Nat × Nat :=
  let w := s.ways warm
  let g := s.grain warm
  let k := frame / (w * frameStride)
  let ga := frame % (w * frameStride) * 65536 + off
  ((if warm then 8 else 0) + k * w + ga / g % w, ga / (g * w) * g + ga % g)

/-- The member-local address of a device address that has a volatile home. -/
def State.placeOfDa (s : State) (da : Nat) : Option (Nat × Nat) :=
  match s.extent (extOf da) with
  | some x => match x.home with
    | .hot f => some (s.placeOf false f (da % 65536))
    | .warm f => some (s.placeOf true f (da % 65536))
    | _ => none
  | none => none

/-- Does a member issue no access, its DLL out of its window (R308)? -/
def State.memberIdle (s : State) (m : Nat) : Bool := s.memberUp m && (s.member m).outSince.isSome

/-- Does a byte of a range lie in a member that issues no access (R308)? Grains are 256 bytes or more (R215). -/
def State.heldBack (s : State) (da n : Nat) : Bool :=
  (List.range 16).any s.memberIdle &&
    (List.range ((da + n - 1) / 256 - da / 256 + 1)).any fun i => match s.placeOfDa (256 * (da / 256 + i)) with
      | some p => s.memberIdle p.1
      | none => false

/-- A member-local address as row, bank and column (R216): the order's fields from the most significant down. -/
def addrFields (order rows banks local_ : Nat) : Nat × Nat × Nat :=
  let cut (v w : Nat) : Nat × Nat := (v % 2 ^ w, v / 2 ^ w)
  if order = 0 then
    let (co, v) := cut local_ 6; let (ba, v) := cut v banks; (v % 2 ^ rows, ba, co)
  else if order = 1 then
    let (ba, v) := cut local_ banks; let (co, v) := cut v 6; (v % 2 ^ rows, ba, co)
  else if order = 2 then
    let (co, v) := cut local_ 6; let (ro, v) := cut v rows; (ro, v % 2 ^ banks, co)
  else
    let (ba, v) := cut local_ banks; let (ro, v) := cut v rows; (ro, ba, v % 2 ^ 6)

/-- Where the access unit of a member-local address lies (R216): a stack's sub-channel or a channel's rank, row, bank and burst
column. -/
structure UnitPlace where
  sub : Nat := 0
  rank : Nat := 0
  row : Nat
  bank : Nat
  column : Nat
  deriving DecidableEq, Repr

/-- The bank group of a warm bank: its low 3 bits (R216). -/
def UnitPlace.bankGroup (u : UnitPlace) : Nat := u.bank % 8

/-- The rank of a warm channel that a member-local address selects: bit 35, or the only rank populated (R216). -/
def State.rankOf (s : State) (m local_ : Nat) : Nat :=
  if m < 8 then 0 else if s.get (DCH.RANK_EN (m - 8)) == 2 then 1 else local_ / 2 ^ 35 % 2

/-- A member-local address as it is issued to the DRAM (R216). -/
def State.unitPlace (s : State) (m local_ : Nat) : UnitPlace :=
  if m < 8 then
    let (ro, ba, co) := addrFields (s.get CEL.HOT_ORDER) 14 4 (local_ / 2 ^ 11)
    { sub := local_ / 2 ^ 7 % 16, row := ro, bank := ba, column := co }
  else
    let (ro, ba, co) := addrFields (s.get CEL.WARM_ORDER) 17 5 (local_ / 2 ^ 7 % 2 ^ 28)
    { rank := s.rankOf m local_, row := ro, bank := ba, column := co }

/-- The address key a of a unit: the parity of its row and column bits (R204). -/
def State.addrKey (s : State) (m local_ : Nat) : Bool :=
  let u := s.unitPlace m local_
  (popBelow 17 u.row + popBelow 6 u.column) % 2 == 1

/-- The beat of a burst that carries byte `i` of an access unit (R206, R207). -/
def beatOf (i : Nat) : Nat := i / 8

/-- The lane that carries bit `j` of the cell of byte `i` (R206, R207). -/
def dataLaneOf (i j : Nat) : Nat := 8 * j + i % 8

/-- The device of a rank, or the slice of a sub-channel, that drives a lane (R206, R207). -/
def laneDevice (lane : Nat) : Nat := lane / 8

/-! ## Correction and poison (R210, R211) -/

/-- Damage to what a twin holds, which R212 judges at the next boundary: of a PAIRED twin. -/
def State.damage (s : State) : State :=
  if s.cm.twin == .paired then { s with mc := { s.mc with damaged := true } } else s

/-- The number of a member as its page has it: STK_n or DCH_n. -/
def memberIndex (m : Nat) : Nat := m % 8

/-- What every poison bit that is set brings with it (R211): Census, with the stack or channel of the cell (R371), the event, and
the damage that R212 judges. -/
def State.poisonTold (s : State) (m : Nat) : State := (s.damage.raise CEL.page CEL.evPOISON).census 6 (memberIndex m)

/-- The member that holds the first byte of a sector. -/
def State.memberOfSector (s : State) (sec : Nat) : Nat := ((s.placeOfDa (4096 * sec)).map (·.1)).getD 0

/-- The poison bit of a sector in a volatile home set (R211), by a cell of member m. -/
def State.poisonSector (s : State) (m sec : Nat) : State :=
  ({ s with tier := { s.tier with poison := addTo s.tier.poison sec } }).poisonTold m

/-- A correction counted against the device or slice whose bit was wrong (R210). -/
def State.countFix (s : State) (m rank bit : Nat) : State :=
  let thr := s.get CEL.FAIL_THR
  if m < 8 then
    let s := (s.inc (STK.CORR m)).inc (STK.SLICE_CORR m bit)
    let s := (s.censusN 3 1)
    let s := { s with cen := { s.cen with corrStk := mput s.cen.corrStk m (min count48 (mgetD s.cen.corrStk m 0 + 1)) } }
    if thr < s.get (STK.SLICE_CORR m bit) && !bitOf (s.get (STK.SLICE_FAILED m)) bit then
      (s.setb (STK.SLICE_FAILED m) bit true).raise (STK.page m) STK.evDEV_FAILED
    else s
  else
    let n := m - 8
    let d := 14 * rank + bit
    let s := (s.inc (DCH.CORR n)).inc (DCH.DEV_CORR n d)
    let s := (s.censusN 4 1)
    let s := { s with cen := { s.cen with corrDch := mput s.cen.corrDch n (min count48 (mgetD s.cen.corrDch n 0 + 1)) } }
    if thr < s.get (DCH.DEV_CORR n d) && !bitOf (s.get (DCH.DEV_FAILED n)) d then
      (s.setb (DCH.DEV_FAILED n) d true).raise (DCH.page n) DCH.evDEV_FAILED_EVT
    else s

/-- A byte of memory changed by a pattern of its data bits: what a read returns, and leaves, when the code does not see
an error or corrects the wrong bit (R208). -/
def State.flipByte (s : State) (da p : Nat) : State :=
  if p % 256 = 0 then s
  else { s with mem := Memory.write s.mem da (BitVec.ofNat 8 (Nat.xor (Memory.read s.mem da).toNat (p % 256))) }

/-- A masked write on a warm channel, counted (R209, R210). -/
def State.maskedWrite (s : State) (m : Nat) : State := if m < 8 then s else s.inc (DCH.MASKED_WRITES (m - 8))

/-- The access units that a write of `n` bytes covers only in part (R209). -/
def partUnits (da n : Nat) : List Nat :=
  if n = 0 then []
  else ([da / 128, (da + n - 1) / 128].eraseDups).filter fun u => !(da ≤ 128 * u && 128 * u + 128 ≤ da + n)

/-- A write of `n` bytes to homes: each unit it covers in part takes a masked write (R209). -/
def State.maskedPart (s : State) (da n : Nat) : State :=
  (partUnits da n).foldl (fun s u => match s.placeOfDa (max da (128 * u)) with
    | some (m, _) => s.maskedWrite m
    | none => s) s

/-- The gang bytes that a committed key stored, from its commit record. -/
def EpochRec.storedAt (e : EpochRec) (c : Nat) : Nat × Nat :=
  match mget e.records c with
  | some b => (fieldBE b 16 8, fieldBE b 12 4)
  | none => (0, 0)

/-- Is a placement to the cell of a device address already queued (R210): a committed write that is not yet placed? -/
def State.placementQueued (s : State) (da : Nat) : Bool :=
  let ga := s.gaOf da
  s.cm.ep.any fun e => e.2.toPlace.any fun c =>
    let (a, n) := e.2.storedAt c
    a ≤ ga && ga < a + n

/-- The bits that a read of a cell finds wrong (R204, R205): those in error, with c4 and c5 where the cell that answered was
written under the other address key. -/
def State.wrongBits (s : State) (m local_ : Nat) (c : CellFault) : Nat :=
  match c.answered with
  | some l => if s.addrKey m l != s.addrKey m local_ then Nat.xor c.pattern.toNat 0x3000 else c.pattern.toNat
  | none => c.pattern.toNat

/-- An uncorrectable cell of a member, counted (R211). -/
def State.uncorrectable (s : State) (m : Nat) : State :=
  if m < 8 then (s.inc (STK.UNCORR m)).raise (STK.page m) STK.evUNCORR_EVT
  else (s.inc (DCH.UNCORR (m - 8))).raise (DCH.page (m - 8)) DCH.evUNCORR_EVT

/-- A cell of a volatile home read with bits in error: corrected and written back, unless a placement supersedes that, or poisoned
(R205, R210, R211). -/
def State.readCell (s : State) (c : CellFault) : State :=
  match s.placeOfDa c.da with
  | none => s
  | some (m, local_) =>
    if s.memberIdle m then s else
    let p := s.wrongBits m local_ c
    match verdict (patternSyndrome p) with
    | .good => s.flipByte c.da p
    | .fix bit =>
      let s := (s.countFix m (s.rankOf m local_) bit).flipByte c.da (Nat.xor p (2 ^ bit))
      if s.placementQueued c.da then s else s.maskedWrite m
    | .bad => (s.uncorrectable m).poisonSector m (secOf c.da)

/-- The array faults that a read of the bytes from `da` on meets. -/
def State.readCells (s : State) (cells : List CellFault) (da n : Nat) : State :=
  (cells.filter fun c => da ≤ c.da && c.da < da + n).foldl State.readCell s

/-- Is a sector's poison bit set, by R211 or R301? -/
def State.poisoned (s : State) (sec : Nat) : Bool :=
  s.tier.poison.contains sec || s.tier.untrusted.contains sec

/-- A sector's poison bits cleared by a whole-sector write (R211, R301). -/
def State.clearPoison (s : State) (sec : Nat) : State :=
  { s with tier := { s.tier with poison := s.tier.poison.filter (· != sec)
                                 untrusted := s.tier.untrusted.filter (· != sec) } }

/-! ## Memory ports and their regulators (R221, R222) -/

/-- The period P of R101 in 1/256 core cycle: EPC.PERIOD_MEAS, 5.00 µs before a measurement. -/
def State.periodP (s : State) : Nat := if s.ep.period = 0 then 2048000 else s.ep.period

/-- Data bandwidth of the members in service, with their groups (R226), in 10⁸ bytes per second: 1,228.8 GB/s a stack, and a
channel by its set point, at half while TEMP_OVER is set, and any member at half while it is retrained in service (R221, R225,
R323, R341). -/
def State.bandwidth (s : State) : Nat :=
  ((List.range 16).map fun m =>
    if !s.groupUp (8 ≤ m) (m % 8 / s.ways (8 ≤ m)) then 0
    else
      let full := if m < 8 then 12288
        else (1024 - 256 * s.get (DCH.FSP_ACTIVE (m - 8))) / (if s.flag (DCH.TEMP_OVER (m - 8)) then 2 else 1)
      if s.clk.retrain == some (m, true) then full / 2 else full).sum

/-- m × 409,600: bandwidth × period × EFF_PCT (R221). -/
def State.budgetM (s : State) : Nat := s.bandwidth * s.periodP * s.get CEL.EFF_PCT

/-- The reservations of ports 16 to 21 (R221). -/
def State.rsvSum (s : State) : Nat := ((List.range 6).map fun i => s.get (CEL.RSV (16 + i))).sum

/-- H × 409,600 (R221). -/
def State.budgetH (s : State) : Nat := s.budgetM - 409600 * s.rsvSum

/-- H, G_RD and G_WR computed and shown (R221). -/
def State.regulators (s : State) : State :=
  let h := s.budgetH
  let r := s.get CEL.HOST_RD_PCT
  { s with mc := { s.mc with h := h / 409600, gRd := h * r / 40960000, gWr := h * (100 - r) / 40960000 } }

/-- Link rate up at a port, in units of 200 Gb/s. -/
def State.portRate (s : State) (p : Nat) : Nat :=
  popBelow (2 ^ s.get (HP.MODE p)) (s.get (HP.LINK_UP p)) * s.lanes p

/-- Link rate up at all ports. -/
def State.rateUp (s : State) : Nat := ((List.range 16).map s.portRate).sum

/-- The budget of a memory port (R221): the muster port is unlimited during a muster, shown as the highest value. -/
def State.portBudget (s : State) (k : Nat) : Nat :=
  if k < 16 then s.mc.h * s.portRate k / max 1 s.rateUp
  else if k = 17 then (if s.mus.state == .mustering then 2 ^ 32 - 1 else 0)
  else s.get (CEL.RSV k)

/-- Bytes charged to a memory port. -/
def State.chargePort (s : State) (k n : Nat) : State :=
  { s with mc := { s.mc with charged := mput s.mc.charged k (mgetD s.mc.charged k 0 + n)
                             tokens := mput s.mc.tokens k (mgetD s.mc.tokens k 0 - n) } }

/-- Every bucket refilled to its budget, and what the last epoch charged shown (R221). -/
def State.refillPorts (s : State) : State :=
  (List.range 22).foldl (fun s k =>
    (s.put (CEL.USED k) (mgetD s.mc.charged k 0)))
    { s with mc := { s.mc with tokens := mofList ((List.range 22).map fun k => (k, s.portBudget k)) } }
  |> fun s => { s with mc := { s.mc with charged := [] } }

/-! ## Refresh (R217, R218) -/

/-- The intervals of R217 in 1/256 core cycle: 3.90 µs is 6,240 cycles and 1.95 µs is 3,120. -/
def tRefi (doubled : Bool) : Nat := if doubled then 3120 * 256 else 6240 * 256

/-- Does target `t` of member m refresh at the doubled interval: asked by temperature, or forced? -/
def State.refX2 (s : State) (m t : Nat) : Bool :=
  (s.member m).hotRank.getD t false ||
    (if m < 8 then s.flag (STK.FORCE_X2 m) else s.flag (DCH.FORCE_X2 (m - 8)))

/-- Is target `t` of member m there to refresh: the stack, or an enabled rank? -/
def State.refTarget (s : State) (m t : Nat) : Bool :=
  s.memberUp m && (if m < 8 then t == 0 else bitOf (s.get (DCH.RANK_EN (m - 8))) t)

/-- One boundary's refresh of a target: its credit gains the period, and a command is issued each time the credit
reaches the interval (R217). -/
def State.refreshTarget (s : State) (m t : Nat) : State :=
  if !s.refTarget m t then s
  else
    let x := s.member m
    let i := tRefi (s.refX2 m t)
    let c := x.credit.getD t 0 + s.periodP
    s.setMember m { x with credit := x.credit.set t (c % i), issued := x.issued.set t (x.issued.getD t 0 + c / i) }

/-- Refresh of every target at a boundary (R217). -/
def State.refreshAll (s : State) : State :=
  (List.range 16).foldl (fun s m => (s.refreshTarget m 0).refreshTarget m 1) s

/-! ## Scrub (R219, R220) -/

/-- Access units of 128 bytes in the members in service. -/
def State.scrubUnits (s : State) : Nat :=
  ((List.range 16).map fun m => if s.memberUp m then s.memberFrames m * 512 else 0).sum

/-- The scrub pass period: 24 hours. -/
def scrubPeriod : Nat := 86400 * secCycles

/-- A cell that the scrubber meets outside the homes of data (R220): in the reserved region it is corrected, or poisoned by R211;
in a frame that nothing uses, a cell that is not a filled one is counted, and its unit rewritten. -/
def State.scrubStray (s : State) (c : ScrubbedCell) : State :=
  let m := c.member.val
  let warm := 8 ≤ m
  let (f, _) := s.frameAt m c.place
  let a := s.addrKey m c.place
  if !s.memberUp m || s.memberIdle m || (s.usedFrames warm).contains f then s
  else if f % (s.ways warm * frameStride) < s.groupReserved warm (m % 8 / s.ways warm) then
    match verdict (syndrome c.cell.toNat a) with
    | .good => s
    | .fix bit => (s.countFix m (s.rankOf m c.place) bit).maskedWrite m
    | .bad =>
      let s := { s with mc := { s.mc with poison := if s.mc.poison.contains (m, c.place / 4096) then s.mc.poison
                                                     else (m, c.place / 4096) :: s.mc.poison } }
      (s.uncorrectable m).poisonTold m
  else if c.cell.toNat == fillCell a then s
  else
    let u := (m, c.place / 128)
    ({ s with mc := { s.mc with refilled := if s.mc.refilled.contains u then s.mc.refilled else u :: s.mc.refilled } }).inc
      CEL.SCRUB_STRAY

/-- What the cell at a member-local address holds: the code of its byte in a frame that is a home's; a filled cell where the fill
engine, and no extent since, or the scrubber has written; `none` where the spec leaves the content undefined (R214, R220). -/
def State.cellAt (s : State) (m local_ : Nat) : Option Nat :=
  let warm : Bool := 8 ≤ m
  let (f, off) := s.frameAt m local_
  let a := s.addrKey m local_
  match s.tier.ext.find? fun e => e.2.home == (if warm then .warm f else .hot f) with
  | some (e, _) =>
    let d := (Memory.read s.mem (65536 * e + off)).toNat
    some (256 * checkBits d a + d)
  | none =>
    if f % (s.ways warm * frameStride) < s.groupReserved warm (m % 8 / s.ways warm) then none
    else if s.mc.refilled.contains (m, local_ / 128) || (s.mc.filled.contains m && !s.mc.touched.contains (warm, f)) then
      some (fillCell a)
    else none

/-- Is a pass of `total`, begun at `start` and `done` so far, below 90 % of the part of its period that has gone (R222)? -/
def State.passBehind (s : State) (total done start span : Nat) : Bool := 10 * done * span < 9 * total * (s.now - start)

/-- The scrubber's slot at a boundary: the units its schedule has reached, or as many as it was given time for, read and
corrected (R219). -/
def State.scrubSlot (s : State) (env : BoundaryEnv) : State :=
  let total := s.scrubUnits
  let due := min total (total * (s.now - s.mc.scrubStart) / scrubPeriod)
  let read := min (due - s.mc.scrubbed) (env.scrubUnits.getD total)
  let s := env.stray.foldl State.scrubStray (env.scrub.foldl State.readCell s)
  let s := s.chargePort 18 (128 * read)
  if total ≤ s.mc.scrubbed + read && total != 0 then
    let s := { s with mc := { s.mc with scrubbed := 0, scrubStart := s.now } }
    let s := (List.range 8).foldl (fun s n =>
      let s := (List.range 14).foldl (fun s j => s.put (STK.SLICE_CORR n j) 0) s
      (List.range 28).foldl (fun s k => s.put (DCH.DEV_CORR n k) 0) s) s
    (s.inc CEL.SCRUB_PASSES).raise CEL.page CEL.evSCRUB_PASS
  else { s with mc := { s.mc with scrubbed := s.mc.scrubbed + read } }

end Sys2Proof.Machine
end

