-- ==== Sys2Proof/Machine/Flash.lean ====
section
/-! DEFINITION. The capacity tier (R230 to R251) and its parity (R252 to R268): dies and rows, superblocks and blocks,
logical blocks, logs and merges, fills, and what a failed die or a lost page sets going. -/

namespace Sys2Proof.Machine

/-! ## Dies and rows (R231, R254, R255) -/

/-- Device die numbers are channel × 16 + local die (R231). -/
def dieChan (d : Nat) : Nat := d / 16

/-- Is a die populated: below DIES of its channel, and did it answer Read ID with the geometry (R231)? -/
def State.diePresent (s : State) (d : Nat) : Bool :=
  bitOf (s.get (FCH.DIE_PRESENT (dieChan d))) (d % 16) && !s.fl.odd.contains d

/-- Is the die on the failed-die list (R257)? -/
def State.dieFailed (s : State) (d : Nat) : Bool := s.par.failed.contains d

/-- Healthy dies of a channel. -/
def State.healthyDies (s : State) (c : Nat) : Nat :=
  ((List.range 16).filter fun k => s.diePresent (16 * c + k) && !s.dieFailed (16 * c + k)).length

/-- Every die that is present, healthy and not on the failed-die list. -/
def State.goodDies (s : State) : List Nat :=
  (List.range 64).flatMap fun c =>
    if s.get (FCH.DIE_PRESENT c) == 0 then []
    else ((List.range 16).map (16 * c + ·)).filter fun d => s.diePresent d && !s.dieFailed d

/-- Populated dies. -/
def State.populated (s : State) : Nat :=
  ((List.range 64).map fun c => popBelow 16 (s.get (FCH.DIE_PRESENT c))).sum - s.fl.odd.length

/-- One choice of R254's construction: the candidate of least load, then of least pair sum, then of lowest number. -/
def pickDie (dies : List Nat) (cap : Nat) (load pair : NMap Nat) (row : List Nat) : Option Nat :=
  let cost (d : Nat) : Nat × Nat := (mgetD load d 0, (row.map fun x => mgetD pair (d * 1024 + x) 0).sum)
  let better (a b : Nat) : Bool :=
    let ca := cost a
    let cb := cost b
    ca.1 < cb.1 || (ca.1 == cb.1 && (ca.2 < cb.2 || (ca.2 == cb.2 && a < b)))
  (dies.filter fun d => !row.contains d && (row.filter fun x => dieChan x == dieChan d).length < cap).foldl
    (fun b d => match b with
      | none => some d
      | some e => if better d e then some d else some e) none

/-- The layout table of R254 over dies `dies` with a SPREAD: its rows in order. -/
def layoutRows (dies : List Nat) (spread : Nat) : List (List Nat) :=
  let t := ceilDiv (spread * dies.length) 18
  let chans := (dies.map dieChan).eraseDups.length
  let cap := ceilDiv 18 (max 1 chans)
  let step (acc : NMap Nat × NMap Nat × List (List Nat)) (_ : Nat) : NMap Nat × NMap Nat × List (List Nat) :=
    let (load, pair, row) := (List.range 18).foldl (fun (a : NMap Nat × NMap Nat × List Nat) _ =>
      match pickDie dies cap a.1 a.2.1 a.2.2 with
      | none => a
      | some d =>
        (mput a.1 d (mgetD a.1 d 0 + 1),
         a.2.2.foldl (fun p x => mput (mput p (d * 1024 + x) (mgetD p (d * 1024 + x) 0 + 1)) (x * 1024 + d)
           (mgetD p (x * 1024 + d) 0 + 1)) a.2.1,
         a.2.2 ++ [d])) (acc.1, acc.2.1, [])
    (load, pair, acc.2.2 ++ [row])
  ((List.range t).foldl step ([], [], [])).2.2

/-- Is a die out of service for rows: failed, of another geometry, or taken off the list and not yet taken in again (R231, R257,
R258)? -/
def State.dieOut (s : State) (d : Nat) : Bool := s.dieFailed d || s.fl.odd.contains d || s.par.cleared.contains d

/-- A row is open while none of its dies is failed (R255). -/
def State.rowOpen (s : State) (r : Nat) : Bool :=
  match mget s.par.rows r with
  | some ds => !ds.any s.dieOut
  | none => false

/-- May a new superblock go on a row: on an open one, during a reshape on a new one (R255, R268)? -/
def State.rowTakes (s : State) (r : Nat) : Bool := s.rowOpen r && !(s.par.reshaping && s.par.oldRows.contains r)

/-- The dies that a format, or a reshape of kind SPREAD, builds rows of: healthy, and, where there are rows, in one of them. -/
def State.servingDies (s : State) : List Nat :=
  s.goodDies.filter fun d => !s.par.cleared.contains d && (s.par.rows.isEmpty || s.par.rows.any fun e => e.2.contains d)

/-! ## Logical blocks (R235, R237) -/

/-- A logical block's table entry. -/
def State.lb (s : State) (n : Nat) : LbtEntry := mgetD s.fl.lbt n {}

/-- A logical block's table entry written. -/
def State.setLb (s : State) (n : Nat) (x : LbtEntry) : State :=
  { s with fl := { s.fl with lbt := mset {} s.fl.lbt n x } }

/-- A log written. -/
def State.setLog (s : State) (n : Nat) (x : FlashLog) : State :=
  { s with fl := { s.fl with logs := mput s.fl.logs n x } }

/-- The logical block of an extent, and the extent's place in it (R233). -/
def lbOf (e : Nat) : Nat × Nat := (e / 6144, e % 6144)

/-! ## Page headers (R234) -/

/-- The kind byte of a header. -/
def SlotHdr.kind (h : SlotHdr) : Nat := h.state + 4 * h.role + 16 * b2n h.pad

/-- The 32 bytes of a page's header: the page's place in its slot, and the erase count of its block. -/
def SlotHdr.bytes (h : SlotHdr) (page erases : Nat) : List Byte :=
  let b := bytesLE 4 (h.ext % 2 ^ 32) ++ [BitVec.ofNat 8 h.kind, BitVec.ofNat 8 (page % 4)] ++ bytesLE 2 (h.domain % 4096) ++
    bytesLE 4 (erases % 2 ^ 32) ++ bytesLE 4 0 ++ bytesLE 8 h.epoch ++ bytesLE 4 0
  b ++ bytesLE 4 (crc32 b)

/-- The header of a slot of a superblock: the one programmed, or that of an extent NONE which a merge wrote there. -/
def Superblock.hdr (x : Superblock) (slot : Nat) : SlotHdr :=
  match mget x.hdrs slot, x.merged with
  | some h, _ => h
  | none, some m => if m.first ≤ slot then { role := m.role, ext := 6144 * m.lb + slot, epoch := m.epoch } else {}
  | none, none => {}

/-- The header of a slot. -/
def State.slotHdr (s : State) (sb slot : Nat) : SlotHdr :=
  match mget s.fl.sbs sb with
  | some x => x.hdr slot
  | none => {}

/-- What is programmed into a slot: its header, and the clear bytes of an extent that it holds. -/
structure SlotWrite where
  slot : Nat
  hdr : SlotHdr
  data : List Host.Cell := []
  deriving DecidableEq, Repr

/-- The bytes of an extent as they stand, by offset. -/
def State.extBytes (s : State) (e : Nat) : List Host.Cell :=
  (s.mem.filter fun c => c.1 / 65536 == e).map fun c => (c.1 % 65536, c.2)

/-- Slots of a superblock programmed. -/
def State.putSlots (s : State) (sb : Nat) (ws : List SlotWrite) : State :=
  match mget s.fl.sbs sb with
  | none => s
  | some x => { s with fl := { s.fl with sbs := mput s.fl.sbs sb { x with
      hdrs := ws.foldl (fun m w => mput m w.slot w.hdr) x.hdrs
      data := ws.foldl (fun m w => mset [] m w.slot w.data) x.data } } }

/-! ## Finding an extent (R237) -/

/-- The slot in flash of an extent: superblock and slot. -/
def State.flashSlot (s : State) (e : Nat) : Option (Nat × Nat) :=
  let (lb, k) := lbOf e
  let x := s.lb lb
  let logged : Option (Nat × Nat) := match x.log with
    | some n => (match mget s.fl.logs n with
      | some l => (mget l.index k).map fun i => (l.sb, i)
      | none => none)
    | none => none
  match logged with
  | some a => some a
  | none => if k < x.fill || x.state == 3 then (x.slc[k / 2048]?).map fun sb => (sb, k % 2048) else x.base.map fun sb => (sb, k)

/-- Does the state of an extent outside the directory follow from the header of its slot in BASE, so that finding it costs a
page read (R237 step 4)? -/
def State.headerTells (s : State) (e : Nat) : Bool :=
  let (lb, k) := lbOf e
  let x := s.lb lb
  let logged : Bool := match x.log with
    | some n => (match mget s.fl.logs n with
      | some l => (mget l.index k).isSome
      | none => false)
    | none => false
  !logged && x.fill ≤ k && x.state == 2 && x.base.isSome

/-- The state that flash gives an extent, whatever home it has: 0 NONE, 1 ZERO, 2 FLASH (R237, steps 2 to 4). -/
def State.flashState (s : State) (e : Nat) : Nat :=
  let (lb, k) := lbOf e
  let x := s.lb lb
  let logged : Option Nat := match x.log.bind (mget s.fl.logs) with
    | some l => mget l.index k
    | none => none
  match logged with
  | some i => if i == 0xFFFE then 1 else 2
  | none =>
    if k < x.fill || x.state == 3 then 2
    else if x.state == 2 then (match x.base with
      | some sb => (s.slotHdr sb k).state
      | none => 0)
    else x.state

/-! ## The stripe journal (R262) -/

/-- The groups that wait, put in flight where they may: at most 256 at once, and those of one superblock in ascending order, one
after the other (R233, R262). -/
def State.issueNext (s : State) : State :=
  s.par.queued.foldl (fun s e =>
    if s.par.journal.length < 256 && !s.par.journal.any (fun x => x.sb == e.sb) then
      { s with par := { s.par with journal := s.par.journal ++ [e] } }
    else { s with par := { s.par with queued := s.par.queued ++ [e] } }) { s with par := { s.par with queued := [] } }

/-- A group whose program is due: 0 of a log, 1 of a merge's destination, 2 a row of a fill, 3 of a rebuild's destination. -/
def State.issueGroup (s : State) (sb group kind : Nat) : State :=
  if (s.par.journal ++ s.par.queued).any (fun e => e.sb == sb && e.group == group) then s
  else ({ s with par := { s.par with queued := s.par.queued ++ [({ sb := sb, group := group, kind := kind } : StripeEntry)] } }).issueNext

/-- The entries that `p` picks removed, and the groups after them in flight. -/
def State.dropGroups (s : State) (p : StripeEntry → Bool) : State :=
  ({ s with par := { s.par with
    journal := s.par.journal.filter fun e => !p e, queued := s.par.queued.filter fun e => !p e } }).issueNext

/-- A group's entry removed. -/
def State.closeGroup (s : State) (sb group : Nat) : State := s.dropGroups fun e => e.sb == sb && e.group == group

/-! ## Blocks (R241) -/

/-- Blocks of a die. -/
def dieBlocks : Nat := 10912

/-- A device block number. -/
def devBlock (die block : Nat) : Nat := die * dieBlocks + block

/-- Device blocks that superblocks hold, or that reads of a superblock freed are still out for (R239). -/
def State.heldBlocks (s : State) : List Nat := (s.fl.sbs.flatMap fun e => e.2.blocks) ++ s.fl.draining.flatMap (·.1)

/-- Blocks of a die that no superblock can take: held already, or retired. -/
def State.goneBlocks (s : State) (d : Nat) : List Nat :=
  ((s.heldBlocks ++ s.fl.retired).filter fun b => b / dieBlocks == d && mgetD s.fl.maDie d 0 ≤ b % dieBlocks).eraseDups

/-- The free blocks of a die: how many. -/
def State.dieFree (s : State) (d : Nat) : Nat := dieBlocks - mgetD s.fl.maDie d 0 - (s.goneBlocks d).length

/-- The wear class of a block (R241). -/
def State.wearClass (s : State) (b : Nat) : Nat := mgetD s.fl.erases b 0 / 32

/-- The free block of a die of lowest wear class, the lowest number among equals (R241). -/
def State.pickBlock (s : State) (d : Nat) : Option Nat :=
  let held := s.goneBlocks d
  let free := ((List.range dieBlocks).drop (mgetD s.fl.maDie d 0)).filter fun b => !held.contains (devBlock d b)
  (free.foldl (fun a b => match a with
    | none => some b
    | some c => if s.wearClass (devBlock d b) < s.wearClass (devBlock d c) then some b else some c) none).map (devBlock d)

/-- A block erased just before its first program (R241); WEAR_LIMIT at the class of ENDURANCE (R242). -/
def State.eraseBlock (s : State) (b : Nat) : State :=
  let n := mgetD s.fl.erases b 0 + 1
  let s := { s with fl := { s.fl with erases := mput s.fl.erases b n } }
  let s := s.inc (FCH.BLOCK_ERASES (dieChan (b / dieBlocks)))
  s.raiseIf (s.get FTL.ENDURANCE / 32 ≤ n / 32) FTL.page FTL.evWEAR_LIMIT

/-- Free blocks: neither retired nor part of a TLC data superblock, a log or a muster area (F of R244). -/
def State.freeF (s : State) : Nat :=
  let held := (s.fl.sbs.filter fun e => e.2.use != .slc).flatMap fun e => e.2.blocks.filter fun b => !s.fl.retired.contains b
  s.populated * dieBlocks - held.length - s.fl.retired.length - (s.fl.maBlocks.map (·.2)).sum

/-- SPARE_LOW where retired blocks leave too few free ones (R232). -/
def State.checkSpare (s : State) : State := s.raiseIf (s.freeF < 36 * s.get FTL.LOG_RESERVE) FTL.page FTL.evSPARE_LOW

/-- The open row whose poorest die has the most free blocks; the lowest among equals (R255). -/
def State.pickRow (s : State) : Option Nat :=
  let poorest (ds : List Nat) : Nat := ds.foldl (fun a d => min a (s.dieFree d)) dieBlocks
  ((s.par.rows.filter fun e => s.rowTakes e.1).foldl (fun (a : Option (Nat × Nat)) e =>
    let n := poorest e.2
    match a with
    | none => if n = 0 then none else some (e.1, n)
    | some b => if b.2 < n then some (e.1, n) else some b) none).map (·.1)

/-- The lowest superblock number that is free. -/
def freeKey {α : Type} (m : NMap α) : Nat :=
  ((List.range (m.length + 1)).find? fun i => (mget m i).isNone).getD m.length

/-- A new superblock: its row by R255, its blocks by R241, erased before their first program. -/
def State.newSb (s : State) (use : SbUse) : Option Nat × State :=
  match s.pickRow with
  | none => (none, s)
  | some r =>
    let ds := mgetD s.par.rows r []
    let bs := ds.filterMap s.pickBlock
    if bs.length != ds.length then (none, s)
    else
      let n := freeKey s.fl.sbs
      let s := bs.foldl State.eraseBlock s
      let s := { s with fl := { s.fl with sbs := mput s.fl.sbs n { row := r, use := use, blocks := bs } } }
      (some n, s.checkSpare)

/-- The page reads out that a superblock answers, as extent × 4 + page: of reads, and of promotions. -/
def State.pagesOut (s : State) (n : Nat) : List Nat :=
  let reads : List Nat := s.net.reads.flatMap fun p => p.fetch
  let moves : List Nat := (s.tier.ext.filter fun e => e.2.home == .flash && e.2.move.isSome).flatMap fun e =>
    ((List.range 4).filter fun pg => !bitOf e.2.got pg).map (4 * e.1 + ·)
  ((reads ++ moves).filter fun k => ((s.flashSlot (k / 4)).map (·.1)) == some n).eraseDups

/-- A superblock freed, and the journal's entries for it with it; its blocks stay held while reads issued to them are out (R239). -/
def State.freeSb (s : State) (n : Nat) : State :=
  let out := s.pagesOut n
  let bs := match mget s.fl.sbs n with
    | some x => x.blocks
    | none => []
  ({ s with fl := { s.fl with
      sbs := mdel s.fl.sbs n, draining := if out.isEmpty then s.fl.draining else s.fl.draining ++ [(bs, out)] } }).dropGroups
    fun e => e.sb == n

/-- A page read has ended: blocks that waited for it alone are free (R239). -/
def State.pageEnded (s : State) (k : Nat) : State :=
  { s with fl := { s.fl with draining := (s.fl.draining.map fun d => (d.1, d.2.filter (· != k))).filter fun d => !d.2.isEmpty } }

/-- Superblocks freed. -/
def State.freeSbs (s : State) (l : List Nat) : State := l.foldl State.freeSb s

/-- A block that failed to program or to erase retired, never to be allocated again (R241). -/
def State.retireBlock (s : State) (b : Nat) (erase : Bool) : State :=
  let c := dieChan (b / dieBlocks)
  let s := { s with fl := { s.fl with retired := addTo s.fl.retired b } }
  (if erase then (s.inc (FCH.ERASE_FAIL c)).raise (FCH.page c) FCH.evERASE_FAIL_EVT
    else (s.inc (FCH.PROGRAM_FAIL c)).raise (FCH.page c) FCH.evPROGRAM_FAIL_EVT).checkSpare

/-! ## Parity (R252, R253, R266) -/

/-- A byte times g = 0x02 in GF(2⁸) with the polynomial 0x11D (R252). -/
def gfDouble (b : Byte) : Byte := if b.toNat < 128 then b <<< 1 else (b <<< 1) ^^^ 0x1D

/-- gᵏ times a byte. -/
def gfShift (k : Nat) (b : Byte) : Byte := (List.range k).foldl (fun b _ => gfDouble b) b

/-- P at one byte offset: the sum of the sixteen data members' bytes (R252). -/
def parityP (ds : List Byte) : Byte := ds.foldl (· ^^^ ·) 0

/-- Q at one byte offset: Σ gᵐ · D_m (R252). -/
def parityQ (ds : List Byte) : Byte :=
  ((List.range ds.length).map fun m => gfShift m (ds.getD m 0)).foldl (· ^^^ ·) 0

/-- One missing data member at a byte offset, from P and the others (R253): its own byte counts as 0 in `ds`. -/
def fromP (ds : List Byte) (p : Byte) : Byte := parityP ds ^^^ p

/-- Where a row's syndromes locate a fault (R266). -/
inductive Located | p | q | member (z : Nat) | nowhere
  deriving DecidableEq, Repr

/-- The member that the syndromes S_P and S_Q of a row locate (R266). -/
def locate (syn : List (Byte × Byte)) : Located :=
  if syn.all fun e => e.2 == 0 then .p
  else if syn.all fun e => e.1 == 0 then .q
  else match (List.range 16).find? fun z => syn.all fun e => e.2 == gfShift z e.1 with
    | some z => .member z
    | none => .nowhere

/-- `rows` rows of a superblock programmed: its pages counted, P and Q among them (R239). -/
def State.countProgram (s : State) (sb rows : Nat) : State :=
  match mget s.fl.sbs sb with
  | none => s
  | some x =>
    let s := x.blocks.foldl (fun s b => s.inc (FCH.PAGE_PROGRAMS (dieChan (b / dieBlocks))) rows) s
    s.inc FTL.PROG_BYTES (rows * 18 * 16384)

/-- The storage key: STORE_KEY where it names a loaded instance of the storage class; one of another class counts as none (R288). -/
def State.storeInst (s : State) : Option KeyInst :=
  match s.keyInst (s.get CPH.STORE_KEY) with
  | some k => if k.cls == 2 then some k else none
  | none => none

/-- Is the storage key's instance retired (R291)? -/
def State.storeRetired (s : State) : Bool := (s.storeInst.map (·.retired)).getD false

/-- The nonces of 16 data pages in each of `rows` rows (R291, R292): are they there, and the seal of those rows. -/
def State.pageNonces (s : State) (first rows : Nat) : Option RowSeal × State :=
  match s.storeInst with
  | none => (none, s)
  | some k => match s.useCounters (s.get CPH.STORE_KEY) (16 * rows) with
    | (true, t) => (some ⟨first, rows, s.get CPH.STORE_KEY, k.alg, k.material, k.counter⟩, t)
    | (false, t) => (none, t)

/-! ## Logs (R238) -/

/-- Free logs of the 1,024 (R235). -/
def State.logsFree (s : State) : Nat := 1024 - s.fl.logs.length

/-- A log bound to a logical block: the one it has, or a free one with a new superblock (R238). -/
def State.bindLog (s : State) (lb : Nat) : Option Nat × State :=
  match (s.lb lb).log with
  | some n => (some n, s)
  | none =>
    if s.logsFree = 0 then (none, s)
    else match s.newSb .log with
      | (none, s) => (none, s)
      | (some sb, s) =>
        let n := freeKey s.fl.logs
        let s := s.setLog n { lb := lb, sb := sb, lastAppend := s.now, groupStart := s.now }
        let s := s.setLb lb { s.lb lb with log := some n }
        (some n, s.raiseIf (2 * s.logsFree < s.get FTL.LOG_RESERVE) FTL.page FTL.evLOG_SHORT)

/-- Is a log IN_ORDER: slot k holds extent k, with no PAD and no ZERO (R238)? -/
def FlashLog.inOrder (l : FlashLog) : Bool :=
  !l.sawZero && (List.range l.slots.length).all fun k => l.slots.getD k none == some (l.lb * 6144 + k)

/-- An extent's data appended to a log's next slot: a group of 12 filled is issued (R238). -/
def State.appendSlot (s : State) (n e : Nat) : State :=
  match mget s.fl.logs n with
  | none => s
  | some l =>
    let k := l.slots.length
    let l := { l with slots := l.slots ++ [some e], lastAppend := s.now
                      groupStart := if k % 12 = 0 then s.now else l.groupStart }
    let s := s.setLog n l
    if l.slots.length % 12 = 0 then s.issueGroup l.sb (k / 12) 0 else s

/-- What a merge writes of a logical block from slot `first` on, where that is no header of an extent NONE (R234, R239): an
extent of flash, its bytes; the copy in flash of one that has a volatile home; ZERO. -/
def State.mergeSlots (s : State) (lb role first : Nat) : List SlotWrite :=
  (s.tier.ext.filter fun e => e.1 / 6144 == lb && first ≤ e.1 % 6144).filterMap fun e =>
    let st := if e.2.home == .zero then 1 else if e.2.home == .flash then 2 else s.flashState e.1
    let data := if e.2.home == .flash then s.extBytes e.1
      else if st == 2 then (match s.flashSlot e.1 with
        | some (sb, k) => mgetD ((mget s.fl.sbs sb).map (·.data) |>.getD []) k []
        | none => [])
      else []
    if st == 0 then none
    else some ⟨e.1 % 6144, { state := st, role := role, ext := e.1, domain := e.2.owner, epoch := s.ep.num }, data⟩

/-- A page written only to complete a group. -/
def padHdr (role epoch : Nat) : SlotHdr := { role := role, pad := true, epoch := epoch }

/-- What a slot of a log's group, or of a row of a fill, is programmed with: an extent, or PAD (R234). -/
def State.slotWrite (s : State) (role slot : Nat) : Option Nat → SlotWrite
  | some e => ⟨slot, { state := 2, role := role, ext := e, epoch := s.ep.num
                       domain := ((s.extent e).map fun x => x.owner).getD 0 }, s.extBytes e⟩
  | none => ⟨slot, padHdr role s.ep.num, []⟩

/-- Extents of a logical block in state ZERO. -/
def State.zeroCount (s : State) (lb : Nat) : Nat :=
  (s.tier.ext.filter fun e => e.1 / 6144 == lb && e.2.home == .zero).length

/-- ZEROS of a logical block brought up to date; a block all of whose extents are ZERO becomes LBT ZERO and gives up its
log, base and fill (R243). -/
def State.settleZeros (s : State) (lb : Nat) : State :=
  let x := s.lb lb
  let z := s.zeroCount lb
  if z == 6144 && !x.merging then
    let logSb := match x.log with
      | some n => (match mget s.fl.logs n with | some l => [l.sb] | none => [])
      | none => []
    let s := s.freeSbs (logSb ++ x.base.toList ++ x.slc)
    let s := match x.log with
      | some n => { s with fl := { s.fl with logs := mdel s.fl.logs n } }
      | none => s
    s.setLb lb { state := 1, zeros := z }
  else s.setLb lb { x with zeros := z }

/-- An extent's ZERO kept waiting, its placement with it (R240, R243). -/
def State.holdZero (s : State) (e : Nat) : State :=
  let lb := (lbOf e).1
  let s := if (s.lb lb).zeroWait.contains e then s
    else (s.inc TIR.PLACE_WAIT).setLb lb { s.lb lb with zeroWait := addTo (s.lb lb).zeroWait e }
  (s.raise FTL.page FTL.evZERO_WAIT).raise TIR.page TIR.evPLACE_WAIT_EVT

/-! ## Merges (R239, R240) -/

/-- The superblocks of a logical block: log, base and fill. -/
def State.lbSbs (s : State) (lb : Nat) : List Nat :=
  let x := s.lb lb
  (match x.log with
    | some n => (match mget s.fl.logs n with | some l => [l.sb] | none => [])
    | none => []) ++ x.base.toList ++ x.slc

/-- The slots that a merge writes of a logical block into its destination, from slot `first` on (R234, R239). -/
def State.writeMerge (s : State) (lb dest role first : Nat) : State :=
  let s := s.putSlots dest (s.mergeSlots lb role first)
  match mget s.fl.sbs dest with
  | none => s
  | some x => { s with fl := { s.fl with sbs := mput s.fl.sbs dest { x with merged := some ⟨lb, s.ep.num, first, role⟩ } } }

/-- The old superblocks freed, the log unbound, and BASE switched in one step (R239). -/
def State.switchBase (s : State) (lb dest : Nat) : State :=
  let x := s.lb lb
  let old := (s.lbSbs lb).filter (· != dest)
  let s := s.freeSbs old
  let s := match x.log with
    | some n => { s with fl := { s.fl with logs := mdel s.fl.logs n } }
    | none => s
  let s := match mget s.fl.sbs dest with
    | some sb => { s with fl := { s.fl with sbs := mput s.fl.sbs dest { sb with use := .data } } }
    | none => s
  s.setLb lb { state := 2, base := some dest, zeros := s.zeroCount lb, zeroWait := x.zeroWait }

/-- A switch merge: an IN_ORDER full log becomes BASE with no work (R239). -/
def State.switchMerge (s : State) (lb : Nat) : State :=
  match (s.lb lb).log with
  | none => s
  | some n => match mget s.fl.logs n with
    | none => s
    | some l => (s.switchBase lb l.sb).inc FTL.SWITCH_MERGES

/-- Does a superblock lie on a row with a failed die? -/
def State.sbClosed (s : State) (n : Nat) : Bool :=
  match mget s.fl.sbs n with
  | some x => (mgetD s.par.rows x.row []).any s.dieOut
  | none => false

/-- Is the lost list full (R260)? -/
def State.lostFull (s : State) : Bool := 65536 ≤ s.par.lost.length

/-- A superblock for a merge to write; with no open row the rebuild stalls (R261). -/
def State.mergeDest (s : State) : Option Nat × State :=
  match s.newSb .data with
  | (some d, s) => (some d, s)
  | (none, s) =>
    if s.par.rows.any fun e => s.rowTakes e.1 then (none, s)
    else (none, ({ s with par := { s.par with stall := true } }).raiseIf (!s.par.stall) PAR.page PAR.evREBUILD_STALL_EVT)

/-- May a merge of a logical block begin: none runs, the lost list is not full (R260), and no muster has begun (R240)? -/
def State.mayMerge (s : State) (lb : Nat) : Bool := !(s.lb lb).merging && !s.lostFull && !s.mus.stopped

/-- The kind of a merge's groups in the stripe journal: 3 where the block has a superblock on a closed row, else 1 (R259, R262). -/
def State.groupKind (s : State) (lb : Nat) : Nat := if (s.lbSbs lb).any s.sbClosed then 3 else 1

/-- A full merge of a logical block's superblocks into a new one, or a fold (R239, R244). Its groups are programmed one after the
other, so one of them is in the stripe journal as long as it runs (R262; log entry 70). -/
def State.startFull (s : State) (lb : Nat) (fold : Bool) : State :=
  let old := s.lbSbs lb
  if !s.mayMerge lb || old.isEmpty then s
  else match s.mergeDest with
    | (none, s) => s
    | (some d, s) =>
      (s.setLb lb { s.lb lb with merging := true, dest := some d, kind := if fold then 2 else 1 }).issueGroup d 0
        (s.groupKind lb)

/-- A merge of a logical block begun: switch at once, partial into the log's own superblock, or full into a new one
(R239). A full log IN_ORDER switches once its last group is programmed. -/
def State.startMerge (s : State) (lb : Nat) : State :=
  let x := s.lb lb
  if !s.mayMerge lb then s
  else
    match x.log.bind (mget s.fl.logs) with
    | some l =>
      if l.inOrder && l.slots.length == 6144 then (if l.programmed == 6144 then s.switchMerge lb else s)
      else if l.inOrder && x.slc.isEmpty then
        (s.setLb lb { x with merging := true, dest := some l.sb, kind := 0 }).issueGroup l.sb (ceilDiv l.slots.length 12)
          (s.groupKind lb)
      else s.startFull lb false
    | none => s.startFull lb false

/-- The log whose last append is oldest (R239). -/
def State.oldestLog (s : State) : Option Nat :=
  ((s.fl.logs.filter fun e => !(s.lb e.2.lb).merging).foldl (fun (a : Option (Nat × Nat)) e => match a with
    | none => some (e.2.lb, e.2.lastAppend)
    | some b => if e.2.lastAppend < b.2 then some (e.2.lb, e.2.lastAppend) else some b) none).map (·.1)

/-- A merge begun while LOGS_FREE is below LOG_RESERVE (R239). -/
def State.logPressure (s : State) : State :=
  if s.logsFree < s.get FTL.LOG_RESERVE then
    match s.oldestLog with
    | some lb => s.startMerge lb
    | none => s
  else s

/-! ## ZERO (R240, R243) -/

/-- ZERO recorded for an extent in the index of its block's log (R243): 0xFFFE. It waits while a merge of the block runs,
and while no log is free. -/
def State.logZero (s : State) (e : Nat) : State :=
  let (lb, k) := lbOf e
  if (s.lb lb).merging then s.holdZero e
  else match s.bindLog lb with
  | (none, s) => s.holdZero e
  | (some n, s) =>
    match mget s.fl.logs n with
    | none => s
    | some l => (s.setLog n { l with index := mput l.index k 0xFFFE, sawZero := true, lastAppend := s.now }).logPressure

/-- Every ZERO that waits recorded where it now can be: no merge of its block runs, and a log is bound or free (R243). -/
def State.retryZeros (s : State) : State :=
  (s.fl.lbt.filter fun e => !e.2.zeroWait.isEmpty && !e.2.merging).foldl (fun s x =>
    if x.2.log.isNone && s.logsFree == 0 then s
    else x.2.zeroWait.foldl (fun s e =>
      match s.extent e with
      | some y => if y.home == .zero then s.logZero e else s
      | none => s) (s.setLb x.1 { s.lb x.1 with zeroWait := [] })) s

/-- What waited for a merge of a logical block: its ZEROs, and a block all of whose extents are ZERO (R240, R243). -/
def State.afterMerge (s : State) (lb : Nat) : State := s.retryZeros.settleZeros lb

/-! ## The SLC pool (R244) -/

/-- SLC superblocks in use. -/
def State.slcUsed (s : State) : Nat := (s.fl.sbs.filter fun e => e.2.use == .slc).length

/-- S_T = min(floor(F ÷ 54), 65,536). -/
def State.slcTarget (s : State) : Nat := min (s.freeF / 54) 65536

/-- Queued TLC program work in microseconds: each group issued and not programmed is 49,152 bytes on a die of 180 MB/s
(log entry 11). -/
def State.tlcQueueUs (s : State) : Nat := 273 * ((s.par.journal ++ s.par.queued).filter fun e => e.kind == 0).length

/-- May a fill be opened for a logical block by a demotion of extent 0 (R244)? -/
def State.fillOpens (s : State) (lb k : Nat) : Bool :=
  let x := s.lb lb
  x.log.isNone && x.fill == 0 && x.slc.isEmpty && s.flag FTL.SLC_EN && k == 0 &&
    1000 * max 1 (s.get FTL.SLC_ENTER_MS) < s.tlcQueueUs && s.slcUsed + 3 ≤ s.slcTarget

/-- The oldest fill that may be folded: a logical block with SLC parts. -/
def State.oldestFill (s : State) : Option Nat :=
  ((s.fl.lbt.filter fun e => !e.2.slc.isEmpty && !e.2.merging).foldl (fun (a : Option (Nat × Nat)) e => match a with
    | none => some (e.1, e.2.fillAt)
    | some b => if e.2.fillAt < b.2 then some (e.1, e.2.fillAt) else some b) none).map (·.1)

/-- Folds that R244 asks for: while TLC work is short, or while the pool is over its target. -/
def State.foldPressure (s : State) : State :=
  let tooMany := s.slcTarget < s.slcUsed
  let s := s.raiseIf tooMany FTL.page FTL.evSLC_OVER
  if tooMany || 2 * s.tlcQueueUs < 1000 * max 1 (s.get FTL.SLC_ENTER_MS) then
    match s.oldestFill with
    | some lb => s.startFull lb true
    | none => s
  else s

/-! ## Failed dies, rebuild and reshape (R257, R259, R267, R268) -/

/-- The rebuild set: logical blocks with a superblock on a closed row; those with two failed dies in a row first (R259). -/
def State.rebuildSet (s : State) : List Nat :=
  let set := (s.fl.lbt.map (·.1)).filter fun lb => (s.lbSbs lb).any s.sbClosed
  let two (lb : Nat) : Bool := (s.lbSbs lb).any fun n => match mget s.fl.sbs n with
    | some x => 2 ≤ ((mgetD s.par.rows x.row []).filter s.dieOut).length
    | none => false
  set.filter two ++ set.filter fun lb => !two lb

/-- Is a rebuild running (R259)? One that has no open row to write to stalls (R261; log entry 73). -/
def State.rebuilding (s : State) : Bool := s.flag PAR.REBUILD_EN && !s.rebuildSet.isEmpty && !s.par.stall

/-- A rebuild begins or grows (R259): its line runs from what is left now. -/
def State.rebuildLine (s : State) : State :=
  ({ s with par := { s.par with rebuildStart := s.now, rebuildFrom := s.rebuildSet.length } }).raise PAR.page PAR.evREBUILD_START

/-- REBUILD_LEFT as it now stands: the rebuild is done when it reaches 0 (R259, R269). -/
def State.checkRebuild (s : State) : State :=
  let n := s.rebuildSet.length
  let was := s.par.rebuildLeft
  let s := { s with par := { s.par with rebuildLeft := n } }
  if n = 0 && was != 0 then ({ s with q := { s.q with refigure := true } }).raise PAR.page PAR.evREBUILD_DONE else s

/-- The next merges of the rebuild begun. -/
def State.stepRebuild (s : State) : State :=
  if s.flag PAR.REBUILD_EN then
    match s.rebuildSet.find? fun lb => !(s.lb lb).merging with
    | some lb => s.startFull lb false
    | none => s
  else s

/-- Old-row superblocks of a logical block during a reshape. -/
def State.onOldRow (s : State) (lb : Nat) : Bool :=
  (s.lbSbs lb).any fun n => match mget s.fl.sbs n with
    | some x => s.par.oldRows.contains x.row
    | none => false

/-- The reshape's walk: past blocks with nothing on old rows, to the next merge, or to its end (R268). -/
def State.stepReshape (s : State) : State :=
  if !s.par.reshaping || s.rebuilding then s
  else match (s.fl.lbt.map (·.1)).find? fun lb => s.par.reshapeLb ≤ lb && s.onOldRow lb with
    | some lb => ({ s with par := { s.par with reshapeLb := lb } }).startFull lb false
    | none =>
      let rows := s.par.rows.filter fun e => !s.par.oldRows.contains e.1
      (({ s with par := { s.par with rows := rows, oldRows := [], reshaping := false, reshapeLb := 0
                                     mergedBytes := 0, checkpoint := 0 } }).layoutRewrite).raise PAR.page PAR.evRESHAPE_DONE

/-- A die declared failed (R257): its rows close, it joins the failed-die list, and the rebuild starts or extends. -/
def State.failDie (s : State) (d : Nat) : State :=
  if s.dieFailed d then s
  else
    let was := s.rebuildSet.length
    let s := { s with
      par := { s.par with failed := s.par.failed ++ [d], cleared := s.par.cleared.filter (· != d)
                          maDegraded := s.par.maDegraded || s.fl.maRows.any (·.contains d) }
      q := { s.q with refigure := true } }
    let s := s.layoutAppend (.failed d)
    let s := s.setb (FCH.DIE_FAILED (dieChan d)) (d % 16) true
    let s := (s.raise PAR.page PAR.evDIE_FAILED_EVT).census 12 (d % 256)
    if !s.rebuilding then s.checkRebuild
    else (if was < s.rebuildSet.length then s.rebuildLine else s).checkRebuild.stepRebuild

/-- Sectors of an extent lost (R260): the lost list, its events, and the damage that R212 judges. -/
def State.loseSectors (s : State) (e mask : Nat) : State :=
  let old := mgetD s.par.lost e 0
  let fresh := popBelow 16 mask - popBelow 16 (Nat.land old mask)
  if fresh = 0 then s
  else if old == 0 && s.lostFull then (List.range fresh).foldl (fun s _ => s.census 7 (e % 256)) s.damage
  else
    let full := s.lostFull
    let s := { s.damage with par := { s.par with lost := mput s.par.lost e (Nat.lor old mask) } }
    let s := (List.range fresh).foldl (fun s _ => s.census 7 (e % 256)) s
    ((s.inc PAR.LOST_SECTORS fresh).raise PAR.page PAR.evSECTOR_LOST).raiseIf (!full && s.lostFull) PAR.page PAR.evLOST_FULL_EVT

/-- Is a sector lost, or its logical block cut off by a full lost list (R260)? -/
def State.sectorLost (s : State) (sec : Nat) : Bool :=
  bitOf (mgetD s.par.lost (sec / 16) 0) (sec % 16) ||
    (s.lostFull && (s.lbSbs (sec / 16 / 6144)).any s.sbClosed)

/-- The block number below which a die has `k` blocks that are not retired: the muster areas take the lowest of those (R245; log
entry 11). -/
def State.pastGood (s : State) (d k : Nat) : Nat :=
  let bad := sortBy (fun a b => a ≤ b) ((s.fl.retired.filter fun b => b / dieBlocks == d).map (· % dieBlocks))
  bad.foldl (fun m b => if b < m then m + 1 else m) k

/-- The capacity tier formatted (R232, R236, R245, R254). -/
def State.formatFlash (s : State) : State :=
  let n := s.populated
  let rows := layoutRows (s.goodDies.filter fun d => !s.par.cleared.contains d) (s.get PAR.SPREAD)
  let areas := 2 * s.get MUS.AREA_GIB * 8
  let count := rows.length
  let ma := (List.range count).foldl (fun (m : NMap Nat) r =>
      let k := areas / count + b2n (r < areas % count)
      (rows.getD r []).foldl (fun m d => mput m d (mgetD m d 0 + k)) m) []
  ({ s with
    fl := { s.fl with presLb := n * dieBlocks * 88 / 1800, lbt := [], sbs := [], logs := [], known := [], draining := []
                      maDie := mmap (fun d k => s.pastGood d k) ma, maBlocks := ma, maRows := rows, maGib := s.get MUS.AREA_GIB
                      patrolRead := 0, patrolTotal := 0, patrolStart := s.now, patrolAt := (0, 0, 0) }
    par := { s.par with
      rows := mofList ((List.range count).map fun i => (i, rows.getD i [])), oldRows := []
      reshaping := false, reshapeLb := 0, mergedBytes := 0, checkpoint := 0, stall := false
      maDegraded := false, lost := [], journal := [], queued := [], rebuildLeft := 0 }
    mus := { s.mus with formatted := true, erasing := s.mus.dirty, images := [] } }).layoutRewrite

end Sys2Proof.Machine
end

