-- ==== Sys2Proof/Machine/Tiers.lean ====
section
/-! DEFINITION. Home tiers (R173 to R187): books, the volatile-home ceiling, new homes, moves and demotion. -/

namespace Sys2Proof.Machine

/-! ## The ceiling (R184, R186) -/

/-- A volatile destination or home. -/
def Extent.volatiles (x : Extent) : Nat := (x.frames false).length + (x.frames true).length

/-- V in units of 64 KiB: staging SRAM, the reserved region, volatile homes and volatile destinations (R184). -/
def State.volUnits (s : State) : Nat := (48 + 512) * 16 + (s.tier.ext.map fun e => e.2.volatiles).sum

/-- MR in bytes per second (R186). -/
def State.musterRate (s : State) : Nat :=
  ((List.range 64).map fun c =>
    if s.flag (FCH.IN_SERVICE c) then min 2968750000 (500000000 * s.healthyDies c) else 0).sum

/-- VHC_MAX in GiB: floor((decl_j ÷ 480 − 0.15) × mr ÷ 2³⁰), 0 if negative (R186). -/
def State.vhcMax (s : State) : Nat :=
  (100 * s.get MUS.DECL_J - 7200) * s.musterRate / (48000 * 2 ^ 30)

/-- VHC in GiB (R186). -/
def State.vhc (s : State) : Nat := s.mus.vhc

/-- VHC takes the value VHC_MAX (R186). -/
def State.takeVhc (s : State) : State := { s with mus := { s.mus with vhc := min 65535 s.vhcMax } }

/-- VHC_EFF in GiB (R186), by AREA_GIB as the last format took it (R245). -/
def State.vhcEff (s : State) : Nat := min s.vhc (min s.vhcMax ((if s.fl.maGib = 0 then s.get MUS.AREA_GIB else s.fl.maGib) - 1))

/-- VHC_EFF in units of 64 KiB. -/
def State.vhcUnits (s : State) : Nat := s.vhcEff * 16384

/-- VHC_SHORT and DECL_LOW as they stand now, with their events when they come up (R184, R187); V's extremes for Census
(R371). -/
def State.checkVhc (s : State) : State :=
  let v := s.volUnits / 16384
  let s := { s with cen := { s.cen with vNow := v, vMin := min s.cen.vMin v, vMax := max s.cen.vMax v } }
  let short := s.vhcUnits < s.volUnits
  let s := s.raiseIf (short && !s.flag MUS.VHC_SHORT) MUS.page MUS.evVHC_SHORT_EVT
  let s := s.putb MUS.VHC_SHORT short
  s.raiseIf (s.vhcEff < 1) MUS.page MUS.evDECL_LOW

/-! ## Books (R182, R183) -/

/-- A tier of an extent's home or destination. -/
def Extent.inTier (x : Extent) (t : Tier) : Nat :=
  match t with
  | .hot => (x.frames false).length
  | .warm => (x.frames true).length
  | .flash => b2n (x.home == .flash) + b2n (x.move == some .flash)

/-- A domain's tier book, in extents (R182). -/
def State.book (s : State) (d : Nat) (t : Tier) : Nat :=
  ((s.tier.ext.filter fun e => e.2.owner == d).map fun e => e.2.inTier t).sum

/-- A domain's quota of a tier, in MiB. -/
def Domain.quota (d : Domain) : Tier → Nat
  | .hot => d.quotaHot
  | .warm => d.quotaWarm
  | .flash => d.quotaFlash

/-- Has a domain's tier book room for one extent more (R182)? -/
def State.bookRoom (s : State) (d : Nat) (t : Tier) : Bool :=
  let q := (s.domain d).quota t
  q == 0xFFFFFFFF || s.book d t + 1 ≤ 16 * q

/-- Owned extents of a domain, across all tiers (R183). -/
def State.owned (s : State) (d : Nat) : Nat :=
  (s.tier.ext.filter fun e => e.2.owner == d && e.2.home != .zero).length

/-- Would `n` more extents break the domain's total quota (R183)? -/
def State.quotaOver (s : State) (d n : Nat) : Bool :=
  let x := s.domain d
  x.quotaHot != 0xFFFFFFFF && x.quotaWarm != 0xFFFFFFFF && x.quotaFlash != 0xFFFFFFFF &&
    16 * (x.quotaHot + x.quotaWarm + x.quotaFlash) < s.owned d + n

/-! ## Where a home may go (R176, R187) -/

/-- Room below the ceiling for `extra` extents and one more: the reserve of 512 MiB is for R180 alone. -/
def State.ceilingRoom (s : State) (reserve : Bool) (extra : Nat) : Bool :=
  s.volUnits + extra + 1 + (if reserve then 0 else 512 * 16) ≤ s.vhcUnits

/-- The tier of a new volatile home, `true` for warm: the first whose book and free frames both have room (R176). -/
def State.homeTier (s : State) (pref d : Nat) (reserve : Bool) (extra : Nat) : Option Bool :=
  let ok (w : Bool) : Bool := s.bookRoom d (if w then .warm else .hot) &&
    (s.usedFrames w).length + extra < ((s.frameRuns w true).map (·.2)).sum
  if !s.ceilingRoom reserve extra then none
  else ((if pref = 1 then [false, true] else [true, false]).find? ok)

/-- The tiers that a promotion may go to, in order, `true` for warm (R176); by the reserve of R187 either. -/
def promoTiers (pref : Nat) (reserve : Bool) : List Bool :=
  if pref = 1 then [false, true] else if reserve then [true, false] else if pref = 3 then [] else [true]

/-- The tier of a promotion, `true` for warm (R176); `extra` frames below the ceiling are spoken for. -/
def State.promoTier (s : State) (pref d : Nat) (reserve : Bool) (extra : Nat) : Option Bool :=
  let ok (w : Bool) : Bool := s.bookRoom d (if w then .warm else .hot) && s.frameFree w
  if !s.ceilingRoom reserve extra then none else (promoTiers pref reserve).find? ok

/-- What stands in the way of a home or a destination in one of `tiers`, said by its event (R201): the ceiling, for a write that
it holds, or a tier book. -/
def State.sayFull (s : State) (d : Nat) (tiers : List Bool) (extra : Nat) (write : Bool) : State :=
  if !s.ceilingRoom false extra then s.raiseIf write TIR.page TIR.evCEILING
  else s.raiseIf (tiers.any fun w => !s.bookRoom d (if w then .warm else .hot)) TIR.page TIR.evQUOTA_FULL

/-- Where a frame of a tier is. -/
def homeAt (warm : Bool) (f : Nat) : Home := if warm then .warm f else .hot f

/-- A destination in a tier. -/
def destAt (warm : Bool) (f : Nat) : Dest := if warm then .warm f else .hot f

/-- LAST_USE of now: bits 39:16 of the epoch number (R174). -/
def State.useNow (s : State) : Nat := bitsOf s.ep.num 16 24

/-- A request touches an extent (R174). -/
def State.touch (s : State) (e : Nat) : State :=
  match s.extent e with
  | some x => s.setExtent e { x with lastUse := s.useNow }
  | none => s

/-- A placement waits (R180, R201). -/
def State.placeWait (s : State) : State := (s.inc TIR.PLACE_WAIT).raise TIR.page TIR.evPLACE_WAIT_EVT

/-- A frame of zeros given to an extent by a write (R175): its home, or `wait` while no frame can be had, or while the quota of the
domain, which is charged here (R167), has no room (R183, R187; log entry 64). -/
def State.giveHome (s : State) (e d pref : Nat) : State :=
  let old := s.extent e
  let wasZero : Bool := match old with
    | some x => x.home == .zero
    | none => false
  let (home, s) := match (if s.quotaOver d 1 then none else s.homeTier pref d false 0) with
    | none => (Home.wait, ((s.sayFull d [true, false] 0 true).raiseIf (s.quotaOver d 1) TIR.page TIR.evQUOTA_FULL).placeWait)
    | some w => match s.allocFrame w with
      | (some f, s) => (homeAt w f, s)
      | (none, s) => (Home.wait, s.placeWait)
  let s := { s with mem := Memory.clear s.mem (e * 65536) 65536, fl := { s.fl with known := s.fl.known.filter (· != e) } }
  let s := s.setExtent e { home := home, owner := d, lastUse := s.useNow, pref := pref, raw := true }
  if wasZero then s.settleZeros (e / 6144) else s

/-! ## Moves (R177 to R179) -/

/-- May a move begin? Moves abandon at step 1 of a muster, and none begins after it (R190). -/
def State.mayMove (s : State) : Bool := !s.mus.stopped

/-- A promotion of a FLASH extent begun, if R176 gives a destination; the event of R201 where it gives none. -/
def State.promote (s : State) (e pref : Nat) (reserve : Bool) (extra : Nat) (write : Bool) : Bool × State :=
  match s.extent e with
  | none => (false, s)
  | some x =>
    if !s.mayMove then (false, s)
    else match s.promoTier pref x.owner reserve extra with
    | none => (false, if reserve then s else s.sayFull x.owner (promoTiers pref false) extra write)
    | some w => match s.allocFrame w with
      | (none, s) => (false, s)
      | (some f, s) => (true, s.setExtent e { x with
          move := some (destAt w f), moveAt := s.now, moveEp := s.ep.num, pref := pref, got := 0, bad := 0 })

/-- The promotion of a FLASH extent that a committed write waits for (R180): by R176, else by the reserve of R187; where that is
exhausted the write waits for a demotion. -/
def State.promoteDue (s : State) (e : Nat) : State :=
  match s.extent e with
  | none => s
  | some x =>
    let s := s.setExtent e { x with due := true }
    match s.promote e x.pref false 0 false with
    | (true, s) => s
    | (false, s) => match s.promote e x.pref true 0 false with
      | (true, s) => s
      | (false, s) => s.raiseIf (!s.ceilingRoom true 0) TIR.page TIR.evRESERVE_EMPTY

/-- Does an extent hold poison of R301, which keeps it from being demoted? -/
def State.pinned (s : State) (e : Nat) : Bool := s.tier.untrusted.any fun sec => sec / 16 == e

/-- Has an extent a hot home? -/
def Extent.isHot (x : Extent) : Bool := match x.home with
  | .hot _ => true
  | _ => false

/-- A move between frames begun: to the other DRAM tier, or within one; not with the reserve of R187, and not a demotion of an
extent that holds poison of R301. -/
def State.moveFrame (s : State) (e : Nat) (warm : Bool) : Bool × State :=
  match s.extent e with
  | none => (false, s)
  | some x =>
    if !s.mayMove || x.move.isSome || x.home == .flash || x.home == .zero || x.home == .wait then (false, s)
    else if x.isHot && warm && s.pinned e then (false, s)
    else if !s.bookRoom x.owner (if warm then .warm else .hot) || !s.ceilingRoom false 0 then
      (false, s.sayFull x.owner [warm] 0 false)
    else match s.allocFrame warm with
      | (none, s) => (false, s)
      | (some f, s) => (true, s.setExtent e { x with move := some (destAt warm f), moveAt := s.now, moveEp := s.ep.num })

/-- A fill slot for extent `k` of a logical block (R244): the next of a running fill, or the first of a fill that opens. -/
def State.fillSlot (s : State) (lb k : Nat) : Bool × State :=
  let x := s.lb lb
  if !(s.fillOpens lb k || (!x.slc.isEmpty && x.fill == k && x.log.isNone && x.state != 3 && !x.fillOver)) then (false, s)
  else
    let (ok, s) := if k % 2048 == 0 then
        match s.newSb .slc with
        | (some sb, s) =>
          (true, s.setLb lb { s.lb lb with slc := x.slc ++ [sb], fillAt := if k = 0 then s.now else x.fillAt })
        | (none, s) => (false, s)
      else (true, s)
    if !ok then (false, s)
    else
      let x := s.lb lb
      let whole := k + 1 == 6144
      let s := if whole then s.freeSbs x.base.toList else s
      let s := s.setLb lb { x with fill := k + 1, state := if whole then 3 else x.state, base := if whole then none else x.base }
      (true, if k % 4 == 3 then s.issueGroup (x.slc.getD (k / 2048) 0) (k % 2048 / 4) 2 else s)

/-- A logical block's fill ended at its current count, its last row padded and programmed (R244, R262). -/
def State.endFill (s : State) (lb : Nat) : State :=
  let x := s.lb lb
  if x.slc.isEmpty || x.fillOver || x.state == 3 then s
  else
    let s := s.setLb lb { x with fillOver := true }
    if x.fill % 4 == 0 then s else s.issueGroup (x.slc.getD (x.fill / 2048) 0) (x.fill % 2048 / 4) 2

/-- A place in flash for an extent (R238, R244): in its block's fill, or the next slot of its log, with whether there is one. -/
def State.flashPlace (s : State) (e : Nat) : Bool × State :=
  let (lb, k) := lbOf e
  match s.fillSlot lb k with
  | (true, s) => (true, s)
  | (false, s) =>
  match (s.endFill lb).bindLog lb with
    | (none, s) => (false, s.logPressure)
    | (some n, s) =>
      if 6144 ≤ ((mget s.fl.logs n).map fun l => l.slots.length).getD 6144 then (false, s.startMerge lb)
      else (true, (s.appendSlot n e).logPressure)

/-- A demotion to flash begun (R181, R238, R240, R301): into the block's fill or its log. Not into a block whose merge
runs, and not of an extent that holds poison of R301. -/
def State.demote (s : State) (e : Nat) : Bool × State :=
  match s.extent e with
  | none => (false, s)
  | some x =>
    if !s.mayMove || x.move.isSome || x.home == .flash || x.home == .zero || x.home == .wait || (s.lb (lbOf e).1).merging ||
        s.pinned e then (false, s)
    else match s.flashPlace e with
      | (true, s) => (true, s.setExtent e { x with move := some .flash, moveAt := s.now, moveEp := s.ep.num })
      | (false, s) => (false, s)

/-- A move abandoned (R178): the destination is released and the source stays the home. -/
def State.abandonMove (s : State) (e : Nat) : State :=
  match s.extent e with
  | none => s
  | some x =>
    match x.move with
    | none => s
    | some d =>
      let s := s.setExtent e { x with move := none, moveAt := 0, moveEp := 0 }
      let s := if d == .flash then
          match (s.lb (e / 6144)).log with
          | some n => match mget s.fl.logs n with
            | some l => s.setLog n { l with slots := (List.range l.slots.length).map fun i =>
                if l.programmed ≤ i && l.slots.getD i none == some e then none else l.slots.getD i none }
            | none => s
          | none => s
        else s
      (s.inc TIR.ABANDONED).raise TIR.page TIR.evMOVE_ABANDON

/-- A running move's COMMIT: the home switches in one step (R178). The sectors of promoted pages that failed
authentication take their poison bits (R301). -/
def State.commitMove (s : State) (e : Nat) : State :=
  match s.extent e with
  | none => s
  | some x =>
    match x.move with
    | none => s
    | some d =>
      let home : Home := match d with
        | .hot f => .hot f
        | .warm f => .warm f
        | .flash => .flash
      let s := s.setExtent e { x with
        home := home, move := none, moveAt := 0, moveEp := 0, bad := 0, got := 0, due := false
        written := if x.home == .flash then 0 else x.written }
      -- R221: the copy read from a volatile home, and written to one
      let s := s.chargePort 16 (65536 * (b2n (x.home != .flash) + b2n (d != .flash)))
      let s := (onesBelow 4 x.bad).foldl (fun s p => (List.range 4).foldl (fun s j =>
        let sec := 16 * e + 4 * p + j
        ({ s with tier := { s.tier with untrusted := addTo s.tier.untrusted sec } }).poisonTold (s.memberOfSector sec)) s) s
      match x.home, d with
      | .flash, _ => s.inc TIR.PROMOTIONS
      | .hot _, .warm _ => s.inc TIR.DEMOTE_HOT_WARM
      | .warm _, .hot _ => s.inc TIR.PROMOTIONS
      | _, .flash => s.inc TIR.DEMOTE_FLASH
      | _, _ => s

/-! ## Demotion (R181, R184, R226) -/

/-- The extents that `p` picks among those without a move, oldest LAST_USE first. -/
def State.coldest (s : State) (p : Extent → Bool) : List Nat :=
  (sortBy (fun a b => a.2.lastUse < b.2.lastUse || (a.2.lastUse == b.2.lastUse && a.1 ≤ b.1))
    (s.tier.ext.filter fun e => e.2.move.isNone && p e.2)).map (·.1)

/-- The first `n` of a list that a move can be begun for. -/
def startMoves (f : State → Nat → Bool × State) : Nat → List Nat → State → State
  | _, [], s => s
  | 0, _, s => s
  | n + 1, e :: es, s => match f s e with
    | (true, s) => startMoves f n es s
    | (false, s) => startMoves f (n + 1) es s

/-- How many of `used` must go for it to fall below `pct` percent of `total`. -/
def shed (used total pct : Nat) : Nat := if used * 100 < pct * total then 0 else used - (pct * total + 99) / 100 + 1

/-- Extents on their way out of a tier. -/
def State.leaving (s : State) (p : Extent → Bool) : Nat := (s.tier.ext.filter fun e => e.2.move.isSome && p e.2).length

/-- Has an extent a warm home? -/
def Extent.isWarm (x : Extent) : Bool := match x.home with
  | .warm _ => true
  | _ => false

/-- Has an extent a volatile home? -/
def Extent.isVolatile (x : Extent) : Bool := match x.home with
  | .hot _ => true
  | .warm _ => true
  | _ => false

/-- Does a demotion run (R181): begun where `used` passes `hi` percent of `total`, until it falls below `lo` percent? -/
def runsOn (was : Bool) (used total hi lo : Nat) : Bool := hi * total < used * 100 || (was && lo * total ≤ used * 100)

/-- Hot to warm (R181). -/
def State.demoteHot (s : State) : State :=
  let total := s.tierFrames false
  let used := (s.usedFrames false).length
  let run := runsOn s.tier.hotRun used total (s.get TIR.HOT_HI_PCT) (s.get TIR.HOT_LO_PCT)
  let s := { s with tier := { s.tier with hotRun := run } }
  if run then
    startMoves (fun s e => s.moveFrame e true) (shed (used - s.leaving Extent.isHot) total (s.get TIR.HOT_LO_PCT))
      (s.coldest Extent.isHot) s
  else s

/-- Volatile to flash: warm extents first, then hot (R181); down to VHC_EFF in any case while V stands above it
(R184). -/
def State.demoteVolatile (s : State) : State :=
  let total := s.vhcUnits
  let run := s.flag TIR.DEMOTE_EN &&
    runsOn s.tier.volRun s.volUnits total (s.get TIR.VHC_HI_PCT) (s.get TIR.VHC_LO_PCT)
  let s := { s with tier := { s.tier with volRun := run } }
  let used := s.volUnits - s.leaving fun x => x.isVolatile && x.move == some .flash
  startMoves State.demote (if run then shed used total (s.get TIR.VHC_LO_PCT) else used - total)
    (s.coldest Extent.isWarm ++ s.coldest Extent.isHot) s

/-- TIER_PREF 3 extents whose sectors are all written, or that are no longer in use (R181). -/
def State.demotePref3 (s : State) : State :=
  ((s.tier.ext.filter fun e => e.2.isVolatile && e.2.move.isNone && e.2.pref == 3 &&
      (e.2.written == 0xFFFF || e.2.lastUse < s.useNow)).map (·.1)).foldl (fun s e => (s.demote e).2) s

/-- Frames moved off draining members (R226): to a frame of the same tier elsewhere, the other tier, or flash. -/
def State.drainMoves (s : State) : State :=
  ((s.tier.ext.filter fun e => e.2.isVolatile && e.2.move.isNone && (match e.2.home with
      | .hot f => s.draining (s.placeOf false f 0).1 ||
          (s.groupMembers false (f / (s.ways false * frameStride))).any s.draining
      | .warm f => (s.groupMembers true (f / (s.ways true * frameStride))).any s.draining
      | _ => false)).map (·.1)).foldl (fun s e =>
    let hot := match s.extent e with
      | some x => x.isHot
      | none => false
    match s.moveFrame e (!hot) with
    | (true, s) => s
    | (false, s) => match s.moveFrame e hot with
      | (true, s) => s
      | (false, s) => (s.demote e).2) s

/-- Extents that wait for a frame given one as soon as there is one, and promotions that committed writes wait for begun as soon
as there is room (R180). -/
def State.homeWaiting (s : State) : State :=
  let s := ((s.tier.ext.filter fun e => e.2.home == .wait).map (·.1)).foldl (fun s e =>
    match s.extent e with
    | none => s
    | some x => match (if s.quotaOver x.owner 0 then none else s.homeTier x.pref x.owner false 0) with
      | none => s
      | some w => match s.allocFrame w with
        | (some f, s) => s.setExtent e { x with home := homeAt w f }
        | (none, s) => s) s
  ((s.tier.ext.filter fun e => e.2.due && e.2.home == .flash && e.2.move.isNone).map (·.1)).foldl State.promoteDue s

/-- Extents whose frame is no longer one that data may use, because the reserved region has moved there, given another
(R215). -/
def State.resettle (s : State) : State :=
  let inside (w : Bool) (f : Nat) : Bool := (s.frameRuns w false).any fun r => r.1 ≤ f && f < r.1 + r.2
  let taken (w : Bool) (f : Nat) : Bool :=
    s.groupUp w (f / (s.ways w * frameStride)) && !inside w f
  ((s.tier.ext.filter fun e => match e.2.home with
      | .hot f => taken false f
      | .warm f => taken true f
      | _ => false).map (·.1)).foldl (fun s e =>
    match s.extent e with
    | none => s
    | some x =>
      let w := !x.isHot
      match s.allocFrame w with
      | (some f, s) => s.setExtent e { x with home := homeAt w f }
      | (none, s) => match s.allocFrame (!w) with
        | (some f, s) => s.setExtent e { x with home := homeAt (!w) f }
        | (none, s) => s) s

/-- DRAINED of a member: it holds no frame and no share of the reserved region (R226). -/
def State.drained (s : State) (m : Nat) : Bool :=
  let warm := 8 ≤ m
  !((s.usedFrames warm).any fun f => (s.groupMembers warm (f / (s.ways warm * frameStride))).contains m) &&
    s.reservedShare m == 0

/-- Has a running move used more than half its bound from START to COMMIT (R177): 200 µs, 20 ms, or 2 epochs, which run in epoch
numbers (R35)? -/
def State.moveLate (s : State) (x : Extent) : Bool :=
  if x.home == .flash then 100 * usCycles < s.now - x.moveAt
  else if x.move == some .flash then 10 * msCycles < s.now - x.moveAt
  else x.moveEp + 1 < s.ep.num

/-- Is the tier mover behind (R222)? -/
def State.moverBehind (s : State) : Bool := s.tier.ext.any fun e => e.2.move.isSome && s.moveLate e.2

/-- BEHIND of the background ports as a boundary finds it, with the events when one comes up (R222). -/
def State.judgeBehind (s : State) : State :=
  let scrub := s.passBehind s.scrubUnits s.mc.scrubbed s.mc.scrubStart scrubPeriod
  let patrol := s.passBehind s.fl.patrolTotal s.fl.patrolRead s.fl.patrolStart (s.get PTL.PERIOD_DAYS * 86400 * secCycles)
  let tell (s : State) (k : Nat) (b : Bool) : State :=
    (s.raiseIf (b && !s.flag (CEL.BEHIND k)) CEL.page CEL.evBEHIND_EVT).putb (CEL.BEHIND k) b
  let s := tell (tell s 16 s.moverBehind) 18 (scrub || patrol)
  (s.raiseIf (patrol && !s.flag PTL.BEHIND) PTL.page PTL.evBEHIND_EVT).putb PTL.BEHIND patrol

/-- The tier manager's work wherever occupancy has changed: waiting extents housed, demotion by R181 and R184, drains,
and the merges and folds that the logs and the pool ask for. -/
def State.manageTiers (s : State) : State :=
  let s := s.homeWaiting
  let s := if s.flag TIR.DEMOTE_EN then s.demoteHot.demotePref3 else s
  let s := s.demoteVolatile.drainMoves
  (s.retryZeros.foldPressure.stepRebuild.stepReshape).checkRebuild.checkVhc

end Sys2Proof.Machine
end

