-- ==== Sys2Proof/Machine/Place.lean ====
section
/-! DEFINITION. Ranges of gang addresses and what a committed command stores there: local homes (R175, R180, R183), what
goes to other members (R167), and DISCARD (R243). -/

namespace Sys2Proof.Machine

/-! ## Ranges -/

/-- Extents that `n` bytes from a device address on touch. -/
def extentsIn (da n : Nat) : List Nat :=
  if n = 0 then [] else (List.range ((da + n - 1) / 65536 - da / 65536 + 1)).map (da / 65536 + ·)

/-- Sectors that `n` bytes from a device address on touch. -/
def sectorsIn (da n : Nat) : List Nat :=
  if n = 0 then [] else (List.range ((da + n - 1) / 4096 - da / 4096 + 1)).map (da / 4096 + ·)

/-- Sectors that lie wholly inside the range. -/
def wholeSectors (da n : Nat) : List Nat :=
  (sectorsIn da n).filter fun x => da ≤ 4096 * x && 4096 * x + 4096 ≤ da + n

/-- Extents that lie wholly inside the range. -/
def wholeExtents (da n : Nat) : List Nat :=
  (extentsIn da n).filter fun x => da ≤ 65536 * x && 65536 * x + 65536 ≤ da + n

/-- The pieces of a gang range that this member homes: device address, bytes, offset in the range. -/
def State.localPieces (s : State) (ga n : Nat) : List (Nat × Nat × Nat) :=
  (gangPieces ga n).filterMap fun p =>
    if s.homeOf p.1 == s.gangPos then some (s.daOf p.1, p.2, p.1 - ga) else none

/-- The pieces that other members home: position, device address there, bytes, offset in the range. -/
def State.remotePieces (s : State) (ga n : Nat) : List (Nat × Nat × Nat × Nat) :=
  (gangPieces ga n).filterMap fun p =>
    if s.homeOf p.1 == s.gangPos then none else some (s.homeOf p.1, s.daOf p.1, p.2, p.1 - ga)

/-- Two byte ranges overlap. -/
def overlaps (a n b m : Nat) : Bool := a < b + m && b < a + n

/-- The drift link that leads to a gang position (R159). -/
def State.linkTo (s : State) (pos : Nat) : Nat := (pos + 7 - s.gangPos) % 4

/-! ## Homes -/

/-- An extent NONE or ZERO: a write gives it a new home (R175). -/
def State.needsHome (s : State) (e : Nat) : Bool :=
  match s.extent e with
  | none => true
  | some x => x.home == .zero

/-- Local extents of a gang range that a write gives a new home. -/
def State.newHomes (s : State) (ga n : Nat) : List Nat :=
  (s.localPieces ga n).flatMap fun p => (extentsIn p.1 p.2.1).filter s.needsHome

/-- A committed write meets an extent that is FLASH or moving (R180). -/
def State.readyHome (s : State) (e : Nat) : State :=
  match s.extent e with
  | none => s
  | some x =>
    if x.move == some .flash then s.abandonMove e
    else if x.home == .flash then
      let s := s.placeWait.setExtent e { x with due := true }
      if x.move.isSome then s else s.promoteDue e
    else if x.move.isSome then s.placeWait
    else s

/-- Sectors of an extent marked written (R181). -/
def State.markWritten (s : State) (sec : Nat) : State :=
  match s.extent (sec / 16) with
  | some x => s.setExtent (sec / 16) { x with written := setBit x.written (sec % 16) true }
  | none => s

/-- The memory port that a request's accesses take: that of the host port it came by, or that of repair (R221). -/
def Req.memPort (r : Req) : Nat := match r.ret with
  | some a => a.link.port.val
  | none => 19

/-- The frames of a range that hold nothing yet written with zeros (R175, R221). -/
def State.zeroFrames (s : State) (port da n : Nat) : State :=
  (extentsIn da n).foldl (fun s e => match s.extent e with
    | some x => if x.raw && x.isVolatile then (s.setExtent e { x with raw := false }).chargePort port 65536 else s
    | none => s) s

/-- A write reaches its homes here, through a memory port (R175, R209, R221). -/
def State.placeVia (s : State) (port ga n : Nat) : State :=
  (s.localPieces ga n).foldl (fun s p =>
    ((s.zeroFrames port p.1 p.2.1).maskedPart p.1 p.2.1).chargePort port p.2.1) s

/-- Bytes stored at a device address for a domain (R175, R180, R211). -/
def State.storeDa (s : State) (d pref da : Nat) (bs : List Byte) : State :=
  let s := (extentsIn da bs.length).foldl (fun s e =>
    ((if s.needsHome e then s.giveHome e d pref else s.readyHome e)).touch e) s
  let s := s.writeMem da bs
  let s := (wholeSectors da bs.length).foldl State.clearPoison s
  (sectorsIn da bs.length).foldl State.markWritten s

/-- Bytes that another member homes sent there in MEM_PLACE frames (R167, R170). -/
def State.sendPlace (s : State) (epoch pos da : Nat) (bs : List Byte) : State :=
  let ps := chunks 8192 bs
  (List.range ps.length).foldl (fun s i =>
    let k := mgetD s.gang.index epoch 0
    let s := { s with gang := { s.gang with index := mput s.gang.index epoch (k + 1) } }
    s.sendDrift (s.linkTo pos) 0x15 epoch
      (bytesBE 8 (da + 8192 * i) ++ bytesBE 8 epoch ++ bytesBE 4 k ++ bytesBE 4 0 ++ ps.getD i [])) s

/-- Does the order (epoch, position, index) come before another (R167)? -/
def orderBefore (a b : Nat × Nat × Nat) : Bool :=
  a.1 < b.1 || (a.1 == b.1 && (a.2.1 < b.2.1 || (a.2.1 == b.2.1 && a.2.2 < b.2.2)))

/-- A placed write of a gang's member (R167): bytes that a write later in the placement order has stored stay. -/
def State.storeOrdered (s : State) (o : Nat × Nat × Nat) (d pref da : Nat) (bs : List Byte) : State :=
  let later := s.gang.applied.filter fun e =>
    orderBefore o (e.1, e.2.1, e.2.2.1) && overlaps e.2.2.2.1 e.2.2.2.2 da bs.length
  let keep (a : Nat) : Bool := later.any fun e => e.2.2.2.1 ≤ a && a < e.2.2.2.1 + e.2.2.2.2
  let bs := if later.isEmpty then bs
    else (List.range bs.length).map fun i => if keep (da + i) then Memory.read s.mem (da + i) else bs.getD i 0
  let s := s.storeDa d pref da bs
  { s with gang := { s.gang with applied := s.gang.applied ++ [(o.1, o.2.1, o.2.2, da, bs.length)] } }

/-- The domain and the preference of the window that holds a device address here (log entry 46). -/
def State.windowOf (s : State) (da : Nat) : Nat × Nat :=
  let ga := s.gaOf da
  match s.win.win.find? fun e => e.2.state != .free && e.2.base ≤ ga && ga < e.2.base + e.2.length with
  | some (_, w) => (w.domain, w.tierPref)
  | none => (0, 0)

/-- The held writes of member `pos` up to epoch `n` stored through the drift-forwarding port, in their order, once no member that
they go to stands idle (R308); records of writes that nothing can precede any more, of this member's commits or another's, are
let go (R167). -/
def State.applyPlaces (s : State) (pos n : Nat) : State :=
  let due (e : Nat × Nat × Nat × Nat × List Byte) : Bool := e.1 == pos && e.2.1 ≤ n
  let ws := sortBy (fun (a b : Nat × Nat × Nat × Nat × List Byte) =>
    a.2.1 < b.2.1 || (a.2.1 == b.2.1 && a.2.2.1 ≤ b.2.2.1)) (s.gang.placing.filter due)
  if ws.any fun e => s.heldBack e.2.2.2.1 e.2.2.2.2.length then s
  else
    let s := { s with gang := { s.gang with placing := s.gang.placing.filter fun e => !due e } }
    let s := ws.foldl (fun s e =>
      let (d, pref) := s.windowOf e.2.2.2.1
      let (da, n) := (e.2.2.2.1, e.2.2.2.2.length)
      (((s.storeOrdered (e.2.1, e.1, e.2.2.1) d pref da e.2.2.2.2).zeroFrames 20 da n).maskedPart da n).chargePort 20 n) s
    let low := ((List.range s.gangN).filter (· != s.gangPos)).foldl (fun m p => min m (mgetD s.gang.placeEnd p 0)) s.cm.committed
    { s with gang := { s.gang with applied := s.gang.applied.filter fun e => low < e.1 } }

/-- Every member's held writes whose PLACE_END has come. -/
def State.applyDue (s : State) : State := s.gang.placeEnd.foldl (fun s e => s.applyPlaces e.1 e.2) s

/-- The next commit index of an epoch at this member. -/
def State.nextIndex (s : State) (n : Nat) : Nat × State :=
  let k := mgetD s.gang.index n 0
  (k, { s with gang := { s.gang with index := mput s.gang.index n (k + 1) } })

/-- Bytes stored at a gang address by a command of epoch `n`. -/
def State.storeGa (s : State) (n d pref ga : Nat) (bs : List Byte) : State :=
  let s := (s.localPieces ga bs.length).foldl (fun s p =>
    let part := (bs.drop p.2.2).take p.2.1
    if s.gangN == 1 then s.storeDa d pref p.1 part
    else
      let (k, s) := s.nextIndex n
      s.storeOrdered (n, s.gangPos, k) d pref p.1 part) s
  (s.remotePieces ga bs.length).foldl
    (fun s p => s.sendPlace n p.1 p.2.1 ((bs.drop p.2.2.2).take p.2.2.1)) s

/-! ## What a command comes to at commit -/

/-- The outcome of a command at commit: status, answer data, and what the commit record says it stored (R429). `place`:
answered once it is placed. `later`: its answer comes elsewhere. `hash`: the status in the commit record where it is not the
answer's, which is each twin's own (R350, R376). -/
structure Done where
  status : Nat := 0
  data : List Byte := []
  bytes : Nat := 0
  addr : Nat := 0
  crc : Nat := 0
  place : Bool := false
  later : Bool := false
  hash : Option Nat := none
  deriving DecidableEq, Repr

/-- A command that ends with a status and nothing else. -/
def ended (st : Nat) : Done := { status := st }

/-- What a command that stored bytes at a gang address records (R429). -/
def stored (ga : Nat) (bs data : List Byte) : Done :=
  { data := data, bytes := bs.length, addr := ga, crc := crc32 bs, place := true }

/-- WRITE and SECTOR WRITE at commit (R85, R87, R183). -/
def State.commitWrite (s : State) (n : Nat) (r : Req) : Done × State :=
  let w := s.window r.hdr.window.toNat
  let ga := w.base + r.hdr.offset.toNat
  if s.quotaOver w.domain (s.newHomes ga r.payload.length).length && !(s.newHomes ga r.payload.length).isEmpty then
    (ended 0x06, s)
  else (stored ga r.payload [], s.storeGa n w.domain w.tierPref ga r.payload)

/-- CAS8, CAS16 and FADD8 at commit (R86, R211): the integer of `k` bytes, least significant byte at the lowest
address. -/
def State.commitAtomic (s : State) (n : Nat) (r : Req) (k : Nat) (cells : List CellFault) : Done × State :=
  let w := s.window r.hdr.window.toNat
  let ga := w.base + r.hdr.offset.toNat
  let da := s.daOf ga
  let s := (s.readCells cells da k).chargePort r.memPort (if ((s.extent (extOf da)).map Extent.isVolatile).getD false then k else 0)
  let flashLost := s.sectorLost (secOf da) && (match s.extent (extOf da) with
    | some x => x.home == .flash
    | none => false)
  if (s.extent (extOf da)).isNone || s.poisoned (secOf da) then (ended 0x08, s)
  else if flashLost then (ended 0x09, s)
  else
    let old := natOfLE (s.readMem da k)
    let a := fieldBE r.payload 0 k
    let new := if r.op == 5 then some ((old + a) % 2 ^ 64)
      else if old == a then some (fieldBE r.payload k k) else none
    match new with
    | none => ({ data := bytesBE k old, place := true }, s.touch (extOf da))
    | some v =>
      let bs := bytesLE k v
      if s.quotaOver w.domain (s.newHomes ga k).length && !(s.newHomes ga k).isEmpty then
        (ended 0x06, s)
      else (stored ga bs (bytesBE k old), s.storeGa n w.domain w.tierPref ga bs)

/-- An extent that a DISCARD makes ZERO (R175, R243, R260). -/
def State.zeroExtent (s : State) (d e : Nat) : State :=
  let s := match s.extent e with
    | some x => if x.move.isSome then s.abandonMove e else s
    | none => s
  let s := s.setExtent e { home := .zero, owner := d, lastUse := s.useNow }
  let s := { s with mem := Memory.clear s.mem (e * 65536) 65536
                    tier := { s.tier with poison := s.tier.poison.filter (· / 16 != e)
                                          untrusted := s.tier.untrusted.filter (· / 16 != e) }
                    par := { s.par with lost := mdel s.par.lost e } }
  (s.logZero e).settleZeros (e / 6144)

/-- A DISCARD's ZERO extent in the placement order of a gang (R167): bytes that a write later in the order has stored already are
stored again, in a home of their own. -/
def State.zeroOrdered (s : State) (n d pref e : Nat) : State :=
  if s.gangN == 1 then s.zeroExtent d e
  else
    let (k, s) := s.nextIndex n
    let da := e * 65536
    let late := (s.gang.applied.filter fun w =>
        orderBefore (n, s.gangPos, k) (w.1, w.2.1, w.2.2.1) && overlaps w.2.2.2.1 w.2.2.2.2 da 65536).map fun w =>
      let lo := max da w.2.2.2.1
      (lo, s.readMem lo (min (da + 65536) (w.2.2.2.1 + w.2.2.2.2) - lo))
    let s := late.foldl (fun s w => s.storeDa d pref w.1 w.2) (s.zeroExtent d e)
    { s with gang := { s.gang with applied := s.gang.applied ++ [(n, s.gangPos, k, da, 65536)] } }

/-- DISCARD at commit (R243, R429). -/
def State.commitDiscard (s : State) (n : Nat) (r : Req) : Done × State :=
  let w := s.window r.hdr.window.toNat
  let ga := w.base + r.hdr.offset.toNat
  let es := ((s.localPieces ga r.hdr.count).flatMap fun p => wholeExtents p.1 p.2.1).filter fun e =>
    match s.extent e with
    | some x => x.home != .zero
    | none => true
  match es with
  | [] => ({ place := true }, s)
  | e :: _ =>
    ({ bytes := 65536 * es.length, addr := s.gaOf (e * 65536)
       crc := crc32 (List.replicate (65536 * es.length) 0), place := true },
     es.foldl (fun s e => s.zeroOrdered n w.domain w.tierPref e) s)

end Sys2Proof.Machine
end

