-- ==== Sys2Proof/Machine/Journals.lean ====
section
/-! DEFINITION. Accession journals (R270 to R283): records and their tags, APPEND, SEAL, clock steps, and the restart of
an ACCESSION queue. -/

namespace Sys2Proof.Machine

/-- A journal. -/
def State.jrn (s : State) (j : Nat) : Journal := mgetD s.acc.jrn j {}

/-- A journal written. -/
def State.setJrn (s : State) (j : Nat) (x : Journal) : State :=
  { s with acc := { s.acc with jrn := mset {} s.acc.jrn j x } }

/-- Assembly buffers held: one for each ACCESSION queue that is not FREE, and for one whose QUEUE CREATE has committed
(R272). -/
def State.asmUsed (s : State) : Nat :=
  (s.q.q.filter fun e => e.2.cls == 2 && (e.2.state != .free || e.2.activate)).length

/-- Data padded with zero bytes to a multiple of 64 (R273). -/
def padTo64 (bs : List Byte) : List Byte := bs ++ List.replicate (ceilDiv bs.length 64 * 64 - bs.length) 0

/-- The first 48 bytes of a record's header (R273). -/
def recordHdr (acc kind qid len epoch cal src key seq : Nat) : List Byte :=
  bytesLE 8 acc ++ [BitVec.ofNat 8 kind, 0] ++ bytesLE 2 qid ++ bytesLE 4 len ++ bytesLE 8 epoch ++ bytesLE 8 cal ++
    bytesLE 4 src ++ bytesLE 4 key ++ bytesLE 4 seq ++ bytesLE 4 0

/-- The tag of a record (R274), free where no key is loaded for it (log entry 12). -/
def State.recordTag (s : State) (x : Journal) (hdr data : List Byte) : List Byte × State :=
  match s.tagKey x.keyInst with
  | some key =>
    let nonce := nonceOf x.keyInst x.next
    let aad := x.lastTag ++ hdr ++ data
    (gcmTagOf key nonce aad [], s.channelMsg 18 data.length 1 (ctx := { inst := x.keyInst, nonce := nonce, aad := aad }))
  | none => let (v, s) := s.freeNat; (bytesLE 16 (v % 2 ^ 128), s)

/-- The bytes that a record of `len` data bytes takes. -/
def recordSize (len : Nat) : Nat := 64 + ceilDiv len 64 * 64

/-- A record appended to a bound journal by a command of epoch `n` (R273, R274): the stored bytes and their gang
address, for R429. -/
def State.appendRecord (s : State) (j n kind qid cal src seq : Nat) (data : List Byte) : List Byte × Nat × State :=
  let x := s.jrn j
  let hdr := recordHdr x.next kind qid data.length n cal src x.keyInst seq
  let (tag, s) := s.recordTag x hdr data
  let bs := hdr ++ tag ++ padTo64 data
  let w := s.window (x.window.getD 0)
  let ga := w.base + x.wp
  let s := s.storeGa n w.domain w.tierPref ga bs
  let s := s.setJrn j { x with
    next := x.next + 1, wp := x.wp + bs.length, lastTag := tag, full := x.full && kind != 1
    lastSeal := if kind == 2 then x.next else x.lastSeal, index := mput x.index x.next (x.wp, bs.length) }
  (bs, ga, s.inc ACC.RECORDS)

/-- A record that no request's placement brings, appended and placed (R209, R221; log entry 70). -/
def State.placeRecord (s : State) (port j n kind qid cal src seq : Nat) (data : List Byte) : State :=
  let (bs, ga, s) := s.appendRecord j n kind qid cal src seq data
  s.placeVia port ga bs.length

/-- The highest accession number that a queue has caused (R282). -/
def State.causedBy (s : State) (qid acc : Nat) : State := s.setQueue qid { s.queue qid with lastAcc := acc }

/-- APPEND at commit (R275 to R277); INVALID_FIELD where the window is not the journal's (log entry 13). -/
def State.commitAppend (s : State) (n : Nat) (r : Req) (cal : Nat) : Done × State :=
  let qid := r.hdr.qid.toNat
  let q := s.queue qid
  let j := q.journal
  let x := s.jrn j
  let off := r.hdr.offset.toNat % 65536
  let final := bitOf r.hdr.offset.toNat 16
  let got := q.buffer ++ r.payload
  if x.window != some r.hdr.window.toNat then (ended 0x02, s)
  else if (s.tagKey x.keyInst).isNone then (ended 0x0F, s)
  else if off != q.buffer.length || (q.buffer.isEmpty && off != 0) ||
      (q.bufSeq.isSome && q.bufSeq != some r.hdr.seq.toNat) then
    (ended 0x0E, (s.inc ACC.GAPS).raise ACC.page ACC.evGAP)
  else if !final then
    ({}, s.setQueue qid { q with buffer := got, bufSeq := some ((r.hdr.seq.toNat + 1) % 2 ^ 32), bufEpoch := n })
  else
    let w := s.window r.hdr.window.toNat
    let fits := x.wp + recordSize got.length + 4096 ≤ w.length
    if !fits then (ended 0x02, (s.setJrn j { x with full := true }).raise ACC.page ACC.evJOURNAL_FULL)
    else if s.quotaOver w.domain (s.newHomes (w.base + x.wp) (recordSize got.length)).length &&
        !(s.newHomes (w.base + x.wp) (recordSize got.length)).isEmpty then
      (ended 0x06, s)
    else
      let (bs, ga, s) := s.appendRecord j n 1 qid cal r.hdr.srcEp.toNat r.hdr.seq.toNat got
      let s := s.setQueue qid { s.queue qid with buffer := [], bufSeq := none }
      (stored ga bs (bytesBE 8 x.next ++ bytesBE 6 x.wp ++ [0, 0]), s.causedBy qid x.next)

/-- SEAL at commit (R276, R277, R279). -/
def State.commitSeal (s : State) (n : Nat) (r : Req) (cal : Nat) : Done × State :=
  let qid := r.hdr.qid.toNat
  let q := s.queue qid
  let j := q.journal
  let x := s.jrn j
  if x.window != some r.hdr.window.toNat then (ended 0x02, s)
  else if (s.tagKey x.keyInst).isNone then (ended 0x0F, s)
  else if !q.buffer.isEmpty then
    (ended 0x0E, (s.inc ACC.GAPS).raise ACC.page ACC.evGAP)
  else if (s.window r.hdr.window.toNat).length < x.wp + recordSize 16 then (ended 0x02, s)
  else
    let first := x.lastSeal + 1
    let (bs, ga, s) := s.appendRecord j n 2 qid cal r.hdr.srcEp.toNat r.hdr.seq.toNat
      (bytesLE 8 first ++ bytesLE 8 (x.next - 1))
    (stored ga bs (bytesBE 8 x.next ++ bytesBE 8 first), (s.causedBy qid x.next).inc ACC.SEALS)

/-- The bound journals, in ascending number. -/
def State.boundJournals (s : State) : List Nat := (s.acc.jrn.filter fun e => e.2.window.isSome).map (·.1)

/-- Does a record of journal `j` wait: for the privileged channels (R297), or for the mark of the journal's instance (R290)? -/
def State.tagWaits (s : State) (j : Nat) : Bool := s.chanWaits 18 || s.keyWaits (s.jrn j).keyInst

/-- CLOCK records for a step of the calendar between commits (R280, R277). -/
def State.clockRecords (s : State) (n old new : Nat) : State :=
  let s := s.boundJournals.foldl (fun s j =>
    let x := s.jrn j
    if (s.window (x.window.getD 0)).length < x.wp + recordSize 16 then
      (s.inc ACC.CLOCK_UNRECORDED).raise ACC.page ACC.evRESERVE_EXHAUSTED
    else (s.placeRecord 19 j n 3 0 new 0 0 (bytesLE 8 old ++ bytesLE 8 new)).inc ACC.CLOCK_RECORDS) s
  (s.raise ACC.page ACC.evCLOCK_STEP).stepCounted

/-- Is a change of calendar second between the commits of epochs `m` and `n` a clock step (R280)? -/
def clockStep (m n old new : Nat) : Bool := new < old || old + 1 + (n - m) / 80000 < new

/-- The RESTART record of a QUEUE RESTART whose SEQ is `seq` (R273, R282): the status, and the state after it. `lastAccepted` and
the queue's freeze are those of the command. -/
def State.restartRecord (s : State) (port n qid src seq lastAccepted cal : Nat) : Nat × State :=
  let q := s.queue qid
  let x := s.jrn q.journal
  if q.lastAcc < lastAccepted then (0x0E, (s.inc ACC.GAPS).raise ACC.page ACC.evGAP)
  else if x.window.isNone || (s.window (x.window.getD 0)).length < x.wp + recordSize 32 then (0x02, s)
  else
    let data := bytesLE 8 lastAccepted ++ bytesLE 8 q.lastAcc ++ bytesLE 4 q.freezeSeq ++
      [BitVec.ofNat 8 q.freezeStatus, 0, 0, 0] ++ bytesLE 4 q.buffer.length
    let acc := x.next
    let s := s.placeRecord port q.journal n 4 qid cal src seq data
    let s := s.setQueue qid { s.queue qid with buffer := [], bufSeq := none }
    (0, ((s.causedBy qid acc).inc ACC.RESTARTS).raise ACC.page ACC.evRESTART_REC)

/-- The range of a RECORD READ in its window (R281): offset and bytes, `none` where it ends with INVALID_FIELD. -/
def State.recordRange (s : State) (j first count limit : Nat) : Option (Nat × Nat) :=
  let x := s.jrn j
  match mget x.index first with
  | none => none
  | some (off, _) =>
    if count = 0 then none
    else
      let last := min (first + count - 1) (x.next - 1)
      match mget x.index last with
      | none => none
      | some (o, n) => some (off, min limit (o + n - off))

/-- The tag allowance at a boundary (R278): PC_COUNT × 100 Gb/s × period ÷ 8. -/
def State.tagGrant (s : State) : Int := Int.ofNat (s.get ACC.PC_COUNT * 12500000000 * s.periodP / (256 * secCycles))

end Sys2Proof.Machine
end

