-- ==== Sys2Proof/Machine/Queues.lean ====
section
/-! DEFINITION. Contracts and deliverable figures (R98 to R103), the queue commands (R109, R97, R76), and what the
read-only ADMIN commands answer (R104 to R106, R375). -/

namespace Sys2Proof.Machine

/-! ## Figures and SCALE (R101, R102) -/

/-- A figure while the device is throttled (R341). -/
def State.throttle (s : State) (x : Nat) : Nat := if s.pwr.throttled then x * s.get THM.THROTTLE_PCT / 100 else x

/-- L × P: the bytes that the host links with link up carry in a period (R101). -/
def State.linkBytes (s : State) : Nat := s.rateUp * s.periodP * 23437500000 / (256 * secCycles)

/-- The deliverable figures (R101): D_WR, D_RD, D_FL, D_REQ. -/
def State.figures (s : State) : Contract :=
  let c := ((List.range 64).filter fun c => s.flag (FCH.DIE_PRESENT c)).length
  { wr := s.throttle (min 25165824 (min s.linkBytes s.mc.gWr))
    rd := s.throttle (min s.linkBytes s.mc.gRd)
    fl := s.throttle (s.get QMG.FL_SHARE_PCT * c * 3600000000 * s.periodP * s.goodDies.length /
      (100 * 256 * secCycles * max 1 s.populated))
    reqs := s.throttle 126976 }

/-- Contracts added field by field. -/
def Contract.add (a b : Contract) : Contract :=
  { wr := a.wr + b.wr, rd := a.rd + b.rd, fl := a.fl + b.fl, reqs := a.reqs + b.reqs }

/-- The sums over ACTIVE and FROZEN queues (R102). -/
def State.sums (s : State) : Contract :=
  s.q.q.foldl (fun a e => if e.2.state == .active || e.2.state == .frozen then a.add e.2.ct else a) {}

/-- A ratio below 1 in place of a larger one. -/
def lessRatio (a : Nat × Nat) (d sum : Nat) : Nat × Nat :=
  if sum = 0 then a else if d * a.2 < a.1 * sum then (d, sum) else a

/-- SCALE as a ratio: min(1, D ÷ ΣCT) over the figures whose sum is not 0 (R102). -/
def scaleOf (d sum : Contract) : Nat × Nat :=
  lessRatio (lessRatio (lessRatio (lessRatio (1, 1) d.wr sum.wr) d.rd sum.rd) d.fl sum.fl) d.reqs sum.reqs

/-- SCALE as QMG.SCALE holds it. -/
def scaleWord (r : Nat × Nat) : Nat := 65536 * r.1 / r.2

/-- A contract change with the committed changes not yet in effect (R102): would it be refused at basic level? -/
def State.contractOver (s : State) (qid : Nat) (ct : Contract) : Bool :=
  let others := s.q.q.foldl (fun a e =>
    if e.1 != qid && (e.2.state == .active || e.2.state == .frozen || e.2.activate) then
      a.add (e.2.newCt.getD e.2.ct) else a) ct
  let new := scaleOf s.q.fig others
  let now := s.q.scaleIn
  new.1 < new.2 && new.1 * now.2 < now.1 * new.2

/-- The verdict on a contract (R102): refused, or the state that has taken note of an oversubscription. -/
def State.judgeContract (s : State) (qid : Nat) (ct : Contract) : Bool × State :=
  if !s.contractOver qid ct then (true, s)
  else if s.flag QMG.OVERSUB_EN then
    (true, ({ s with q := { s.q with oversub := true } }).raise QMG.page QMG.evOVERSUB_ACCEPT)
  else (false, s.raise QMG.page QMG.evCONTRACT_REFUSED)

/-- Does a contract follow R98 for its class? -/
def contractOk (cls : Nat) (ct : Contract) : Bool :=
  if cls == 0 then ct == {}
  else 1 ≤ ct.reqs && ct.reqs ≤ 131072 && (ct.rd == 0 || 65536 ≤ ct.fl)

/-- The grant of an allowance (R99). -/
def State.grant (s : State) (ct : Nat) : Nat := if ct = 0 then 0 else max 1 (ct * s.q.scale / 65536)

/-! ## Queue commands (R97, R109) -/

/-- May a queue act on domain `d` (R83)? -/
def Queue.mayUse (q : Queue) (d : Nat) : Bool := q.priv || q.domain == d

/-- The changes that a boundary brings to a queue: CREATE or RESTART, DELETE, a new contract (R76, R102). -/
def Queue.turn (q : Queue) : Queue :=
  let q := if q.activate then { q with state := .active, activate := false } else q
  let q := match q.newCt with
    | some c => { q with ct := c, newCt := none }
    | none => q
  if q.delEpoch.isSome && (q.state == .active || q.state == .frozen) then { q with state := .deleting } else q

/-- Is a queue one whose domain counts (R83): not FREE, or FREE with a QUEUE CREATE committed and not yet in effect? A queue
that is FREE altogether belongs to no domain (log entry 63). -/
def Queue.claimed (t : Queue) : Bool := t.state != .free || t.activate

/-- May a queue's command name queue `t` (R83)? -/
def Queue.mayName (q t : Queue) : Bool := q.priv || (t.claimed && q.domain == t.domain)

/-- What a queue shows of itself: zeros while it is FREE (R77). -/
def Queue.shown (t : Queue) : Queue := if t.state == .free then {} else t

/-- QUEUE CREATE (R109, R272). DESIGN CHOICE (log entry 71): an ADMIN queue's event page begins empty, and of
several faults reserved fields come first, then ACCESS_VIOLATION, INVALID_FIELD and ADMISSION_REFUSED. -/
def State.queueCreate (s : State) (r : Req) : Nat × State :=
  let p := r.payload
  let me := s.queue r.hdr.qid.toNat
  let qid := fieldBE p 0 2
  let cb := fieldBE p 2 1
  let cls := cb % 4
  let priv := bitOf cb 2
  let depth := fieldBE p 4 2
  let dom := fieldBE p 6 2
  let j := fieldBE p 36 2
  let ct : Contract := ⟨fieldBE p 20 4, fieldBE p 24 4, fieldBE p 28 4, fieldBE p 32 4⟩
  let old := s.queue qid
  let first := r.hdr.qid == 0
  let jrnOk : Bool := match (s.jrn j).window with
    | some w => (s.window w).worm && (s.window w).domain == dom
    | none => false
  if 32768 ≤ qid || 8 ≤ cb || cls == 3 || fieldBE p 3 1 != 0 || 4096 ≤ dom || 2 ^ 24 ≤ fieldBE p 8 4 || 1024 ≤ j ||
      fieldBE p 38 2 != 0 then (0x02, s)
  else if !me.mayUse dom then (0x03, s)
  else if old.state != .free || old.activate || (first && (cls != 0 || qid == 0 || 15 < qid)) ||
      (!first && (cls == 0 || qid < 16)) || (priv && !first) || depth == 0 || (if cls == 0 then 64 else 4096) < depth ||
      !contractOk cls ct || (cls != 2 && j != 0) || (s.domain dom).state != .active || (cls == 2 && !jrnOk) ||
      (cls == 2 && 2048 ≤ s.asmUsed) then (0x02, s)
  else match s.judgeContract qid ct with
    | (false, s) => (0x07, s)
    | (true, s) =>
      let init := fieldBE p 16 4
      let prior := (init + 2 ^ 32 - 1) % 2 ^ 32
      let s := if cls == 0 then { s with q := { s.q with pages := mdel s.q.pages qid } } else s
      (0, s.setQueue qid {
        cls := cls, priv := priv, depth := depth, srcEp := fieldBE p 8 4, domain := dom, journal := j
        key := fieldBE p 12 4, initSeq := init, floor := prior, ret := init, high := prior, ct := ct, activate := true })

/-- QUEUE DELETE (R109). -/
def State.queueDelete (s : State) (r : Req) (c : Nat) : Nat × State :=
  let p := r.payload
  let me := s.queue r.hdr.qid.toNat
  let qid := fieldBE p 0 2
  let t := s.queue qid
  if 32768 ≤ qid || fieldBE p 2 6 != 0 || qid == 0 || qid == r.hdr.qid.toNat then (0x02, s)
  else if !me.mayName t then (0x03, s)
  else if (r.hdr.qid == 0 && t.cls != 0) || (t.state != .active && t.state != .frozen) || t.delEpoch.isSome then (0x02, s)
  else (0, s.setQueue qid { t with delEpoch := some c })

/-- QUEUE RESTART of epoch `n` (R97, R282). -/
def State.queueRestart (s : State) (r : Req) (n cal : Nat) : Nat × State :=
  let p := r.payload
  let me := s.queue r.hdr.qid.toNat
  let qid := fieldBE p 0 2
  let t := s.queue qid
  let sq := fieldBE p 4 4
  if 32768 ≤ qid || fieldBE p 2 2 != 0 then (0x02, s)
  else if !me.mayName t then (0x03, s)
  else if t.state != .frozen || !precedes t.high sq then (0x02, s)
  else match s.restartRecord r.memPort n qid t.srcEp r.hdr.seq.toNat (fieldBE p 8 8) cal with
    | (0, s) =>
      let t := s.queue qid
      (0, s.setQueue qid { t with
        initSeq := sq, floor := (sq + 2 ^ 32 - 1) % 2 ^ 32, ret := sq, returned := [], activate := true })
    | (st, s) => (st, s)

/-- SET FEATURE (R106). Bytes of the value that R106 does not list are taken as reserved, and must be 0 (log entry 63). -/
def State.setFeature (s : State) (r : Req) : Nat × State :=
  let p := r.payload
  let me := s.queue r.hdr.qid.toNat
  let qid := fieldBE p 4 4
  let t := s.queue qid
  let ct : Contract := ⟨fieldBE p 8 4, fieldBE p 12 4, fieldBE p 16 4, fieldBE p 20 4⟩
  if fieldBE p 0 2 != 3 || fieldBE p 2 2 != 0 || fieldBE p 24 8 != 0 || 32768 ≤ qid then (0x02, s)
  else if !me.mayName t then (0x03, s)
  else if (t.state != .active && t.state != .frozen) || t.cls == 0 || !contractOk t.cls ct then (0x02, s)
  else match s.judgeContract qid ct with
    | (false, s) => (0x07, s)
    | (true, s) => (0, s.setQueue qid { s.queue qid with newCt := some ct })

/-! ## Read-only ADMIN commands -/

/-- VERSION of the image in a NOR bank, 0 where none begins there (R104, R358), read once no operation is in flight there (R352). -/
def State.fwVersion (s : State) (bank : Nat) : Nat :=
  let s := s.norStalled bank
  if s.norWord (bank * 2 ^ 24) == 0x4C4F4445 then natOfLE (s.norBytes (bank * 2 ^ 24 + 8) 8) else 0

/-- PERIOD_PS: the measured period in picoseconds. -/
def State.periodPs (s : State) : Nat := s.ep.period * 625 / 256

/-- IDENTIFY (R104). -/
def State.identify (s : State) : List Byte :=
  bytesBE 2 0x9640 ++ [0xB1, BitVec.ofNat 8
      (s.pwr.twinPos % 2 + 2 * s.strapPos + 8 * s.get GNG.SIZE + 32 * b2n s.alone)] ++
    bytesBE 2 (s.get GNG.DEV_ID) ++ bytesBE 2 (s.get GNG.TWIN_DEV_ID) ++ bytesBE 4 s.cm.claim ++ bytesBE 4 s.periodPs ++
    bytesBE 8 s.presBytes ++ bytesBE 8 ((s.tierFrames false + s.tierFrames true) * 65536) ++
    (List.range 4).flatMap (fun i => bytesLE 4 (s.get (SYS.SERIAL i))) ++
    bytesBE 8 (s.fwVersion s.cur.active) ++ bytesBE 8 (s.fwVersion (1 - s.cur.active)) ++
    bytesBE 4 8192 ++ bytesBE 4 1048576 ++ bytesBE 2 32 ++ bytesBE 2 24 ++ bytesBE 4 131072 ++ bytesBE 2 32768 ++
    bytesBE 2 4096 ++ bytesBE 2 4096 ++ bytesBE 2 1024 ++ bytesBE 4 262144 ++ bytesBE 4 4096 ++ bytesBE 4 65536 ++
    List.replicate 3996 (0 : Byte)

/-- The QUEUE_ERROR page (R105). -/
def State.logQueueError (s : State) (n : Nat) : List Byte :=
  let q := (s.queue n).shown
  bytesBE 2 n ++ [BitVec.ofNat 8 q.state.code, BitVec.ofNat 8 q.freezeStatus] ++ bytesBE 4 q.freezeSeq ++
    bytesBE 4 q.high ++ bytesBE 4 0 ++ bytesBE 8 q.freezeEpoch ++ bytesBE 8 q.lastAcc

/-- The EVENTS page of an ADMIN queue (R105). -/
def State.logEvents (s : State) (n : Nat) : List Byte :=
  let pg := mgetD s.q.pages n {}
  bytesBE 8 pg.next ++ bytesBE 8 pg.lost ++ List.replicate 16 (0 : Byte) ++
    (List.range 256).flatMap fun k =>
      match pg.events.find? fun e => e.num % 256 == k with
      | some e => bytesBE 8 e.num ++ bytesBE 8 e.epoch ++ bytesBE 2 e.typ ++ bytesBE 2 e.qid ++ bytesBE 4 0 ++
          bytesBE 8 e.detail
      | none => List.replicate 32 (0 : Byte)

/-- The bank that the next boot takes: the bank-select record's, else the active one. -/
def State.nextBank (s : State) : Nat :=
  match s.bankSelect with
  | some b => b2n b
  | none => s.cur.active

/-- The FIRMWARE page (R105). -/
def State.logFirmware (s : State) : List Byte :=
  [BitVec.ofNat 8 s.cur.active, BitVec.ofNat 8 s.nextBank, 0, 0] ++ bytesBE 4 s.cur.dlBytes ++
    bytesBE 8 (s.fwVersion 0) ++ bytesBE 8 (s.fwVersion 1) ++ List.replicate 40 (0 : Byte)

/-- The CONTRACTS page (R105). -/
def State.logContracts (s : State) : List Byte :=
  let d := s.q.fig
  let c := s.sums
  bytesBE 4 d.wr ++ bytesBE 4 d.rd ++ bytesBE 4 d.fl ++ bytesBE 4 d.reqs ++ bytesBE 8 c.wr ++ bytesBE 8 c.rd ++
    bytesBE 8 c.fl ++ bytesBE 8 c.reqs ++ bytesBE 4 s.q.scale ++ [BitVec.ofNat 8 (b2n s.q.oversub)] ++
    List.replicate 11 (0 : Byte)

/-- GET LOG PAGE (R105): status and data. -/
def State.logPage (s : State) (r : Req) : Nat × List Byte :=
  let p := r.payload
  let me := s.queue r.hdr.qid.toNat
  let id := fieldBE p 0 1
  let param := fieldBE p 2 2
  if fieldBE p 1 1 != 0 || fieldBE p 4 4 != 0 then (0x02, [])
  else
    let page : Option (List Byte) :=
      if id == 1 then (if param < 32768 then some (s.logQueueError param) else none)
      else if id == 2 then (if param < 16 then some (s.logEvents param) else none)
      else if id == 3 then (if param == 0 then some s.logFirmware else none)
      else if id == 4 then (if param == 0 then some s.logContracts else none)
      else none
    match page with
    | none => (0x02, [])
    | some bs =>
      if id == 1 && !me.mayName (s.queue param) then (0x03, [])
      else if bs.length < r.hdr.offset.toNat + r.hdr.count then (0x02, [])
      else (0, slice bs r.hdr.offset.toNat r.hdr.count)

/-- GET FEATURE (R106): status and data. Value bytes of the payload that R106 does not list are not looked at (log entry
63). DESIGN CHOICE (log entry 71): STATE at offset 8 of EPOCH_PERIOD takes 4 bytes. -/
def State.getFeature (s : State) (r : Req) : Nat × List Byte :=
  let p := r.payload
  let me := s.queue r.hdr.qid.toNat
  let id := fieldBE p 0 2
  let qid := fieldBE p 4 4
  let pad (bs : List Byte) : List Byte := bytesBE 2 id ++ [0, 0] ++ bs ++ List.replicate (28 - bs.length) 0
  if fieldBE p 2 2 != 0 then (0x02, [])
  else if id == 1 then (0, pad (bytesBE 4 s.periodPs ++ bytesBE 4 s.ep.state.code))
  else if id == 2 then
    let d := s.q.fig
    (0, pad (bytesBE 4 d.wr ++ bytesBE 4 d.rd ++ bytesBE 4 d.fl ++ bytesBE 4 d.reqs ++ bytesBE 4 s.q.scale ++
      [BitVec.ofNat 8 (b2n s.q.oversub)]))
  else if id == 3 then
    let t := s.queue qid
    let ct := t.shown.ct
    if 32768 ≤ qid then (0x02, [])
    else if !me.mayName t then (0x03, [])
    else (0, pad (bytesBE 4 qid ++ bytesBE 4 ct.wr ++ bytesBE 4 ct.rd ++ bytesBE 4 ct.fl ++ bytesBE 4 ct.reqs))
  else (0x02, [])

/-- CENSUS READ (R375): status and data. -/
def State.censusRead (s : State) (r : Req) : Nat × List Byte :=
  let first := fieldBE r.payload 0 4
  let n := fieldBE r.payload 4 2
  if fieldBE r.payload 6 2 != 0 || s.cen.nextSlot ≤ first || n == 0 || 4096 < n then (0x02, [])
  else (0, (s.norStalled 3).norBytes (censusAddr first) (256 * min n (s.cen.nextSlot - first)))

end Sys2Proof.Machine
end

