-- ==== Sys2Proof/Machine/Windows.lean ====
section
/-! DEFINITION. Protection domains and windows (R111 to R128): DOMAIN MANAGE and WINDOW MANAGE, revocation, step 11,
violation reports and the window lookaside buffers. -/

namespace Sys2Proof.Machine

/-! ## Domains (R112) -/

/-- The answer to a DOMAIN MANAGE: the descriptor after the action (R112). -/
def State.domAnswer (s : State) (p : List Byte) (d : Nat) : List Byte :=
  let x := s.domain d
  p.take 4 ++ bytesBE 4 (s.domQueues d) ++ bytesBE 4 (s.domWindows d) ++ bytesBE 4 x.quotaHot ++
    bytesBE 4 x.quotaWarm ++ bytesBE 4 x.quotaFlash ++ [BitVec.ofNat 8 x.state.code] ++ List.replicate 7 (0 : Byte)

/-- A domain's change at the boundary (R112). -/
def Domain.turn (x : Domain) : Domain :=
  match x.state with
  | .opening => { x with state := .active }
  | .ending => {}
  | _ => x

/-- What a DOMAIN MANAGE that is not refused changes (R112): CREATE and DELETE take effect at the boundary. -/
def State.domainEffect (s : State) (p : List Byte) : State :=
  let act := fieldBE p 0 1
  let d := fieldBE p 1 3
  let x := s.domain d
  let quotas (x : Domain) : Domain :=
    { x with quotaHot := fieldBE p 12 4, quotaWarm := fieldBE p 16 4, quotaFlash := fieldBE p 20 4 }
  if act == 0 then s.setDomain d (quotas { state := .opening })
  else if act == 1 then s.setDomain d { x with state := .ending }
  else if act == 2 then s.setDomain d (quotas x)
  else s

/-- DOMAIN MANAGE at its commit (R112): status and answer. -/
def State.domainManage (s : State) (p : List Byte) : (Nat × List Byte) × State :=
  let act := fieldBE p 0 1
  let d := fieldBE p 1 3
  let x := s.domain d
  if 4 ≤ act || 4096 ≤ d || !allZero (slice p 4 8) || !allZero (slice p 24 8) ||
      ((act == 1 || act == 3) && !allZero (slice p 12 12)) then ((0x02, []), s)
  else
    let refused : Bool :=
      if act == 0 then x.state != .free
      else if act == 1 then d == 0 || x.state != .active || s.domQueues d != 0 || s.domWindows d != 0
      else act == 2 && x.state != .active
    if refused then ((0x02, []), s)
    else
      let t := s.domainEffect p
      ((0, t.domAnswer p d), t)

/-! ## Windows (R113 to R118) -/

/-- What a window admits in an epoch: `none` where nothing is in force. -/
def Window.grantAt (w : Window) (n : Nat) : Option Grant :=
  match w.hist.find? fun e => e.1 ≤ n with
  | some e => e.2
  | none => none

/-- Has a retention passed at a calendar second (R123)? -/
def retainPassed (retain cal : Nat) : Bool := retain == 0 || retain < cal

/-- A window's history with what is in force from epoch `n` on. -/
def Window.from (w : Window) (n : Nat) (g : Option Grant) : List (Nat × Option Grant) :=
  (n, g) :: w.hist.filter fun e => e.1 != n

/-- The answer to a WINDOW MANAGE: the payload's layout with the descriptor's values (R115). -/
def windowAnswer (act win : Nat) (w : Window) (effect : Nat) : List Byte :=
  [BitVec.ofNat 8 act, BitVec.ofNat 8 w.cur.gen, 0, 0] ++ bytesBE 4 win ++ bytesBE 8 w.base ++ bytesBE 8 w.length ++
    bytesBE 4 w.cur.key ++ bytesBE 4 w.policy ++ [BitVec.ofNat 8 w.cur.rights] ++ List.replicate 7 (0 : Byte) ++
    bytesBE 8 w.retain ++ bytesBE 8 effect

/-- Does a window hold the write or atomic right, in force or pending before its fence (R116)? DESIGN CHOICE (log entry 71): the
rights of an OPENING window count. -/
def Window.mayWrite (w : Window) (now : Nat) : Bool :=
  let p := if w.state == .revoking && now < w.fence then w.pendRights else 0
  bitOf w.cur.rights 1 || bitOf w.cur.rights 2 || bitOf p 1 || bitOf p 2

/-- The WORM conditions of R116 for rights over a range, other than those of window `n` itself. -/
def State.wormBad (s : State) (n base len : Nat) (worm : Bool) (rights : Nat) : Bool :=
  let wr := bitOf rights 1 || bitOf rights 2
  (worm && wr) || s.win.win.any fun e =>
    e.1 != n && e.2.state != .free && overlaps base len e.2.base e.2.length &&
      ((wr && e.2.worm) || (worm && e.2.mayWrite s.ep.num))

/-- The journal bound to a window that has one, from the boundary at which its OPEN takes effect (R270). -/
def State.bindJournal (s : State) (n : Nat) (w : Window) : State :=
  if w.journalEn then s.setJrn w.journal { s.jrn w.journal with window := some n, wp := 0, index := [] } else s

/-- A window's change at a boundary (R117, R118): what committed before it comes into effect. DESIGN CHOICE (log entry 71): a
CLOSING window past its fence shows RIGHTS 0 and keeps GEN and KEY. -/
def State.turnWindow (s : State) (n : Nat) : State :=
  let w := s.window n
  let w := match w.modify with
    | some (t, r) => { w with tierPref := t, retain := r, modify := none, cur := { w.cur with retain := r } }
    | none => w
  match w.state with
  | .opening =>
    ((s.setWindow n { w with state := .open }).bindJournal n w).raise WIN.page WIN.evWINDOW_IN_FORCE
  | .open => s.setWindow n w
  | .revoking =>
    (s.setWindow n { w with
      fenced := true
      cur := { w.cur with gen := (w.cur.gen + 1) % 256, key := w.pendKey, rights := w.pendRights } }).raise
        WIN.page WIN.evFENCE
  | .closing =>
    (s.setWindow n { w with fenced := true, cur := { w.cur with rights := 0 } }).raise WIN.page WIN.evFENCE
  | .free => s

/-- Is journal `j` bound, or named by a window on its way to it (R270)? -/
def State.journalTaken (s : State) (j : Nat) : Bool :=
  s.win.win.any fun e => e.2.state != .free && e.2.journalEn && e.2.journal == j

/-- The fields of a WINDOW MANAGE payload (R115). -/
structure WinReq where
  act : Nat
  gen : Nat
  win : Nat
  base : Nat
  length : Nat
  key : Nat
  policy : Nat
  rights : Nat
  retain : Nat
  deriving DecidableEq, Repr

/-- A WINDOW MANAGE payload read; `none` where a reserved field or encoding is not 0 (R9, R115). -/
def parseWin (p : List Byte) : Option WinReq :=
  let pol := fieldBE p 28 4
  if 5 ≤ fieldBE p 0 1 || fieldBE p 2 2 != 0 || 2 ^ 18 ≤ fieldBE p 4 4 || 2 ^ 50 ≤ fieldBE p 8 8 || 2 ^ 50 ≤ fieldBE p 16 8 ||
      bitsOf pol 16 2 != 0 || bitsOf pol 19 1 != 0 || bitsOf pol 30 2 != 0 || 16 ≤ fieldBE p 32 1 ||
      !allZero (slice p 33 7) || 2 ^ 40 ≤ fieldBE p 40 8 || fieldBE p 48 8 != 0 then none
  else some ⟨fieldBE p 0 1, fieldBE p 1 1, fieldBE p 4 4, fieldBE p 8 8, fieldBE p 16 8, fieldBE p 24 4, pol,
    fieldBE p 32 1, fieldBE p 40 8⟩

/-- May a queue issue a WINDOW MANAGE (R83): of the domain that an OPEN names, or of the window's, which is not FREE? -/
def State.mayManage (s : State) (me : Queue) (q : WinReq) : Bool :=
  if q.act == 0 then me.mayUse (bitsOf q.policy 0 12)
  else me.priv || ((s.window q.win).state != .free && me.mayUse (s.window q.win).domain)

/-- Is a field of an action that does not use it 0 or its current value (R115)? -/
def same (v cur : Nat) : Bool := v == 0 || v == cur

/-- Do the fields of a policy word carry 0 or their current values, each for itself (R115, R116)? TIER_PREF is judged where the
action does not use it. -/
def policySame (v : Nat) (w : Window) (modify : Bool) : Bool :=
  same (bitsOf v 0 12) w.domain && same (bitsOf v 14 1) (b2n w.duplex) && same (bitsOf v 15 1) (b2n w.worm) &&
    same (bitsOf v 18 1) (b2n w.journalEn) && same (bitsOf v 20 10) w.journal && (modify || same (bitsOf v 12 2) w.tierPref)

/-- Is an OPEN refused (R116, R270)? -/
def State.openRefused (s : State) (q : WinReq) : Bool :=
  let worm := bitOf q.policy 15
  let jen := bitOf q.policy 18
  (s.window q.win).state != .free || q.gen != 0 || (s.domain (bitsOf q.policy 0 12)).state != .active ||
    q.base % 4096 != 0 || q.length == 0 || q.length % 4096 != 0 || s.spanGib * 2 ^ 30 < q.base + q.length ||
    (bitOf q.policy 14 && !s.flag WIN.SINGLE_EN) || (jen && !worm) || s.wormBad q.win q.base q.length worm q.rights ||
    (jen && s.journalTaken (bitsOf q.policy 20 10))

/-- What an OPEN committed in epoch `c` sets (R117): a window OPENING, in force from C + 1. FENCE_EPOCH stays (R113). DESIGN
CHOICE (log entry 71): a window opens with generation 0. -/
def State.openEffect (s : State) (q : WinReq) (c : Nat) : State :=
  let g : Grant := { gen := 0, key := q.key, rights := q.rights, retain := q.retain }
  s.setWindow q.win {
    state := .opening, cur := g, base := q.base, length := q.length, domain := bitsOf q.policy 0 12
    tierPref := bitsOf q.policy 12 2, duplex := bitOf q.policy 14, worm := bitOf q.policy 15
    homeHint := q.base / 2 ^ 30 % s.gangN, journalEn := bitOf q.policy 18, journal := bitsOf q.policy 20 10
    retain := q.retain, effect := c + 1, fence := (s.window q.win).fence, hist := [(c + 1, some g)] }

/-- Is a MODIFY refused (R116)? -/
def State.modifyRefused (s : State) (q : WinReq) : Bool :=
  let w := s.window q.win
  w.state != .open || q.gen != w.cur.gen || !same q.base w.base || !same q.length w.length || !same q.key w.cur.key ||
    !policySame q.policy w true || !same q.rights w.cur.rights || q.retain < w.retain

/-- What a MODIFY committed in epoch `c` sets (R117): TIER_PREF and RETAIN_UNTIL from C + 1. -/
def State.modifyEffect (s : State) (q : WinReq) (c : Nat) : State :=
  let w := s.window q.win
  s.setWindow q.win { w with
    modify := some (bitsOf q.policy 12 2, q.retain), effect := c + 1
    hist := w.from (c + 1) (some { w.cur with retain := q.retain }) }

/-- Is a REVOKE (`close` false) or a CLOSE refused (R116)? -/
def State.fenceRefused (s : State) (q : WinReq) (close : Bool) (cal : Nat) : Bool :=
  let w := s.window q.win
  w.state != .open || q.gen != w.cur.gen || !same q.base w.base || !same q.length w.length ||
    !policySame q.policy w false || !same q.retain w.retain ||
    (close && (!same q.key w.cur.key || !same q.rights w.cur.rights)) ||
    (!close && (q.key == w.cur.key || s.wormBad q.win w.base w.length w.worm q.rights)) ||
    (close && w.worm && !retainPassed w.retain cal)

/-- What a REVOKE or CLOSE committed in epoch `c` sets (R118): the fence epoch C + 1, and what is in force from then on. `ref`
is the request to be answered later. -/
def State.fenceEffect (s : State) (q : WinReq) (close : Bool) (c : Nat) (ref : Option Req) : State :=
  let w := s.window q.win
  let retain := match w.modify with
    | some (_, r) => r
    | none => w.retain
  let g : Option Grant := if close then none
    else some { gen := (w.cur.gen + 1) % 256, key := q.key, rights := q.rights, retain := retain }
  s.setWindow q.win { w with
    state := if close then .closing else .revoking, pendKey := if close then w.pendKey else q.key
    pendRights := if close then 0 else q.rights, fence := c + 1, fenced := false, hist := w.from (c + 1) g, answer := ref }

/-- WINDOW MANAGE committed in epoch `c` (R115): status, answer data (none while the answer comes later), state. -/
def State.windowManage (s : State) (q : WinReq) (c cal : Nat) (ref : Option Req) : (Nat × Option (List Byte)) × State :=
  let no : (Nat × Option (List Byte)) × State := ((0x02, some []), s)
  match q.act with
  | 0 =>
    if s.openRefused q then no
    else
      let t := s.openEffect q c
      ((0, some (windowAnswer 0 q.win (t.window q.win) (c + 1))), t)
  | 1 => if s.fenceRefused q false cal then no else ((0, none), s.fenceEffect q false c ref)
  | 2 =>
    if s.modifyRefused q then no
    else
      let w := { s.window q.win with tierPref := bitsOf q.policy 12 2, retain := q.retain }
      ((0, some (windowAnswer 2 q.win w (c + 1))), s.modifyEffect q c)
  | 3 =>
    let w := s.window q.win
    let kept := w.state == .open && q.gen == w.cur.gen && w.worm && !retainPassed w.retain cal
    if s.fenceRefused q true cal then (no.1, s.raiseIf kept WIN.page WIN.evRETENTION_BLOCK)
    else ((0, none), s.fenceEffect q true c ref)
  | _ => ((0, some (windowAnswer 4 q.win (s.window q.win) (s.window q.win).effect)), s)

/-- A WINDOW MANAGE that a member committed in epoch `c` takes effect here, whatever this member would have said of it
(R114). -/
def State.windowEffect (s : State) (q : WinReq) (c : Nat) : State :=
  match q.act with
  | 0 => s.openEffect q c
  | 1 => s.fenceEffect q false c (s.window q.win).answer
  | 2 => s.modifyEffect q c
  | 3 => s.fenceEffect q true c (s.window q.win).answer
  | _ => s

/-- What a REVOKE or CLOSE answers when its conditions hold (R118), and the window after it. A closed window keeps EFFECT_EPOCH
and FENCE_EPOCH (R113). DESIGN CHOICE (log entry 71): PEND_KEY and PEND_RIGHTS then read 0. -/
def State.finishFence (s : State) (n : Nat) : List Byte × State :=
  let w := s.window n
  let close := w.state == .closing
  let w := { w with state := if close then .free else .open, answer := none, pendKey := 0, pendRights := 0 }
  let data := windowAnswer (if close then 3 else 1) n (if close then { effect := w.effect, fence := w.fence } else w) w.fence
  let s := if close then
      let s := if w.journalEn then s.setJrn w.journal { s.jrn w.journal with window := none } else s
      s.setWindow n { effect := w.effect, fence := w.fence }
    else s.setWindow n w
  (data, s.raise WIN.page WIN.evREVOKE_DONE)

/-! ## Step 11 (R120, R121, R166) -/

/-- The right that an opcode uses (R84): its bit in RIGHTS. -/
def rightOf (op : Nat) : Nat :=
  if op == 0x01 || op == 0x08 then 0
  else if op == 0x02 || op == 0x09 || op == 0x0A then 1
  else if op == 0x03 || op == 0x04 || op == 0x05 then 2
  else 3

/-- Does an opcode name a window (R83)? -/
def windowed (op : Nat) : Bool := op != 0x06 && op < 0x20

/-- Step 11 for one epoch: the failing status and the REASON of R122, 0 where none. `cal` is given at commit, where
11.7 is judged. -/
def State.judge11 (s : State) (h : ReqHdr) (op dom n : Nat) (cal : Option Nat) : Option (Nat × Nat) :=
  let w := s.window h.window.toNat
  match w.grantAt n with
  | none => some (0x03, 1)
  | some g =>
    if h.gen.toNat != g.gen then some (0x04, 0)
    else if h.wkey.toNat != g.key then some (0x03, 2)
    else if dom != w.domain then some (0x03, 3)
    else if !bitOf g.rights (rightOf op) then some (0x03, 4)
    else if (op == 0x10 || op == 0x11 || op == 0x12) && !w.journalEn then some (0x03, 5)
    else if w.length ≤ h.offset.toNat + h.length.toNat then some (0x02, 0)
    else match cal with
      | some c => if op == 0x0A && !retainPassed g.retain c then some (0x03, 6) else none
      | none => none

/-- Does a request need the memory of a member whose link is down in a formed gang (R168)? -/
def State.needsLost (s : State) (h : ReqHdr) : Bool :=
  (s.remotePieces ((s.window h.window.toNat).base + h.offset.toNat) h.count).any fun p => s.gang.lost.contains (s.linkTo p.1)

/-- Sub-step 11.8: the home of the request's bytes (R166), and R168's refusal where a member that is needed is lost. -/
def State.judgeHome (s : State) (h : ReqHdr) (op : Nat) : Option Nat :=
  let w := s.window h.window.toNat
  let ga := w.base + h.offset.toNat
  let far := (s.remotePieces ga h.count).map (·.1)
  if far.isEmpty then none
  else if !s.flag GNG.FWD_EN || !(op == 1 || op == 2 || op == 8 || op == 9) then some 0x0C
  else if s.needsLost h then some 0x0F
  else none

/-- A report of an ACCESS_VIOLATION at step 11 (R122). -/
def State.reportViolation (s : State) (h : ReqHdr) (op dom reason : Nat) : State :=
  let win := h.window.toNat
  let w := s.window win
  let s := s.inc WIN.VIOL
  if w.state == .free then s
  else if s.win.reported.contains (h.srcEp.toNat, win) then s.inc WIN.VIOL_SUPPRESSED
  else
    let s := { s with win := { s.win with reported := (h.srcEp.toNat, win) :: s.win.reported } }
    let detail := h.srcEp.toNat + win * 2 ^ 24 + reason * 2 ^ 42 + op % 64 * 2 ^ 45 + dom % 4096 * 2 ^ 51
    (s.post (some w.domain) 0x0001 h.qid.toNat detail).raise WIN.page WIN.evVIOLATION

/-- A verdict of step 11 with its report. -/
def State.verdict11 (s : State) (h : ReqHdr) (op dom : Nat) (v : Option (Nat × Nat)) : Option Nat × State :=
  match v with
  | none => (none, s)
  | some (st, reason) =>
    let s := s.raiseIf (reason == 6) WIN.page WIN.evRETENTION_BLOCK
    (some st, if st == 0x03 then s.reportViolation h op dom reason else s)

/-- Step 11 at ingress (R121): a read by its arrival epoch; a state-changing command refused only where it fails under
the epoch before too. -/
def State.ingress11 (s : State) (h : ReqHdr) (op dom : Nat) : Option Nat × State :=
  let n := s.ep.num
  match s.judge11 h op dom n none with
  | none => match s.judgeHome h op with
    | some st => (some st, s.raiseIf (st == 0x0C) GNG.page GNG.evNOT_HOME_SENT)
    | none => (none, s)
  | some v =>
    if !isRead op && 0 < n && (s.judge11 h op dom (n - 1) none).isNone then
      match s.judgeHome h op with
      | some st => (some st, s.raiseIf (st == 0x0C) GNG.page GNG.evNOT_HOME_SENT)
      | none => (none, s)
    else s.verdict11 h op dom (some v)

/-! ## Lookaside buffers (R125, R126) -/

/-- The entry that a 15-bit recency tree selects: from the root, the side that bit points to, four levels down. -/
def treePick : Nat → Nat → Nat → Nat
  | 0, _, node => node - 15
  | k + 1, t, node => treePick k t (2 * node + 1 + b2n (bitOf t node))

/-- The tree after entry `i` has been used: every node on its path points away from it. -/
def treeUse : Nat → Nat → Nat → Nat
  | 0, t, _ => t
  | k + 1, t, leaf =>
    let parent := (leaf - 1) / 2
    treeUse k (setBit t parent (leaf % 2 == 1)) parent

/-- A lookaside buffer with every bank there. -/
def Wlb.whole (b : Wlb) : Wlb :=
  if b.banks.length == 3 then b
  else { banks := List.replicate 3 (List.replicate 16 none), trees := [0, 0, 0], order := [0, 1, 2], side := b.side }

/-- Where a window's entry is: bank and entry. -/
def Wlb.find (b : Wlb) (w : Nat) : Option (Nat × Nat) :=
  (List.range 3).findSome? fun k =>
    ((List.range 16).find? fun i => (b.banks.getD k []).getD i none == some w).map fun i => (k, i)

/-- An entry used: its bank becomes the latest, and its tree points away from it. -/
def Wlb.use (b : Wlb) (k i : Nat) : Wlb :=
  { b with trees := b.trees.set k (treeUse 4 (b.trees.getD k 0) (15 + i)), order := b.order.filter (· != k) ++ [k] }

/-- A new entry in place of the one that the least recently used bank's tree selects. -/
def Wlb.fill (b : Wlb) (w : Nat) : Wlb :=
  let k := b.order.headD 0
  let i := treePick 4 (b.trees.getD k 0) 0
  ({ b with banks := b.banks.set k ((b.banks.getD k []).set i (some w)) }).use k i

/-- A prefetched entry: the side buffer of 8 is overwritten oldest first. -/
def Wlb.prefetch (b : Wlb) (w : Nat) : Wlb :=
  if (b.find w).isSome || b.side.contains w then b
  else { b with side := (if 8 ≤ b.side.length then b.side.drop 1 else b.side) ++ [w] }

/-- A count up in a table of counters. -/
def bump (m : NMap Nat) (k : Nat) : NMap Nat := mput m k (mgetD m k 0 + 1)

/-- The datagram of a command, and whether it names a window (R83). -/
def dgramOf : Instr → Option (Dgram × Bool)
  | .read d | .write d | .cas8 d | .cas16 d | .fadd8 d | .sectorRead d | .sectorWrite d | .discard d | .append d | .seal d
  | .recordRead d => some (d, true)
  | .flush d | .identify d | .getLogPage d | .getFeature d | .setFeature d | .firmwareDownload d | .firmwareCommit d
  | .queueCreate d | .queueDelete d | .queueRestart d | .domainCreate d | .domainDelete d | .setQuota d | .domainQuery d
  | .openWindow d | .revoke d | .modify d | .close d | .windowQuery d | .censusRead d | .censusClear d | .clockSet d | .muster d
  | .invalidOpcode d _ | .hostFrameDrop d => some (d, false)
  | _ => none

/-- The windows that the next 16 datagrams in a port's ingress buffer name (R125): the buffer is what waits of the queue of
commands. -/
def State.nextWindows (s : State) (pipe : Nat) : List Nat :=
  (((s.pending.filterMap dgramOf).filter fun d => d.1.frame.link.port.val == pipe).take 16).filterMap fun d =>
    if d.2 then some d.1.hdr.window.toNat else none

/-- A pipeline's lookup of a window (R125): hit, side-buffer use, or miss with window n + 1 prefetched; with service open, and
unless PF_NEXT_ONLY forbids it, what the ingress buffer names is prefetched first. -/
def State.lookup (s : State) (pipe w : Nat) : State :=
  let b := (mgetD s.win.wlb pipe {}).whole
  let ahead : Bool := s.flag SYS.OPEN && !s.flag WIN.PF_NEXT_ONLY
  let b := if ahead then (s.nextWindows pipe).foldl Wlb.prefetch b else b
  let put (s : State) (b : Wlb) : State := { s with win := { s.win with wlb := mput s.win.wlb pipe b } }
  match b.find w with
  | some (k, i) => { put s (b.use k i) with win := { (put s (b.use k i)).win with hits := bump s.win.hits pipe } }
  | none =>
    if b.side.contains w then
      let s := put s ((({ b with side := b.side.filter (· != w) }).fill w))
      { s with win := { s.win with pfUsed := bump s.win.pfUsed pipe, hits := bump s.win.hits pipe } }
    else
      let s := put s ((b.fill w).prefetch (w + 1))
      { s with win := { s.win with misses := bump s.win.misses pipe } }

/-- The entries of a window invalidated in every buffer (R126). -/
def State.invalidate (s : State) (w : Nat) : State :=
  { s with win := { s.win with wlb := mmap (fun _ b =>
      { b with banks := b.banks.map fun k => k.map fun e => if e == some w then none else e
               side := b.side.filter (· != w) }) s.win.wlb } }

/-! ## The boundary (R112, R117, R118) -/

/-- Does a window change at the boundary that begins the current epoch? -/
def State.winChanges (s : State) (w : Window) : Bool :=
  w.state == .opening || w.modify.isSome || ((w.state == .revoking || w.state == .closing) && !w.fenced && w.fence ≤ s.ep.num)

/-- Windows and domains at a boundary; history that no epoch still to commit can need is dropped. -/
def State.turnWindows (s : State) : State :=
  let ws := (s.win.win.filter fun e => s.winChanges e.2).map (·.1)
  let s := ws.foldl (fun s n => (s.turnWindow n).invalidate n) s
  let keep (l : List (Nat × Option Grant)) : List (Nat × Option Grant) :=
    l.filter (fun e => s.cm.committed < e.1 || s.ep.num ≤ e.1 + 1) ++
      ((l.find? fun e => !(s.cm.committed < e.1 || s.ep.num ≤ e.1 + 1)).toList)
  let wins := mmap (fun _ (w : Window) => { w with hist := keep w.hist }) s.win.win
  let s := { s with win := { s.win with win := wins, reported := [] } }
  (s.win.dom.filter fun e => e.2.turn != e.2).foldl (fun s e => s.setDomain e.1 e.2.turn) s

end Sys2Proof.Machine
end

