-- ==== Sys2Proof/Machine/Reads.lean ====
section
/-! DEFINITION. Reads (R85, R90, R93, R177, R256, R281): what they wait for, the promotions they start, and their answer
segments. -/

namespace Sys2Proof.Machine

/-- The commands that store bytes at commit (R90). -/
def isWrite (op : Nat) : Bool :=
  op == 0x02 || op == 0x03 || op == 0x04 || op == 0x05 || op == 0x09 || op == 0x0A || op == 0x10

/-- The bytes that a request names: gang address and count; `none` where it overlaps every request (R135). -/
def State.spanOf (s : State) (r : Req) : Option (Nat × Nat) :=
  if 0x10 ≤ r.op then none
  else if r.op == 0x06 then some (0, 0)
  else some ((s.window r.hdr.window.toNat).base + r.hdr.offset.toNat, r.hdr.count)

/-- The bytes of the record that a staged request of an ACCESSION queue completes (R89, R273): a final fragment's, whose OFFSET
says how much of the record goes before it, or a SEAL's. -/
def recordOfStaged (r : Req) : Nat :=
  if r.refusal.isSome then 0
  else if r.op == 0x11 then recordSize 16
  else if r.op == 0x10 && bitOf r.hdr.offset.toNat 16 then recordSize (r.hdr.offset.toNat % 65536 + r.payload.length)
  else 0

/-- The bytes that the records of a window's staged requests will take from WP on. -/
def State.stagedRecords (s : State) (win : Nat) : Nat :=
  (s.cm.ep.map fun e => if e.2.committed then 0 else
    (e.2.reqs.map fun q => if q.2.hdr.window.toNat == win && !e.2.done.contains q.1 then recordOfStaged q.2 else 0).sum).sum

/-- Where a request that is staged, or about to be, will store bytes: the gang range that it names, or, for a record, that of the
records which the window's staged requests and it add at WP. -/
def State.storeSpan (s : State) (r : Req) : Option (Nat × Nat) :=
  if r.refusal.isSome then none
  else if r.op == 0x10 || r.op == 0x11 then
    let w := s.window r.hdr.window.toNat
    if recordOfStaged r = 0 then none
    else some (w.base + (s.jrn w.journal).wp, s.stagedRecords r.hdr.window.toNat + recordOfStaged r)
  else if isWrite r.op && r.op != 0x0A then s.spanOf r
  else none

/-- The extents that staged writes will give a new home, for the room of R187. -/
def State.comingHomes (s : State) : List Nat :=
  (s.cm.ep.flatMap fun e => e.2.reqs.flatMap fun q =>
    if e.2.committed || e.2.done.contains q.1 then []
    else match s.storeSpan q.2 with
      | some (ga, n) => s.newHomes ga n
      | none => []).eraseDups

/-- Do the bytes of a staged write overlap a range? The record of a final APPEND will lie among those that the window's staged
requests add at WP; a fragment before it stores nothing. -/
def State.writeMeets (s : State) (r : Req) (ga n : Nat) : Bool :=
  isWrite r.op && r.refusal.isNone &&
    if r.op == 0x10 then
      let w := s.window r.hdr.window.toNat
      bitOf r.hdr.offset.toNat 16 &&
        overlaps (w.base + (s.jrn w.journal).wp) (s.stagedRecords r.hdr.window.toNat) ga n
    else match s.spanOf r with
      | some (a, m) => overlaps a m ga n
      | none => false

/-- Does a staged write that has not committed overlap the range (R90)? -/
def State.stagedMeets (s : State) (ga n : Nat) : Bool :=
  s.cm.ep.any fun e => !e.2.committed &&
    e.2.reqs.any fun q => !e.2.done.contains q.1 && s.writeMeets q.2 ga n

/-- The flash pages that a range of device addresses reads, as extent × 4 + page: those of FLASH extents, and those whose headers
tell the state (R237). -/
def State.pagesOf (s : State) (da n : Nat) : List Nat :=
  (List.range ((da + n - 1) / 16384 - da / 16384 + 1)).filterMap fun i =>
    let p := da / 16384 + i
    match s.extent (p / 4) with
    | some x => if x.home == .flash || (x.home == .zero && s.headerTells (p / 4)) then some p else none
    | none => if s.headerTells (p / 4) then some p else none

/-! ## Segments -/

/-- How many segments a read's answer has (R50). -/
def Pending.segs (p : Pending) : Nat := max 1 (ceilDiv p.len 8192)

/-- The range of segment k: gang address and bytes. -/
def Pending.seg (p : Pending) (k : Nat) : Nat × Nat := (p.ga + 8192 * k, min 8192 (p.len - 8192 * k))

/-- Has everything that segment k needs arrived? -/
def State.segReady (s : State) (p : Pending) (k : Nat) : Bool :=
  let (ga, n) := p.seg k
  !p.blocked && !((s.localPieces ga n).any fun q =>
    (s.pagesOf q.1 q.2.1).any p.fetch.contains || s.heldBack q.1 q.2.1) &&
  !(p.asked.any fun t => match mget s.gang.remote t with
    | some (a, m) => overlaps a m ga n
    | none => false)

/-- What ails the local bytes of a range: unwritten or poisoned, lost, and in a page that failed authentication. -/
def State.ails (s : State) (p : Pending) (da n : Nat) : Bool × Bool × Bool :=
  let secs := sectorsIn da n
  let onFlash (sec : Nat) : Bool := match s.extent (sec / 16) with
    | some x => x.home == .flash
    | none => false
  (secs.any (fun x => (s.extent (x / 16)).isNone || s.poisoned x),
   secs.any (fun x => onFlash x && (s.sectorLost x || p.gone.contains (x / 4))),
   secs.any (fun x => onFlash x && p.bad.contains (x / 4)))

/-- Bytes of a range, from this member's memory and from what others have sent (R167). -/
def State.rangeBytes (s : State) (p : Pending) (ga n : Nat) : List Byte :=
  ((gangPieces ga n).map fun q =>
    if s.homeOf q.1 == s.gangPos then s.readMem (s.daOf q.1) q.2
    else (List.range q.2).map fun i =>
      match p.remote.find? fun e => e.1 ≤ q.1 + i && q.1 + i < e.1 + e.2.2.length with
      | some e => e.2.2.getD (q.1 + i - e.1) 0
      | none => 0).flatten

/-- The status of a segment and whether it is UNTRUSTED (R93, R94, R301). Where lost bytes stand beside poisoned ones
in a segment, which of the two it carries is free (log entry 18). -/
def State.segStatus (s : State) (p : Pending) (k : Nat) : Nat × Bool × State :=
  let (ga, n) := p.seg k
  let far := p.remote.filter fun e => overlaps e.1 e.2.2.length ga n || e.2.1 != 0 && ga ≤ e.1 && e.1 < ga + n
  let ls := (s.localPieces ga n).map fun q => s.ails p q.1 q.2.1
  let lost := ls.any (·.2.1) || far.any (·.2.1 == 0x09)
  let unc := ls.any (·.1) || far.any (·.2.1 == 0x08)
  let bad := ls.any (·.2.2)
  let deg := far.any (·.2.1 == 0x0F)
  if deg then (0x0F, false, s)
  else if lost && (unc || bad) then
    let (b, s) := s.freeBit
    (if b then 0x09 else 0x08, false, s)
  else if lost then (0x09, false, s)
  else if unc then (0x08, false, s)
  else if bad then
    if s.flag CPH.DELIVER_UNTRUSTED && p.unpromoted then (0, true, s.inc CPH.UNTRUSTED_DELIVERED) else (0x08, false, s)
  else (0, false, s)

/-- The bytes of a gang range that lie in volatile homes of this member. -/
def State.volatileBytes (s : State) (ga n : Nat) : Nat :=
  ((s.localPieces ga n).map fun q => ((extentsIn q.1 q.2.1).map fun e =>
    if ((s.extent e).map Extent.isVolatile).getD false then min (q.1 + q.2.1) (65536 * e + 65536) - max q.1 (65536 * e) else 0).sum).sum

/-- Segment k sent with a status of its own, or with `cut` (R118). -/
def State.sendSegment (s : State) (p : Pending) (k : Nat) (cut : Option Nat) : Pending × State :=
  let (ga, n) := p.seg k
  let (st, un, s) := match cut with
    | some st => (st, false, s)
    | none => s.segStatus p k
  let data := if st == 0 then s.rangeBytes p ga n else []
  let final := p.sent.length + 1 == p.segs
  let slot := if final then p.req.slot else none
  let lat := if final then s.latOf p.req.hdr p.req.time else none
  let s := if s.silent p.req then s.slotBack slot
    else s.sendSeg p.req s.reflected st k (k + 1 == p.segs) un data slot lat
  let s := match p.req.ret, cut with
    | some a, none => s.chargePort a.link.port.val (s.volatileBytes ga n)
    | _, _ => s
  ({ p with sent := mput p.sent k st }, s)

/-- The status of a read whose segments have all been sent: its lowest-numbered one that is not OK (R93). -/
def Pending.status (p : Pending) : Nat :=
  match p.sent.find? fun e => e.2 != 0 with
  | some e => e.2
  | none => 0

/-- A read whose last segment has gone out: its entry. Its slot returns with that segment (R60). -/
def State.endRead (s : State) (p : Pending) : State :=
  let r := p.req
  (s.recordAnswer r.hdr.key false true p.status [] s.reflected).freezeAt r s.ep.num p.status

/-- Every ready segment sent, in order; the read ended with the last. -/
def State.pumpRead (s : State) (p : Pending) : Option Pending × State :=
  let (p, s) := (List.range p.segs).foldl (fun (a : Pending × State) k =>
    if (mget a.1.sent k).isNone && a.2.segReady a.1 k then a.2.sendSegment a.1 k none else a) (p, s)
  if p.sent.length == p.segs then (none, s.endRead p) else (some p, s)

/-! ## Starting -/

/-- A read of an extent begins its moves (R177): FLASH is promoted, a warm extent goes hot for a window that prefers
it. The last answer says whether a FLASH extent has no promotion. -/
def State.readMoves (s : State) (e pref : Nat) : Bool × State :=
  let s := s.touch e
  match s.extent e with
  | none => (false, s)
  | some x =>
    match x.home with
    | .flash =>
      if x.move.isSome then (false, s)
      else if !s.flag TIR.PROMOTE_EN then (true, s.inc TIR.READS_UNPROMOTED)
      else match s.promote e pref false s.comingHomes.length false with
        | (true, s) => (false, s)
        | (false, s) => (true, s.inc TIR.READS_UNPROMOTED)
    | .warm _ =>
      if pref == 1 && x.move.isNone && s.flag TIR.PROMOTE_EN && s.frameFree false then (false, (s.moveFrame e false).2)
      else (false, s)
    | _ => (false, s)

/-- Remote data asked for (R167): one MEM_READ for each segment's part at another member; a member that is lost answers nothing,
and its part ends with DEGRADED_REFUSED (R168). -/
def State.askRemote (s : State) (p : Pending) : Pending × State :=
  (List.range p.segs).foldl (fun (a : Pending × State) k =>
    let (ga, n) := a.1.seg k
    (a.2.remotePieces ga n).foldl (fun (a : Pending × State) q =>
      let s := a.2
      let t := s.gang.nextTag
      let at_ := ga + q.2.2.2
      if s.gang.lost.contains (s.linkTo q.1) then ({ a.1 with remote := a.1.remote ++ [(at_, 0x0F, [])] }, s)
      else
      let s := { s with gang := { s.gang with
        nextTag := (t + 1) % 2 ^ 32, remote := mput s.gang.remote t (at_, q.2.2.1) } }
      ({ a.1 with asked := a.1.asked ++ [t] },
        s.sendDrift (s.linkTo q.1) 0x13 s.ep.num (bytesBE 8 q.2.1 ++ bytesBE 4 q.2.2.1 ++ bytesBE 4 t))) a) (p, s)

/-- A read that no staged write holds back: its array reads, its moves, the pages and the remote data it needs. -/
def State.beginRead (s : State) (p : Pending) : Pending × State :=
  let w := s.window p.req.hdr.window.toNat
  let ls := s.localPieces p.ga p.len
  let s := ls.foldl (fun s q => s.readCells p.req.cells q.1 q.2.1) s
  let fetch := ls.flatMap fun q => s.pagesOf q.1 q.2.1
  let (un, s) := (ls.flatMap fun q => extentsIn q.1 q.2.1).foldl (fun (a : Bool × State) e =>
    let (b, s) := a.2.readMoves e w.tierPref
    (a.1 || b, s)) (false, s)
  s.askRemote { p with blocked := false, fetch := fetch, unpromoted := un }

/-- Does a read wait: for staged writes that it overlaps (R90), or for an idle member (R308)? -/
def State.readWaits (s : State) (ga n : Nat) : Bool :=
  s.stagedMeets ga n || (s.localPieces ga n).any fun q => s.heldBack q.1 q.2.1

/-- The reads that wait gone through once: those whose staged writes have committed begin, and ready segments go out. -/
def State.pumpReads (s : State) : State :=
  let ps := s.net.reads
  ps.foldl (fun s p =>
    let (p, s) := if p.blocked && !s.readWaits p.ga p.len then s.beginRead p else (p, s)
    match s.pumpRead p with
    | (some p, s) => { s with net := { s.net with reads := s.net.reads ++ [p] } }
    | (none, s) => s) { s with net := { s.net with reads := [] } }

/-- The answer to another member's MEM_READ (R167): the bytes read through the drift-forwarding port, with what ails them. -/
def State.homeRead (s : State) (j : Nat) (b : List Byte) (cells : List CellFault) : State :=
  let da := fieldBE b 0 8
  let n := fieldBE b 8 4
  let s := s.readCells cells da n
  let s := (extentsIn da n).foldl (fun s e => (s.readMoves e (s.windowOf (e * 65536)).2).2) s
  let s := s.chargePort 20 (s.volatileBytes (s.gaOf da) n)
  let (un, lost, _) := s.ails { req := { hdr := {}, op := 1 } } da n
  let (st, s) := if lost && un then
      let (b, s) := s.freeBit
      (if b then 0x09 else 0x08, s)
    else (if lost then 0x09 else if un then 0x08 else 0, s)
  s.sendDrift j 0x14 s.ep.num (slice b 12 4 ++ bytesBE 1 st ++ [0, 0, 0] ++ (if st == 0 then s.readMem da n else []))

/-- Every MEM_READ answered that no idle member holds back (R308). -/
def State.pumpHomeReads (s : State) : State :=
  s.gang.waiting.foldl (fun s e =>
    if s.heldBack (fieldBE e.2.1 0 8) (fieldBE e.2.1 8 4) then
      { s with gang := { s.gang with waiting := s.gang.waiting ++ [e] } }
    else s.homeRead e.1 e.2.1 e.2.2) { s with gang := { s.gang with waiting := [] } }

/-- A read admitted: READ, SECTOR READ or RECORD READ (R85, R281). -/
def State.startRead (s : State) (r : Req) : State :=
  let w := s.window r.hdr.window.toNat
  let span := if r.op == 0x12 then
      if fieldBE r.payload 12 4 != 0 then none
      else (s.recordRange w.journal (fieldBE r.payload 0 8) (fieldBE r.payload 8 4) r.hdr.count).map
        fun p => (w.base + p.1, p.2)
    else some (w.base + r.hdr.offset.toNat, r.hdr.count)
  match span with
  | none => s.finishRead r 0x02 []
  | some (ga, n) =>
    let p : Pending := { req := r, ga := ga, len := n, blocked := true }
    let (p, s) := if s.readWaits ga n then (p, s) else s.beginRead p
    match s.pumpRead p with
    | (some p, s) => { s with net := { s.net with reads := s.net.reads ++ [p] } }
    | (none, s) => s

/-- A read-only ADMIN command (R79, R104 to R106, R112, R115, R375). -/
def State.adminRead (s : State) (r : Req) : Nat × List Byte :=
  if r.op == 0x20 then (0, s.identify)
  else if r.op == 0x21 then s.logPage r
  else if r.op == 0x22 then s.getFeature r
  else if r.op == 0x2C then s.censusRead r
  else if r.op == 0x29 then (s.domainManage r.payload).1
  else match parseWin r.payload with
    | none => (0x02, [])
    | some q =>
      if !s.mayManage (s.queue r.hdr.qid.toNat) q then (0x03, [])
      else (0, windowAnswer 4 q.win (s.window q.win) (s.window q.win).effect)

/-- The NOR banks that a read-only ADMIN command reads: those of the images' versions, and that of the Census records. -/
def adminBanks (r : Req) (st : Nat) : List Nat :=
  if st != 0 then []
  else if r.op == 0x20 || (r.op == 0x21 && fieldBE r.payload 0 1 == 3) then [0, 1]
  else if r.op == 0x2C then [3]
  else []

/-- Its stalls counted (R352). -/
def State.adminStalls (s : State) (r : Req) (st : Nat) : State := (adminBanks r st).foldl State.countStall s

/-- A read-only request admitted. -/
def State.runRead (s : State) (r : Req) : State :=
  if isRead r.op then s.startRead r
  else
    let (st, data) := s.adminRead r
    (s.adminStalls r st).finishRead r st data

/-- A read ended: its unsent segments go out with a status. -/
def State.cutRead (s : State) (p : Pending) (status : Nat) : State :=
  let (p, s) := (List.range p.segs).foldl (fun (a : Pending × State) k =>
    if (mget a.1.sent k).isNone then a.2.sendSegment a.1 k (some status) else a) (p, s)
  s.endRead p

/-- The reads that `cut` picks ended with a status, each followed by `after`. -/
def State.cutReads (s : State) (cut : Pending → Bool) (status : Nat) (after : State → State) : State :=
  let ps := s.net.reads.filter cut
  let s := { s with net := { s.net with reads := s.net.reads.filter fun p => !cut p } }
  ps.foldl (fun s p => after (s.cutRead p status)) s

/-- Unsent segments of reads of window `n` that arrived before epoch `f` ended with WINDOW_REVOKED (R118). -/
def State.cutSegments (s : State) (n f : Nat) : State :=
  s.cutReads (fun p => p.req.hdr.window.toNat == n && p.req.arrived < f) 0x04 fun s => s.raise WIN.page WIN.evCUTOFF

end Sys2Proof.Machine
end

