-- ==== Sys2Proof/Machine/Admission.lean ====
section
/-! DEFINITION. Step 12: charges and allowances (R98 to R100, R278), the holds of R131, R179, R187 and R243, and what
admission brings: staging (R130) or a read's run. -/

namespace Sys2Proof.Machine

/-- Write bytes that a request stages (R131). -/
def writeBytes (r : Req) : Nat := if isWrite r.op then r.payload.length else 0

/-- Does a request fall under the holds of R131: it brings write bytes (log entry 19)? -/
def stagesBytes (op : Nat) : Bool := isWrite op && op != 0x0A

/-- What a request is charged: write, read and flash bytes (R98). -/
def State.charges (s : State) (r : Req) : Nat × Nat × Nat :=
  if r.op == 0x02 || r.op == 0x09 || r.op == 0x10 then (r.hdr.count, 0, 0)
  else if r.op == 0x03 || r.op == 0x05 then (8, 0, 0)
  else if r.op == 0x04 then (16, 0, 0)
  else if isRead r.op then
    let w := s.window r.hdr.window.toNat
    let (ga, n) := if r.op == 0x12 then
        match s.recordRange w.journal (fieldBE r.payload 0 8) (fieldBE r.payload 8 4) r.hdr.count with
        | some p => (w.base + p.1, p.2)
        | none => (w.base, 0)
      else (w.base + r.hdr.offset.toNat, r.hdr.count)
    let ls := s.localPieces ga n
    let kind (e : Nat) : Nat := match s.extent e with
      | some x => if x.home == .flash then 2 else if x.isVolatile then 1 else 0
      | none => 0
    let dram := s.volatileBytes ga n
    let fl := (ls.flatMap fun q => (extentsIn q.1 q.2.1).filter fun e => kind e == 2).length
    (0, dram, 65536 * fl)
  else (0, 0, 0)

/-- Would the queue's contract make a charge of 0 contract (R98, step 10)? What a read may be charged counts, wherever
its bytes lie. -/
def zeroContract (q : Queue) (op : Nat) : Bool :=
  q.cls != 0 && (q.ct.reqs == 0 ||
    ((stagesBytes op) && q.ct.wr == 0) || (isRead op && q.ct.rd == 0))

/-- The drained allowances of a queue: does every one that the request is charged against let it in (R99)? -/
def Queue.allows (q : Queue) (c : Nat × Nat × Nat) : Bool :=
  q.cls == 0 || (0 ≤ q.alReq && (c.1 == 0 || 0 ≤ q.alWr) && (c.2.1 == 0 || 0 ≤ q.alRd) && (c.2.2 == 0 || 0 ≤ q.alFl))

/-- The line channel of a sealed request, if it came sealed (R99). -/
def State.lineOf (s : State) (r : Req) : Option Nat :=
  match r.ret with
  | some a => if a.sealed then s.channelOf (s.get (XPT.SEAL_CH a.link.port.val)) else none
  | none => none

/-- The write bytes staged, and received by repair, in an epoch (R131). -/
def State.stagedIn (s : State) (m : Nat) : Nat := mgetD s.cm.staged m 0

/-- Has R131 room for a write: the epoch's 25,165,824 bytes, and everything tagged two epochs back placed? -/
def State.stageRoom (s : State) (r : Req) : Bool :=
  !stagesBytes r.op ||
    (s.stagedIn s.ep.num + writeBytes r ≤ 25165824 && (s.ep.num ≤ s.cm.placed + 2))

/-- No row of R176 has room for a write of a domain: its coldest volatile extent demoted to flash, unless one of its extents is on
its way there already (R176). -/
def State.demoteFor (s : State) (d : Nat) : State :=
  if s.tier.ext.any fun e => e.2.owner == d && e.2.isVolatile && e.2.move == some .flash then s
  else startMoves State.demote 1 (s.coldest fun x => x.isVolatile && x.owner == d) s

/-- What the tiers say of a write to one extent (R176, R179, R187, R237): may it be admitted, and the state after what the
write sets going there. `coming` are the extents that staged writes, and this one so far, will give new homes. -/
def State.tierAdmits (s : State) (w : Window) (coming : List Nat) (e : Nat) : Bool × State :=
  match s.extent e with
  | some x =>
    if x.home == .zero then fresh s
    else match x.move with
      | some .flash => (true, s.abandonMove e)
      | some _ => (false, s)
      | none =>
        if x.home == .flash then
          match s.promote e w.tierPref false coming.length true with
          | (true, s) => (false, s)
          | (false, s) => (false, s.demoteFor w.domain)
        else (x.home != .wait, s)
  | none => fresh s
where
  /-- An extent that needs a new home. -/
  fresh (s : State) : Bool × State :=
    if s.headerTells e && !s.fl.known.contains e then (false, s)
    else
    let extra := (coming.filter (· != e)).length
    if (s.homeTier w.tierPref w.domain false extra).isSome then (true, s)
    else (false, (s.sayFull w.domain [true, false] extra true).demoteFor w.domain)

/-- What the tiers say of a request, whose new homes all need room at once (R179, R187, R243). -/
def State.tiersAdmit (s : State) (r : Req) : Bool × State :=
  if r.op == 0x0A then (0 < s.logsFree, s)
  else match s.storeSpan r with
    | none => (true, s)
    | some (ga, n) =>
      let (ok, _, s) := ((s.localPieces ga n).flatMap fun q => extentsIn q.1 q.2.1).foldl
        (fun (a : Bool × List Nat × State) e =>
          let (ok, coming, s) := a
          let new := s.needsHome e
          let (b, s) := s.tierAdmits (s.window r.hdr.window.toNat) coming e
          (ok && b, if new then addTo coming e else coming, s)) (true, s.comingHomes, s)
      (ok, s)

/-! ## Staging (R130) -/

/-- The record of an epoch. -/
def State.epochRec (s : State) (n : Nat) : EpochRec := mgetD s.cm.ep n {}

/-- The record of an epoch written. -/
def State.setEpochRec (s : State) (n : Nat) (e : EpochRec) : State :=
  { s with cm := { s.cm with ep := mput s.cm.ep n e } }

/-- A request enters the twin protocol, tagged with the current epoch (R130). -/
def State.enter (s : State) (r : Req) : State :=
  let n := s.ep.num
  let e := s.epochRec n
  let r := { r with epoch := n }
  let s := s.setEpochRec n { e with reqs := mput e.reqs r.hdr.key.code r, own := e.own ++ [r.hdr.key] }
  if r.refusal.isSome then s
  else { s with cm := { s.cm with staged := mput s.cm.staged n (s.stagedIn n + writeBytes r) } }

/-- A final NAK for a request that has an entry (R52, R58): sent, recorded, its slot returned. -/
def State.refuse (s : State) (r : Req) (status : Nat) (send : Bool) : State :=
  let h := r.hdr
  let s := if r.dup then s else s.returnSlot h.qid.toNat h.seq.toNat
  let s := match send, s.retOf r with
    | true, some dst => s.sendNak dst h r.op status false r.dup (lat := s.latOf h r.time)
    | _, _ => s
  let s := s.recordAnswer h.key true (readOnly r.op r.payload) status [] s.ep.num (!send)
  if readOnly r.op r.payload then s.freezeAt r s.ep.num status else s

/-- A held request that the freeze of its queue ends (R96): a NAK with QUEUE_FROZEN; a state-changing one enters the twin
protocol with that refusal (R130). DESIGN CHOICE (log entry 71): it is a NAK, not a RESPONSE. -/
def State.endFrozen (s : State) (r : Req) : State :=
  let s := s.refuse r 0x0A (!s.silent r)
  if readOnly r.op r.payload then s else s.enter { r with refusal := some 0x0A }

/-- What a freeze ends at the freeze point (R96): held requests and waiting reads. -/
def State.cutFrozen (s : State) : State :=
  let hs := s.net.held.filter s.frozenAfter
  let s := { s with net := { s.net with held := s.net.held.filter fun r => !s.frozenAfter r } }
  let s := hs.foldl State.endFrozen s
  s.cutReads (fun p => s.frozenAfter p.req) 0x0A id

/-- The reads that wait gone through, and what a freeze among them ends. -/
def State.runReads (s : State) : State := s.pumpReads.pumpHomeReads.cutFrozen

/-- What admission subtracts (R98, R99, R278). -/
def State.charge (s : State) (r : Req) (c : Nat × Nat × Nat) : State :=
  let n := r.hdr.qid.toNat
  let q := s.queue n
  let s := if q.cls == 0 then s
    else s.setQueue n { q with alReq := q.alReq - 1, alWr := q.alWr - c.1, alRd := q.alRd - c.2.1, alFl := q.alFl - c.2.2 }
  if r.op == 0x10 then { s with acc := { s.acc with tagAl := s.acc.tagAl - r.hdr.count } } else s

/-- A request admitted at step 12 (R99, R100, R130): a read runs; a state-changing request is staged. One whose seal tag
failed is refused here if it only reads (R71). -/
def State.letIn (s : State) (r : Req) (c : Nat × Nat × Nat) : State :=
  let s := s.charge r c
  let late := r.arrived < s.ep.num
  let s := if late then s.inc QMG.OVER_CONTRACT else s
  let s := if late && r.sealHeld then s.inc QMG.SEAL_HELD else s
  let r := { r with admitted := some s.ep.num }
  if readOnly r.op r.payload then
    (if r.authBad then s.refuse r 0x10 (!s.silent r) else s.runRead r).cutFrozen
  else s.enter r

/-- May a request be admitted now (R99, R131, R278)? The request as the holds have marked it, with the state. -/
def State.mayAdmit (s : State) (r : Req) (room : Bool) : Bool × Req × State :=
  let c := s.charges r
  let line : Bool := match s.lineOf r with
    | some ch => mgetD s.q.alLine ch 0 < 0
    | none => false
  let tag := r.op == 0x10 && s.acc.tagAl < 0
  if !(s.queue r.hdr.qid.toNat).allows c then (false, r, s)
  else if line then (false, { r with sealHeld := true }, s)
  else if tag then (false, { r with tagHeld := true }, if r.tagHeld then s else s.inc ACC.TAG_HELD)
  else if s.mus.stopped then (false, r, s)
  else if stagesBytes r.op && (!room || !s.stageRoom r) then (false, r, s)
  else
    let (ok, s) := s.tiersAdmit r
    (ok, r, s)

/-- The sequence order of a queue's requests (R57). -/
def State.seqRank (s : State) (r : Req) : Nat := serialDiff r.hdr.seq.toNat (s.queue r.hdr.qid.toNat).floor

/-- The place of a queue among those whose held requests are examined (R131): the arrival of its oldest held write, or, with
none, of its oldest held request; then its number. -/
def examineRank (held : List Req) (n : Nat) : Nat × Nat :=
  let mine := held.filter fun r => r.hdr.qid.toNat == n
  let ws := mine.filter fun r => stagesBytes r.op
  (((if ws.isEmpty then mine else ws).map fun r => r.time).foldl min ((mine.map fun r => r.time).foldl max 0), n)

/-- Every held request examined (R99, R131): queues by the arrival of their oldest held write, each in sequence order
until one is held; a write without room stops the writes of the queues after it. -/
def State.examine (s : State) : State :=
  let held := s.net.held
  let rank := examineRank held
  let qs := sortBy (fun m n => (rank m).1 < (rank n).1 || ((rank m).1 == (rank n).1 && m ≤ n))
    (held.map fun r => r.hdr.qid.toNat).eraseDups
  let step (a : State × Bool) (qn : Nat) : State × Bool :=
    let rs := sortBy (fun x y => a.1.seqRank x ≤ a.1.seqRank y) (held.filter fun r => r.hdr.qid.toNat == qn)
    let (s, room, _) := rs.foldl (fun (b : State × Bool × Bool) r =>
      let (s, room, stop) := b
      let keep (s : State) (r : Req) : State := { s with net := { s.net with held := s.net.held ++ [r] } }
      if s.frozenAfter r then (s.endFrozen r, room, stop)
      else if stop then (keep s r, room, true)
      else
        let full := stagesBytes r.op && (!room || !s.stageRoom r)
        match s.mayAdmit r room with
        | (true, r, s) => (s.letIn r (s.charges r), room, false)
        | (false, r, s) => (keep s r, room && !full, true)) (a.1, a.2, false)
    (s, room)
  let s := (qs.foldl step ({ s with net := { s.net with held := [] } }, true)).1
  { s with net := { s.net with held := sortBy (fun x y => x.time ≤ y.time) s.net.held } }

/-- A request at step 12: admitted, or held behind what waits before it (R99). -/
def State.step12 (s : State) (r : Req) : State :=
  let earlier := s.net.held.any fun x => x.hdr.qid == r.hdr.qid && s.seqRank x < s.seqRank r
  let room := !(stagesBytes r.op && s.net.held.any fun x => stagesBytes x.op && !s.stageRoom x)
  if earlier then { s with net := { s.net with held := s.net.held ++ [r] } }
  else match s.mayAdmit r room with
    | (true, r, s) => s.letIn r (s.charges r)
    | (false, r, s) => { s with net := { s.net with held := s.net.held ++ [r] } }

/-- Requests of window `n` from before epoch `f` that are still held ended with WINDOW_REVOKED in a RESPONSE, and with them what
follows in an ACCESSION queue (R96, R118). DESIGN CHOICE (log entry 71): a state-changing one, which has no commit epoch,
carries the current epoch. -/
def State.cutHeld (s : State) (n f : Nat) : State :=
  let rs := s.net.held.filter fun r => windowed r.op && r.hdr.window.toNat == n && r.arrived < f
  let s := { s with net := { s.net with held := s.net.held.filter fun r =>
    !(windowed r.op && r.hdr.window.toNat == n && r.arrived < f) } }
  rs.foldl (fun s r =>
    let reads := readOnly r.op r.payload
    let epoch := if reads then s.reflected else s.ep.num
    let s := (s.returnSlot r.hdr.qid.toNat r.hdr.seq.toNat).respondAt r epoch 0x04 []
    let s := (s.recordAnswer r.hdr.key false reads 0x04 [] epoch).raise WIN.page WIN.evCUTOFF
    (s.freezeAt r s.ep.num 0x04).cutFrozen) s

end Sys2Proof.Machine
end

