-- ==== Sys2Proof/Machine/Cores.lean ====
section
/-! DEFINITION. What the curators' programs do outside the register pages (R349, R353, R357, R362): fetches from the NOR with
their prefetch buffers and branch caches, loads and stores, and the datagrams that they send. -/

namespace Sys2Proof.Machine

/-- Does curator `c` execute: the domain runs, the core is released, and neither its watchdog nor a lock-up has asked for a reset
that still waits (R349, R356, R361)? -/
def State.coreRuns (s : State) (c : Nat) : Bool :=
  s.mgUp && bitOf (s.get CUR.RUN) c && !s.cur.dead.contains c

/-- The part of the curators' address map that holds an address (R349). -/
inductive CoreRegion | sram | nor (a : Nat) | pages | rom | outside
  deriving DecidableEq, Repr

/-- The map of R349. -/
def coreRegion (a : Nat) : CoreRegion :=
  if a < 2 ^ 21 then .sram
  else if 0x10000000 ≤ a && a < 0x14000000 then .nor (a - 0x10000000)
  else if 0x20000000 ≤ a && a < 0x20100000 then .pages
  else if 0x30000000 ≤ a && a < 0x30010000 then .rom
  else .outside

/-- The part that holds `n` bytes from an address up; none does where they reach past its end. -/
def coreRange (a n : Nat) : CoreRegion :=
  match coreRegion a, coreRegion (a + n - 1) with
  | .nor x, .nor _ => .nor x
  | r, t => if r == t then r else .outside

/-- Is the boot ROM in a mode of its own: booting, in the recovery loader, or verifying (R349, R359, R360)? -/
def State.romMode (s : State) : Bool := s.cur.booting || s.cur.recovery || s.cur.verifying.isSome

/-- Does a NOR byte address lie in an execute-only region of the running image (R357)? -/
def State.execOnly (s : State) (a : Nat) : Bool :=
  let base := norSector s.cur.active 0
  s.cur.verified && (List.range 8).any fun i =>
    let start := base + s.norWord (base + 32 + 8 * i)
    start ≤ a && a < start + s.norWord (base + 36 + 8 * i)

/-- A line kept with others, the oldest given up past `n` (R353; log entry 66). -/
def keepLine (n : Nat) (ls : List Nat) (l : Nat) : List Nat :=
  let ls := ls.filter (· != l) ++ [l]
  ls.drop (ls.length - n)

/-- A fetch of a NOR line by a curator, after a taken branch or not: from its branch cache, its prefetch buffer or the array, where
it can stall (R352, R353). -/
def State.fetchLine (s : State) (c a : Nat) (taken : Bool) : State :=
  let l := a / 32
  let pf := mgetD s.cur.prefetch c []
  let bc := mgetD s.cur.branch c []
  let pfOn := s.flag NOR.PF_EN
  let bcOn := s.flag NOR.BC_EN
  if taken && bcOn && bc.contains l then s.inc NOR.BC_HITS
  else
    let s := if taken && bcOn then { s with cur := { s.cur with branch := mput s.cur.branch c (keepLine 16 bc l) } } else s
    if pfOn && pf.contains l then s.inc NOR.PF_HITS
    else
      let s := s.countStall (norBank a)
      if !pfOn then s
      else { s with cur := { s.cur with prefetch := mput s.cur.prefetch c (keepLine 4 (keepLine 4 pf l) (l + 1)) } }

/-- A datagram that a curator places on a host port (R362): dropped unless it names ADMIN queue 1 to 15. -/
def State.coreDatagram (s : State) (c : Fin 4) (port : Fin 16) (queue : Nat) (bytes : List Byte) : State :=
  if 1 ≤ queue && queue ≤ 15 then { s with cur := { s.cur with txq := s.cur.txq ++ [(port.val, bytes)] } }
  else s.fence 1 (some c) port.val

/-- The curators' datagrams that their ports' allowances let out, each port's in order (R362). -/
def State.coreSend (s : State) : State :=
  let ds := s.cur.txq
  ds.foldl (fun s d =>
    let (p, bytes) := d
    let al := mgetD s.cur.alPort p 0
    if bytes.length ≤ al && !s.cur.txq.any (·.1 == p) then
      ({ s with cur := { s.cur with alPort := mput s.cur.alPort p (al - bytes.length) } }).send (.curator p bytes)
    else { s with cur := { s.cur with txq := s.cur.txq ++ [d] } }) { s with cur := { s.cur with txq := [] } }

/-- One thing that a curator does; loads and stores are little-endian (R349). Accesses to the register pages are commands of
their own; one that the map does not give it is a bus fault (R349, R362). -/
def State.coreOp (s : State) (op : CuratorOp) : State :=
  match op with
  | .fetch c a taken =>
    if !s.coreRuns c.val then s
    else match coreRegion a with
      | .nor b => s.fetchLine c.val b taken
      | .rom => if s.romMode then s else s.fence 2 (some c) a
      | .sram => s
      | _ => s.fence 2 (some c) a
  | .load c a w =>
    if !s.coreRuns c.val then s
    else match coreRange a w.bytes with
      | .sram => s.send (.coreData c (natOfLE (Memory.readN s.cur.sram a w.bytes)))
      | .nor b =>
        let v := s.norStalled (norBank b)
        let s := s.countStall (norBank b)
        if v.execOnly b then (s.fence 6 (some c) a).send (.coreData c 0)
        else s.send (.coreData c (natOfLE (v.norBytes b w.bytes)))
      | .rom | .outside => s.fence 2 (some c) a
      | .pages => s
  | .store c a w v =>
    if !s.coreRuns c.val then s
    else match coreRange a w.bytes with
      | .sram => { s with cur := { s.cur with sram := Memory.writeN s.cur.sram a (bytesLE w.bytes v) } }
      | .pages => s
      | _ => s.fence 2 (some c) a
  | .datagram c port queue bytes => if s.coreRuns c.val then s.coreDatagram c port queue bytes else s

end Sys2Proof.Machine
end

