-- ==== Sys2Proof/Machine/Ingress.lean ====
section
/-! DEFINITION. The ingress checks (R52) from the frame to step 12, for datagrams from hosts and from gang members. -/

namespace Sys2Proof.Machine

/-! ## Frames (R38 to R43, R428) -/

/-- Does a frame break R39 or the rules of R428, apart from its FCS? -/
def State.frameBad (s : State) (f : EthFrame) : Bool :=
  let p := f.link.port.val
  let sub := f.link.sub.val
  9216 < f.bytes || 1 < f.tags.length || f.ipExtra || f.fragment || !f.udpSumOk ||
    (if s.flag (HP.VLAN_EN p sub) then
      (match f.tags with
        | [t] => t.vid.toNat != s.get (HP.VID p sub)
        | _ => true)
    else !f.tags.isEmpty) ||
    (if f.ip6 then !s.flag (XPT.IPV6_EN p) else !s.flag (XPT.IPV4_EN p))

/-- The fill of a priority's ingress buffer judged (R41): XOFF past the threshold, XON 10 points below it. -/
def State.pfcFill (s : State) (l : HostLink) (prio pct : Nat) : State :=
  let p := l.port.val
  let thr := s.get (HP.PFC_XOFF_PCT p)
  let k := linkNo l * 8 + prio
  let off := mgetD s.net.xoff k 0 == 1
  if !s.flag (HP.PFC_EN p) || !bitOf (s.get (HP.PFC_PRIO p)) prio then s
  else if thr < pct && !off then
    (({ s with net := { s.net with xoff := mput s.net.xoff k 1 } }).inc (HP.PFC_TX p)).send (.pfc l prio true)
  else if pct ≤ thr - 10 && off then
    (({ s with net := { s.net with xoff := mdel s.net.xoff k } }).inc (HP.PFC_TX p)).send (.pfc l prio false)
  else s

/-- Codewords that FEC corrected, and those it could not (R39, R72). -/
def State.hostFec (s : State) (p corr uncorr : Nat) : State :=
  ((s.inc (HP.FEC_CORR p) corr).inc (HP.FEC_UNCORR p) uncorr).raiseIf (uncorr != 0) (HP.page p) HP.evFEC_UNCORR_EVT

/-- What every frame on a link that is up brings with it, whatever becomes of it: codewords (R72), and the fill of the ingress
buffer of its priority (R41). -/
def State.frameIn (s : State) (f : EthFrame) : State :=
  (s.hostFec f.link.port.val f.fecCorr f.fecUncorr).pfcFill f.link
    (match f.tags with
      | t :: _ => t.pcp.toNat
      | [] => 0) f.fillPct

/-- The bytes that a datagram's ICRC covers (R43). -/
def covered (d : Dgram) (op : Nat) : List Byte :=
  (match d.sealing with
    | none => []
    | some x => sealPrefix x.keyInst.toNat x.counter.toNat x.rsvd.toNat) ++
  encodeReq d.hdr op ++ d.payload ++
  (match d.sealing with
    | none => []
    | some x => x.tag)

/-- Is the datagram's ICRC right (R43)? -/
def icrcOk (d : Dgram) (op : Nat) : Bool := (crc32 (covered d op)) == d.icrc.toNat

/-- What becomes of a datagram at step 1: nothing to do with Rossil, dropped, or passed on with whether it came to the
sealed port. -/
inductive Step1 | other | dropped | pass (sealed : Bool)
  deriving DecidableEq, Repr

/-- Step 1 (R39, R43, R428): frame, encapsulation, ICRC, TYPE; with its counters. -/
def State.step1 (s : State) (d : Dgram) (op : Nat) : Step1 × State :=
  let f := d.frame
  let p := f.link.port.val
  let s := s.at f.time
  if !s.linkUp f.link then (.dropped, s)
  else if !f.fcsOk then (.dropped, (s.frameIn f).inc (HP.RX_FCS_ERR p))
  else
    let s := (s.frameIn f).inc (HP.RX_FRAMES p)
    if s.frameBad f then (.dropped, s.inc (XPT.RX_DROP p))
    else
      let clear := f.dstPort.toNat == s.get (XPT.UDP_PORT p)
      let sealed := f.dstPort.toNat == s.get (XPT.UDP_PORT_SEALED p)
      if !clear && !sealed then (.other, s)
      else if d.cut || d.sealing.isSome != sealed then (.dropped, s.inc (XPT.RX_DROP p))
      else if !icrcOk d op then (.dropped, (s.inc (XPT.RX_DROP p)).raise (XPT.page p) XPT.evICRC_ERR)
      else if d.hdr.typ != 0 then (.dropped, s.inc (XPT.RX_DROP p))
      else (.pass sealed, s)

/-- Step 2 (R69): seal conformance, and the datagram decrypted; the flag says that its tag failed. `none`: dropped. -/
def State.step2 (s : State) (d : Dgram) (op : Nat) (sealed : Bool) : Option (Dgram × Bool) × State :=
  let p := d.frame.link.port.val
  let drop : State := (s.inc (XPT.RX_DROP p)).raise (XPT.page p) XPT.evSEAL_DROP
  match d.sealing with
  | none => if s.flag (XPT.SEAL_REQUIRED p) then (none, drop) else (some (d, false), s)
  | some x =>
    if !sealed || !s.flag (XPT.SEAL_EN p) then (none, drop)
    else match s.keyFor 1 x.keyInst.toNat with
      | none => (none, drop)
      | some k =>
        let nonce := nonceOf x.keyInst.toNat x.counter.toNat
        let aad := sealPrefix x.keyInst.toNat x.counter.toNat x.rsvd.toNat ++ encodeReq d.hdr op
        let bad := gcmTagOf k.material nonce aad d.payload != x.tag
        let ch := s.get (XPT.SEAL_CH p)
        let ctx : MsgCtx := { inst := x.keyInst.toNat, nonce := nonce, aad := aad, data := d.payload }
        let s := (s.channelMsg ch d.payload.length 2 bad (ctx := ctx)).chargeLine ch (64 + d.payload.length)
        let s := if bad then (s.inc (XPT.AUTH_FAIL p)).raise (XPT.page p) XPT.evAUTH_FAIL_EVT else s
        (some ({ d with payload := gcmCrypt k.material nonce d.payload }, bad), s)

/-! ## Service (R13, R410) -/

/-- The minimum set of R13, in SYS.MIN_SET's order: supervisor, a curator that runs, image, epoch, host link (met while PARKED,
R343), commit engine, stack or channel, dies. DESIGN CHOICE (log entry 71): the commit engine is present and healthy while the
twin is in service; the enable of the CMT page does not enter. -/
def State.minSet (s : State) : List Bool :=
  [true, (List.range 4).any s.coreRuns, s.cur.verified, s.ep.state != .search,
   (List.range 16).any (fun p => s.get (HP.LINK_UP p) != 0) || s.pwr.park == .parked, s.cm.inService,
   (List.range 16).any s.memberUp, 18 ≤ s.goodDies.length]

/-- GNG.STATUS.FORMED (R160); a gang of one is formed once the GNG page is enabled (R158). -/
def State.gangOk (s : State) : Bool := s.gang.formed

/-- Is data service open (R13)? SYS.OPEN holds it. -/
def State.serviceUp (s : State) : Bool := s.flag SYS.OPEN

/-- What data service needs to stay open: the conditions of R13, R160, R187 and R200 apart from those that R14, R214 and
R312 ask for only at its opening (log entry 38). -/
def State.serviceHolds (s : State) : Bool :=
  ((s.minSet.eraseIdx 2).eraseIdx 1).all id && s.gangOk && 1 ≤ s.vhcEff && s.mus.state == .armed && s.cm.twin != .returning

/-- What data service needs to open. -/
def State.mayOpen (s : State) : Bool :=
  s.serviceHolds && s.minSet.all id && s.mc.fillDone && s.clk.lock

/-- OPEN falls where a condition has been lost (R13, R410). -/
def State.checkService (s : State) : State :=
  if s.serviceUp && !s.serviceHolds then (s.put SYS.OPEN 0).raise SYS.page SYS.evSERVICE_CLOSED else s

/-- What a command leaves of `s` when its effect is `t`: the frames that it gave the links sent, data service closed where a
condition of R13 has been lost, and the queue of commands as it was. -/
def State.settled (s t : State) : State := { t.flushLinks.checkService with pending := s.pending }

/-- The datapath runs: `f` of the state; else no effect (log entry 4). -/
def State.whenDp (s : State) (f : State → State) : State := if s.dpUp then s.settled (f s) else s

/-! ## Step 10 (R83, R84, R86, R87, R89, R98, R106) -/

/-- The class of queue that a command needs, and whether there is such a command. -/
def opClass (op : Nat) : Option Nat :=
  if op == 0x07 || op == 0 then none
  else if op ≤ 0x0A then some 1
  else if 0x10 ≤ op && op ≤ 0x12 then some 2
  else if 0x20 ≤ op && op ≤ 0x2F then some 0
  else none

/-- Privileged commands (R83). -/
def opPriv (op : Nat) : Bool := op == 0x24 || op == 0x25 || op == 0x29 || op == 0x2D || op == 0x2E || op == 0x2F

/-- May an ADMIN command be issued on queue 0 (R83)? -/
def opQueue0 (op : Nat) : Bool := op != 0x28 && op != 0x29 && op != 0x2A

/-- The length of a command's payload (R83, R84, R89, R286): fixed, or LENGTH + 1. -/
def payloadLen (op count : Nat) : Nat :=
  if op == 0x02 || op == 0x09 || op == 0x10 || op == 0x24 then count
  else if op == 0x03 || op == 0x12 then 16
  else if op == 0x04 then 32
  else if op == 0x05 || op == 0x21 || op == 0x25 || op == 0x27 || op == 0x2C || op == 0x2D || op == 0x2E || op == 0x2F then 8
  else if op == 0x22 || op == 0x23 || op == 0x29 then 32
  else if op == 0x26 then 40
  else if op == 0x28 then 16
  else if op == 0x2A then 56
  else if op == 0x2B then 128
  else 0

/-- Does a command leave OFFSET and LENGTH reserved (R47, R83)? -/
def rangeless (op : Nat) : Bool := op == 0x06 || op == 0x11 || op == 0x20 || op == 0x22 || op == 0x23 || (0x25 ≤ op && op ≤ 0x2F)

/-- The field rules of step 10: INVALID_FIELD or SECTOR_SPAN. -/
def fieldFault (h : ReqHdr) (op plen rsvd : Nat) : Option Nat :=
  let n := h.count
  let off := h.offset.toNat
  if !windowed op && (h.window != 0 || h.gen != 0 || h.wkey != 0) then some 0x02
  else if rangeless op && (h.offset != 0 || h.length != 0) then some 0x02
  else if plen != payloadLen op n || rsvd != 0 then some 0x02
  else if (op == 0x02 || op == 0x24) && 8192 < n then some 0x02
  else if (op == 0x08 || op == 0x09 || op == 0x0A) && (off % 4096 != 0 || n % 4096 != 0) then some 0x02
  else if op == 0x09 && 8192 < n then some 0x02
  else if (op == 0x03 || op == 0x05) && n != 8 || op == 0x04 && n != 16 then some 0x02
  else if (op == 0x03 || op == 0x04 || op == 0x05) && 4096 < off % 4096 + n then some 0x0D
  else if op == 0x10 && (2 ^ 17 ≤ off || off % 8192 != 0 || 8192 < n || (!bitOf off 16 && n != 8192)) then some 0x02
  else if op == 0x12 && off != 0 then some 0x02
  else none

/-- Step 10 on a queue (R83, R84): its status where it fails. Opcode faults come first, then privilege, then fields. -/
def State.step10 (s : State) (r : Req) (rsvd : Nat) : Option Nat :=
  let q := s.queue r.hdr.qid.toNat
  let first := r.hdr.qid == 0
  if opClass r.op != some q.cls then some 0x01
  else if first && (!opQueue0 r.op || (r.op == 0x23 && fieldBE r.payload 0 2 == 3)) then some 0x01
  else if !first && r.op == 0x2B then some 0x01
  else if zeroContract q r.op then some 0x01
  else if opPriv r.op && !q.priv then some 0x03
  else fieldFault r.hdr r.op r.payload.length rsvd

/-! ## Refusals before an entry, and duplicates (R53, R58) -/

/-- A NAK of steps 4 to 9: no entry. -/
def State.nak (s : State) (r : Req) (status : Nat) (retry : Bool) : State :=
  match r.ret with
  | some dst => s.sendNak dst r.hdr r.op status retry false (lat := s.latOf r.hdr r.time)
  | none => s

/-- A final NAK of step 4, 6 or 7, within the port's limit for the epoch (R53). -/
def State.finalNak (s : State) (r : Req) (port status : Nat) : State :=
  let n := mgetD s.net.naks port 0
  if s.get (XPT.NAK_LIMIT port) ≤ n then s.raise (XPT.page port) XPT.evNAK_LIMITED
  else ({ s with net := { s.net with naks := mput s.net.naks port (n + 1) } }).nak r status false

/-- A duplicate (R58). A refusal that this device never sent, on the twin that a window's duplex policy leaves silent, is not
sent for a duplicate either, until the device runs alone (R124; log entry 62). DESIGN CHOICE (log entry 71): RX_DUP counts every
duplicate. -/
def State.duplicate (s : State) (r : Req) (e : RrtEntry) (port : Nat) : State :=
  let s := s.inc (XPT.RX_DUP port)
  let r := { r with dup := true }
  if !e.answered then s
  else if e.isNak then
    match r.ret with
    | some dst => if s.inMask r.hdr && (!e.quiet || s.alone) then s.sendNak dst r.hdr r.op e.status false true e.told else s
    | none => s
  else if e.readOnly then
    if windowed r.op then
      let s := s.lookup port r.hdr.window.toNat
      match s.ingress11 r.hdr r.op (s.queue r.hdr.qid.toNat).domain with
      | (some st, s) =>
        (match r.ret with
          | some dst => if s.silent r then s else s.sendNak dst r.hdr r.op st false true
          | none => s)
      | (none, s) => s.runRead r
    else s.runRead r
  else s.respondAt r e.told e.status e.data

/-! ## The pipeline -/

/-- A recent-request entry for a request received (R56, R77, R60). -/
def State.receiveEntry (s : State) (r : Req) : State :=
  let h := r.hdr
  let n := h.qid.toNat
  let q := s.queue n
  let q := { q with
    inFlight := q.inFlight + 1, high := laterSeq q.high h.seq.toNat
    addrs := match r.ret with
      | some a => (s.ep.num, a) :: q.addrs.filter fun e => e.1 != s.ep.num && s.ep.num < e.1 + 32
      | none => q.addrs }
  let s := s.setQueue n q
  let s := s.setEntry { key := h.key, epoch := s.ep.num, readOnly := readOnly r.op r.payload, mute := !s.inMask h, ret := r.ret
                        time := r.time }
  ({ s with net := { s.net with count := s.net.count + 1 } }).capEvent

/-- Steps 4 to 12 (R52), for a request that has passed the first three. -/
def State.checks (s : State) (r : Req) (port rsvd : Nat) : State :=
  let h := r.hdr
  let n := h.qid.toNat
  let q := s.queue n
  let serving := s.cm.twin == .paired || s.cm.twin == .alone
  if !s.inMask h then s.finalNak r port 0x02
  else if (16 ≤ n && (!s.serviceUp || !s.gangOk)) || (n != 0 && !serving) then s.nak r 0x11 true
  else if n == 0 || q.state == .free || q.state == .deleting || q.key != h.qkey.toNat || q.srcEp != h.srcEp.toNat then
    s.finalNak r port 0x03
  else if q.state == .frozen then s.finalNak r port 0x0A
  else match s.entry h.key with
    | some e => s.duplicate r e port
    | none =>
      if !precedes q.floor h.seq.toNat then
        ((s.inc (XPT.RX_STALE port)).raise (XPT.page port) XPT.evSTALE).nak r 0x05 false
      else if precedes (s.credit n) h.seq.toNat then s.nak r 0x07 true
      else if 131072 - s.net.excess < s.net.count + 1 then
        s.capEvent.nak r 0x07 true
      else
        let s := s.receiveEntry r
        let reads := readOnly r.op r.payload
        match s.step10 r rsvd with
        | some st =>
          let s := s.refuse r st true
          if reads then s.cutFrozen else s.enter { r with refusal := some st }
        | none =>
          if !windowed r.op then s.step12 r
          else
            let s := s.lookup port h.window.toNat
            match s.ingress11 h r.op q.domain with
            | (some st, s) =>
              let s := s.refuse r st (!s.silent r)
              if reads then s.cutFrozen else s.enter { r with refusal := some st }
            | (none, s) => s.step12 r

/-- The gang position that a device ID names: this device's own board and its twin's (R165). -/
def State.memberOf (s : State) (id : Nat) : Option Nat :=
  (List.range 4).find? fun p => p != s.gangPos && p < 4 &&
    (match s.gang.peers.find? fun e => e.2.pos == p with
      | some (_, x) => x.devId == id || x.twinId == id
      | none => false)

/-- The bytes of a datagram as it goes on to another member, from the UDP header on (R170). -/
def fwdWire (d : Dgram) (op : Nat) : List Byte :=
  let b := covered d op ++ bytesBE 4 d.icrc.toNat
  bytesBE 2 d.frame.srcPort.toNat ++ bytesBE 2 d.frame.dstPort.toNat ++ bytesBE 2 (8 + b.length) ++
    bytesBE 2 d.frame.udpSum.toNat ++ b

/-- The return addresses of a datagram (R44). Its answers are sealed where it came sealed (log entry 62). -/
def retAddr (d : Dgram) (sealed : Bool) (drift : Option (Fin 3)) : RetAddr :=
  { link := d.frame.link, ip6 := d.frame.ip6, mac := d.frame.srcMac, ip := d.frame.srcIp, port := d.frame.srcPort
    tag := d.frame.tags.head?, sport := d.frame.dstPort, sealed := sealed, drift := drift }

/-- Does a sealed datagram wait: for its channel (R297), or for the mark of its instance (R290)? -/
def State.sealedWaits (s : State) (d : Dgram) : Bool :=
  s.chanWaits (s.get (XPT.SEAL_CH d.frame.link.port.val)) || (match d.sealing with
    | some x => s.keyWaits x.keyInst.toNat
    | none => false)

/-- Steps 2 to 12 for a datagram that has passed step 1 (R52, R69, R165). -/
def State.pipeline (s : State) (d : Dgram) (op : Nat) (sealed : Bool) (drift : Option (Fin 3)) : State :=
  let port := d.frame.link.port.val
  if sealed && s.sealedWaits d then { s with key := { s.key with haltRx := s.key.haltRx ++ [(op, d, drift)] } }
  else match s.step2 d op sealed with
    | (none, s) => s
    | (some (c, bad), s) =>
      let s := s.inc (XPT.RX_REQ port)
      let s := if c.hdr.retx then s.inc (XPT.RX_RETX port) else s
      let dst := c.hdr.dstDev.toNat
      let rsvd := match d.sealing with
        | some x => x.rsvd.toNat
        | none => 0
      if dst == s.get GNG.DEV_ID || dst == s.get GNG.TWIN_DEV_ID then
        s.checks { hdr := c.hdr, op := op, payload := c.payload, time := d.frame.time, epoch := s.ep.num
                   arrived := s.ep.num, authBad := bad, ret := some (retAddr d sealed drift), cells := d.cells } port rsvd
      else match s.memberOf dst with
        | none => s
        | some p =>
          if !s.flag GNG.FWD_EN || drift.isSome then s.inc (XPT.FWD port)
          else
            let j := s.linkTo p
            let w := fwdWire d op
            ((s.inc (XPT.FWD port)).inc (DFT.FWD_BYTES_TX j) w.length).sendDrift j 0x16 0
              (returnBlock (retAddr d sealed none) ++ w)

/-- A datagram received from a host, its OPCODE `op` (R52). Host ingress is stopped during a muster and while parked;
what arrives is then dropped without reply (R190, R191, R343). -/
def State.ingress (s : State) (d : Dgram) (op : Nat) : State :=
  s.whenDp fun s =>
    if s.mus.stopped || s.pwr.park == .parked || s.pwr.park == .parking then s
    else match s.step1 d op with
      | (.pass sealed, s) => s.pipeline d op sealed none
      | (_, s) => s

end Sys2Proof.Machine
end

