-- ==== Sys2Proof/Machine/Adit.lean ====
section
/-! DEFINITION. The adit link's frames (R151 to R154, R294) received, and the tallies and repairs that they carry (R132,
R134). -/

namespace Sys2Proof.Machine

/-- A frame dropped on receipt (R152). -/
def State.dropAdit (s : State) : State := (s.inc ADT.RX_DROP).raise ADT.page ADT.evFRAME_DROP

/-- The frame number of a received frame put into its place (R153): is the frame new, and the state that has asked for
what is missing. -/
def State.sequence (s : State) (fseq : Nat) : Bool × State :=
  let e := s.cm.rxSeq
  if !s.cm.rxAny || fseq == e then
    (true, { s with cm := { s.cm with rxSeq := (fseq + 1) % 2 ^ 32, rxAny := true } })
  else if precedes e fseq then
    let n := serialDiff fseq e
    let s := { s with cm := { s.cm with
      rxSeq := (fseq + 1) % 2 ^ 32, rxGap := s.cm.rxGap ++ ((List.range (min n 65535)).map fun i => (e + i) % 2 ^ 32) } }
    (true, (s.inc ADT.RESEND_TX).sendAdit 0x09 s.ep.num (bytesBE 4 e ++ bytesBE 2 (min n 65535) ++ [0, 0]))
  else if s.cm.rxGap.contains fseq then
    (true, { s with cm := { s.cm with rxGap := s.cm.rxGap.filter (· != fseq) } })
  else (false, s)

/-- The payload of a frame in its place of the order of frames (R153). -/
def State.inSequence (s : State) (f : LinkFrame) (p : List Byte) : Option (List Byte) × State :=
  match s.sequence f.fseq.toNat with
  | (true, s) => (some p, s)
  | (false, s) => (none, s)

/-- A frame whose CRC is right, sealed or in clear (R152, R154, R294): its payload, `none` where it is dropped. -/
def State.openAdit (s : State) (typ : Nat) (f : LinkFrame) : Option (List Byte) × State :=
  if !s.flag ADT.SEAL_EN then
    if f.tag.isEmpty then s.inSequence f f.body else (none, s.dropAdit)
  else match s.aditKey false with
    | none => (none, s.dropAdit)
    | some k =>
      let last := s.key.rxLast
      let up := serialDiff f.fseq.toNat (last % 2 ^ 32)
      let count := if up < 2 ^ 31 then last + up else last + up - 2 ^ 32
      let n := s.get ADT.SEAL_RX_KEY
      let bad := gcmTagOf k.material (nonceOf n count) (f.hdr typ) f.body != f.tag
      let s := s.channelMsg 17 f.body.length 1 bad (ctx := { inst := n, nonce := nonceOf n count, aad := f.hdr typ, data := f.body })
      if bad then (none, s.dropAdit)
      else
        ({ s with key := { s.key with rxLast := max last count } }).inSequence f (gcmCrypt k.material (nonceOf n count) f.body)

/-- Codewords of the adit link that FEC corrected, and those it could not (R151, R157). -/
def State.aditFec (s : State) (corr uncorr : Nat) : State :=
  ((s.inc ADT.FEC_CORR corr).inc ADT.FEC_UNCORR uncorr).raiseIf (uncorr != 0) ADT.page ADT.evFEC_UNCORR_EVT

/-- A frame received on the adit link: its payload in clear, `none` where it is dropped. While the channels are halted a
sealed frame waits (R297). -/
def State.recvAdit (s : State) (typ : Nat) (f : LinkFrame) : Option (List Byte) × State :=
  let s := s.at f.time
  if !s.dpUp || !s.flag ADT.LINK_UP then (none, s)
  else
    let s := s.aditFec f.fecCorr f.fecUncorr
    if s.flag ADT.SEAL_EN && s.chanWaits 17 then
      (none, { s with key := { s.key with haltAdit := s.key.haltAdit ++ [(typ, { f with fecCorr := 0, fecUncorr := 0 })] } })
    else
      let s := s.inc ADT.RX_FRAMES
      if f.crcOk typ then s.openAdit typ f else (none, s.dropAdit)

/-! ## Tallies (R132) -/

/-- A request's place in commit order (R135): SRC_EP, QUEUE_ID, then sequence from the queue's FLOOR. -/
def State.rankIn (s : State) (floors : NMap Nat) (k : ReqKey) : Nat :=
  let q := k.qid.toNat
  (k.srcEp.toNat * 2 ^ 15 + q) * 2 ^ 32 + serialDiff k.seq.toNat (mgetD floors q (s.queue q).floor)

/-- Keys in commit order. -/
def State.inOrder (s : State) (floors : NMap Nat) (ks : List ReqKey) : List ReqKey :=
  sortBy (fun a b => s.rankIn floors a ≤ s.rankIn floors b) ks

/-- Runs of consecutive sequences of one source and queue, of at most 4,096 (R132). -/
def tallyRuns : List ReqKey → List (ReqKey × Nat)
  | [] => []
  | k :: ks => match tallyRuns ks with
    | (h, n) :: rest =>
      if h.srcEp == k.srcEp && h.qid == k.qid && h.seq == k.seq + 1 && n < 4096 then (k, n + 1) :: rest
      else (k, 1) :: (h, n) :: rest
    | [] => [(k, 1)]

/-- A tally entry (R132). -/
def tallyEntry (e : ReqKey × Nat) : List Byte :=
  bytesBE 3 e.1.srcEp.toNat ++ [0] ++ bytesBE 2 e.1.qid.toNat ++ bytesBE 2 (e.2 - 1) ++ bytesBE 4 e.1.seq.toNat

/-- The keys that an entry's 12 bytes name. -/
def entryKeys (b : List Byte) : List ReqKey :=
  (List.range (fieldBE b 6 2 % 4096 + 1)).map fun i =>
    ⟨BitVec.ofNat 24 (fieldBE b 0 3), BitVec.ofNat 15 (fieldBE b 4 2), BitVec.ofNat 32 (fieldBE b 8 4 + i)⟩

/-- The tally of epoch `n` sent (R132). -/
def State.sendTally (s : State) (n : Nat) : State :=
  let e := s.epochRec n
  let runs := tallyRuns (s.inOrder e.floors e.own)
  let bytes := (e.own.map fun k => match mget e.reqs k.code with
    | some r => if r.refusal.isNone then writeBytes r else 0
    | none => 0).sum
  let fixed := bytesBE 8 n ++ bytesBE 8 s.cm.hash ++ bytesBE 8 s.cm.placed ++ bytesBE 8 e.calSec ++
    bytesBE 4 s.cm.claim ++ bytesBE 4 runs.length ++ bytesBE 4 bytes ++
    [BitVec.ofNat 8 (s.pwr.twinPos % 2 + 2 * b2n (s.ep.state == .holdover)), 0, 0, 0]
  let first := (runs.take 1361).flatMap tallyEntry
  let rest := chunks 1365 (runs.drop 1361)
  let s := s.setEpochRec n { e with ownSent := true }
  let s := { s with cm := { s.cm with told := s.cm.placed } }
  let s := s.sendAdit 0x01 n (fixed ++ first) rest.isEmpty
  (List.range rest.length).foldl (fun s i =>
    s.sendAdit 0x01 n ((rest.getD i []).flatMap tallyEntry) (i + 1 == rest.length)) s

/-- A REPAIR frame for a key (R134): header and payload of a staged request, or header and recorded status of a refused one.
A staged request whose seal tag failed has AUTH_FAILED recorded (R71), and both go with it (log entry 23). -/
def State.sendRepair (s : State) (n : Nat) (r : Req) : State :=
  let st := if r.authBad then 0x10 else r.refusal.getD 0
  s.sendAdit 0x02 n ([BitVec.ofNat 8 st, 0, 0, 0] ++ encodeReq r.hdr r.op ++ (if r.refusal.isNone then r.payload else []))

/-- RESUME (R152). -/
def State.resumeFrame (s : State) (twin : TwinState) (valid fresh : Bool) : State :=
  s.sendAdit 0x05 s.ep.num (bytesBE 4 s.cm.claim ++
    [BitVec.ofNat 8 twin.code, BitVec.ofNat 8 (b2n valid + 2 * b2n fresh), 0, 0] ++ bytesBE 8 s.cm.committed ++
    bytesBE 8 s.cm.hash)

end Sys2Proof.Machine
end

