-- ==== Sys2Proof/Machine/Firmware.lean ====
section
/-! DEFINITION. The ADMIN commands that end later or act on other parts: FIRMWARE DOWNLOAD and COMMIT (R107, R108, R350),
CENSUS CLEAR (R376), CLOCK SET (R379), MUSTER (R189 to R198). -/

namespace Sys2Proof.Machine

/-! ## Firmware -/

/-- The NOR bank that does not run (R107). -/
def State.inactiveBank (s : State) : Nat := 1 - s.cur.active

/-- Does a range overlap the bytes already written in the download? -/
def State.dlOverlap (s : State) (off n : Nat) : Bool := s.cur.dlRanges.any fun e => overlaps e.1 e.2 off n

/-- The erases and programs of a download at an offset of the inactive bank: each sector is erased when the download
first writes into it (R107). -/
def State.dlOps (s : State) (off : Nat) (bs : List Byte) : List NorOp :=
  let base := s.inactiveBank * 2 ^ 24
  let ws := wordsLE (bs.length / 4) bs
  (List.range ws.length).flatMap fun i =>
    let a := off + 4 * i
    let sec := a / 4096
    let first := !s.cur.dlSectors.contains sec && (i == 0 || a % 4096 == 0)
    (if first then [{ erase := true, addr := base + sec * 4096, owner := .firmware }] else []) ++
      [{ erase := false, addr := base + a, data := ws.getD i 0, owner := .firmware }]

/-- The next of a bank's operations begun; the flag says that it was refused instead: the program of a download that meets a
word that is not erased, with which the download's command ends (R107, R352). -/
def State.norNext (s : State) (bank : Nat) (ops : List NorOp) : Bool × State :=
  match ops with
  | op :: _ =>
    if op.owner == .firmware && !op.erase && s.norWord op.addr != norErased then
      (true, ((s.norBegin bank []).inc NOR.NOT_ERASED).raise NOR.page NOR.evNOT_ERASED_EVT)
    else (false, s.norBegin bank ops)
  | [] => (false, s.norBegin bank [])

/-- What a download takes note of when one of its operations ends (R107): a sector erased, or a word written. -/
def State.dlDone (s : State) (op : NorOp) : State :=
  let a := op.addr % 2 ^ 24
  if op.erase then { s with cur := { s.cur with dlSectors := addTo s.cur.dlSectors (a / 4096) } }
  else { s with cur := { s.cur with
    dlBytes := s.cur.dlBytes + 4
    dlRanges := match s.cur.dlRanges with
      | (o, n) :: rest => if o + n == a then (o, n + 4) :: rest else (a, 4) :: (o, n) :: rest
      | [] => [(a, 4)] } }

/-- The first firmware command answered and gone. -/
def State.fwEnd (s : State) (status : Nat) : State :=
  match s.cur.fw with
  | [] => s
  | r :: rest => ({ s with cur := { s.cur with fw := rest } }).adminAnswer r r.epoch status []

/-- Is curator 0 busy with a firmware command? -/
def State.fwBusy (s : State) : Bool :=
  s.cur.verifying.isSome || s.cur.busy.any (fun e => e.2.owner == .firmware) ||
    s.cur.todo.any fun e => e.2.any fun o => o.owner == .firmware

/-- Curator 0 begins the first firmware command: its status where it ends at once (R107, R108). -/
def State.fwBegin (s : State) (r : Req) : Option Nat × State :=
  if r.op == 0x24 then
    let off := r.hdr.offset.toNat
    let n := r.payload.length
    if off % 4 != 0 || n % 4 != 0 || 2 ^ 24 < off + n || (off != 0 && s.dlOverlap off n) then (some 0x02, s)
    else
      let s := if off == 0 then
          { s with cur := { s.cur with dlBytes := 0, dlRanges := [], dlSectors := [] } }
        else s
      let (bad, s) := s.norNext s.inactiveBank (s.dlOps off r.payload)
      (if bad then some 0x09 else none, s)
  else if 2 ≤ fieldBE r.payload 0 1 || !allZero (slice r.payload 1 7) || s.cur.dlBytes == 0 then (some 0x02, s)
  else (none, { s with cur := { s.cur with verifying := some (s.inactiveBank, true) } })

/-- The firmware commands that wait begun, in commit order, while the bank they need is free. -/
def State.fwPump : Nat → State → State
  | 0, s => s
  | n + 1, s => match s.cur.fw with
    | [] => s
    | r :: _ =>
      if s.fwBusy || s.norBusy s.inactiveBank || !s.cur.waits.isEmpty then s
      else match s.fwBegin r with
        | (some st, s) => State.fwPump n (s.fwEnd st)
        | (none, s) => s

/-- A firmware command committed (R350): DEGRADED_REFUSED without a ready curator, else handed to curator 0. The recovery
loader serves queue 0 alone (R359). -/
def State.fwCommand (s : State) (r : Req) : Option Nat × State :=
  if !s.flag CUR.FW_READY && !(s.cur.recovery && r.hdr.qid == 0) then (some 0x0F, s)
  else
    let s := { s with cur := { s.cur with fw := s.cur.fw ++ [r] } }
    (none, State.fwPump s.cur.fw.length s)

/-! ## Census and calendar -/

/-- CENSUS CLEAR (R376): its status where it is refused; otherwise the erases of bank 3 have begun. -/
def State.censusClear (s : State) (r : Req) : Option Nat × State :=
  if fieldBE r.payload 4 4 != 0 || s.cen.newest != some (fieldBE r.payload 0 4) then (some 0x02, s)
  else
    let s := { s with cen := { s.cen with clearAnswer := s.cen.clearAnswer ++ [r] } }
    if s.cen.clearing then (none, s)
    else
      let secs := ((s.cur.words.filter fun e => censusAddr 0 ≤ e.1).map fun e => e.1 / 4096).eraseDups
      let s := { s with cen := { s.cen with clearing := true } }
      (none, s.norBegin 3 (secs.map fun i => { erase := true, addr := 4096 * i, owner := .census }))

/-- CLOCK SET (R379). -/
def State.clockSet (s : State) (r : Req) : Nat × State :=
  let f (o n : Nat) : Nat := fieldBE r.payload o n
  if f 7 1 != 0 then (0x02, s)
  else match s.calSet (f 0 2) (f 2 1) (f 3 1) (f 4 1) (f 5 1) (f 6 1) with
    | (true, s) => (0, s)
    | (false, s) => (0x02, s)

/-! ## The start of a muster (R189, R190) -/

/-- The host SerDes and the drift links powered off (R190 step 3). -/
def State.linksOff (s : State) : State :=
  let s := { s with pwr := { s.pwr with hostSerdes := false } }
  (List.range 3).foldl (fun s j => s.put (DFT.LINK_UP j) 0) s

/-- Step 3 (R190, R198): queued answers are sent, the MUSTER commands are answered, the links go off; `next` follows. -/
def State.musterStep3 (s : State) (next : MusStep) : State :=
  let rs := s.mus.answers
  let s := { s with mus := { s.mus with step := next, answers := [] } }.flushWaiting
  (rs.foldl (fun s r => s.adminAnswer r r.epoch 0 []) s).flushLinks.linksOff

/-- The slots of a log whose groups have been programmed or are in flight: what has been appended past them is given up. -/
def FlashLog.issued (l : FlashLog) (journal : List StripeEntry) : FlashLog :=
  let n := (journal.filter fun e => e.sb == l.sb).foldl (fun a e => max a (12 * e.group + 12)) l.programmed
  { l with slots := l.slots.take n }

/-- The programs in flight aborted (R263); those that wait to begin are given up. Which group of a merge's destination is in
flight is free, from the first that it programs on (log entry 70). -/
def State.abortPrograms (s : State) : State :=
  let (v, s) := if s.par.journal.any fun e => e.kind % 2 = 1 then s.freeNat else (0, s)
  let group (e : StripeEntry) : Nat := if e.kind % 2 = 1 then e.group + v % max 1 (512 - e.group) else e.group
  let journal := s.par.journal.map fun e => { e with group := group e, aborted := true }
  { s with fl := { s.fl with logs := mmap (fun _ l => l.issued journal) s.fl.logs }
           par := { s.par with journal := journal, queued := [] } }

/-- Step 1 of R190: admission stops, what is not yet admitted is dropped, moves abandon, DEPART is sent. In START with restore
unfinished the muster is the shortened one of R194: step 3 follows at once. -/
def State.beginMuster (s : State) (cause : Nat) : State :=
  let short := s.mus.state == .unready || s.mus.state == .restoring
  let s := { s with
    mus := { s.mus with state := .mustering, step := .commit, cause := cause, stopped := true }
    net := { s.net with held := [] }
    key := { s.key with haltRx := [] } }
  let s := ((s.tier.ext.filter fun e => e.2.move.isSome).map (·.1)).foldl State.abandonMove s
  let s := if cause == 5 then s else s.abortPrograms
  let s := s.sendAdit 0x07 s.ep.num []
  let s := (s.raise MUS.page MUS.evMUSTER_START).census 11 0
  if short then s.musterStep3 .record else s

/-- Does a muster trigger wait for the NOR (R356)? -/
def State.musterWaits (s : State) : Bool := s.cur.waits.any fun w => match w with
  | .muster _ => true
  | .reset _ _ | .off => false

/-- A muster trigger (R189): recorded; while a muster runs, nothing more. The time, V and CAL_SEC are those of its detection
(R190, R193). A NOR operation in flight finishes first (R356). -/
def State.musterTrigger (s : State) (cause : Nat) : State :=
  let s := { s with mus := { s.mus with causes := setBit s.mus.causes cause true } }
  if s.mus.state == .mustering || s.mus.state == .mustered || s.musterWaits then s
  else
    let s := { s with mus := { s.mus with t0 := s.now, ep0 := s.ep.num, v0 := s.volUnits, cal0 := s.cal.sec } }
    if s.norInFlight then { s with cur := { s.cur with waits := s.cur.waits ++ [.muster cause] } }
    else s.beginMuster cause

/-- MUSTER (R198): INVALID_FIELD for reserved bits; otherwise the muster starts, and the answer is sent at step 3. -/
def State.musterCommand (s : State) (r : Req) (cause : Nat) : Option Nat × State :=
  if 2 ≤ fieldBE r.payload 0 1 || !allZero (slice r.payload 1 7) then (some 0x02, s)
  else
    let runs := s.mus.state == .mustering || s.mus.state == .mustered || s.musterWaits
    let s := { s with mus := { s.mus with
      answers := s.mus.answers ++ [r], mode := if runs then s.mus.mode else cause == 4 && fieldBE r.payload 0 1 == 1 } }
    (none, s.musterTrigger cause)

end Sys2Proof.Machine
end

