-- ==== Sys2Proof/Machine/Twin.lean ====
section
/-! DEFINITION. The twin protocol's states (R139 to R148): claims, what loss of the peer and divergence do, empty
committed state, and the compare of hashes (R138). -/

namespace Sys2Proof.Machine

/-! ## Claims (R139, R140) -/

/-- A new claim in force and in the claim log. -/
def State.setClaim (s : State) (c : Nat) : State :=
  ({ s with cm := { s.cm with claim := c, claimLogged := true } }.logClaim c).raise CMT.page CMT.evCLAIM_CHANGE

/-- Are tallies exchanged: not during a muster of another cause than 4 (R191)? -/
def State.tallies (s : State) : Bool := !s.mus.stopped || s.mus.cause == 4

/-! ## Epochs and unions (R132 to R135) -/

/-- Does this twin's own key set stand for the union (R143)? -/
def State.soloEpoch (s : State) (e : EpochRec) : Bool := e.solo || s.cm.twin == .alone

/-- The keys of the union of epoch `n` as far as they are known. -/
def State.unionOf (s : State) (e : EpochRec) : List ReqKey :=
  if s.soloEpoch e then e.reqs.map fun q => q.2.hdr.key
  else if s.cm.twin == .returning then e.peer.keys
  else e.own ++ e.peer.keys.filter fun k => !e.own.contains k

/-- Does the peer's tally name every key of the twin's own? -/
def EpochRec.peerCovers (e : EpochRec) : Bool := e.peer.whole && e.own.all e.peer.keys.contains

/-- Does the twin know that the peer holds the union (R134)? -/
def EpochRec.peerWhole (e : EpochRec) : Bool := e.peerHolds || e.peerCovers

/-- Does the twin hold every key of the union (R134)? -/
def EpochRec.holdsUnion (e : EpochRec) : Bool :=
  e.peer.whole && e.peer.keys.all fun k => (mget e.reqs k.code).isSome

/-- The epoch that commits next: the first that has ended and is not committed. -/
def State.nextEpoch (s : State) : Option Nat := s.cm.ended.head?

/-- An epoch put among those to commit, in ascending order. -/
def State.endEpoch (s : State) (n : Nat) : State :=
  if s.cm.ended.contains n || n ≤ s.cm.committed then s
  else { s.setEpochRec n (s.epochRec n) with cm := { (s.setEpochRec n (s.epochRec n)).cm with
    ended := insertBy (fun a b => a ≤ b) n s.cm.ended } }

/-! ## Losing the peer (R138, R144) -/

/-- Event 0x0004: SINGLE_TWIN entered or left (R105). -/
def State.postSingle (s : State) (b : Bool) : State := s.post none 0x0004 0 (b2n b)

/-- Into ALONE, in service (R143). -/
def State.enterAlone (s : State) : State :=
  { s with cm := { s.cm with twin := .alone, inService := true, empties := 0, departed := false, next := .stay } }

/-- This twin goes on alone with what it holds (R138, R144, R146): ALONE, event 0x0004, and the keys that only the peer named
dropped. -/
def State.goAlone (s : State) : State :=
  let s := s.enterAlone
  let cut (e : EpochRec) : EpochRec :=
    let gone := e.peer.keys.filter fun k => (mget e.reqs k.code).isNone && !e.own.contains k
    { e with dropped := gone.map ReqKey.code, extended := true }
  let recs := mmap (fun _ e => cut e) s.cm.ep
  let n := (recs.map fun e => if e.2.committed then 0 else e.2.dropped.length).sum
  (({ s with cm := { s.cm with ep := recs } }).inc CMT.DROPPED n).postSingle true

/-- A declaration of loss (R144): claim + 2, ALONE, the events. -/
def State.declareLost (s : State) : State :=
  let s := (s.setClaim (s.cm.claim + 2)).goAlone
  let s := (s.raise CMT.page CMT.evTWIN_LOST).census 10 0
  (s.post none 0x0003 0 s.q.scale).raise QMG.page QMG.evGUARANTEE_CHANGE

/-- A journal with no record, its key kept (R271). -/
def Journal.blank (j : Journal) : Journal := { keyInst := j.keyInst }

/-- Empty committed state (R148): queues, domains, windows, extents, records, and H. -/
def State.emptyCommitted (s : State) : State :=
  { s with
    q := { s.q with q := [], pages := [], refigure := true }
    win := { s.win with dom := [], win := [], wlb := mmap (fun _ _ => {}) s.win.wlb, reported := [], tables := [] }
    tier := {}
    mem := []
    acc := { s.acc with jrn := (mmap (fun _ j => Journal.blank j) s.acc.jrn).filter fun e => e.2 != {} }
    net := { s.net with rrt := [], held := [], reads := [], count := 0, excess := 0 }
    cm := { s.cm with
      hash := 0, ep := [], ended := [], unplaced := [], flushes := [], staged := [], empties := 0, departed := false
      lastCal := none } }

/-- Into RETURNING (R138, R143, R146): what the twin held as committed state is given up, to be received again. -/
def State.enterReturning (s : State) : State :=
  let s := { s with cm := { s.cm with
    twin := .returning, inService := false, next := .stay, rehomed := [], rehomeUpTo := 0, rehomeHigh := [], rehomeDone := false
    unions := 0, agrees := false, rehomeSrc := false, rehomeRecs := false } }
  let s := { s.emptyCommitted with fl := { s.fl with lbt := [], logs := [], sbs := [], draining := [] }
                                   par := { s.par with lost := [], journal := [], queued := [], rebuildLeft := 0 } }
  s.raise CMT.page CMT.evREHOME_START

/-- What follows when the hashes differ (R138): the lower claim yields and returns; the higher commits nothing more and
is alone from the next boundary, with its claim unchanged (R139). -/
def State.diverge (s : State) (peerClaim : Nat) : State :=
  let s := ({ s with cm := { s.cm with diverged := true } }).raise CMT.page CMT.evDIVERGED_EVT
  if s.cm.claim < peerClaim then
    let s := (s.sendAdit 0x08 s.ep.num []).enterReturning
    { s with cm := { s.cm with resumeSent := false } }
  else s

/-- Has the first frame of the peer's tally arrived? -/
def PeerTally.begun (p : PeerTally) : Bool := p.first

/-- HASH_PREV compared once this twin's own commit of the epoch before is finished (R138). While the copy of re-homing
runs, the returning twin takes the serving twin's H (log entry 22). -/
def State.compareHash (s : State) : State :=
  match s.nextEpoch with
  | none => s
  | some n =>
    let e := s.epochRec n
    if !e.peer.begun || s.soloEpoch e then s
    else if s.cm.twin == .paired then
      if e.peer.hashPrev != s.cm.hash && !s.cm.diverged then s.diverge e.peer.claim else s
    else if s.cm.twin == .returning then
      if !s.cm.rehomeDone then { s with cm := { s.cm with hash := e.peer.hashPrev } }
      else { s with cm := { s.cm with agrees := e.peer.hashPrev == s.cm.hash } }
    else s

/-! ## Tallies, repairs and unions sent (R132, R134) -/

/-- The tally of the epoch that commits next sent, where its HASH_PREV is now known. -/
def State.sendTallies (s : State) : State :=
  match s.nextEpoch with
  | none => s
  | some n =>
    let e := s.epochRec n
    if e.ownSent || !s.tallies then s
    else if s.cm.twin == .paired && !e.solo then s.sendTally n
    else if s.cm.twin == .paired || (s.cm.twin == .alone && s.cm.rehomeSrc) then
      e.reqs.foldl (fun s q => s.sendRepair n q.2) (s.sendTally n)
    else s

/-- What a twin sends once both tallies are there (R134): a REPAIR for each key that the peer lacks. -/
def State.repairPeer (s : State) (n : Nat) : State :=
  let e := s.epochRec n
  if s.cm.twin != .paired || !e.peer.whole || e.repaired || e.solo || !s.cm.ended.contains n then s
  else
    let s := s.setEpochRec n { e with repaired := true }
    (e.own.filter fun k => !e.peer.keys.contains k).foldl (fun s k =>
      match mget e.reqs k.code with
      | some r => s.sendRepair n r
      | none => s) s

/-- UNION_WHOLE, once, when the twin holds the union and its tally does not name all of the peer's keys (R134). -/
def State.sayWhole (s : State) (n : Nat) : State :=
  let e := s.epochRec n
  if s.cm.twin != .paired || e.saidWhole || !e.holdsUnion || e.peer.keys.all e.own.contains || !s.cm.ended.contains n then s
  else (s.setEpochRec n { e with saidWhole := true }).sendAdit 0x03 n []

/-! ## Acknowledgements (R51, R61) -/

/-- The keys that an ACK of epoch `n` lists: those held, received or repaired, and the reads received. -/
def State.ackKeys (s : State) (n : Nat) : List ReqKey :=
  let e := s.epochRec n
  ((e.reqs.filter fun q => s.inMask q.2.hdr).map fun q => q.2.hdr.key) ++
    ((s.net.rrt.filter fun q => q.2.epoch == n && q.2.readOnly && !q.2.mute).map fun q => q.2.key)

/-- The return addresses of a queue's most recent request of epoch `n` (R61): the latest to arrive of those staged with the
epoch and of the reads received in it. -/
def State.ackTo (s : State) (n qid : Nat) : Option RetAddr :=
  let staged := ((s.epochRec n).reqs.filter fun q => q.2.hdr.qid.toNat == qid).filterMap fun q => q.2.ret.map (q.2.time, ·)
  let reads := (s.net.rrt.filter fun q => q.2.epoch == n && q.2.readOnly && q.2.key.qid.toNat == qid).filterMap fun q =>
    q.2.ret.map (q.2.time, ·)
  ((staged ++ reads).foldl (fun (a : Option (Nat × RetAddr)) x => match a with
    | none => some x
    | some y => if y.1 ≤ x.1 then some x else a) none).map (·.2)

/-- The ACKs of one queue and source for epoch `n` (R51, R61); where the epoch's requests came by repair alone, to the return
addresses of the queue's most recent request (log entry 10). -/
def State.ackQueue (s : State) (n qid src : Nat) (seqs : List Nat) : State :=
  let q := s.queue qid
  match (s.ackTo n qid).orElse fun _ => q.addrs.head?.map (·.2) with
  | none => s
  | some dst =>
    let seqs := sortBy (fun a b => serialDiff a q.floor ≤ serialDiff b q.floor) seqs
    let per := max 1 (min 64 (s.get (XPT.ACK_RUNS_MAX dst.link.port.val)))
    (chunks per (runsOf 65535 seqs)).foldl (fun s rs =>
      let h : ReqHdr := { srcEp := BitVec.ofNat 24 src, qid := BitVec.ofNat 15 qid }
      s.sendDgram dst { s.ansHdr 2 h 0 with segment := rs.length, epochLo := n % 65536 } (ackRuns rs)) s

/-- The ACKs of epoch `n` sent, once. -/
def State.ackEpoch (s : State) (n : Nat) : State :=
  let e := s.epochRec n
  if e.acked then s
  else
    let s := s.setEpochRec n { e with acked := true }
    let ks := s.ackKeys n
    let qs := (ks.map fun k => (k.qid.toNat, k.srcEp.toNat)).eraseDups
    qs.foldl (fun s q => s.ackQueue n q.1 q.2
      ((ks.filter fun k => k.qid.toNat == q.1 && k.srcEp.toNat == q.2).map fun k => k.seq.toNat)) s

end Sys2Proof.Machine
end

