-- ==== Sys2Proof/Machine/Commit.lean ====
section
/-! DEFINITION. Commit (R134 to R138): what a committed key does, the record that the state hash takes of it, placement
(R136), and what follows for reads, FLUSH, acknowledgements and other members. -/

namespace Sys2Proof.Machine

/-! ## What a key does at commit -/

/-- A status alone. -/
def plain (x : Nat × State) : Done × State := (ended x.1, x.2)

/-- A status, or an answer that comes later. -/
def orLater (x : Option Nat × State) : Done × State :=
  match x.1 with
  | some st => (ended st, x.2)
  | none => ({ later := true }, x.2)

/-- The same for a command whose status is each twin's own: it commits with STATUS 0x00 at both (R350, R376). -/
def ownStatus (x : Option Nat × State) : Done × State :=
  let (d, s) := orLater x
  ({ d with hash := some 0 }, s)

/-- Must a table change be refused because a member is lost (R168)? -/
def State.tableBlocked (s : State) : Bool := s.gang.formed && !s.gang.lost.isEmpty

/-- A state-changing ADMIN command (R83) of epoch `n`: it commits in the current epoch (log entry 14). In a gang, quotas
change with the other members' at the boundary (R169). -/
def State.commitAdmin (s : State) (r : Req) (n cal : Nat) : Done × State :=
  let c := s.ep.num
  if r.op == 0x23 then plain (s.setFeature r)
  else if r.op == 0x24 || r.op == 0x25 then ownStatus (s.fwCommand r)
  else if r.op == 0x26 then plain (s.queueCreate r)
  else if r.op == 0x27 then plain (s.queueDelete r c)
  else if r.op == 0x28 then plain (s.queueRestart r n cal)
  else if r.op == 0x29 then
    if s.tableBlocked then (ended 0x0F, s)
    else
      let (x, t) := s.domainManage r.payload
      ({ status := x.1, data := x.2 }, if s.gangN != 1 && fieldBE r.payload 0 1 == 2 then s else t)
  else if r.op == 0x2A then
    if s.tableBlocked then (ended 0x0F, s)
    else match parseWin r.payload with
      | none => (ended 0x02, s)
      | some q =>
        if !s.mayManage (s.queue r.hdr.qid.toNat) q then (ended 0x03, s)
        else match s.windowManage q c cal (some r) with
          | ((st, some data), s) => ({ status := st, data := data }, s)
          | ((_, none), s) => ({ later := true }, s)
  else if r.op == 0x2D then ownStatus (s.censusClear r)
  else if r.op == 0x2E then plain (s.clockSet r)
  else orLater (s.musterCommand r (if r.hdr.qid == 0 then 3 else 4))

/-- A staged request executed in epoch `n` (R121, R136): judged again, then its command. -/
def State.execute (s : State) (r : Req) (n cal : Nat) (cells : List CellFault) : Done × State :=
  let q := s.queue r.hdr.qid.toNat
  match r.refusal with
  | some st => (ended st, s)
  | none =>
    if s.frozenAfter r then (ended 0x0A, s)
    else if r.authBad then (ended 0x10, s)
    else
      let v := if windowed r.op then s.judge11 r.hdr r.op q.domain n (some cal) else none
      match s.verdict11 r.hdr r.op q.domain v with
      | (some st, s) => (ended st, s)
      | (none, s) =>
        if (r.op == 0x02 || r.op == 0x09) && s.needsLost r.hdr then (ended 0x0F, s)
        else if r.op == 0x02 || r.op == 0x09 then s.commitWrite n r
        else if r.op == 0x03 || r.op == 0x05 then s.commitAtomic n r 8 cells
        else if r.op == 0x04 then s.commitAtomic n r 16 cells
        else if r.op == 0x06 then
          ({ later := true }, { s with cm := { s.cm with flushes := s.cm.flushes ++ [(r, n)] } })
        else if r.op == 0x0A then s.commitDiscard n r
        else if r.op == 0x10 then s.commitAppend n r cal
        else if r.op == 0x11 then s.commitSeal n r cal
        else s.commitAdmin r n cal

/-- The commit record of a key (R137, R429). -/
def recordOf (r : Req) (d : Done) : List Byte :=
  let st := d.hash.getD d.status
  let ok := st == 0
  let crc := if ok then (if 0x20 ≤ r.op then crc32 r.payload else d.crc) else 0
  commitRecord r.hdr.key r.op st (if ok then d.bytes else 0) (if ok then d.addr else 0) crc

/-- The place in order of the next table change (R169): past every one that waits. -/
def State.nextTable (s : State) : Nat := s.win.tables.foldl (fun m t => max m (t.2.1 + 1)) 0

/-- A table change that commits in the current epoch C sent to every other member, and put with theirs for the boundary that
begins C + 1 (R169). -/
def State.sendTable (s : State) (r : Req) : State :=
  if s.gangN == 1 then s
  else
    let c := s.ep.num
    let s := { s with win := { s.win with tables := s.win.tables ++ [(s.gangPos, s.nextTable, c, r.payload)] } }
    (List.range 3).foldl (fun s j => s.sendDrift j 0x11 c (bytesBE 8 c ++ encodeReq r.hdr r.op ++ r.payload)) s

/-! ## Re-homing: writes above the copy boundary (R149) -/

/-- Does a write of epoch `n` to an extent reach the returning twin through the copy? -/
def State.byCopy (s : State) (n e : Nat) : Bool :=
  (!s.cm.rehomeDone && s.cm.rehomeUpTo ≤ e) ||
    (match mget s.cm.rehomed e with
      | some m => n ≤ m
      | none => false)

/-- What a commit left, with every extent that the copy brings as it was before. -/
def State.keepCopied (s t : State) (n : Nat) : State :=
  let hide (e : Nat) : Bool := s.byCopy n e
  let pick {α : Type} (ext : Nat → Nat) (old new : NMap α) : NMap α :=
    (old.filter fun x => hide (ext x.1)).foldl (fun m x => mput m x.1 x.2) (new.filter fun x => !hide (ext x.1))
  { t with
    mem := pick extOf s.mem t.mem
    tier := { t.tier with
      ext := pick id s.tier.ext t.tier.ext
      poison := (t.tier.poison.filter fun x => !hide (x / 16)) ++ s.tier.poison.filter fun x => hide (x / 16)
      untrusted := (t.tier.untrusted.filter fun x => !hide (x / 16)) ++ s.tier.untrusted.filter fun x => hide (x / 16) }
    par := { t.par with lost := pick id s.par.lost t.par.lost } }

/-! ## Placement (R128, R136, R167) -/

/-- PLACE_END to every other member (R167, R170). -/
def State.sendPlaceEnd (s : State) (n : Nat) : State :=
  if s.gangN == 1 then s
  else (List.range 3).foldl (fun s j => s.sendDrift j 0x12 n []) s

/-- PLACED_EPOCH past every committed epoch that has nothing left to place. -/
def State.advancePlaced : Nat → State → State
  | 0, s => s
  | k + 1, s => match s.cm.unplaced with
    | [] => s
    | n :: rest =>
      if !(s.epochRec n).toPlace.isEmpty then s
      else
        let s := { s with cm := { s.cm with placed := n, unplaced := rest } }
        let s := { s with cm := { s.cm with staged := s.cm.staged.filter fun e => n ≤ e.1 } }
        State.advancePlaced k (s.sendPlaceEnd n)

/-- Does a FLUSH of epoch `n` still wait for an earlier write of its queue and source (R88, R128)? -/
def State.flushWaits (s : State) (r : Req) (n : Nat) : Bool :=
  s.cm.ep.any fun e => e.1 ≤ n &&
    (s.cm.placed < e.1 || (s.cm.twin == .paired && (s.cm.told < e.1 || s.cm.peerPlaced < e.1))) &&
    e.2.reqs.any fun q => isWrite q.2.op && q.2.hdr.qid == r.hdr.qid && q.2.hdr.srcEp == r.hdr.srcEp &&
      (e.1 < n || precedes q.2.hdr.seq.toNat r.hdr.seq.toNat) && q.2.refusal.isNone &&
      (match mget e.2.records q.1 with
        | some b => b.getD 6 0 == 0
        | none => true)

/-- Every FLUSH whose covered writes are placed answered. -/
def State.settleFlushes (s : State) : State :=
  let fs := s.cm.flushes
  fs.foldl (fun s f =>
    if s.flushWaits f.1 f.2 then { s with cm := { s.cm with flushes := s.cm.flushes ++ [f] } }
    else s.finish f.1 f.2 0 []) { s with cm := { s.cm with flushes := [] } }

/-- Epoch records that nothing needs any more are gone. -/
def State.dropEpochs (s : State) : State :=
  { s with cm := { s.cm with ep := s.cm.ep.filter fun e =>
      !(e.2.committed && e.2.toPlace.isEmpty && (e.2.acked || s.cm.twin == .returning) &&
        (s.cm.twin != .paired || (e.1 ≤ s.cm.peerPlaced && e.1 ≤ s.cm.told))) } }

/-! ## The course of an epoch (R135, R137) -/

/-- The calendar second that the commands of an epoch take (R123). -/
def State.calOf (s : State) (e : EpochRec) : Nat :=
  if s.soloEpoch e || (s.cm.twin == .paired && s.pwr.twinPos == 0 && !e.ofPeer) then e.calSec else e.peer.calSec

/-- Commit of epoch `n` begins: each queue's FLOOR, the calendar second of R123, and the clock step of R280. -/
def State.beginEpoch (s : State) (n : Nat) : State :=
  let e := s.epochRec n
  if e.begun then s
  else
    let cal := s.calOf e
    let s := s.setEpochRec n { e with begun := true, calSec := cal, floors := s.q.q.map fun q => (q.1, q.2.floor) }
    match s.cm.lastCal with
    | some (m, old) => if clockStep m n old cal then s.clockRecords n old cal else s
    | none => s

/-- Does commit of epoch `n` wait to begin: for the tags of the CLOCK records that it makes (R280, R290, R297)? -/
def State.beginWaits (s : State) (n : Nat) : Bool :=
  let e := s.epochRec n
  !e.begun && (match s.cm.lastCal with
    | some (m, old) => clockStep m n old (s.calOf e) && s.boundJournals.any s.tagWaits
    | none => false)

/-- Is every key of the union committed, and the union known whole? -/
def State.epochComplete (s : State) (n : Nat) : Bool :=
  let e := s.epochRec n
  (s.soloEpoch e || e.peer.whole) && !s.beginWaits n && !s.cm.yieldNext && !(s.cm.twin == .paired && s.cm.diverged) && s.cm.twin != .start &&
    !s.mus.emptied && !(s.mus.state == .mustering && s.mus.step != .commit) && s.mus.state != .mustered &&
    (s.unionOf e).all fun k => e.done.contains k.code

/-- The commit of epoch `n` ends: H, COMMITTED, ACKs of a twin alone, placement, the epoch mark of R195. -/
def State.finishEpoch (s : State) (n : Nat) : State :=
  let s := s.beginEpoch n
  let e := s.epochRec n
  let recs := (s.inOrder e.floors (s.unionOf e)).map fun k => (mget e.records k.code).getD []
  let s := s.setEpochRec n { e with committed := true }
  let s := { s with cm := { s.cm with
    committed := n, hash := recs.foldl crc64 s.cm.hash, ended := s.cm.ended.filter (· != n), unplaced := s.cm.unplaced ++ [n]
    lastCal := some (n, e.calSec), highest := max s.cm.highest n, unions := s.cm.unions + 1 } }
  let s := if s.mus.stopped && s.mus.cause == 4 && s.cm.twin == .paired && e.own.isEmpty && e.peer.keys.isEmpty then
      { s with mus := { s.mus with emptied := true } } else s
  let s := if s.soloEpoch e then s.ackEpoch n else s
  let s := State.advancePlaced s.cm.unplaced.length s
  match s.lastMark with
  | some k => if k ≤ n + 2 ^ 24 then s.logMark (n + 2 ^ 25) else s
  | none => s.logMark (n + 2 ^ 25)

/-- Every complete epoch finished, in order, with the compare of R138 and the tally that waits for it. -/
def State.settleEpochs : Nat → State → State
  | 0, s => s
  | k + 1, s =>
    let s := s.sendTallies.compareHash
    match s.nextEpoch with
    | none => s
    | some n => if s.epochComplete n then State.settleEpochs k (s.finishEpoch n) else s

/-- What a change to tallies, repairs or commits sets going; no ACK goes out for an epoch whose compare of R138 fails. -/
def State.settle (s : State) : State :=
  let s := s.cm.ended.foldl (fun s n =>
    let s := (s.repairPeer n).sayWhole n
    let e := s.epochRec n
    if s.cm.twin == .paired && !s.cm.diverged && !e.solo && e.holdsUnion then s.ackEpoch n else s) s.compareHash
  let placed := s.cm.placed
  let s := State.settleEpochs (s.cm.ended.length + 1) s
  let s := if placed < s.cm.placed && !s.mus.stopped then s.examine else s
  s.settleFlushes.dropEpochs.runReads

/-! ## One key -/

/-- Do two requests overlap in the sense of R135: ADMIN and ACCESSION commands overlap every request? -/
def State.clash (s : State) (a b : Req) : Bool :=
  match s.spanOf a, s.spanOf b with
  | some (x, n), some (y, m) => overlaps x n y m
  | _, _ => true

/-- Could a key before it in commit order, not yet committed, change what the quota says of a write (R135, R183): another store
or a DISCARD of its domain, while the verdict depends on it? -/
def State.quotaWaits (s : State) (before : List Req) (r : Req) : Bool :=
  let dom (x : Req) : Nat := (s.window x.hdr.window.toNat).domain
  let needs (x : Req) : List Nat := match s.spanOf x with
    | some (ga, n) => if isWrite x.op && x.op != 0x0A && x.refusal.isNone then s.newHomes ga n else []
    | none => []
  let d := dom r
  let mine := needs r
  let others := (before.filter fun x => dom x == d).flatMap needs
  !mine.isEmpty && (s.quotaOver d mine.length != s.quotaOver d (mine ++ others).eraseDups.length ||
    (s.quotaOver d mine.length && before.any fun x => x.op == 0x0A && dom x == d))

/-- The last GUARD_NS of an epoch (R169). -/
def State.inGuard (s : State) : Bool :=
  s.ep.last256 + s.ep.period < s.now * 256 + s.get GNG.GUARD_NS * 2048 / 5

/-- Must a key wait for the next epoch by R169? -/
def State.guarded (s : State) (r : Req) : Bool :=
  s.gangN != 1 && r.refusal.isNone && (r.op == 0x29 || r.op == 0x2A) && s.inGuard

/-- Would an atomic read a member that issues no access (R86, R308)? -/
def State.atomicIdle (s : State) (r : Req) : Bool :=
  (r.op == 0x03 || r.op == 0x04 || r.op == 0x05) && r.refusal.isNone && match s.spanOf r with
    | some (ga, n) => (s.localPieces ga n).any fun p => s.heldBack p.1 p.2.1
    | none => false

/-- Does a command wait for the tag of its record (R273, R290, R297)? -/
def State.recordWaits (s : State) (r : Req) : Bool :=
  r.refusal.isNone &&
    (((r.op == 0x10 || r.op == 0x11) && s.tagWaits (s.queue r.hdr.qid.toNat).journal) ||
      (r.op == 0x28 && s.tagWaits (s.queue (fieldBE r.payload 0 2)).journal))

/-- May the key commit now (R135)? -/
def State.commitReady (s : State) (n : Nat) (k : ReqKey) : Bool :=
  let e := s.epochRec n
  s.nextEpoch == some n && s.cm.twin != .start && !s.cm.yieldNext && !(s.cm.twin == .paired && s.cm.diverged) &&
    !s.mus.emptied && !(s.mus.state == .mustering && s.mus.step != .commit) && s.mus.state != .mustered &&
    (s.unionOf e).contains k && !e.done.contains k.code &&
    (s.soloEpoch e || (e.peer.begun &&
      (e.peer.whole || s.cm.rxGap.isEmpty && e.peer.keys.any fun x => s.rankIn e.floors k ≤ s.rankIn e.floors x) &&
      (s.cm.twin == .returning || e.peer.keys.contains k || e.peerWhole))) &&
    (match mget e.reqs k.code with
      | none => false
      | some r =>
        let before := (s.unionOf e).filter fun x => !e.done.contains x.code && s.rankIn e.floors x < s.rankIn e.floors k
        !s.guarded r && !s.atomicIdle r && !s.recordWaits r && !s.beginWaits n &&
          before.all (fun x => match mget e.reqs x.code with
            | some y => !s.clash y r && !s.guarded y
            | none => false) &&
        !s.quotaWaits (before.filterMap fun x => mget e.reqs x.code) r)

/-- The answer of a key that has committed: once it is placed, later, or now. A refusal that came by repair is answered
with its NAK. -/
def State.answerKey (s : State) (n : Nat) (r : Req) (d : Done) : State :=
  let c := r.hdr.key.code
  if d.later then s
  else if d.place && d.status == 0 then
    let e := s.epochRec n
    s.setEpochRec n { e with toPlace := e.toPlace ++ [c], results := mput e.results c (d.status, d.data) }
  else
    let told : Bool := match s.entry r.hdr.key with
      | some x => x.answered
      | none => false
    if r.refusal.isSome then (if told then s else s.refuse r d.status (!s.silent r))
    else s.finish r n d.status d.data

/-- The staged bytes of a request that ends with AUTH_FAILED freed as it commits (R301). -/
def State.freeStaged (s : State) (r : Req) : State :=
  let n := writeBytes r
  match s.cm.staged.find? fun e => r.admitted.getD r.epoch ≤ e.1 && n ≤ e.2 with
  | some (m, b) => { s with cm := { s.cm with staged := mput s.cm.staged m (b - n) } }
  | none => s

/-- A key commits (R135, R136): its effect, its record, its slot (R60), its answer, and what waited for it. -/
def State.commitKey (s : State) (n : Nat) (k : ReqKey) (cells : List CellFault) : State :=
  let s := s.compareHash
  if !s.commitReady n k then s
  else
    let s := s.beginEpoch n
    match mget (s.epochRec n).reqs k.code with
    | none => s
    | some r =>
      let (d, t) := s.execute r n (s.epochRec n).calSec cells
      let t := if s.cm.twin == .returning then s.keepCopied t n else t
      let t := (t.freezeAt r n d.status).cutFrozen
      let t := if r.authBad && d.status == 0x10 then t.freeStaged r else t
      let told : Bool := match t.entry r.hdr.key with
        | some x => x.answered
        | none => false
      let t := if r.refusal.isSome || told then t else t.returnSlot r.hdr.qid.toNat r.hdr.seq.toNat
      let e := t.epochRec n
      let t := t.setEpochRec n { e with done := e.done ++ [k.code], records := mput e.records k.code (recordOf r d) }
      let t := t.answerKey n r d
      let t := if (r.op == 0x29 || r.op == 0x2A) && r.refusal.isNone && d.status == 0 then t.sendTable r else t
      t.settle

/-! ## Placement of one write (R136, R180, R279) -/

/-- Have all the bytes of a gang range a settled volatile home here, in members that accesses may reach (R308)? -/
def State.rangeReady (s : State) (ga n : Nat) : Bool :=
  (s.localPieces ga n).all fun p => !s.heldBack p.1 p.2.1 && (extentsIn p.1 p.2.1).all fun x => match s.extent x with
    | some y => (y.isVolatile && y.move.isNone) || (y.home == .zero && !(s.lb (x / 6144)).zeroWait.contains x)
    | none => true

/-- Have all the bytes that a key stored? -/
def State.homesReady (s : State) (e : EpochRec) (c : Nat) : Bool := s.rangeReady (e.storedAt c).1 (e.storedAt c).2

/-- A SEAL waits for the records of its span (R279): APPENDs of its journal that committed before it, and the homes of all that
the span holds; its answer names the span. -/
def State.sealWaits (s : State) (n : Nat) (e : EpochRec) (r : Req) : Bool :=
  let j := (s.queue r.hdr.qid.toNat).journal
  let data := ((mget e.results r.hdr.key.code).getD (0, [])).2
  let x := s.jrn j
  let base := (s.window (x.window.getD 0)).base
  let rangeWaits : Bool := match mget x.index (fieldBE data 8 8), mget x.index (fieldBE data 0 8) with
    | some (a, _), some (b, _) => !s.rangeReady (base + a) (b - a)
    | _, _ => false
  r.op == 0x11 && (rangeWaits || s.cm.ep.any fun x => x.1 ≤ n && x.2.toPlace.any fun c =>
    (match mget x.2.reqs c with
      | some y => y.op == 0x10 && (s.queue y.hdr.qid.toNat).journal == j
      | none => false) &&
    (x.1 < n || ((e.done.takeWhile (· != r.hdr.key.code)).contains c)))

/-- What a placed write sets going: PLACED_EPOCH, what is held, FLUSHes, epochs that nothing needs, the tiers. -/
def State.afterPlaced (s : State) : State :=
  let s := State.advancePlaced s.cm.unplaced.length s
  let s := if s.mus.stopped then s else s.examine
  s.settleFlushes.dropEpochs.manageTiers

/-- A committed write reaches its home (R136): its answer, PLACED_EPOCH, and what waited for it. -/
def State.writePlaced (s : State) (n : Nat) (k : ReqKey) : State :=
  let e := s.epochRec n
  match mget e.reqs k.code with
  | none => s
  | some r =>
    if !e.toPlace.contains k.code || !s.homesReady e k.code || s.sealWaits n e r then s
    else
      let (st, data) := (mget e.results k.code).getD (0, [])
      let s := s.setEpochRec n { e with
        toPlace := e.toPlace.filter (· != k.code), results := mdel e.results k.code }
      let s := if r.op == 0x0A then s else s.placeVia r.memPort (e.storedAt k.code).1 (e.storedAt k.code).2
      (s.finish r n st data).afterPlaced

/-! ## The end of a revocation (R118) -/

/-- Do the conditions of R118 for the answer of a REVOKE or CLOSE hold? -/
def State.fenceReady (s : State) (w : Nat) : Bool :=
  let x := s.window w
  let mine (r : Req) : Bool := windowed r.op && r.hdr.window.toNat == w
  (x.state == .revoking || x.state == .closing) && x.fenced &&
    !(s.cm.ended.any fun n => n < x.fence) &&
    !(s.net.held.any fun r => mine r && r.arrived < x.fence) &&
    !(s.net.reads.any fun p => mine p.req && p.req.arrived < x.fence) &&
    !(s.cm.ep.any fun e => e.1 < x.fence && e.2.reqs.any fun q => mine q.2 &&
      (!(e.2.committed || e.2.done.contains q.1) || e.2.toPlace.contains q.1))

/-- A REVOKE or CLOSE answered, its window OPEN or FREE (R118). -/
def State.revokeDone (s : State) (w : Nat) : State :=
  if !s.fenceReady w then s
  else
    let ref := (s.window w).answer
    let (data, s) := s.finishFence w
    let s := s.invalidate w
    match ref with
    | some r => s.finish r r.epoch 0 data
    | none => s

end Sys2Proof.Machine
end

