-- ==== Sys2Proof/Machine/Rehome.lean ====
section
/-! DEFINITION. Re-homing (R149): the copy that the serving twin sends, table records and extents, and what the returning
twin makes of it; the join. The bytes of a table record, which the spec leaves to the device, are those of log entry
22. -/

namespace Sys2Proof.Machine

/-! ## Table records -/

/-- Numbers as bytes, each with its size. -/
def packed (l : List (Nat × Nat)) : List Byte := l.flatMap fun x => bytesBE x.1 x.2

/-- The numbers that bytes spell, by their sizes, and the bytes that are left. -/
def unpacked : List Nat → List Byte → List Nat × List Byte
  | [], bs => ([], bs)
  | n :: ns, bs =>
    let (vs, rest) := unpacked ns (bs.drop n)
    (fieldBE bs 0 n :: vs, rest)

/-- Queue states from their codes. -/
def qStateOf (n : Nat) : QState := if n = 1 then .active else if n = 2 then .frozen else if n = 3 then .deleting else .free

/-- Sizes of a queue record's numbers. -/
def queueSizes : List Nat := [1, 1, 1, 2, 4, 2, 2, 4, 4, 4, 4, 4, 4, 4, 4, 4, 4, 4, 8, 1, 8, 4, 4, 4, 4, 4, 8, 8]

/-- A queue record: its context, what is pending for it, and its open accession record. -/
def Queue.pack (q : Queue) : List Byte :=
  let ct := q.newCt.getD {}
  packed (queueSizes.zip [q.state.code, q.cls, b2n q.priv, q.depth, q.srcEp, q.domain, q.journal, q.key, q.initSeq,
    q.floor, q.ret, q.high, q.ct.wr, q.ct.rd, q.ct.fl, q.ct.reqs, q.freezeSeq, q.freezeStatus, q.freezeEpoch,
    b2n q.activate + 2 * b2n q.delEpoch.isSome + 4 * b2n q.newCt.isSome + 8 * b2n q.bufSeq.isSome, q.delEpoch.getD 0,
    ct.wr, ct.rd, ct.fl, ct.reqs, q.bufSeq.getD 0, q.bufEpoch, q.lastAcc]) ++ q.buffer

/-- A queue from its record. -/
def Queue.unpack (bs : List Byte) : Queue :=
  let (v, buf) := unpacked queueSizes bs
  let f (i : Nat) : Nat := v.getD i 0
  { state := qStateOf (f 0), cls := f 1, priv := f 2 == 1, depth := f 3, srcEp := f 4, domain := f 5, journal := f 6, key := f 7
    initSeq := f 8, floor := f 9, ret := f 10, high := f 11, ct := ⟨f 12, f 13, f 14, f 15⟩, freezeSeq := f 16
    freezeStatus := f 17, freezeEpoch := f 18, activate := bitOf (f 19) 0
    delEpoch := if bitOf (f 19) 1 then some (f 20) else none
    newCt := if bitOf (f 19) 2 then some ⟨f 21, f 22, f 23, f 24⟩ else none
    bufSeq := if bitOf (f 19) 3 then some (f 25) else none, bufEpoch := f 26, lastAcc := f 27, buffer := buf }

/-- A domain record. -/
def Domain.pack (d : Domain) : List Byte :=
  let st := match d.state with
    | .free => 0
    | .opening => 1
    | .active => 2
    | .ending => 3
  packed [(1, st), (4, d.quotaHot), (4, d.quotaWarm), (4, d.quotaFlash)]

/-- A domain from its record. -/
def Domain.unpack (bs : List Byte) : Domain :=
  let v := (unpacked [1, 4, 4, 4] bs).1
  let st : DState := match v.getD 0 0 with
    | 1 => .opening
    | 2 => .active
    | 3 => .ending
    | _ => .free
  { state := st, quotaHot := v.getD 1 0, quotaWarm := v.getD 2 0, quotaFlash := v.getD 3 0 }

/-- Window states from their codes. -/
def wStateOf (n : Nat) : WState :=
  if n = 1 then .opening else if n = 2 then .open else if n = 3 then .revoking else if n = 4 then .closing else .free

/-- Sizes of a window record's numbers, before its grants. -/
def windowSizes : List Nat := [1, 1, 4, 1, 4, 1, 8, 8, 4, 8, 8, 8, 1, 1, 8]

/-- A window record: its descriptor, what is pending for it, and from which epoch on which grant was in force. -/
def Window.pack (w : Window) : List Byte :=
  let m := w.modify.getD (0, 0)
  packed (windowSizes.zip [w.state.code, w.cur.gen, w.cur.key, w.cur.rights, w.pendKey, w.pendRights, w.base, w.length, w.policy,
    w.retain, w.effect, w.fence, b2n w.fenced + 2 * b2n w.modify.isSome, m.1, m.2]) ++
    w.hist.flatMap fun e => packed [(8, e.1), (1, b2n e.2.isSome), (1, (e.2.getD {}).gen), (4, (e.2.getD {}).key),
      (1, (e.2.getD {}).rights), (8, (e.2.getD {}).retain)]

/-- A window from its record. -/
def Window.unpack (bs : List Byte) : Window :=
  let (v, rest) := unpacked windowSizes bs
  let f (i : Nat) : Nat := v.getD i 0
  let p := f 8
  let hist := (chunks 23 rest).map fun c =>
    let g := (unpacked [8, 1, 1, 4, 1, 8] c).1
    (g.getD 0 0, if g.getD 1 0 == 1 then some (⟨g.getD 2 0, g.getD 3 0, g.getD 4 0, g.getD 5 0⟩ : Grant) else none)
  { state := wStateOf (f 0), cur := ⟨f 1, f 2, f 3, f 9⟩, pendKey := f 4, pendRights := f 5, base := f 6, length := f 7
    domain := bitsOf p 0 12, tierPref := bitsOf p 12 2, duplex := bitOf p 14, worm := bitOf p 15, homeHint := bitsOf p 16 2
    journalEn := bitOf p 18, journal := bitsOf p 20 10, retain := f 9, effect := f 10, fence := f 11
    fenced := bitOf (f 12) 0, modify := if bitOf (f 12) 1 then some (f 13, f 14) else none, hist := hist }

/-- A journal record, without its index and its key. -/
def Journal.pack (j : Journal) : List Byte :=
  packed [(1, b2n j.window.isSome), (4, j.window.getD 0), (8, j.next), (8, j.wp), (8, j.lastSeal), (1, b2n j.full)] ++ j.lastTag

/-- A journal from its record, over what the twin has of it. -/
def Journal.unpack (old : Journal) (bs : List Byte) : Journal :=
  let (v, tag) := unpacked [1, 4, 8, 8, 8, 1] bs
  let f (i : Nat) : Nat := v.getD i 0
  { old with window := if f 0 == 1 then some (f 1) else none, next := f 2, wp := f 3, lastSeal := f 4, full := f 5 == 1
             lastTag := tag, index := [] }

/-- The tier code of a home (R152): 1 hot, 2 warm, 3 capacity; 0 where it holds no data. -/
def Home.code : Home → Nat
  | .zero => 0
  | .hot _ => 1
  | .warm _ => 2
  | .wait => 2
  | .flash => 3

/-- The low bits of a mask from the numbers of a list that lie in an extent's 16 sectors. -/
def sectorMask (l : List Nat) (e : Nat) : Nat :=
  (l.filter fun x => x / 16 == e).foldl (fun m x => setBit m (x % 16) true) 0

/-- An extent record: home tier, owner, LAST_USE, sectors written, preference, and its poisoned, untrusted and lost
sectors. -/
def State.packExtent (s : State) (e : Nat) (x : Extent) : List Byte :=
  packed [(1, x.home.code), (2, x.owner), (3, x.lastUse), (2, x.written), (1, x.pref), (2, sectorMask s.tier.poison e),
    (2, sectorMask s.tier.untrusted e), (2, mgetD s.par.lost e 0)]

/-! ## The serving twin -/

/-- The bytes of one table record (log entry 22): 0 the commit it stands at, 1 a queue, 2 a domain, 3 a window,
4 a journal, 5 a journal's index, 6 an extent, 7 the end of the copy. -/
def State.tableRecord (s : State) (kind n : Nat) : List (List Byte) :=
  if kind = 0 then [packed [(8, s.cm.committed), (8, s.cm.hash), (4, s.cm.claim), (8, s.cm.placed),
      (1, b2n s.cm.lastCal.isSome), (8, (s.cm.lastCal.getD (0, 0)).1), (8, (s.cm.lastCal.getD (0, 0)).2)]]
  else if kind = 1 then [(s.queue n).pack]
  else if kind = 2 then [(s.domain n).pack]
  else if kind = 3 then [(s.window n).pack]
  else if kind = 4 then [(s.jrn n).pack]
  else if kind = 5 then
    (chunks 500 (s.jrn n).index).map fun c => c.flatMap fun e => packed [(8, e.1), (8, e.2.1), (4, e.2.2)]
  else [[]]

/-- A REHOME frame: home word, then data (R152). -/
def State.sendRehome (s : State) (word : Nat) (data : List Byte) (last : Bool) : State :=
  s.sendAdit 0x06 s.cm.committed (bytesBE 8 word ++ data) last

/-- The home word of a table record. -/
def recordWord (kind n : Nat) : Nat := kind * 2 ^ 40 + n

/-- One extent sent: read through the port of re-homing (R221), its record, then, where it holds data, its bytes in eight
frames. -/
def State.sendExtent (s : State) (e : Nat) (x : Extent) (cells : List CellFault) : State :=
  let code := x.home.code
  let s := (s.readCells cells (65536 * e) 65536).chargePort 19 (if x.isVolatile then 65536 else 0)
  let s := s.sendRehome (recordWord 6 e) (s.packExtent e x) (code == 0)
  let s := if code == 0 then s else (List.range 8).foldl (fun s i =>
    s.sendRehome (s.gaOf (e * 65536) + 8192 * i + code * 2 ^ 56) (s.readMem (e * 65536 + 8192 * i) 8192) (i == 7)) s
  { s with cm := { s.cm with rehomeSent := s.cm.rehomeSent + 1, rehomePos := e + 1 } }

/-- Every table record of the copy, by kind and index. -/
def State.allRecords (s : State) : List (Nat × Nat) :=
  [(0, 0)] ++ (s.q.q.map fun e => (1, e.1)) ++ (s.win.dom.map fun e => (2, e.1)) ++
    (s.win.win.map fun e => (3, e.1)) ++ (s.acc.jrn.flatMap fun e => [(4, e.1), (5, e.1)])

/-- Re-homing begins at the serving twin (R149). -/
def State.startRehome (s : State) : State :=
  ({ s with cm := { s.cm with
    rehomeSrc := true, rehomeRecs := true, rehomePos := 0, rehomeSent := 0, rehomeAll := s.tier.ext.length } }).raise
      CMT.page CMT.evREHOME_START

/-- Re-homing's share of an epoch: in the first every table record, then up to `k` extents in ascending address, then the
end of the copy. Nothing is sent while an epoch's commit is under way. -/
def State.stepRehome (s : State) (k : Nat) (cells : List CellFault) : State :=
  let busy : Bool := match s.nextEpoch with
    | some n => !(s.epochRec n).done.isEmpty
    | none => false
  if !s.cm.rehomeSrc || s.cm.twin != .alone || !s.flag ADT.LINK_UP || busy then s
  else
    let recs := if s.cm.rehomeRecs then s.allRecords else []
    let s := recs.foldl (fun s r => (s.tableRecord r.1 r.2).foldl (fun s b => s.sendRehome (recordWord r.1 r.2) b true) s) s
    let s := { s with cm := { s.cm with rehomeRecs := false } }
    let es := (s.tier.ext.filter fun e => s.cm.rehomePos ≤ e.1).take k
    let s := es.foldl (fun s e => s.sendExtent e.1 e.2 cells) s
    if (s.tier.ext.any fun e => s.cm.rehomePos ≤ e.1) || s.cm.rehomePos == 2 ^ 32 then s
    else { s.sendRehome (recordWord 7 0) [] true with
      cm := { (s.sendRehome (recordWord 7 0) [] true).cm with rehomePos := 2 ^ 32 } }

/-! ## The returning twin -/

/-- A home for an extent that re-homing brings (R149): the serving twin's tier under its conditions, the other volatile tier
under the same, or the capacity tier; an extent for which no log can be had yet waits for a frame (R180). -/
def State.rehomeTo (s : State) (e owner code : Nat) : Home × State :=
  let fits (w : Bool) : Bool := s.bookRoom owner (if w then .warm else .hot) && s.ceilingRoom false 0
  let vol (s : State) (w : Bool) : Option (Home × State) :=
    if fits w then match s.allocFrame w with
      | (some f, s) => some (homeAt w f, s)
      | (none, _) => none
    else none
  let flash (s : State) : Option (Home × State) := match s.bindLog (e / 6144) with
    | (some n, s) => some (.flash, s.appendSlot n e)
    | (none, _) => none
  let own := if code == 3 then (if s.bookRoom owner .flash then flash s else none) else vol s (code == 2)
  let others := if code == 3 then [vol s false, vol s true, flash s] else [vol s (code != 2), flash s]
  (own.orElse fun _ => others.findSome? id).getD (.wait, s)

/-- Sectors of an extent from a mask. -/
def maskSectors (e m : Nat) : List Nat := (onesBelow 16 m).map (16 * e + ·)

/-- An extent's record received: its place in the copy, its home, its poison and its lost sectors. -/
def State.takeExtent (s : State) (e epoch : Nat) (bs : List Byte) : State :=
  let v := (unpacked [1, 2, 3, 2, 1, 2, 2, 2] bs).1
  let f (i : Nat) : Nat := v.getD i 0
  let (home, s) := if f 0 == 0 then (Home.zero, s) else s.rehomeTo e (f 1) (f 0)
  let s := s.setExtent e { home := home, owner := f 1, lastUse := f 2, written := f 3, pref := f 4 }
  let s := { s with
    mem := Memory.clear s.mem (e * 65536) 65536
    tier := { s.tier with poison := s.tier.poison ++ maskSectors e (f 5), untrusted := s.tier.untrusted ++ maskSectors e (f 6) }
    par := { s.par with lost := if f 7 == 0 then s.par.lost else mput s.par.lost e (f 7) }
    cm := { s.cm with rehomed := mput s.cm.rehomed e epoch, rehomeUpTo := e + 1 } }
  if f 0 == 0 then s.settleZeros (e / 6144) else s

/-- A table record received. -/
def State.takeRecord (s : State) (kind n epoch : Nat) (bs : List Byte) : State :=
  if kind = 0 then
    let v := (unpacked [8, 8, 4, 8, 1, 8, 8] bs).1
    let c := v.getD 0 0
    { s with cm := { s.cm with
        committed := c, hash := v.getD 1 0, peerClaim := v.getD 2 0, placed := c
        lastCal := if v.getD 4 0 == 1 then some (v.getD 5 0, v.getD 6 0) else none, ended := s.cm.ended.filter fun m => c < m
        ep := s.cm.ep.filter fun e => c < e.1, unions := 0 } }
  else if kind = 1 then
    let q := Queue.unpack bs
    { s.setQueue n q with cm := { s.cm with rehomeHigh := mput s.cm.rehomeHigh n q.high } }
  else if kind = 2 then s.setDomain n (Domain.unpack bs)
  else if kind = 3 then s.setWindow n (Window.unpack bs)
  else if kind = 4 then s.setJrn n ((s.jrn n).unpack bs)
  else if kind = 5 then
    let es := (chunks 20 bs).map fun c =>
      let v := (unpacked [8, 8, 4] c).1
      (v.getD 0 0, v.getD 1 0, v.getD 2 0)
    s.setJrn n { s.jrn n with index := es.foldl (fun m e => mput m e.1 e.2) (s.jrn n).index }
  else if kind = 6 then s.takeExtent n epoch bs
  else { s with cm := { s.cm with rehomeDone := true, rehomeUpTo := 2 ^ 32 } }

/-- A REHOME frame at the returning twin (R149, R152). -/
def State.takeRehome (s : State) (epoch : Nat) (p : List Byte) : State :=
  if s.cm.twin != .returning then s
  else
    let word := fieldBE p 0 8
    let data := p.drop 8
    if bitsOf word 56 2 == 0 then s.takeRecord (bitsOf word 40 10) (bitsOf word 0 40) epoch data
    else (s.writeMem (s.daOf (bitsOf word 0 50)) data).chargePort 19 data.length

/-! ## The join (R149) -/

/-- Do the join conditions hold at the returning twin? -/
def State.mayJoin (s : State) : Bool :=
  s.cm.twin == .returning && s.cm.rehomeDone && 32 ≤ s.cm.unions && s.cm.agrees && s.flag ADT.LINK_UP

/-- Into PAIRED (R143): with events, from any state. -/
def State.enterPaired (s : State) : State :=
  let was := s.cm.twin == .alone
  let recs := mmap (fun n (e : EpochRec) => if e.committed || s.ep.num ≤ n then e else { e with solo := e.solo || was }) s.cm.ep
  ({ s with mc := { s.mc with damaged := false }, cm := { s.cm with
    twin := .paired, inService := true, diverged := false, empties := 0, departed := false, next := .stay
    rehomeSrc := false, ep := recs } }).raise CMT.page CMT.evPAIRED_EVT

/-- The epochs up to `n` whose unions the joining twin still follows (R149): the serving twin's alone, which acknowledges them
itself. -/
def State.followTo (s : State) (n : Nat) : State :=
  let s := s.endEpoch n
  { s with cm := { s.cm with ep := mmap (fun m (e : EpochRec) =>
      if e.committed || n < m then e else { e with ofPeer := true, acked := true, saidWhole := true, peerHolds := true }) s.cm.ep } }

/-- The join, in effect from the boundary of the current epoch, at either twin (R149): claims one apart, PAIRED, SINGLE_TWIN
leaves the answers. -/
def State.join (s : State) : State :=
  let s := if s.cm.twin == .returning then
      let s := (s.setClaim (s.cm.peerClaim - 1)).followTo (s.ep.num - 1)
      s.cm.rehomeHigh.foldl (fun s e =>
        let q := s.queue e.1
        if q.state == .free then s
        else s.setQueue e.1 { q with floor := laterSeq q.floor e.2, high := laterSeq q.high e.2 }.settle) s
    else s
  (s.enterPaired.postSingle false).raise CMT.page CMT.evREHOME_DONE

/-- Service begins at the boundary of epoch `j` (log entry 25): no epoch before it holds anything. -/
def State.openAt (s : State) (j : Nat) : State :=
  { s with cm := { s.cm with
    committed := max s.cm.committed (j - 1), placed := max s.cm.placed (j - 1), told := j - 1
    peerPlaced := j - 1, ended := [], unplaced := [], ep := [], staged := [] } }

/-- A step that R146 to R149 settled, taken at the boundary of epoch `j`. -/
def State.takeNext (s : State) (j : Nat) : State :=
  match s.cm.next with
  | .stay => s
  | .pair => (s.openAt j).enterPaired
  | .newPair c =>
    let s := if s.mus.formatted then s else s.formatFlash
    let s := (s.emptyCommitted.openAt j).setClaim c
    { s.enterPaired with cm := { s.enterPaired.cm with hash := 0 } }
  | .alone =>
    -- R146, R147: once the conditions of R13 other than the commit engine's own are met
    if (s.minSet.eraseIdx 5).all id then
      let s := (((s.openAt j).setClaim (s.cm.claim + 2)).enterAlone).postSingle true
      if s.cm.resumed && s.flag ADT.LINK_UP then s.startRehome else s
    else s

end Sys2Proof.Machine
end

