-- ==== Sys2Proof/Machine/Epoch.lean ====
section
/-! DEFINITION. The epoch receiver (R16 to R34, R427): frames, alignment, loss, relay and holdover; what each kind of
boundary needs, and the number and the time it gives. -/

namespace Sys2Proof.Machine

/-! ## The epoch frame (R16 to R20) -/

/-- `n` bits after SYNC with stuffed zeros removed (R18); `none` where a stuffed bit is a 1 or bits are missing. -/
def unstuff : Nat → Nat → List Bool → Option (List Bool)
  | 0, ones, bs => if ones = 7 then (match bs with
      | false :: _ => some []
      | _ => none) else some []
  | n + 1, 7, false :: b :: bs => (unstuff n (if b then 1 else 0) bs).map (b :: ·)
  | _ + 1, 7, _ => none
  | n + 1, ones, b :: bs => (unstuff n (if b then ones + 1 else 0) bs).map (b :: ·)
  | _ + 1, _, [] => none

/-- The number that bits spell, most significant first. -/
def natOfBits (bs : List Bool) : Nat := bs.foldl (fun a b => 2 * a + b2n b) 0

/-- SYNC from the last idle bit on: 0, nine 1, 0 (R20). -/
def syncBits : List Bool := [false, true, true, true, true, true, true, true, true, true, false]

/-- What an epoch frame's bits are: not a frame, a bad frame, or a good one with number and flags (R17, R18, R23). -/
inductive FrameBits | noSync | bad | good (num flags : Nat)
  deriving DecidableEq, Repr

/-- A frame read from its bits. -/
def readFrame (bits : List Bool) : FrameBits :=
  if bits.take 11 != syncBits then .noSync
  else match unstuff 88 0 (bits.drop 11) with
    | none => .bad
    | some b =>
      if crc16 (b.take 72) == natOfBits (b.drop 72) then .good (natOfBits (b.take 64)) (natOfBits ((b.drop 64).take 8))
      else .bad

/-! ## Small questions -/

/-- Is the EPOCH input in use (R427)? -/
def State.usesEpoch (s : State) : Bool := s.flag EPC.ALIGN_EN && !s.flag EPC.FORCE_HOLDOVER

/-- The expected time of the next boundary, in 1/256 core cycle. -/
def State.expected (s : State) : Nat := s.ep.last256 + s.ep.period

/-- The distance of two times. -/
def apart (a b : Nat) : Nat := max a b - min a b

/-- Is an edge within WIN_TOL nanoseconds of a time in 1/256 core cycle (R24)? -/
def State.inWin (s : State) (edge t256 : Nat) : Bool :=
  apart (edge * 256) t256 * 5 ≤ max 1 (s.get EPC.WIN_TOL) * 8 * 256

/-- Within 20 ns of it (R32). -/
def near20 (edge t256 : Nat) : Bool := apart (edge * 256) t256 * 5 ≤ 20 * 8 * 256

/-- A legal period in core cycles: 1.25 µs to 12.50 µs (R22). -/
def legalPeriod (d : Nat) : Bool := 2000 ≤ d && d ≤ 20000

/-- The mean of spacings in 1/256 cycle, ties up (R22). -/
def meanSpacing (l : List Nat) : Nat := (512 * l.sum + l.length) / (2 * max 1 l.length)

/-- A spacing that enters the measurement (R22). -/
def State.measure (s : State) (d : Nat) : State :=
  let l := (d :: s.ep.spacings).take 256
  let p := meanSpacing l
  let s := if p != s.ep.period then { s with q := { s.q with refigure := true } } else s
  { s with ep := { s.ep with spacings := l, period := p } }

/-- The measurement begun again with the spacing that met R23. -/
def State.remeasure (s : State) (d : Nat) : State :=
  ({ s with ep := { s.ep with spacings := [] } }).measure d

/-! ## Loss, relay and holdover (R26, R30, R31) -/

/-- Into HOLDOVER, where a period has been measured (R31). A search that ran in RELAY goes on (R25, R32). -/
def State.holdOver (s : State) : State :=
  if s.ep.period = 0 || s.ep.state == .holdover then s
  else ({ s with ep := { s.ep with
    state := .holdover, relayNext := false, agree := 0, returning := false, edge := none, missRow := 0
    markerMiss := 0 } }).raise EPC.page EPC.evHOLDOVER_ENTER

/-- Are the leader's markers there to follow (R30, R427)? The leader counts as sending markers while one has been received
of the current epoch or of the one before it (log entry 60). -/
def State.relayUsable (s : State) : Bool :=
  s.pwr.twinPos == 1 && s.flag ADT.LINK_UP && s.flag EPC.RELAY_EN && !s.flag EPC.FORCE_HOLDOVER &&
    s.ep.markers.any fun m => s.ep.num ≤ m.num + 1

/-- EPOCH declared lost (R26, R30): to relay from the next boundary, or to holdover. -/
def State.loseEpoch (s : State) : State :=
  let s := s.raise EPC.page EPC.evLOST
  if s.relayUsable then { s with ep := { s.ep with relayNext := true } } else s.holdOver

/-- A missed frame while ALIGNED (R25, R26). -/
def State.missFrame (s : State) : State :=
  let s := s.inc EPC.MISSED
  let s := { s with ep := { s.ep with missRow := s.ep.missRow + 1 } }
  if s.ep.missRow == 2 then s.loseEpoch else s

/-- A relay marker received at a follower (R28, R29). -/
def State.takeMarker (s : State) (num time : Nat) : State :=
  if s.pwr.twinPos == 1 && s.flag EPC.RELAY_EN && !s.flag EPC.FORCE_HOLDOVER then
    { s with ep := { s.ep with markers := s.ep.markers.filter (s.ep.num ≤ ·.num + 1) ++ [⟨num, time⟩] } }
  else s

/-! ## Frames (R21, R23, R25, R32, R33, R34) -/

/-- How many source periods after a frame's edge the first edge lies that is half a period or more past the last boundary. -/
def State.stepsTo (s : State) (edge d : Nat) : Nat :=
  max 1 (ceilDiv (s.ep.last256 + s.ep.period / 2 - edge * 256) (max 1 (d * 256)))

/-- Does a boundary at the expected time come before the first edge that R33 admits: 1 where that edge is more than 1.5 periods
past the last boundary? -/
def State.passesFirst (s : State) (edge d : Nat) : Nat :=
  b2n (s.ep.last256 + s.ep.period + s.ep.period / 2 < 256 * (edge + d * s.stepsTo edge d))

/-- A good frame while the device searches by R23. -/
def State.searchFrame (s : State) (edge num : Nat) : State :=
  let prev := s.ep.lastGood
  let s := { s with ep := { s.ep with lastGood := some (edge, num) } }
  match prev with
  | none => s
  | some (e0, n0) =>
    if n0 + 1 != num then s
    else
      let d := edge - e0
      if !legalPeriod d then s.raise EPC.page EPC.evPERIOD_ILLEGAL
      else if num ≤ s.cm.highest ||
          (s.ep.state == .holdover && num + s.stepsTo edge d ≤ s.ep.num + s.passesFirst edge d) then s.raise EPC.page EPC.evNUM_BEHIND
      else { s with ep := { s.ep with target := some ⟨edge, num, d⟩ } }

/-- A good frame while ALIGNED: that of the current boundary is checked; another is ignored (R25). -/
def State.alignedFrame (s : State) (edge num : Nat) : State :=
  if s.ep.edge != some edge || s.ep.seen then s
  else
    let s := { s with ep := { s.ep with seen := true } }
    if num != s.ep.num then
      (({ s with ep := { s.ep with lastGood := none } }).raise EPC.page EPC.evNUM_MISMATCH).missFrame
    else
      let prev := s.ep.lastGood
      let s := { s with ep := { s.ep with missRow := 0, lastGood := some (edge, num) } }
      match prev with
      | some (e0, n0) => if n0 + 1 == num then s.measure (edge - e0) else s
      | none => s

/-- A good frame of the own input in RELAY: the device searches by R23 as ever, and the frame counts by R32. -/
def State.relayFrame (s : State) (edge num : Nat) : State :=
  let s := s.searchFrame edge num
  let s := { s with ep := { s.ep with seen := true } }
  if num == s.ep.num && near20 edge s.ep.last256 then
    let n := s.ep.agree + 1
    { s with ep := { s.ep with agree := n, returning := s.ep.returning || n == 16 } }
  else ({ s with ep := { s.ep with agree := 0 } }).raise EPC.page EPC.evSRC_DISAGREE

/-- A frame that counts as bad or missed: it ends a run of good frames, and is a missed frame while ALIGNED (R25, R32). -/
def State.badFrame (s : State) (edge : Nat) : State :=
  match s.ep.state with
  | .aligned =>
    if s.ep.edge == some edge && !s.ep.seen then
      ({ s with ep := { s.ep with seen := true, lastGood := none } }).missFrame
    else s
  | .relay => { s with ep := { s.ep with seen := true, agree := 0, lastGood := none } }
  | _ => { s with ep := { s.ep with lastGood := none } }

/-- EPOCH_FRAME (R16 to R26, R32 to R34, R37): a frame's content checked, by state. With the epoch DLL out of its window
every frame counts as missed (R308). -/
def State.epochFrame (s : State) (edge : Nat) (bits : List Bool) : State :=
  if !s.usesEpoch then s
  else match readFrame bits with
    | .noSync => s
    | .bad => (s.raise EPC.page EPC.evCRC_ERR).badFrame edge
    | .good num flags =>
      let s := (s.put EPC.FLAGS_LAST flags).raiseIf (flags / 8 != 0) EPC.page EPC.evRSVD_FLAGS
      if !s.clk.epochDllIn then s.badFrame edge
      else (match s.ep.state with
      | .aligned => s.alignedFrame edge num
      | .relay => s.relayFrame edge num
      | _ => s.searchFrame edge num)

/-! ## Which boundary comes, when, and with what number -/

/-- Is a boundary wanted from the own input: ALIGNED, or about to be (R23, R32)? -/
def State.ownInput (s : State) : Bool :=
  (s.ep.state == .aligned && !s.ep.relayNext) || (s.ep.state == .relay && s.ep.returning) ||
    (s.ep.state == .search && s.ep.target.isSome)

/-- The expected time of the next boundary of the own input (R23, R24). -/
def State.ownExpected (s : State) : Nat :=
  match s.ep.state, s.ep.target with
  | .search, some t => (t.edge + t.spacing) * 256
  | _, _ => s.expected

/-- An aligned boundary begins at a time: the receiver's state, its number, its edge (R23, R24, R32). A spacing from a frame
seen in RELAY does not enter the measurement (R22). -/
def State.alignAt (s : State) (t256 : Nat) (edge : Option Nat) : State :=
  let s := match s.ep.state, s.ep.target with
    | .search, some t =>
      let s := (s.remeasure t.spacing).raise EPC.page EPC.evALIGNED
      { s with ep := { s.ep with num := t.num + 1, running := true, lastGood := some (t.edge, t.num), missRow := 0 } }
    | .relay, _ =>
      let s := s.raise EPC.page EPC.evALIGNED
      { s with ep := { s.ep with num := s.ep.num + 1, missRow := 0, lastGood := none } }
    | _, _ => { s with ep := { s.ep with num := s.ep.num + 1 } }
  { s with ep := { s.ep with
    state := .aligned, target := none, returning := false, agree := 0, markerMiss := 0, last256 := t256, edge := edge
    seen := false } }

/-- A frame of the last boundary that never came counts as missed (R25). -/
def State.missUnseen (s : State) : State :=
  if s.ep.state == .aligned && s.ep.edge.isSome && !s.ep.seen && s.usesEpoch then
    ({ s with ep := { s.ep with lastGood := none } }).missFrame
  else s

/-- Is the epoch in progress to end at a source edge: R23 is met, and an edge of the source falls between 0.5 and 1.5 measured
periods after the last boundary (R33)? -/
def State.edgeDue (s : State) : Bool :=
  match s.ep.state, s.ep.target with
  | .holdover, some t =>
    256 * (t.edge + t.spacing * s.stepsTo t.edge t.spacing) ≤ s.ep.last256 + s.ep.period + s.ep.period / 2
  | _, _ => false

/-- Does reacquisition wait for that edge, so that no boundary falls at the expected time? -/
def State.awaitsEdge (s : State) : Bool :=
  s.edgeDue && s.now * 256 ≤ s.ep.last256 + s.ep.period + s.ep.period / 2

/-- The number that the source gives an edge in holdover: that of the frame that met R23 and the periods since, where the
edge is one that R33 admits. -/
def State.reacquireAt (s : State) (edge : Nat) : Option Nat :=
  match s.ep.state, s.ep.target with
  | .holdover, some t =>
    let p := s.ep.period
    if t.edge < edge && s.ep.last256 + p / 2 ≤ edge * 256 && edge * 256 ≤ s.ep.last256 + p + p / 2 then
      some (t.num + (2 * (edge - t.edge) + t.spacing) / (2 * max 1 t.spacing))
    else none
  | _, _ => none

/-- Numbers skipped at a boundary that takes number `n`, counted, with STEP raised (R33). -/
def State.skipTo (s : State) (n : Nat) : State :=
  let skip := n - (s.ep.num + 1)
  (s.inc EPC.STEP_SKIP skip).raiseIf (skip != 0) EPC.page EPC.evSTEP

/-- Reacquisition (R33): the number stepped to, and what it skips counted. Of the frames seen in HOLDOVER only the pair that met
R23 enters the measurement (R22). -/
def State.reacquire (s : State) (edge n : Nat) : State :=
  let s := s.skipTo n
  let s := match s.ep.target with
    | some t => s.remeasure t.spacing
    | none => s
  ({ s with ep := { s.ep with
    state := .aligned, target := none, num := n, last256 := edge * 256, edge := some edge, seen := false, missRow := 0
    lastGood := s.ep.target.map fun (t : AlignPair) => (t.edge, t.num) } }).raise EPC.page EPC.evALIGNED

/-- A source whose number is not ahead of the current one (R33): the device does not reacquire and searches on. -/
def State.refuseSource (s : State) : State :=
  ({ s with ep := { s.ep with target := none } }).raise EPC.page EPC.evNUM_BEHIND

/-- A marker's time: its arrival plus the period less the measured delay (R29). -/
def State.markerTime (s : State) (m : Marker) : Nat := m.arrival * 256 + s.ep.period - s.cm.delay * 256

/-- A relayed boundary's time and number (R29): those of the oldest marker that is not behind the current epoch, its number and 1
more. One ahead of the current epoch is of a leader that stepped by R33, where it places its boundary within half a period of the
expected time, and else of an epoch still to come: the marker before it is missing (log entry 60). -/
def State.relayTime (s : State) : Option (Nat × Nat) :=
  match s.ep.markers.find? (s.ep.num ≤ ·.num) with
  | some m =>
    if m.num = s.ep.num || s.markerTime m ≤ s.expected + s.ep.period / 2 then some (s.markerTime m, m.num + 1) else none
  | none => none

end Sys2Proof.Machine
end

