-- ==== Sys2Proof/Machine/AditLink.lean ====
section
/-! DEFINITION. The adit link (R151 to R154, R294), what each of its frames does (R132 to R134, R144, R146, R149), and the
commands of the commit engine. -/

namespace Sys2Proof.Machine

/-! ## Link state (R151, R154, R294) -/

/-- A wake source seen (R344): 0 LOCAL, 1 TWIN, 2 SIGNAL. -/
def State.wakeSource (s : State) (i : Nat) : State :=
  if s.pwr.park == .awake then s
  else { s with pwr := { s.pwr with
    wakeReason := setBit s.pwr.wakeReason i true, wakeReq := s.pwr.wakeReq || s.pwr.park != .waking } }

/-- Does the device hold a valid restore, or is it in service (R152)? -/
def State.validSide (s : State) : Bool := s.cm.inService || (s.cm.twin == .start && s.mus.restoreValid)

/-- Is the device fresh (R148)? -/
def State.fresh (s : State) : Bool :=
  s.cm.twin == .start && !s.mus.restoreValid && (!s.cm.claimLogged || s.cm.forced)

/-- TWIN_STATE as RESUME says it: in START with a valid restore, the state that the record names (R146). -/
def State.saidState (s : State) : TwinState :=
  if s.cm.twin == .start && s.mus.restoreValid then s.mus.recordTwin else s.cm.twin

/-- Does a restore still run, whose end RESUME has to wait for? -/
def State.restorePending (s : State) : Bool :=
  s.cm.twin == .start && !s.mus.restored && (s.mus.state == .unready || s.mus.state == .restoring)

/-- RESUME sent, once (R146). -/
def State.sendResume (s : State) : State :=
  if s.cm.resumeSent || s.restorePending || !s.flag ADT.LINK_UP then s
  else ({ s with cm := { s.cm with resumeSent := true } }).resumeFrame s.saidState s.validSide s.fresh

/-- The link up: frames are numbered from the base, and nothing has been exchanged (R146, R294). -/
def State.aditUp (s : State) : State :=
  let s := { s with cm := { s.cm with
    txSeq := 0, rxSeq := s.key.rxBase.getD 0 % 2 ^ 32, rxAny := false, rxGap := [], kept := [], resumeSent := false
    resumed := false, peerResume := none }
                    key := { s.key with rxLast := s.key.rxBase.getD 0 } }
  let s := (s.put ADT.LINK_UP 1).raise ADT.page ADT.evLINK_UP_EVT
  if s.cm.twin == .paired then s else s.sendResume

/-- The frame-count base of a training that seals (R294): taken when the marks reach past it, else waited for, and sent to the
peer. An instance that the base would retire retires, and the link stays down (R291). -/
def State.trainBase (s : State) : State :=
  let n := s.get ADT.SEAL_TX_KEY
  match s.keyInst n with
  | none => s
  | some k =>
    let base := ceilDiv k.counter (2 ^ 32) * 2 ^ 32
    if k.retired then s
    else if 2 ^ 64 - 2 ^ 32 ≤ base + 2 ^ 32 + 1 then s.retireKey n k.counter k
    else if s.keyMark n ≤ base + 2 ^ 32 + 1 then
      if s.marking n then s else s.startMark n
    else
      let s := s.setKeyInst n { k with counter := base + 2 ^ 32 + 1 }
      (({ s with key := { s.key with txBase := some base } }).send (.aditBase base)).aditUp

/-- Is an adit channel out of service (R298)? -/
def State.chanLost (s : State) (i : Nat) : Bool := s.key.outCh.contains i

/-- LINK_UP and KEY_WAIT as they now stand (R154, R298): alignment and, with SEAL_EN, both keys and both channels. -/
def State.checkAdit (s : State) : State :=
  let wait := s.flag ADT.SEAL_EN && !((s.aditKey true).isSome && (s.aditKey false).isSome)
  let s := (s.raiseIf (wait && !s.flag ADT.KEY_WAIT) ADT.page ADT.evKEY_WAIT_EVT).putb ADT.KEY_WAIT wait
  if !s.flag ADT.ALIGNED then s
  else if wait || (s.flag ADT.SEAL_EN && (s.chanLost 16 || s.chanLost 17)) then
    (s.raiseIf (s.flag ADT.LINK_UP) ADT.page ADT.evLINK_DOWN).put ADT.LINK_UP 0
  else if s.flag ADT.LINK_UP then s
  else if s.flag ADT.SEAL_EN then
    if s.keyWaits (s.get (aditInst true)) || s.keyWaits (s.get (aditInst false)) then s else s.trainBase
  else ({ s with key := { s.key with txBase := some 0 } }).aditUp

/-- ADIT_LINK_UP: alignment gained, the delay measured (R29, R151). -/
def State.aditTrain (s : State) (roundTrip peerBase : Nat) : State :=
  if !bitOf s.clk.srdLock 0 || s.flag (HDR.IN_RESET ADT.page) then s
  else
  let s := ((s.put ADT.ALIGNED 1).put ADT.LANE_OK 0xFFFF).put ADT.LINK_UP 0
  let s := { s with cm := { s.cm with delay := roundTrip / 2 }
                    key := { s.key with rxBase := some (if s.flag ADT.SEAL_EN then peerBase else 0) } }
  s.checkAdit

/-- Alignment lost (R151). -/
def State.aditDown (s : State) : State :=
  let up := s.flag ADT.LINK_UP
  let s := ((s.inc ADT.MARKER_MISS 2).raise ADT.page ADT.evALIGN_LOST).raiseIf up ADT.page ADT.evLINK_DOWN
  let s := ((s.put ADT.ALIGNED 0).put ADT.LINK_UP 0).put ADT.LANE_OK 0
  { s with cm := { s.cm with
    resumeSent := false, resumed := false, peerResume := none, rehomeSrc := false
    next := if s.cm.twin == .returning then .stay else s.cm.next } }

/-! ## Tallies (R132, R133, R59) -/

/-- A key that this twin staged in a later epoch than `n` takes epoch `n` (R59). -/
def State.retag (s : State) (n : Nat) (k : ReqKey) : State :=
  match s.cm.ep.find? fun e => n < e.1 && (mget e.2.reqs k.code).isSome with
  | none => s
  | some (m, e) =>
    match mget e.reqs k.code with
    | none => s
    | some r =>
      let s := s.setEpochRec m { e with reqs := mdel e.reqs k.code, own := e.own.filter (· != k) }
      let x := s.epochRec n
      let s := s.setEpochRec n { x with reqs := mput x.reqs k.code { r with epoch := n } }
      match s.entry k with
      | some y => s.setEntry { y with epoch := n }
      | none => s

/-- Does a key already belong to an epoch before `n` here (R59)? -/
def State.ownedBefore (s : State) (n : Nat) (k : ReqKey) : Bool :=
  s.cm.ep.any fun e => e.1 < n && (mget e.2.reqs k.code).isSome

/-- A late tally (R133, R136). -/
def State.tallyLate (s : State) (n : Nat) : State :=
  let e := s.epochRec n
  if e.peer.late then s
  else ((s.setEpochRec n { e with peer := { e.peer with late := true }, extended := true }).inc CMT.TALLY_LATE).raise
    CMT.page CMT.evTALLY_LATE

/-- A TALLY frame of epoch `n` (R132, R133), with its payload. -/
def State.takeTally (s : State) (n time : Nat) (p : List Byte) : State :=
  if (s.cm.twin != .paired && s.cm.twin != .returning) || !s.tallies || n ≤ s.cm.committed then s
  else
    let s := if s.cm.twin == .returning then s.endEpoch n else s
    let e := s.epochRec n
    let first := !e.peer.first && fieldBE p 0 8 == n
    let body := if first then p.drop 48 else p
    let named := (chunks 12 body).flatMap entryKeys
    let ks := (named.filter fun k => !s.ownedBefore n k)
    let s := ks.foldl (fun s k => s.retag n k) s
    let e := s.epochRec n
    let t := if first then { e.peer with
        first := true, hashPrev := fieldBE p 8 8, placed := fieldBE p 16 8, calSec := fieldBE p 24 8 % 2 ^ 40
        claim := fieldBE p 32 4, runs := fieldBE p 36 4, wrBytes := fieldBE p 40 4, holdover := bitOf (fieldBE p 44 1) 1 }
      else e.peer
    let t := { t with keys := t.keys ++ ks, entries := t.entries + body.length / 12 }
    let t := { t with whole := t.first && t.entries == t.runs, wholeAt := time }
    let s := s.setEpochRec n { e with peer := t }
    let s := if first then { s with cm := { s.cm with
        peerClaim := t.claim, peerPlaced := max s.cm.peerPlaced t.placed } } else s
    let s := if t.whole && s.ep.last256 * 4 + 3 * s.ep.period < time * 1024 && s.cm.ended.contains n then s.tallyLate n else s
    let s := if named.isEmpty then s else s.wakeSource 1
    s.settle

/-- TALLY_DEADLINE: 0.75 epoch without the peer's tally whole (R133). -/
def State.tallyDeadline (s : State) : State :=
  match (s.cm.ep.filter fun e => e.1 < s.ep.num).getLast? with
  | some (n, e) => if s.cm.twin == .paired && !e.peer.whole && !e.solo && s.cm.ended.contains n then s.tallyLate n else s
  | none => s

/-! ## Repairs (R56, R59, R134) -/

/-- A key received by repair enters: its entry, its queue, its staged bytes. -/
def State.enterRepair (s : State) (n : Nat) (r : Req) : State :=
  let h := r.hdr
  let qid := h.qid.toNat
  let q := s.queue qid
  let fresh := (s.entry h.key).isNone
  let s := if fresh then
      let s := s.setEntry { key := h.key, epoch := n, mute := !s.inMask h }
      ({ s with net := { s.net with count := s.net.count + 1 } }).capEvent
    else match s.entry h.key with
      | some y => s.setEntry { y with epoch := n }
      | none => s
  let s := if q.state == .free || qid == 0 then s
    else s.setQueue qid { q with
      inFlight := q.inFlight + b2n fresh, high := laterSeq q.high h.seq.toNat }
  let held := s.net.held.find? fun x => x.hdr.key == h.key
  let r := match held with
    | some x => { r with ret := x.ret, time := x.time }
    | none => r
  let s := { s with net := { s.net with held := s.net.held.filter fun x => x.hdr.key != h.key } }
  let e := s.epochRec n
  let s := s.setEpochRec n { e with reqs := mput e.reqs h.key.code r }
  let m := s.ep.num
  let s := if r.refusal.isSome then s
    else { s with cm := { s.cm with staged := mput s.cm.staged m (s.stagedIn m + writeBytes r) } }
  s.inc CMT.REPAIRED

/-- A REPAIR frame of epoch `n` (R134). -/
def State.takeRepair (s : State) (n time : Nat) (p : List Byte) : State :=
  if (s.cm.twin != .paired && s.cm.twin != .returning) || n ≤ s.cm.committed then s
  else
    let st := fieldBE p 0 1
    let (h, op) := parseReq (slice p 4 32)
    let staged := st == 0 || st == 0x10
    let r : Req := { hdr := h, op := op, payload := if staged then p.drop 36 else [], time := time, epoch := n, arrived := n
                     admitted := some n, refusal := if staged then none else some st, authBad := st == 0x10 }
    let e := s.epochRec n
    if (mget e.reqs h.key.code).isSome || s.ownedBefore n h.key then s
    else
      let s := s.retag n h.key
      let s := if (mget (s.epochRec n).reqs h.key.code).isSome then s else s.enterRepair n r
      s.settle

/-- UNION_WHOLE of epoch `n` (R134). -/
def State.takeWhole (s : State) (n : Nat) : State :=
  if s.cm.twin != .paired then s
  else (s.setEpochRec n { s.epochRec n with peerHolds := true }).settle

/-! ## Resuming (R146, R148, R149) -/

/-- Claims one apart. -/
def oneApart (a b : Nat) : Bool := a + 1 == b || b + 1 == a

/-- The claim of this position in a new pair (R148), from the two claims that RESUME has told both devices. Claims of 2 and 1
are those of two empty claim logs, where this device's own is empty (R139; log entry 24). -/
def State.newClaim (s : State) (peer : Nat) : Nat :=
  let first := s.pwr.twinPos == 0
  let h := max s.cm.claim peer + 2
  let c := if !s.cm.claimLogged && (if first then s.cm.claim else peer) == 2 && (if first then peer else s.cm.claim) == 1 then 2 else h + h % 2
  if first then c else c - 1

/-- This twin stays in service alone, its claim unchanged (R139), the source of the other's re-homing (R146, R149). -/
def State.serveAlone (s : State) : State :=
  let s := if s.cm.twin == .paired then s.goAlone else s
  if s.cm.rehomeSrc then s else s.startRehome

/-- What an exchange of RESUME comes to (R146): the first row that applies. VALID says of a device PAIRED or ALONE either
that it is in service or that its restore is valid: which is free (log entry 24). -/
def State.settleResume (s : State) (p : Resume) : State :=
  let (b, s) := if p.valid && (p.twin == .paired || p.twin == .alone) then s.freeBit else (false, s)
  let peerServes := b
  let peerRestored := p.valid && !b
  let restored := s.cm.twin == .start && s.mus.restoreValid
  if restored && peerRestored && s.mus.recordTwin == .paired && p.twin == .paired && oneApart s.cm.claim p.claim &&
      s.cm.committed == p.committed && s.cm.hash == p.hash then { s with cm := { s.cm with next := .pair } }
  else if s.cm.inService && !peerServes then s.serveAlone
  else if !s.cm.inService && peerServes then s.enterReturning
  else if s.cm.inService && peerServes then
    if s.cm.claim < p.claim then s.enterReturning else s.serveAlone
  else if restored || peerRestored then
    if restored && (!peerRestored || p.claim < s.cm.claim) then
      { s with cm := { s.cm with next := .alone } }
    else s.enterReturning
  else if s.fresh && p.fresh then
    { s with cm := { s.cm with next := .newPair (s.newClaim p.claim) } }
  else s

/-- TWIN_STATE from its code. -/
def twinOf (n : Nat) : TwinState := if n = 1 then .paired else if n = 2 then .alone else if n = 3 then .returning else .start

/-- RESUME received (R146, R149). A RESUME of a twin that is RETURNING and VALID says that it has joined at the boundary of
the current epoch (log entry 21). -/
def State.takeResume (s : State) (p : List Byte) : State :=
  let f := fieldBE p 5 1
  let r : Resume := { claim := fieldBE p 0 4, twin := twinOf (fieldBE p 4 1 % 8), valid := bitOf f 0, fresh := bitOf f 1
                      committed := fieldBE p 8 8, hash := fieldBE p 16 8 }
  let s := { s with cm := { s.cm with peerClaim := r.claim, peerResume := some r } }
  if r.twin == .returning && r.valid then
    if s.cm.rehomeSrc then s.join else s
  else if s.restorePending then s
  else (({ s with cm := { s.cm with resumed := true } }).sendResume).settleResume r

/-- RESUME sent again when a restore has ended or FORCE_FRESH has been written, and a RESUME that waited settled. -/
def State.resumeAgain (s : State) : State :=
  let s := ({ s with cm := { s.cm with resumeSent := false } }).sendResume
  if s.cm.twin != .start then s
  else match s.cm.peerResume with
  | some r => if s.cm.resumeSent then ({ s with cm := { s.cm with resumed := true } }).settleResume r else s
  | none => s

/-! ## RESEND (R153) -/

/-- Frames asked for sent again as they were first sent, sealed ones as their first ciphertext (R294); those no longer kept
raise RESEND_FAIL. -/
def State.takeResend (s : State) (p : List Byte) : State :=
  let first := fieldBE p 0 4
  let n := fieldBE p 4 2
  let s := s.inc ADT.RESEND_RX
  (List.range n).foldl (fun s i =>
    let want := (first + i) % 2 ^ 32
    match s.cm.kept.find? fun e => e.2.1.fseq % 2 ^ 32 == want && s.ep.num ≤ e.1 + 1 with
    | some e => (s.inc ADT.TX_FRAMES).send (.adit e.2.1 e.2.2)
    | none => s.raise ADT.page ADT.evRESEND_FAIL) s

/-- DEPART or YIELD received (R144, R156): during a muster no loss is declared (R191). -/
def State.takeDepart (s : State) : State :=
  let s := s.raise CMT.page CMT.evDEPART_RX
  if (s.cm.twin == .paired || s.cm.yieldNext) && !s.mus.stopped then { s with cm := { s.cm with departed := true } } else s

/-! ## Frames by TYPE -/

/-- A frame of the adit link by its TYPE; a reserved one is dropped and counted (R152). -/
def State.aditFrame (s : State) (typ : Nat) (f : LinkFrame) : State :=
  match s.recvAdit typ f with
  | (none, s) => s
  | (some p, s) =>
    let n := f.epoch.toNat
    let t := f.time
    if typ = 1 then s.takeTally n t p
    else if typ = 2 then s.takeRepair n t p
    else if typ = 3 then s.takeWhole n
    else if typ = 4 then s.takeMarker n t
    else if typ = 5 then s.takeResume p
    else if typ = 6 then s.takeRehome n p
    else if typ = 7 || typ = 8 then s.takeDepart
    else if typ = 9 then s.takeResend p
    else s.dropAdit

/-! ## The commands -/

/-- TALLY (R132, R133). -/
def execTally (f : LinkFrame) (s : State) : Result := .next (s.whenDp fun s => s.aditFrame 0x01 f)

/-- TALLY_DEADLINE (R133). -/
def execTallyDeadline (time : Nat) (s : State) : Result := .next (s.whenDp fun s => (s.at time).tallyDeadline)

/-- REPAIR (R134). -/
def execRepair (f : LinkFrame) (s : State) : Result := .next (s.whenDp fun s => s.aditFrame 0x02 f)

/-- UNION_WHOLE (R134). -/
def execUnionWhole (f : LinkFrame) (s : State) : Result := .next (s.whenDp fun s => s.aditFrame 0x03 f)

/-- RELAY (R28, R29). -/
def execRelay (f : LinkFrame) (s : State) : Result := .next (s.whenDp fun s => s.aditFrame 0x04 f)

/-- RESUME (R146). -/
def execResume (f : LinkFrame) (s : State) : Result := .next (s.whenDp fun s => s.aditFrame 0x05 f)

/-- REHOME (R149). -/
def execRehome (f : LinkFrame) (s : State) : Result := .next (s.whenDp fun s => s.aditFrame 0x06 f)

/-- DEPART (R144). -/
def execDepart (f : LinkFrame) (s : State) : Result := .next (s.whenDp fun s => s.aditFrame 0x07 f)

/-- YIELD (R144). -/
def execYield (f : LinkFrame) (s : State) : Result := .next (s.whenDp fun s => s.aditFrame 0x08 f)

/-- RESEND (R153). -/
def execResend (f : LinkFrame) (s : State) : Result := .next (s.whenDp fun s => s.aditFrame 0x09 f)

/-- ADIT_LINK_UP (R29, R151, R154, R294). -/
def execAditLinkUp (roundTrip : Nat) (peerBase : BitVec 64) (s : State) : Result :=
  .next (s.whenDp fun s => s.aditTrain roundTrip peerBase.toNat)

/-- ADIT_ALIGN_LOST (R151). -/
def execAditAlignLost (s : State) : Result := .next (s.whenDp State.aditDown)

/-- COMMIT_KEY (R135, R136). -/
def execCommitKey (epoch : BitVec 64) (key : ReqKey) (cells : List CellFault) (s : State) : Result :=
  .next (s.whenDp fun s => s.commitKey epoch.toNat key cells)

/-- WRITE_PLACED (R136). -/
def execWritePlaced (epoch : BitVec 64) (key : ReqKey) (time : Nat) (s : State) : Result :=
  .next (s.whenDp fun s => (s.at time).writePlaced epoch.toNat key)

/-- REVOKE_DONE (R118). -/
def execRevokeDone (window : BitVec 18) (s : State) : Result := .next (s.whenDp fun s => s.revokeDone window.toNat)

/-- PAIR_TMO (R147): a device in START with a valid restore of a PAIRED or ALONE record opens ALONE when it may. -/
def execPairTmo (s : State) : Result :=
  .next (s.whenDp fun s =>
    if s.cm.twin == .start && s.mus.restoreValid && (s.mus.recordTwin == .paired || s.mus.recordTwin == .alone) &&
        !s.cm.resumed then { s with cm := { s.cm with next := .alone } }
    else s)

end Sys2Proof.Machine
end

