-- ==== Sys2Proof/Machine/CalStore.lean ====
section
/-! DEFINITION. The calibration store of NOR bank 2 (R314, R315, R355): its two halves, the records in them, the one in force
for a member and set point, and a new record programmed. -/

namespace Sys2Proof.Machine

/-- A half of the store: 128 of the sectors 648 to 903 of bank 2 (R314, R354). -/
def calHalf (i : Nat) : Nat := norSector 2 (648 + 128 * i)

/-- Bytes of a half. -/
def calHalfLen : Nat := 128 * 4096

/-- LANES and DEVS of a member (R314). -/
def calLanes (m : Nat) : Nat := if m < 8 then 1792 else 112
def calDevs (m : Nat) : Nat := if m < 8 then 224 else 28

/-- Set points of a member (R307). -/
def setPoints (m : Nat) : Nat := if m < 8 then 1 else 4

/-- The bytes of a member's record (R314). -/
def calLen (m : Nat) : Nat := 32 + calDevs m + 4 * calLanes m

/-- The member that the record at `a` names: its DLL index less 1. -/
def State.calMember (s : State) (a : Nat) : Nat := s.norWord (a + 8) % 256 - 1

/-- The records of a half from `a` on, each behind the one before (log entry 65), and the first byte past them. -/
def State.calWalk (s : State) (stop : Nat) : Nat → Nat → List Nat × Nat
  | 0, a => ([], a)
  | k + 1, a =>
    if stop < a + 32 || s.norWord a == norErased then ([], a)
    else
      let (l, e) := State.calWalk s stop k (a + calLen (s.calMember a))
      (a :: l, e)

/-- The records of the active half, and the first byte past them. -/
def State.calRecords (s : State) : List Nat × Nat :=
  match s.activeArea (calHalf 0) (calHalf 1) with
  | none => ([], calHalf 0 + 8)
  | some b => s.calWalk (b + calHalfLen) 1033 (b + 8)

/-- Do MAGIC and the CRC of a record verify (R314)? -/
def State.calOk (s : State) (a : Nat) : Bool :=
  s.norWord a == 0x434C4252 &&
    s.norWord (a + 28) == crc32 (s.norBytes a 28 ++ s.norBytes (a + 32) (calLen (s.calMember a) - 32))

/-- Records of a member at a set point whose check fails (R315). -/
def State.calBad (s : State) (m f : Nat) : Nat :=
  (s.calRecords.1.filter fun a =>
    s.calMember a == m && s.norWord (a + 8) / 256 % 4 == f && !s.calOk a).length

/-- The record in force for a member and set point: the highest SERIAL that verifies (R314). -/
def State.calInForce (s : State) (m f : Nat) : Option Nat :=
  s.newest (s.calRecords.1.filter fun a =>
    s.calMember a == m && s.norWord (a + 8) / 256 % 4 == f && s.calOk a)

/-- DLL_CODE of the record at `a`. -/
def State.calCode (s : State) (a : Nat) : Nat := s.norWord (a + 12) / 65536 % 2 ^ 14

/-- The bytes of the record at `a` past its head: Vrefs, then lane entries. -/
def State.calBody (s : State) (a : Nat) : List Byte := s.norBytes (a + 32) (calLen (s.calMember a) - 32)

/-- A record's bytes (R314). -/
def calRecord (serial m f code : Nat) (body : List Byte) : List Byte :=
  let head := bytesLE 4 0x434C4252 ++ bytesLE 4 serial ++ [BitVec.ofNat 8 (m + 1), BitVec.ofNat 8 f] ++
    bytesLE 2 (calLanes m) ++ bytesLE 2 (calDevs m) ++ bytesLE 2 code ++ List.replicate 12 (0 : Byte)
  head ++ bytesLE 4 (crc32 (head ++ body)) ++ body

/-- The operations that put records one behind the other from `a` on. -/
def recordsAt : Nat → List (List Byte) → List (Nat × Option Nat)
  | _, [] => []
  | a, r :: rs => wordsAt a (wordsLE (r.length / 4) r) ++ recordsAt (a + r.length) rs

/-- A half erased, sector by sector. -/
def eraseHalf (b : Nat) : List (Nat × Option Nat) := (List.range 128).map fun i => (b + 4096 * i, none)

/-- A new record programmed behind the others; where its half is full, the records in force go to the other half with it, with
the next generation, and the full half is erased (R314, R355). What already waits for the bank counts as done. -/
def State.calProgram (s : State) (m f code : Nat) (body : List Byte) : State :=
  let v := s.devNorDrain
  let serial := match v.newest (v.calRecords.1.filter v.calOk) with
    | some a => (v.norWord (a + 4) + 1) % 2 ^ 32
    | none => 1
  let r := calRecord serial m f code body
  let (a, b) := (calHalf 0, calHalf 1)
  match v.activeArea a b with
  | none => s.devNor (eraseHalf a ++ wordsAt a [1, notWord 1] ++ recordsAt (a + 8) [r])
  | some act =>
    let o := v.calRecords.2
    if o + r.length ≤ act + calHalfLen then s.devNor (recordsAt o [r])
    else
      let other := if act = a then b else a
      let g := (v.norWord act + 1) % 2 ^ 32
      let keep := (List.range 16).flatMap fun k => (List.range (setPoints k)).filterMap fun j => v.calInForce k j
      let rs := keep.map fun x => v.norBytes x (calLen (v.calMember x))
      s.devNor (eraseHalf other ++ wordsAt other [g, notWord g] ++ recordsAt (other + 8) (rs ++ [r]) ++ eraseHalf act)

/-- Free content of a record (R223): the training's results; DFE1 only at warm FSP_0 (R314). -/
def freeBody (m f v : Nat) : List Byte :=
  (List.range (calDevs m)).map (fun i => BitVec.ofNat 8 (v / 256 ^ i)) ++
    (List.range (4 * calLanes m)).map fun i =>
      if i % 4 == 3 && (m < 8 || f != 0) then (0 : Byte) else BitVec.ofNat 8 (v / 256 ^ (calDevs m + i))

end Sys2Proof.Machine
end

