-- ==== Sys2Proof/Machine/Channels.lean ====
section
/-! DEFINITION. The stacks and warm channels (R212 to R229), their delay lines (R307, R308), calibration, margin scan and
retraining (R313 to R323). Member m stands behind DLL m + 1. -/

namespace Sys2Proof.Machine

/-! ## Members -/

/-- The page of a member. -/
def memberPage (m : Nat) : Nat := if m < 8 then STK.page m else DCH.page (m - 8)

/-- IN_SERVICE of a member. -/
def inServiceFld (m : Nat) : Fld := if m < 8 then STK.IN_SERVICE m else DCH.IN_SERVICE (m - 8)

/-- TRAINED of a member. -/
def trainedFld (m : Nat) : Fld := if m < 8 then STK.TRAINED m else DCH.TRAINED (m - 8)

/-- Is DLL `i` enabled: the epoch DLL always, a member's while its page is (R307)? -/
def State.dllEnabled (s : State) (i : Nat) : Bool := i == 0 || s.flag (HDR.ENABLE (memberPage (i - 1)))

/-- The window W_i in picoseconds (R307). -/
def dllWindow (i : Nat) : Nat := if i = 0 then 500 else if i ≤ 8 then 6 else 8

/-- A DLL's share of LOCK_A's density in 1/6000: e_i ÷ (2 × W_i), 1 at most; 1 as well while it searches (R309; log entry 65). -/
def State.lockShare (s : State) (i : Nat) : Nat :=
  let e := if i = 0 then s.clk.epochPhase else (s.member (i - 1)).phaseErr
  let inWin := if i = 0 then s.clk.epochDllIn else (s.member (i - 1)).inWindow
  if !inWin && e ≤ dllWindow i then 6000 else min 6000 (e * (3000 / dllWindow i))

/-- LOCK_A's density D in 1/6000: the worst of the enabled DLLs; 1 with none enabled, as in a datapath reset (R309). -/
def State.lockDensity (s : State) : Nat :=
  if !s.dpUp then 6000
  else (((List.range 17).filter s.dllEnabled).map s.lockShare).foldl max 0

/-- LOCK_A driven at a new density (R309). -/
def State.lockA (old s : State) : State :=
  if s.lockDensity == old.lockDensity then s else s.send (.lockA s.lockDensity)

/-- DLL_IN_WIN[i] (R307). -/
def State.dllIn (s : State) (i : Nat) : Bool :=
  s.dllEnabled i && (if i = 0 then s.clk.epochDllIn else (s.member (i - 1)).inWindow)

/-- Does a sector homed in a volatile tier have a byte in member m? Grains are 256 bytes or more (R215). -/
def State.sectorIn (s : State) (sec m : Nat) : Bool :=
  (List.range 16).any fun i => match s.placeOfDa (4096 * sec + 256 * i) with
    | some p => p.1 == m
    | none => false

/-- The sectors homed in member m. -/
def State.sectorsOfMember (s : State) (m : Nat) : List Nat :=
  (s.tier.ext.filter fun e => e.2.isVolatile).flatMap fun e =>
    ((List.range 16).map (16 * e.1 + ·)).filter fun sec => s.sectorIn sec m

/-- A member leaves service at once: every sector homed there is poisoned, and R212 applies (R224, R308). -/
def State.dropMember (s : State) (m : Nat) : State :=
  let secs := s.sectorsOfMember m
  let s := secs.foldl (fun s sec => s.poisonSector m sec) s
  let s := (s.put (inServiceFld m) 0).raise (memberPage m) (if m < 8 then STK.evOUT_OF_SERVICE else DCH.evOUT_OF_SERVICE)
  ({ s.damage with q := { s.q with refigure := true } }).resettle.manageTiers

/-- A record of a member at a set point programmed with free content, as training found it (R223, R313). -/
def State.freeRecord (s : State) (m f code : Nat) : State :=
  let (v, s) := s.freeNat
  s.calProgram m f code (freeBody m f v)

/-- The window of a search about a stored value (R315). -/
def State.seedWin (s : State) : Nat := s.get CLK.SEED_WIN

/-- Bring-up training of a member at a set point (R223, R313, R315): from the record in force, each lane within SEED_WIN of it; or
over the whole range, with a record of what is found. Records whose check fails count. -/
def State.trainAt (s : State) (m f : Nat) : State :=
  let s := s.inc CLK.RECORD_CRC_FAIL (s.calBad m f)
  let (v, s) := s.freeNat
  let put (s : State) (code : Nat) (seeds : NMap (Nat × Nat)) : State :=
    s.setMember m { s.member m with codes := mput (s.member m).codes f code, seeds := seeds }
  match s.calInForce m f with
  | some a => put s (s.calCode a) (mput (s.member m).seeds f (v, s.seedWin))
  | none =>
    let code := v % 16384
    put (s.freeRecord m f code) code (mdel (s.member m).seeds f)

/-- A member enters service: its bring-up training is done at every set point (R223, R308). -/
def State.bringUp (s : State) (m : Nat) : State :=
  let s := s.setMember m { s.member m with codes := [], seeds := [], drift := [], caRow := 0 }
  let s := (List.range (setPoints m)).foldl (fun s f => s.trainAt m f) s
  let s := (s.put (trainedFld m) 1).put (inServiceFld m) 1
  let s := if m < 8 then s else s.put (DCH.FSP_ACTIVE (m - 8)) (s.get (DCH.FSP (m - 8)))
  ({ s with q := { s.q with refigure := true } }).resettle.manageTiers

/-! ## Refresh intervals and temperature (R217) -/

/-- REF_X2 as it stands now, with its event on a stack. -/
def State.showX2 (s : State) (m : Nat) : State :=
  if m < 8 then
    let b := s.refX2 m 0
    (s.raiseIf (b != s.flag (STK.REF_X2 m)) (STK.page m) STK.evREF_X2_EVT).putb (STK.REF_X2 m) b
  else s.put (DCH.REF_X2 (m - 8)) (b2n (s.refX2 m 0) + 2 * b2n (s.refX2 m 1))

/-- The 1 ms read of a stack's sensor (R217): doubled from 85 °C on, base again from 80 °C down. -/
def State.stackTemp (s : State) (n : Nat) (t : Int) : State :=
  let s := s.put (STK.TEMP_C n) (BitVec.ofInt 8 t).toNat
  let s := { s with cen := { s.cen with stkMax := some (max t (s.cen.stkMax.getD t)) } }
  let x := s.member n
  let hot := if 85 ≤ t then true else if t ≤ 80 then false else x.hotRank.getD 0 false
  (s.setMember n { x with hotRank := x.hotRank.set 0 hot }).showX2 n

/-- The 1 ms read of a rank's temperature mode registers (R217, R341): `levels` says of each device 0 for the base rate, 1
above it, 2 above twice it. -/
def State.rankTemp (s : State) (n rank : Nat) (levels : List Nat) : State :=
  let m := 8 + n
  let x := s.member m
  let hot := levels.any (0 < ·)
  let s := s.setMember m { x with
    hotRank := x.hotRank.set rank hot, overRank := x.overRank.set rank (levels.any (1 < ·)) }
  let o := (s.member m).overRank.any id
  let was := s.flag (DCH.TEMP_OVER n)
  let s := (s.putb (DCH.TEMP_OVER n) o).raiseIf (o && !was) (DCH.page n) DCH.evTEMP_OVER_EVT
  (if o != was then { s with q := { s.q with refigure := true } } else s).showX2 m

/-! ## Command parity (R224) -/

/-- A warm channel at a set point: its rate, and the figures that follow from it (R225). -/
def State.setFsp (s : State) (n f : Nat) : State :=
  let s := s.put (DCH.FSP_ACTIVE n) f
  { s with q := { s.q with refigure := true } }

/-- A command parity error on a member (R224). -/
def State.caParity (s : State) (m : Nat) (again : Bool) : State :=
  if !s.memberUp m then s
  else
    let s := if m < 8 then (s.inc (STK.CA_PARITY m)).raise (STK.page m) STK.evCA_PARITY_EVT
      else (s.inc (DCH.CA_PARITY (m - 8))).raise (DCH.page (m - 8)) DCH.evCA_PARITY_EVT
    let row := if again then (s.member m).caRow + 1 else 1
    let s := s.setMember m { s.member m with caRow := if row = 3 then 0 else row }
    if row != 3 then s
    else
      let f := s.get (DCH.FSP_ACTIVE (m - 8))
      if m < 8 || f == 3 then s.dropMember m
      else ((s.setFsp (m - 8) (f + 1)).inc (DCH.FSP_FALLS (m - 8))).raise (DCH.page (m - 8)) DCH.evFSP_FALL

/-! ## Delay lines (R307, R308) -/

/-- A phase error kept, of a DLL. -/
def State.setPhase (s : State) (i err : Nat) (inWin : Bool) : State :=
  if i = 0 then { s with clk := { s.clk with epochDllIn := inWin, epochPhase := err } }
  else
    let x := s.member (i - 1)
    s.setMember (i - 1) { x with
      inWindow := inWin, phaseErr := err, outSince := if inWin then none else some (x.outSince.getD s.now) }

/-- A DLL's phase error leaves its window (R308). -/
def State.dllOut (s : State) (i err : Nat) : State :=
  if !s.dllIn i || err ≤ dllWindow i then s
  else (s.setPhase i err false).raise CLK.page CLK.evDLL_OUT

/-- A DLL reaches its window: again, or for the first time at bring-up, after which the member enters service
(R308; log entry 29). -/
def State.dllBack (s : State) (i err : Nat) : State :=
  if !s.dllEnabled i || s.dllIn i || dllWindow i < err then s
  else
    let s := s.setPhase i err true
    let s := if i != 0 || s.clk.epochCode.isSome then s
      else
        let (v, s) := s.freeNat
        { s with clk := { s.clk with epochCode := some (v % 16384) } }
    (if i != 0 && !s.flag (trainedFld (i - 1)) then s.bringUp (i - 1) else s).examine.applyDue.runReads

/-- A member's DLL that has not returned within 1 ms (R308). -/
def State.dllTimeout (s : State) (m : Nat) : State :=
  if s.memberUp m && !(s.member m).inWindow && (s.member m).outSince.isSome then (s.dropMember m).examine.applyDue.runReads else s

/-! ## Fill (R214) -/

/-- The fill engine started over every member in service. -/
def State.fillStart (s : State) : State :=
  if s.mc.fillBusy then s else { s with mc := { s.mc with fillBusy := true, fillDone := false } }

/-- The fill ends. Homes that hold data while service is open have been filled over: their sectors are unreadable (log
entry 30). -/
def State.fillEnd (s : State) : State :=
  if !s.mc.fillBusy then s
  else
    let s := { s with mc := { s.mc with
      fillBusy := false, fillDone := true, filled := (List.range 16).filter s.memberUp, refilled := []
      touched := (s.usedFrames false).map (false, ·) ++ (s.usedFrames true).map (true, ·) } }
    let secs := if s.cm.inService then
        (s.tier.ext.filter fun e => e.2.isVolatile).flatMap fun e => (List.range 16).map (16 * e.1 + ·)
      else []
    (secs.foldl (fun s sec => s.poisonSector (s.memberOfSector sec) sec) s).raise CEL.page CEL.evFILL_DONE_EVT

/-! ## Drain and set points (R225, R226) -/

/-- DRAIN written: no new frames there, and every frame off it (R226). -/
def State.setDrain (s : State) (m : Nat) (v : Bool) : State :=
  ((s.putb (if m < 8 then STK.DRAIN m else DCH.DRAIN (m - 8)) v).resettle).manageTiers

/-- FSP written: taken at the next boundary, or ignored with FSP_REJECT where the set point has no stored code and the
channel is not drained (R225). -/
def State.writeFsp (s : State) (n f : Nat) : State :=
  let x := s.member (8 + n)
  if (mget x.codes f).isSome || s.drained (8 + n) then
    (s.put (DCH.FSP n) f).setMember (8 + n) { x with fspReq := some f }
  else s.raise (DCH.page n) DCH.evFSP_REJECT

/-- Written set points taken at a boundary (R225): the member's new rate, with a code searched where none is stored. -/
def State.turnFsp (s : State) : State :=
  (List.range 8).foldl (fun s n =>
    let x := s.member (8 + n)
    match x.fspReq with
    | none => s
    | some f =>
      let s := s.setMember (8 + n) { x with fspReq := none }
      let s := if (mget x.codes f).isSome then s
        else
          let (v, s) := s.freeNat
          (s.setMember (8 + n) { s.member (8 + n) with codes := mput x.codes f (v % 16384) }).freeRecord (8 + n) f (v % 16384)
      s.setFsp n f) s

/-- May a member's page be disabled: only once DRAINED (R226)? -/
def State.mayDisable (s : State) (m : Nat) : Bool := s.drained m

/-- A drained member disabled: out of service, with its group (R226, R103). -/
def State.memberOff (s : State) (m : Nat) : State :=
  let s := ((s.put (inServiceFld m) 0).put (trainedFld m) 0).setMember m { s.member m with inWindow := false, outSince := none }
  ({ s with q := { s.q with refigure := true } }).resettle.manageTiers

/-! ## Background calibration (R316 to R318) -/

/-- Is background calibration paused on a member: a scan or a retraining of it (R317)? -/
def State.calPaused (s : State) (m : Nat) : Bool :=
  s.clk.scan == some m || (match s.clk.retrain with
    | some (k, _) => k == m
    | none => false)

/-- The set point at which a member works. -/
def State.setPoint (s : State) (m : Nat) : Nat := if m < 8 then 0 else s.get (DCH.FSP_ACTIVE (m - 8))

/-- The key of a lane's field k (R314) at a set point. -/
def driftKey (f lane k : Nat) : Nat := (4 * f + k) * 2048 + lane

/-- How far a lane's field stands from the record in force (R315, R316): where training found it, and the steps since. -/
def MemberSt.offset (x : MemberSt) (f lane k : Nat) : Int :=
  (match mget x.seeds f with
    | some (v, w) => if k < 3 then ((v / (2 * w + 1) ^ (3 * lane + k) % (2 * w + 1) : Nat) : Int) - w else 0
    | none => 0) + mgetD x.drift (driftKey f lane k) 0

/-- Does any lane stand 4 or more taps or steps from the record in force (R318)? -/
def State.calAway (s : State) (m f : Nat) : Bool :=
  let x := s.member m
  (!x.drift.isEmpty || !x.seeds.isEmpty) && (List.range (calLanes m)).any fun lane =>
    (List.range 3).any fun k => 4 ≤ (x.offset f lane k).natAbs

/-- A new record of a member where it now stands (R318). -/
def State.calSave (s : State) (m f : Nat) : State :=
  let x := s.member m
  let (v, s) := s.freeNat
  let old := match s.calInForce m f with
    | some a => s.calBody a
    | none => freeBody m f v
  let lanes := (List.range (4 * calLanes m)).map fun i =>
    BitVec.ofInt 8 ((old.getD (calDevs m + i) 0).toNat + x.offset f (i / 4) (i % 4))
  let s := s.calProgram m f (mgetD x.codes f 0) (old.take (calDevs m) ++ lanes)
  let here (e : Nat × Int) : Bool := e.1 / 2048 / 4 == f
  let s := s.setMember m { x with
    seeds := mdel x.seeds f, drift := x.drift.filter fun e => !here e, lastSave := some s.now }
  (s.inc CLK.CAL_SAVES).raise CLK.page CLK.evCAL_SAVED

/-- The key of a lane's histograms. -/
def histKey (m lane : Nat) : Nat := 2048 * m + lane

/-- Two histograms added. -/
def addBins (a b : List Nat) : List Nat := (List.range (max a.length b.length)).map fun i => a.getD i 0 + b.getD i 0

/-- What a lane's auxiliary sampler saw joins its histograms (R316); not while a scan or a retraining of the member runs (R317). -/
def State.calSee (s : State) (c : CalMove) : State :=
  let m := c.member.val
  if !s.memberUp m || s.calPaused m then s
  else
    let h := mgetD s.clk.hist (histKey m c.lane) ([], [])
    { s with clk := { s.clk with hist := mput s.clk.hist (histKey m c.lane) (addBins h.1 (c.bins.take 64), addBins h.2 c.volts) } }

/-- The histograms of a member restart (R317). -/
def State.calRestart (s : State) (m : Nat) : State :=
  { s with clk := { s.clk with hist := s.clk.hist.filter fun e => e.1 / 2048 != m } }

/-- One step of a lane's sampler towards the eye centre, in field k (R314), where the two differ by more than one (R316). -/
def State.calStepTo (s : State) (m lane k : Nat) (off : Int) : State :=
  if off.natAbs ≤ 1 then s
  else
    let x := s.member m
    let key := driftKey (s.setPoint m) lane k
    let d := mgetD x.drift key 0 + (if 0 < off then 1 else -1)
    (s.setMember m { x with drift := mput x.drift key d }).inc CLK.CAL_STEPS

/-- A lane served in a slot (R316, R317): no step with fewer than 4,096 transitions since the last slot. -/
def State.calMove (s : State) (c : CalMove) : State :=
  let m := c.member.val
  if !s.memberUp m || s.calPaused m || (mgetD s.clk.hist (histKey m c.lane) ([], [])).1.sum < 4096 then s
  else (s.calStepTo m c.lane 0 c.delay).calStepTo m c.lane 2 c.vref

/-- The members that stand off their records saved, each once per hour at most, with CAL_EN at either value (R318). -/
def State.calSaves (s : State) : State :=
  (List.range 16).foldl (fun s m =>
    let mayDo : Bool := match (s.member m).lastSave with
      | some t => 3600 * secCycles ≤ s.now - t
      | none => true
    if s.memberUp m && !s.calPaused m && mayDo && s.calAway m (s.setPoint m) then s.calSave m (s.setPoint m) else s) s

/-- What comes of the lanes that a slot names: each lane served once, on its first entry. -/
def firstOfLane (cs : List CalMove) : List CalMove :=
  (cs.foldl (fun (a : List CalMove) c =>
    if a.any fun x => x.member == c.member && x.lane == c.lane then a else c :: a) []).reverse

/-- Background calibration at a boundary (R316): the histograms grow; every CAL_SLOT_EPOCHS epochs, one step for each lane that
leans, after which they start anew; a member that changes its set point at the same boundary takes no step (R317). `k` epoch
numbers have passed since the last boundary (R35). -/
def State.calSlot (s : State) (moves : List CalMove) (hops : List Nat) (k : Nat) : State :=
  if s.mus.state == .mustering then s
  else if !s.flag CLK.CAL_EN then s.calSaves
  else
    let moves := firstOfLane moves
    let s := moves.foldl State.calSee s
    if s.clk.slots + k < s.get CLK.CAL_SLOT_EPOCHS then ({ s with clk := { s.clk with slots := s.clk.slots + k } }).calSaves
    else
      let s := (moves.filter fun c => !hops.contains c.member.val).foldl State.calMove s
      ({ s with clk := { s.clk with slots := 0, hist := [] } }).calSaves

/-! ## Margin scan and retraining (R320, R322, R323) -/

/-- The ranks or sub-channels of a member (R207, R208). -/
def memberSubs (m : Nat) : Nat := if m < 8 then 16 else 2

/-- START of a margin scan (R320): of the member in service named in MEMBER and its rank or sub-channel named in SUB; ignored while
a scan or a retraining runs, and where they name none (log entry 31). -/
def State.scanStart (s : State) : State :=
  let i := s.get CLK.MEMBER
  if s.clk.scan.isSome || s.clk.retrain.isSome || i == 0 || 16 < i || !s.memberUp (i - 1) || memberSubs (i - 1) ≤ s.get CLK.SUB then s
  else { s with clk := { s.clk with scan := some (i - 1), scanSub := s.get CLK.SUB, margins := [] } }

/-- A margin scan ends with each lane's LEFT, RIGHT, VLOW and VHIGH. -/
def State.scanDone (s : State) (lanes : List (List Nat)) : State :=
  if s.clk.scan.isNone then s
  else
    let ms := (List.range lanes.length).map fun i =>
      let l := lanes.getD i []
      let v (k : Nat) : Nat := l.getD k 0xFF % 256
      (i, ({ left := v 0, right := v 1, vlow := v 2, vhigh := v 3 } : LaneMargin))
    let s := s.calRestart (s.clk.scan.getD 16)
    ({ s with clk := { s.clk with scan := none, margins := ms } }).raise CLK.page CLK.evMSCAN_DONE

/-- A retraining refused (R322). -/
def State.retrainRefuse (s : State) : State :=
  (s.put CLK.RETRAIN_RESULT 0x11).raise CLK.page CLK.evRETRAIN_REFUSED

/-- RETRAIN_START written 1 (R322): at once for a DRAINED member, in slots for one in service at expert level; refused
otherwise (a member that is neither: log entry 31). -/
def State.retrainStart (s : State) : State :=
  let i := s.get CLK.RETRAIN_MEMBER
  let m := i - 1
  if s.clk.retrain.isSome || i == 0 || 16 < i then s.retrainRefuse
  else if s.drained m then
    { s with clk := { s.clk with retrain := some (m, false), retrainFsp := 0, retrainSlots := 0, retrainAt := none } }
  else if s.memberUp m && s.flag (HDR.EXPERT CLK.page) then
    { s with clk := { s.clk with retrain := some (m, true), retrainFsp := 0, retrainSlots := 0, retrainAt := none }
             q := { s.q with refigure := true } }
  else s.retrainRefuse

/-- A set point retrained (R323): its code, and its new record in force. -/
def State.retrainPoint (s : State) (m f code : Nat) : State :=
  let x := s.member m
  let here (e : Nat × Int) : Bool := e.1 / 2048 / 4 == f
  let s := s.setMember m { x with
    codes := mput x.codes f code, seeds := mdel x.seeds f, drift := x.drift.filter fun e => !here e, lastSave := some s.now }
  s.freeRecord m f code

/-- A retraining in service at a boundary (R323): a slot, 16 epochs of normal service after the last; a set point ends in the slot
at which its code is found, or with its forty-eighth. -/
def State.retrainSlot (s : State) (found : Option RetrainSlot) : State :=
  match s.clk.retrain with
  | some (m, true) =>
    let f := s.clk.retrainFsp
    let due : Bool := match s.clk.retrainAt with
      | none => true
      | some n => n + 17 ≤ s.ep.num
    if !due || setPoints m ≤ f then s
    else
      let n := s.clk.retrainSlots + 1
      let s := { s with clk := { s.clk with retrainSlots := n, retrainAt := some s.ep.num } }
      if found.isNone && n < 48 then s
      else
        let (v, s) := s.freeNat
        let code := match found with
          | some x => x.code.toNat
          | none => v % 16384
        let s := s.retrainPoint m f code
        { s with clk := { s.clk with retrainFsp := f + 1, retrainSlots := 0 } }
  | _ => s

/-- A retraining ends (R322, R323): each set point that has not ended yet takes its code and its new record. -/
def State.retrainDone (s : State) (codes : List Nat) : State :=
  match s.clk.retrain with
  | none => s
  | some (m, _) =>
    let old := (s.member m).codes
    let s := ((List.range (setPoints m)).filter (s.clk.retrainFsp ≤ ·)).foldl
      (fun s f => s.retrainPoint m f (codes.getD f (mgetD old f 0) % 16384)) s
    let s := s.calRestart m
    let s := { s with clk := { s.clk with retrain := none }, q := { s.q with refigure := true } }
    (s.put CLK.RETRAIN_RESULT 0).raise CLK.page CLK.evRETRAIN_DONE

/-! ## The commands -/

/-- STACK_TEMP_READ (R217). -/
def execStackTempRead (n : Fin 8) (celsius : Int) (s : State) : Result :=
  .next (s.whenDp fun s => if s.memberUp n.val then s.stackTemp n.val celsius else s)

/-- MR_TEMP_READ (R217, R341). -/
def execMrTempRead (n : Fin 8) (rank : Fin 2) (levels : List Nat) (s : State) : Result :=
  .next (s.whenDp fun s => if s.refTarget (8 + n.val) rank.val then s.rankTemp n.val rank.val levels else s)

/-- CA_PARITY (R224). -/
def execCaParity (m : MemberId) (again : Bool) (s : State) : Result := .next (s.whenDp fun s => s.caParity m.val again)

/-- DLL_OUT (R308). -/
def execDllOut (i : Fin 17) (time err : Nat) (s : State) : Result := .next (s.whenDp fun s => s.lockA ((s.at time).dllOut i.val err))

/-- DLL_TIMEOUT (R308). -/
def execDllTimeout (m : MemberId) (s : State) : Result := .next (s.whenDp fun s => s.dllTimeout m.val)

/-- DLL_BACK_IN_WINDOW (R308). -/
def execDllBackInWindow (i : Fin 17) (time err : Nat) (s : State) : Result :=
  .next (s.whenDp fun s => s.lockA ((s.at time).dllBack i.val err))

/-- FILL_DONE (R214). -/
def execFillDone (s : State) : Result := .next (s.whenDp State.fillEnd)

/-- MSCAN_DONE (R320). -/
def execMscanDone (lanes : List (List Nat)) (s : State) : Result := .next (s.whenDp fun s => s.scanDone lanes)

/-- RETRAIN_DONE (R322, R323). -/
def execRetrainDone (codes : List Nat) (s : State) : Result := .next (s.whenDp fun s => s.retrainDone codes)

end Sys2Proof.Machine
end

