-- ==== Sys2Proof/Machine/Drbg.lean ====
section
/-! DEFINITION. The remaining algorithms of R285: XTS-AES over data units of 4,096 bytes (IEEE 1619), and the CTR_DRBG of
SP 800-90A with AES-256 and its derivation function, from whose output the channels' masks come (R297). -/

namespace Sys2Proof.Machine

/-! ## XTS-AES -/

/-- A tweak times x in GF(2¹²⁸), bytes in ascending significance (IEEE 1619). -/
def xtsDouble (t : List Nat) : List Nat :=
  let v := natOf t.reverse
  (blockOf (if v < 2 ^ 127 then 2 * v else Nat.xor (2 * v - 2 ^ 128) 0x87)).reverse

/-- The tweaks of `n` blocks of a data unit, the first given. -/
def xtsTweaks : Nat → List Nat → List (List Nat)
  | 0, _ => []
  | n + 1, t => t :: xtsTweaks n (xtsDouble t)

/-- The tweak of a data unit's first block: the unit's number, least significant byte first, encrypted under the second half of
the key. -/
def xtsFirst (key : List Nat) (unit : Nat) : List Nat := aesEncrypt (key.drop (key.length / 2)) (blockOf unit).reverse

/-- XTS over one data unit of whole blocks, by the block cipher `f` under the first half of the key. -/
def xtsUnit (f : List Nat → List Nat → List Nat) (key : List Nat) (unit : Nat) (data : List Nat) : List Nat :=
  let k1 := key.take (key.length / 2)
  let n := data.length / 16
  let ts := xtsTweaks n (xtsFirst key unit)
  (List.range n).flatMap fun i =>
    let t := ts.getD i []
    xorBytes (f k1 (xorBytes ((data.drop (16 * i)).take 16) t)) t

/-- A data unit of 4,096 bytes encrypted (R285, R295). -/
def xtsEncrypt (key : List Byte) (unit : Nat) (data : List Byte) : List Byte :=
  ofNats (xtsUnit aesEncrypt (toNats key) unit (toNats data))

/-- A data unit of 4,096 bytes decrypted. -/
def xtsDecrypt (key : List Byte) (unit : Nat) (data : List Byte) : List Byte :=
  ofNats (xtsUnit aesDecrypt (toNats key) unit (toNats data))

/-! ## CTR_DRBG -/

/-- The working state of the DRBG: the AES-256 key and V. -/
structure Drbg where
  key : List Nat
  v : Nat
  deriving DecidableEq, Repr

/-- `n` bytes of output blocks, and V after them. -/
def Drbg.stream (d : Drbg) (n : Nat) : List Nat × Nat :=
  let k := ceilDiv n 16
  (((List.range k).flatMap fun i => aesEncrypt d.key (blockOf ((d.v + i + 1) % 2 ^ 128))).take n, (d.v + k) % 2 ^ 128)

/-- The update of the working state by 48 bytes of provided data. -/
def Drbg.update (d : Drbg) (data : List Nat) : Drbg :=
  let x := xorBytes (d.stream 48).1 data
  { key := x.take 32, v := natOf (x.drop 32) }

/-- BCC: the blocks chained under a key. -/
def drbgBcc (key : List Nat) (data : List Nat) : List Nat :=
  (blocks16 data).foldl (fun c b => aesEncrypt key (xorBytes c (blockOf b))) (List.replicate 16 0)

/-- The derivation function over an input, for 48 bytes. -/
def drbgDf (input : List Nat) : List Nat :=
  let word (n : Nat) : List Nat := (blockOf n).drop 12
  let body := word input.length ++ word 48 ++ input ++ [0x80]
  let key := List.range 32
  let temp := (List.range 3).flatMap fun i => drbgBcc key (word i ++ List.replicate 12 0 ++ body)
  let k := temp.take 32
  let x1 := aesEncrypt k ((temp.drop 32).take 16)
  let x2 := aesEncrypt k x1
  x1 ++ x2 ++ aesEncrypt k x2

/-- The DRBG instantiated from entropy input with its nonce. -/
def Drbg.instantiate (entropy : List Nat) : Drbg := ({ key := List.replicate 32 0, v := 0 } : Drbg).update (drbgDf entropy)

/-- The DRBG reseeded. -/
def Drbg.reseed (d : Drbg) (entropy : List Nat) : Drbg := d.update (drbgDf entropy)

/-- `n` bytes generated, with no additional input and no prediction resistance. -/
def Drbg.generate (d : Drbg) (n : Nat) : List Nat × Drbg :=
  let (out, v) := d.stream n
  (out, ({ d with v := v } : Drbg).update (List.replicate 48 0))

/-- The entropy input of a seed: 48 bytes from the on-chip source, free (R297). -/
def drbgEntropy (seed : Nat) : List Nat := toNats (bytesBE 48 (Config.freeNat seed))

/-- `n` requests, of one block of masks each (log entry 74). -/
def Drbg.requests (d : Drbg) (n : Nat) : Drbg := (List.range n).foldl (fun d _ => (d.generate 16).2) d

/-- The working state now: instantiated by the first seed, reseeded by each that followed, with the requests between them. -/
def State.drbg (s : State) : Drbg :=
  match s.key.drbgPast ++ [(s.key.drbgSeed, s.key.drbgReqs)] with
  | [] => { key := [], v := 0 }
  | (e, n) :: rest =>
    rest.foldl (fun d x => (d.reseed (drbgEntropy x.1)).requests x.2) ((Drbg.instantiate (drbgEntropy e)).requests n)

/-- Is a reseed due: 2²⁰ requests since the last (R285)? -/
def State.reseedDue (s : State) : Bool := 2 ^ 20 ≤ s.key.drbgReqs

end Sys2Proof.Machine
end

