-- ==== Sys2Proof/Machine/Pages.lean ====
section
/-! DEFINITION. What the pages of a superblock hold (R234, R252, R295): clear and enciphered bytes, headers, P and Q, and the tag
records; and what a cipher context saves of a message (R300). They follow from the slots programmed and the storage key and counter
they were sealed under. -/

namespace Sys2Proof.Machine

/-! ## Data pages -/

/-- The slot of member `m` in row `r`, and the page of it (R233). -/
def slotOf (m r : Nat) : Nat := 4 * r + m / 4

/-- The storage key and counter that row `r` was programmed under: the last that names it. -/
def Superblock.sealOf (x : Superblock) (r : Nat) : Option RowSeal :=
  x.seals.reverse.find? fun k => k.first ≤ r && r < k.first + k.rows

/-- The 16,384 clear bytes of member `m` of row `r`. -/
def Superblock.clearPage (x : Superblock) (m r : Nat) : List Byte :=
  let cells := mgetD x.data (slotOf m r) []
  (List.range 16384).map fun i => (cells.lookup (16384 * (m % 4) + i)).getD 0

/-- The data unit of sector `j` of a page: DA[47:12] (R295). -/
def Superblock.unitOf (x : Superblock) (m r j : Nat) : Nat := 16 * (x.hdr (slotOf m r)).ext + 4 * (m % 4) + j

/-- The two XTS halves of a storage key, and its GMAC key (R287). -/
def RowSeal.xtsKey (k : RowSeal) : List Byte := k.key.take (2 * keyBytes k.alg)

/-- The GMAC key of a storage key (R287). -/
def RowSeal.macKey (k : RowSeal) : List Byte := k.key.drop (2 * keyBytes k.alg)

/-- The counter of the nonce of member `m` of row `r` (R292). -/
def RowSeal.counterOf (k : RowSeal) (m r : Nat) : Nat := k.counter + 16 * (r - k.first) + m

/-- The 16,384 main bytes of a data page as programmed: each sector a data unit of XTS (R295). -/
def Superblock.dataPage (x : Superblock) (m r : Nat) : List Byte :=
  match x.sealOf r with
  | none => List.replicate 16384 0xFF
  | some k =>
    let clear := x.clearPage m r
    (List.range 4).flatMap fun j => xtsEncrypt k.xtsKey (x.unitOf m r j) (slice clear (4096 * j) 4096)

/-- ROLE of a superblock's headers (R234). -/
def SbUse.role : SbUse → Nat
  | .data => 0
  | .log => 1
  | .slc => 2

/-- The header of a page (R234): of the slot that a data page belongs to, or of a parity page. -/
def State.pageHdr (s : State) (x : Superblock) (m r : Nat) : List Byte :=
  let erases := mgetD s.fl.erases (x.blocks.getD m 0) 0
  if m < 16 then (x.hdr (slotOf m r)).bytes (m % 4) erases else ({ state := 3, role := x.use.role } : SlotHdr).bytes 0 erases

/-- The tag record of a data page (R295): COUNTER, then the GMAC over the ciphertext with header bytes 0 to 27 as additional
data. -/
def State.tagRecord (s : State) (x : Superblock) (m r : Nat) : List Byte :=
  match x.sealOf r with
  | none => List.replicate 24 0xFF
  | some k =>
    let c := k.counterOf m r
    bytesLE 8 c ++ gcmTagOf k.macKey (nonceOf k.inst c) ((s.pageHdr x m r).take 28) (x.dataPage m r)

/-- Does a page authenticate under the storage key as it now is (R295, R296)? -/
def State.sealHolds (s : State) (sb r : Nat) : Bool :=
  match (mget s.fl.sbs sb).bind (·.sealOf r), s.storeInst with
  | some k, some i => k.inst == s.get CPH.STORE_KEY && k.alg == i.alg && k.key == i.material
  | _, _ => true

/-! ## Parity pages (R252) -/

/-- P, or Q, of lists of bytes, offset by offset. -/
def parityOf (q : Bool) (n : Nat) (ds : List (List Byte)) : List Byte :=
  (List.range n).map fun b => (if q then parityQ else parityP) (ds.map fun d => d.getD b 0)

/-- The main bytes of the P or the Q page of row `r`: over the enciphered data pages. -/
def Superblock.parityPage (x : Superblock) (q : Bool) (r : Nat) : List Byte :=
  parityOf q 16384 ((List.range 16).map fun m => x.dataPage m r)

/-- Spare bytes 32 to 59 of the P or the Q page: over bytes 0 to 27 of the data pages' headers. -/
def State.parityHdr (s : State) (x : Superblock) (q : Bool) (r : Nat) : List Byte :=
  parityOf q 28 ((List.range 16).map fun m => (s.pageHdr x m r).take 28)

/-! ## Whole pages -/

/-- The main bytes of member `m` of row `r`. -/
def Superblock.mainPage (x : Superblock) (m r : Nat) : List Byte :=
  if m < 16 then x.dataPage m r else x.parityPage (m == 17) r

/-- The spare bytes of member `m` of row `r`, as offset and bytes: the header; the parity of the headers; the tag records (R234,
R252, R295). -/
def State.sparePage (s : State) (x : Superblock) (m r : Nat) : List (Nat × List Byte) :=
  (0, s.pageHdr x m r) ::
    (if m < 16 then [(64, s.tagRecord x m r)]
     else (32, s.parityHdr x (m == 17) r) :: (List.range 16).map fun i => (64 + 24 * i, s.tagRecord x i r))

/-! ## What a context saves (R300) -/

/-- The state of a suspended message: counter block, GHASH accumulator, tweak, instance and position. -/
structure SavedCtx where
  counter : List Byte
  hash : Nat
  tweak : List Byte
  inst : Nat
  position : Nat
  deriving DecidableEq, Repr

/-- The context of a message of flash pages: that of the page it has reached. -/
def State.pageCtx (s : State) (j : ChanJob) (sb m row : Nat) : SavedCtx :=
  let at_ := j.position % 16384
  let r := row + j.position / 16384
  match (mget s.fl.sbs sb), (mget s.fl.sbs sb).bind (·.sealOf r) with
  | some x, some k =>
    let mac := toNats k.macKey
    let h := natOf (aesEncrypt mac (List.replicate 16 0))
    let aad := (s.pageHdr x m r).take 28
    let msg : ChanJob := { j with total := 64 * at_, left := 0, ctx := { aad := aad, data := x.dataPage m r } }
    let tweaks := xtsTweaks (at_ % 4096 / 16 + 1) (xtsFirst (toNats k.xtsKey) (x.unitOf m r (at_ / 4096)))
    { counter := nonceOf k.inst (k.counterOf m r) ++ bytesBE 4 (at_ / 16 + 2), hash := msg.accumulator h
      tweak := ofNats (tweaks.getLast?.getD []), inst := k.inst, position := at_ }
  | _, _ => { counter := [], hash := 0, tweak := [], inst := j.ctx.inst, position := at_ }

/-- What a context holds of a suspended message (R300). -/
def State.savedCtx (s : State) (j : ChanJob) : SavedCtx :=
  match j.ctx.page with
  | some (sb, m, r) => s.pageCtx j sb m r
  | none =>
    let key := ((s.keyInst j.ctx.inst).map (·.material)).getD []
    let h := natOf (aesEncrypt (toNats key) (List.replicate 16 0))
    { counter := j.counterBlock, hash := j.accumulator h, tweak := [], inst := j.ctx.inst, position := j.position }

end Sys2Proof.Machine
end

