-- ==== Sys2Proof/Machine/FlashOps.lean ====
section
/-! DEFINITION. What the NAND channels report (R238 to R247, R253 to R266): programs, merges, page reads, timeouts, the
patrol; and reshape and the failed-die list (R258, R267, R268). -/

namespace Sys2Proof.Machine

/-! ## Storage channels and counters -/

/-- The storage channel of a NAND channel: SC_(n >> 3), channel 8 + it (R284). -/
def storeChan (die : Nat) : Nat := 8 + dieChan die / 8

/-- `rows` pages of member `m` of a superblock, from row `first` on, through their storage channel, with their priority (R284,
R300). -/
def State.memberMsg (s : State) (sb m first rows prio : Nat) (bad : Bool := false) : State :=
  match (mget s.fl.sbs sb).bind (·.blocks[m]?) with
  | none => s
  | some b => s.channelMsg (storeChan (b / dieBlocks)) (16384 * rows) prio bad (count := rows)
      (ctx := { inst := s.get CPH.STORE_KEY, page := some (sb, m, first) })

/-- `rows` pages of each of a superblock's 18 blocks, from row `first` on, through their storage channels. -/
def State.storeMsgs (s : State) (sb first rows prio : Nat) : State :=
  (List.range 18).foldl (fun s m => s.memberMsg sb m first rows prio) s

/-- `rows` rows of a superblock from row `first` on programmed: nonces, channels, counters, and the seal that says what the pages
hold; not while the storage key cannot encrypt (R291, R292) or the channels are halted (R297). -/
def State.programRows (s : State) (sb first rows : Nat) (prio : Nat := 3) : Bool × State :=
  if s.chanWaits 8 then (false, s)
  else match s.pageNonces first rows with
    | (some k, t) =>
      let t := match mget t.fl.sbs sb with
        | some x => { t with fl := { t.fl with sbs := mput t.fl.sbs sb { x with seals := x.seals ++ [k] } } }
        | none => t
      (true, (t.storeMsgs sb first rows prio).countProgram sb rows)
    | (none, t) => (false, t)

/-- The data blocks of a superblock whose pages a retired storage key leaves unprogrammed: they failed to program (R241, R291). -/
def State.retireData (s : State) (sb : Nat) : State :=
  match mget s.fl.sbs sb with
  | none => s
  | some x => (x.blocks.take 16).foldl (fun s b => s.retireBlock b false) s

/-- The block of member m of a superblock. -/
def State.sbBlock (s : State) (sb m : Nat) : Nat :=
  match mget s.fl.sbs sb with
  | some x => x.blocks.getD m 0
  | none => 0

/-! ## Logs (R238) -/

/-- The group of a log whose program is in flight. -/
def State.issuedGroup (s : State) (sb : Nat) : Option Nat :=
  (s.par.journal.find? fun e => e.sb == sb && e.kind == 0).map (·.group)

/-- What has been programmed of superblock `o` copied to superblock `d`: `rows` rows. Under a retired storage key the copy
fails, and with it the blocks of `d` (R241, R291). -/
def State.copyRows (s : State) (o d rows : Nat) : Bool × State :=
  match s.programRows d 0 rows with
  | (true, s) => (true, match mget s.fl.sbs o, mget s.fl.sbs d with
    | some x, some y => { s with fl := { s.fl with sbs := mput s.fl.sbs d { y with hdrs := x.hdrs, data := x.data } } }
    | _, _ => s)
  | (false, s) => (false, (if s.storeRetired then s.retireData d else s).freeSb d)

/-- A log begun again on a new superblock after a program failure: its committed slots are copied first, and its open groups are
issued again there (R240). -/
def State.restartLog (s : State) (n : Nat) (l : FlashLog) : State :=
  match s.newSb .log with
  | (none, s) => s
  | (some d, s) => match s.copyRows l.sb d (3 * (l.programmed / 12)) with
    | (false, s) => s
    | (true, s) =>
      let groups := ((s.par.journal ++ s.par.queued).filter fun e => e.sb == l.sb && e.kind == 0).map (·.group)
      groups.foldl (fun s g => s.issueGroup d g 0) ((s.freeSb l.sb).setLog n { l with sb := d })

/-- A word-line group has ended with pass status: its demotions, whose copies may have met array faults, commit (R178, R205, R238).
A retired storage key is a program failure (R291). -/
def State.groupDone (s : State) (n g : Nat) (l : FlashLog) (cells : List CellFault) : State :=
  let ks := ((List.range 12).map (12 * g + ·)).filter (· < l.slots.length)
  let moving := ks.filterMap fun k => l.slots.getD k none
  let t := moving.foldl (fun s e => s.readCells cells (65536 * e) 65536) s
  match t.programRows l.sb (3 * g) 3 with
  | (false, t) => if t.storeRetired then (t.retireData l.sb).restartLog n l else s
  | (true, s) =>
    let s := s.closeGroup l.sb g
    let s := s.putSlots l.sb (ks.map fun k => s.slotWrite 1 k (l.slots.getD k none))
    let l := { l with programmed := max l.programmed (12 * g + 12) }
    let s := s.setLog n l
    let s := ks.foldl (fun s k =>
      match l.slots.getD k none with
      | none => s
      | some e =>
        match mget s.fl.logs n with
        | none => s
        | some l => ((s.setLog n { l with index := mput l.index (lbOf e).2 k }).commitMove e).inc FTL.USER_BYTES 65536) s
    if l.slots.length == 6144 && l.programmed == 6144 then s.startMerge l.lb else s

/-- FLASH_GROUP_PROGRAMMED (R238, R240, R241); in a muster of cause 5 alone do programs finish (R263). -/
def State.flashGroup (s : State) (n : Nat) (r : GroupEnd) : State :=
  match mget s.fl.logs n with
  | none => s
  | some l =>
    match s.issuedGroup l.sb with
    | none => s
    | some g =>
      if s.mus.stopped && s.mus.cause != 5 then s
      else
      let s := match r.failed with
        | none => s.groupDone n g l r.cells
        | some m => (s.retireBlock (s.sbBlock l.sb m.member.val) m.erase).restartLog n l
      s.manageTiers.examine.runReads

/-- ROW_HOLD_EXPIRY (R238): the empty slots of a partly filled group are written with PAD. -/
def State.rowHold (s : State) (n : Nat) : State :=
  match mget s.fl.logs n with
  | none => s
  | some l =>
    let k := l.slots.length
    if k % 12 = 0 then s
    else (s.setLog n { l with slots := l.slots ++ List.replicate (12 - k % 12) none }).issueGroup l.sb (k / 12) 0

/-! ## Merges (R239, R240, R259, R268) -/

/-- A merge whose destination failed to program begins again on a new superblock (R240). -/
def State.restartMerge (s : State) (lb : Nat) : State :=
  let x := s.lb lb
  match s.mergeDest with
  | (none, s) => s
  | (some d, s) =>
    let s := match x.dest with
      | some o => if x.kind == 0 then s.dropGroups fun e => e.sb == o && e.kind != 0 else s.freeSb o
      | none => s
    (s.setLb lb { x with dest := some d, kind := if x.kind == 0 then 1 else x.kind }).issueGroup d 0 (s.groupKind lb)

/-- A running merge given up, its destination freed (R260). -/
def State.stopMerge (s : State) (lb : Nat) : State :=
  let x := s.lb lb
  let s := match x.dest with
    | some o => if x.kind == 0 then s.dropGroups fun e => e.sb == o && e.kind != 0 else s.freeSb o
    | none => s
  s.setLb lb { s.lb lb with merging := false, dest := none, kind := 0 }

/-- The counter of a merge's kind. -/
def mergeCounter (kind : Nat) : Fld :=
  if kind = 0 then FTL.PARTIAL_MERGES else if kind = 2 then FTL.FOLDS else FTL.FULL_MERGES

/-- The reshape's boundary past a block that has been merged, with the checkpoint of each 1 GiB (R268). -/
def State.reshapePast (s : State) (lb : Nat) : State :=
  if s.par.reshaping && s.par.reshapeLb == lb && !s.onOldRow lb then
    let n := s.par.mergedBytes + lbBytes
    let cp := 2 ^ 30 ≤ n
    let s := { s with par := { s.par with
      reshapeLb := lb + 1, mergedBytes := if cp then 0 else n, checkpoint := if cp then lb + 1 else s.par.checkpoint } }
    if cp then s.layoutAppend (.checkpoint (lb + 1)) else s
  else s

/-- The demotions into a logical block that a merge meets: what it has programmed holds their data, and they commit with it
(R178). -/
def State.mergeMoves (s : State) (lb : Nat) : State :=
  ((s.tier.ext.filter fun e => e.1 / 6144 == lb && e.2.move == some .flash).map (·.1)).foldl
    (fun s e => (s.commitMove e).inc FTL.USER_BYTES 65536) s

/-! ## Reading stripes (R253, R284) -/

/-- The page of member m in a row of a superblock read from its die, through its storage channel (R249, R284). -/
def State.readMember (s : State) (sb m r prio : Nat) : State :=
  (s.inc (FCH.PAGE_READS (dieChan (s.sbBlock sb m / dieBlocks)))).memberMsg sb m r 1 prio

/-- The members of a superblock whose dies are out (R253). -/
def State.membersOut (s : State) (sb : Nat) : List Nat :=
  match mget s.fl.sbs sb with
  | some x => (List.range 18).filter fun m => s.dieOut (x.blocks.getD m 0 / dieBlocks)
  | none => []

/-- A page of member m rebuilt from its stripe, of whose other members `named` cannot be read beside those whose dies are out
(R253): was it possible? The members that are left are read. -/
def State.reconstruct (s : State) (sb m r : Nat) (named : List Nat) (prio : Nat) : Bool × State :=
  let missing := (m :: named ++ s.membersOut sb).eraseDups
  if 3 ≤ missing.length then (false, s)
  else
    let s := ((List.range 18).filter fun i => !missing.contains i && (i < 17 || missing.length == 2)).foldl
      (fun s i => s.readMember sb i r prio) (s.inc PAR.RECON_READS)
    (true, if missing.length == 2 then s.inc PAR.Q_RECON else s)

/-- The extents that a merge of a logical block reads from flash into superblock `d`, with their slots: those of its log, its
fill and its base (R239). -/
def State.mergeSources (s : State) (lb d : Nat) : List (Nat × Nat × Nat) :=
  (s.tier.ext.filter fun e => e.1 / 6144 == lb && s.flashState e.1 == 2).filterMap fun e =>
    match s.flashSlot e.1 with
    | some (sb, k) => if sb == d then none else some (e.1, sb, k)
    | none => none

/-- A slot read for a merge: its four pages, those that cannot be read from their stripes; what cannot be reconstructed is lost
(R253, R260). -/
def State.readSlot (s : State) (prio : Nat) (named : List MergePage) (x : Nat × Nat × Nat) : State :=
  let (e, sb, k) := x
  (List.range 4).foldl (fun s pg =>
    let m := 4 * (k % 4) + pg
    let n := named.find? fun p => p.extent == e && p.page.val == pg
    if n.isSome || (s.membersOut sb).contains m then
      match s.reconstruct sb m (k / 4) ((n.map fun p => p.missing.map (·.val)).getD []) prio with
      | (true, s) => s
      | (false, s) => s.loseSectors e (15 * 16 ^ pg)
    else s.readMember sb m (k / 4) prio) s

/-- Slots of a merge's destination that are programmed before it begins: those of the log that a partial merge completes (R239). -/
def State.mergeKept (s : State) (x : LbtEntry) : Nat :=
  match x.log.bind (mget s.fl.logs) with
  | some l => if x.kind == 0 then l.programmed else 0
  | none => 0

/-- What a merge into superblock `d` reads: its sources in flash, and the demotions that it takes along (R205, R239, R253). -/
def State.mergeReads (s : State) (lb d prio : Nat) (r : MergeReads) : State :=
  let t := (s.mergeSources lb d).foldl (fun s x => s.readSlot prio r.pages x) s
  (t.tier.ext.filter fun e => e.1 / 6144 == lb && e.2.move == some .flash).foldl
    (fun s e => s.readCells r.cells (65536 * e.1) 65536) t

/-- MERGE_DONE: the sources read, the destination programmed and verified; the entry switches (R239). A full lost list stops it
(R260); in a muster merges have stopped (R240). -/
def State.mergeDone (s : State) (lb : Nat) (failed : Option BlockFail) (r : MergeReads) : State :=
  let x := s.lb lb
  match x.dest with
  | none => s
  | some d =>
    if !x.merging || s.mus.stopped then s
    else match failed with
    | some m =>
      (s.retireBlock (s.sbBlock d m.member.val) m.erase).restartMerge lb
    | none =>
      let done := s.mergeKept x
      let wasSet := s.rebuildSet.contains lb
      let prio := if wasSet then 4 else 3
      let t := s.mergeReads lb d prio r
      if t.lostFull then (t.stopMerge lb).manageTiers.examine.runReads
      else match t.programRows d (done / 4) (1536 - done / 4) prio with
      | (false, t) => if t.storeRetired then (t.retireData d).restartMerge lb else s
      | (true, s) =>
        let s := (s.dropGroups fun e => e.sb == d).mergeMoves lb
        let s := (s.writeMerge lb d (b2n (x.kind == 0)) done).switchBase lb d
        let s := (s.inc (mergeCounter x.kind)).reshapePast lb
        let s := if wasSet then s.inc PAR.REBUILT_LB else s
        let s := if s.par.rows.any fun e => s.rowTakes e.1 then { s with par := { s.par with stall := false } } else s
        (s.afterMerge lb).manageTiers.examine.runReads

/-- Full merges that blocks are due for, and that do not run yet (R247, R265). -/
def State.stepDue (s : State) : State :=
  (s.fl.lbt.filter fun e => e.2.dueMerge && !e.2.merging).foldl
    (fun s e => s.startFull e.1 (!e.2.slc.isEmpty)) s

/-- A logical block due for refresh (R247); skipped while a merge rewrites it (R240). -/
def State.refreshLb (s : State) (lb : Nat) : State :=
  let x := s.lb lb
  if x.merging || x.dueMerge then s
  else
    let s := (s.setLb lb { x with dueMerge := true }).inc PTL.REFRESHES
    (s.raise PTL.page PTL.evREFRESH_EVT).startFull lb (!x.slc.isEmpty)

/-! ## Page reads (R247, R253, R256, R260, R301) -/

/-- Does a promotion wait for a page of an extent? -/
def State.promoting (s : State) (e : Nat) : Bool :=
  match s.extent e with
  | some x => x.home == .flash && (match x.move with
    | some (.hot _) => true
    | some (.warm _) => true
    | _ => false)
  | none => false

/-- A page as it reaches its consumers: in clear, having failed its authentication, or lost. -/
inductive PageEnd | good | unauth | lost
  deriving DecidableEq, Repr

/-- A page handed to the reads and the promotion that wait for it (R256, R260, R301). -/
def State.deliverPage (s : State) (e pg : Nat) (r : PageEnd) : State :=
  let k := 4 * e + pg
  let s := s.pageEnded k
  let take (p : Pending) : Pending :=
    if p.fetch.contains k then { p with
      fetch := p.fetch.filter (· != k), bad := if r == .unauth then addTo p.bad k else p.bad,
      gone := if r == .lost then addTo p.gone k else p.gone }
    else p
  let s := { s with net := { s.net with reads := s.net.reads.map take } }
  let s := if !s.promoting e then s
    else if r == .lost || (List.range 4).any (fun j => s.sectorLost (16 * e + 4 * pg + j)) then s.abandonMove e
    else (match s.extent e with
      | some x => s.setExtent e { x with
          got := setBit x.got pg true, bad := if r == .unauth then setBit x.bad pg true else x.bad }
      | none => s)
  s.examine.runReads

/-- Where a page of an extent lies: superblock, member and row (R233, R237). -/
def State.pagePlace (s : State) (e pg : Nat) : Option (Nat × Nat × Nat) :=
  (s.flashSlot e).map fun a => (a.1, 4 * (a.2 % 4) + pg, a.2 / 4)

/-- Does a page authenticate: as the die and the parity gave it, under the storage key as it is (R295, R296)? -/
def State.pageAuth (s : State) (p : PageDone) : Bool :=
  p.authOk && match s.pagePlace p.extent p.page.val with
    | some (sb, _, r) => s.sealHolds sb r
    | none => true

/-- A page that has come through its storage channel, its tag checked there (R284, R295). -/
def State.pageMsg (s : State) (p : PageDone) : State :=
  match s.pagePlace p.extent p.page.val with
  | some (sb, m, r) => s.memberMsg sb m r 1 2 (!s.pageAuth p)
  | none => s.channelMsg (storeChan p.die.toNat) 16384 2 (!p.authOk)

/-- A page checked by its tag on a storage channel, and handed on (R295, R301); it waits while the channels cannot process it
(R297), there is no storage key (R288), or the key waits for its mark (R290; log entry 35). -/
def State.finishPage (s : State) (p : PageDone) (ok : Bool) : State :=
  let e := p.extent
  if !ok then (s.loseSectors e (15 * 16 ^ p.page.val)).deliverPage e p.page.val .lost
  else if s.chanWaits 8 || s.storeInst.isNone || s.keyWaits (s.get CPH.STORE_KEY) then { s with key := { s.key with haltPages := s.key.haltPages ++ [p] } }
  else
    let auth := s.pageAuth p
    let s := s.pageMsg p
    if auth then s.deliverPage e p.page.val .good
    else ((s.inc CPH.STORE_AUTH_FAIL).raise CPH.page CPH.evSTORE_AUTH_FAIL_EVT).deliverPage e p.page.val .unauth

/-- Does anything still wait for a page? -/
def State.pageWanted (s : State) (e pg : Nat) : Bool :=
  s.net.reads.any (fun p => p.fetch.contains (4 * e + pg)) ||
    (s.promoting e && match s.extent e with
      | some x => !bitOf x.got pg
      | none => false)

/-- Bits corrected in a page of a die counted (R249, R369). -/
def State.countBits (s : State) (die bits : Nat) : State :=
  let s := s.inc (FCH.CORR_BITS (dieChan die)) bits
  { s with cen := { s.cen with dieBits := mset 0 s.cen.dieBits die (min count48 (mgetD s.cen.dieBits die 0 + bits)) } }


/-- A page of an extent taken from its stripe (R253). -/
def State.rebuildPage (s : State) (p : PageDone) : Bool × State :=
  match s.pagePlace p.extent p.page.val with
  | some (sb, m, r) => s.reconstruct sb m r (p.missing.map (·.val)) 2
  | none => (false, s)

/-- How many members of a page's stripe are missing without it (R253). -/
def State.othersMissing (s : State) (p : PageDone) : Nat :=
  match s.pagePlace p.extent p.page.val with
  | some (sb, m, _) => ((p.missing.map (·.val) ++ s.membersOut sb).filter (· != m)).eraseDups.length
  | none => p.missing.length

/-- A page read counted, taken from its stripe where its die or its codewords have lost it, and what it shows of its block: is the
page there (R247, R249, R253)? -/
def State.pageTaken (s : State) (p : PageDone) : Bool × State :=
  let die := p.die.toNat
  let c := dieChan die
  let s := (s.countBits die p.bits).inc (FCH.PAGE_READS c)
  let s := if p.retried then (s.inc (FCH.READ_RETRIES c)).censusN 5 1 else s
  let s := if p.uncorr then (s.inc (FCH.CW_UNCORR c)).raise (FCH.page c) FCH.evCW_UNCORR_EVT else s
  let gone := p.uncorr || !p.headerOk || s.dieOut die
  let (ok, s) := if gone then s.rebuildPage p else (true, s)
  let s := if p.retried || p.uncorr || s.get PTL.REFRESH_BITS < p.worst then s.refreshLb (p.extent / 6144) else s
  (ok, if ok && s.headerTells p.extent then { s with fl := { s.fl with known := addTo s.fl.known p.extent } } else s)

/-- PAGE_READ_DONE (R247, R253, R256). -/
def State.pageRead (s : State) (p : PageDone) : State :=
  let wanted := s.pageWanted p.extent p.page.val
  let (ok, s) := s.pageTaken p
  if wanted then s.finishPage p ok
  else
    let s := s.pageEnded (4 * p.extent + p.page.val)
    if ok then (s.pageMsg p).examine.runReads
    else s.loseSectors p.extent (15 * 16 ^ p.page.val)

/-- RECON_AT (R256): the page has not arrived; a wanted page is taken from its stripe where that is possible. -/
def State.reconAt (s : State) (p : PageDone) : State :=
  if !s.pageWanted p.extent p.page.val || 2 ≤ s.othersMissing p then s
  else
    let (ok, s) := s.rebuildPage p
    s.finishPage p ok

/-- READ_TIMEOUT (R256): counted; a page still needed is taken from its stripe; three timeouts of one die within one second
declare it failed. -/
def State.readTimeout (s : State) (p : PageDone) : State :=
  let d := p.die.toNat
  let s := (s.inc PAR.TIMEOUTS).raise PAR.page PAR.evTIMEOUT_EVT
  let s := if s.pageWanted p.extent p.page.val then
      let (ok, s) := s.rebuildPage p
      s.finishPage p ok
    else s.pageEnded (4 * p.extent + p.page.val)
  let ts := (s.now :: mgetD s.par.timeouts d []).filter fun t => s.now ≤ t + secCycles
  let s := { s with par := { s.par with timeouts := mput s.par.timeouts d ts } }
  if 3 ≤ ts.length then (s.failDie d).manageTiers else s

/-! ## The patrol (R246 to R248, R266) -/

/-- Is row `r` of a superblock programmed, and of no void group (R246, R265)? -/
def State.rowStands (s : State) (n : Nat) (x : Superblock) (r : Nat) : Bool :=
  match x.use with
  | .data => r < 1536 && !s.fl.lbt.any fun e => e.2.merging && e.2.dest == some n
  | .log => match s.fl.logs.find? fun e => e.2.sb == n with
    | some (_, l) => r / 3 < l.programmed / 12 && !l.void.contains (r / 3)
    | none => false
  | .slc => match s.fl.lbt.find? fun e => e.2.slc.contains n with
    | some (_, b) => r < min 512 (b.slcRows - 512 * (b.slc.takeWhile (· != n)).length)
    | none => false

/-- How many rows of a superblock stand. -/
def State.sbRows (s : State) (n : Nat) (x : Superblock) : Nat := ((List.range 1536).filter (s.rowStands n x)).length

/-- Programmed pages of every data, log and SLC superblock. -/
def State.patrolPages (s : State) : Nat := 18 * (s.fl.sbs.map fun e => s.sbRows e.1 e.2).sum

/-- The logical block that a device block belongs to. -/
def State.lbOfBlock (s : State) (b : Nat) : Option Nat :=
  match s.fl.sbs.find? fun e => e.2.blocks.contains b with
  | none => none
  | some (n, _) => (s.fl.lbt.find? fun e => (s.lbSbs e.1).contains n).map (·.1)

/-- The extent, and its page, that a page of a superblock holds: the flash home of an extent whose slot this is (R233, R237). -/
def State.extentAt (s : State) (n : Nat) (x : Superblock) (block row : Nat) : Option (Nat × Nat) :=
  let m := (x.blocks.takeWhile (· != block)).length
  let slot := 4 * row + m / 4
  if 16 ≤ m then none
  else ((s.tier.ext.filter fun e => e.2.home == .flash).map (·.1)).findSome? fun e =>
    if s.flashSlot e == some (n, slot) then some (e, m % 4) else none

/-- S_P and S_Q of a row at one offset: what P and Q recomputed from the data pages as read differ by from the P and Q read,
which the bytes in error settle, P and Q being linear (R248, R252, R266). -/
def ByteErrors.syndromes (l : ByteErrors) : Byte × Byte :=
  let at_ (m : Nat) : Byte := (l.filter fun e => e.1.val == m).foldl (fun b e => b ^^^ e.2) 0
  let ds := (List.range 16).map at_
  (parityP ds ^^^ at_ 16, parityQ ds ^^^ at_ 17)

/-- A page that the patrol could not read taken from its stripe, or its sectors lost (R247, R253, R260). A parity page is not needed
for data. -/
def State.patrolGone (s : State) (n : Nat) (x : Superblock) (r : PatrolRead) : State :=
  let m := (x.blocks.takeWhile (· != r.block)).length
  if 16 ≤ m then s
  else match s.reconstruct n m r.page (r.missing.map (·.val)) 4 with
  | (true, s) => s
  | (false, s) => match s.extentAt n x r.block r.page with
    | some (e, pg) => s.loseSectors e (15 * 16 ^ pg)
    | none => s

/-- A row whose syndromes are not all 0 (R248, R266). -/
def State.patrolDiffers (s : State) (n row : Nat) (syn : List (Byte × Byte)) : State :=
  let s := (s.inc PTL.PARITY_MISMATCH).raise PTL.page PTL.evPARITY_MISMATCH_EVT
  match locate syn with
  | .member z => (s.inc PAR.PARITY_LOCATED).reconstruct n z row [] 4 |>.2
  | .nowhere => s.inc PAR.PARITY_UNLOCATED
  | _ => s

/-- One page of superblock `n` that the patrol read (R247, R248, R253, R266): one of a die that is out comes from its stripe. -/
def State.patrolRead (s : State) (n : Nat) (x : Superblock) (r : PatrolRead) : State :=
  let s := s.inc PTL.PAGES_READ
  let die := r.block / dieBlocks
  let c := dieChan die
  let out := s.dieOut die
  let s := if out then s
    else ((s.countBits die r.bits).inc (FCH.PAGE_READS c)).memberMsg n ((x.blocks.takeWhile (· != r.block)).length) r.page 1 4
  let s := if !out && (r.retried || r.worst.isNone) then ((s.inc (FCH.READ_RETRIES c)).censusN 5 1).inc PTL.RETRY_PAGES else s
  let s := if !out && r.worst.isNone then (s.inc (FCH.CW_UNCORR c)).raise (FCH.page c) FCH.evCW_UNCORR_EVT else s
  let s := if out || r.worst.isNone || !r.headerOk then s.patrolGone n x r else s
  let syn := (r.errors.map ByteErrors.syndromes).filter fun e => e != (0, 0)
  let s := if syn.isEmpty then s else s.patrolDiffers n r.page syn
  let due : Bool := !out && (!syn.isEmpty || r.retried || (match r.worst with
    | none => true
    | some b => s.get PTL.REFRESH_BITS < b))
  match s.lbOfBlock r.block with
  | some lb => if due then s.refreshLb lb else s
  | none => s

/-- The pages of a superblock that the patrol reads, as row and member, in order. -/
def State.patrolRows (s : State) (n : Nat) (x : Superblock) : List (Nat × Nat) :=
  ((List.range 1536).filter (s.rowStands n x)).flatMap fun r => (List.range 18).map (r, ·)

/-- Does a place come before another, by superblock, row and member? -/
def placeBefore (a b : Nat × Nat × Nat) : Bool :=
  a.1 < b.1 || (a.1 == b.1 && (a.2.1 < b.2.1 || (a.2.1 == b.2.1 && a.2.2 < b.2.2)))

/-- The next `k` pages of the pass, in ascending superblock number (R246). -/
def State.patrolNext (s : State) (k : Nat) : List (Nat × Nat × Nat) :=
  (((s.fl.sbs.filter fun e => s.fl.patrolAt.1 ≤ e.1).flatMap fun e => (s.patrolRows e.1 e.2).map (e.1, ·)).filter
    fun p => !placeBefore p s.fl.patrolAt).take k

/-- One page of the pass read, as the world says or clean. -/
def State.patrolPage (s : State) (rs : List PatrolRead) (p : Nat × Nat × Nat) : State :=
  let s := { s with fl := { s.fl with patrolAt := (p.1, p.2.1, p.2.2 + 1) } }
  match mget s.fl.sbs p.1 with
  | none => s
  | some x =>
    let b := x.blocks.getD p.2.2 0
    s.patrolRead p.1 x ((rs.find? fun r => r.block == b && r.page == p.2.1).getD { block := b, page := p.2.1 })

/-- The patrol's slot at a boundary: the pages that its schedule has reached, those that the world names as it says (R246; log
entry 32). -/
def State.patrolSlot (s : State) (env : BoundaryEnv) : State :=
  let s := if s.fl.patrolTotal = 0 then
      { s with fl := { s.fl with patrolTotal := s.patrolPages, patrolRead := 0, patrolStart := s.now, patrolAt := (0, 0, 0) } }
    else s
  let total := s.fl.patrolTotal
  let span := s.get PTL.PERIOD_DAYS * 86400 * secCycles
  let due := min total (total * (s.now - s.fl.patrolStart) / max 1 span)
  let read := min (due - s.fl.patrolRead) (env.patrolPages.getD total)
  let s := (s.patrolNext read).foldl (fun s p => s.patrolPage env.patrol p) s
  let s := s.chargePort 18 (16384 * read)
  let s := { s with fl := { s.fl with patrolRead := s.fl.patrolRead + read } }
  let s := if total != 0 && s.fl.patrolRead == total then
      let secs := (s.now - s.fl.patrolStart) / secCycles
      let s := { s with fl := { s.fl with patrolTotal := 0, patrolRead := 0 } }
      ((s.inc PTL.PASSES).put PTL.LAST_PASS_S secs).raise PTL.page PTL.evPASS_DONE
    else s
  s.stepDue

/-! ## Reshape and the failed-die list (R258, R267, R268) -/

/-- A reshape command ignored. -/
def State.reshapeReject (s : State) : State := s.raise PAR.page PAR.evRESHAPE_REJECT

/-- May a reshape begin over these dies (R267)? -/
def State.reshapeOk (s : State) (dies : List Nat) : Bool :=
  !s.rebuilding && !s.par.reshaping && !s.lostFull && 18 ≤ dies.length

/-- A reshape begun (R268): new rows appended, the walk from logical block 0. -/
def State.beginReshape (s : State) (dies : List Nat) (spread : Nat) : State :=
  if !s.reshapeOk dies then s.reshapeReject
  else
    let old := s.par.rows.map (·.1)
    let base := (old.map (· + 1)).foldl max 0
    let new := layoutRows dies spread
    let rows := (List.range new.length).foldl (fun m i => mput m (base + i) (new.getD i [])) s.par.rows
    let s := { s with par := { s.par with
      rows := rows, oldRows := old, cleared := s.par.cleared.filter fun d => !dies.contains d, reshaping := true, reshapeLb := 0
      mergedBytes := 0, checkpoint := 0, stall := false } }
    ((s.layoutAppend (.table base new)).stepReshape).manageTiers

/-- A reshape of kind ADD: every die present, healthy and not listed (R267). -/
def State.reshapeAdd (s : State) : State := s.beginReshape s.goodDies (s.get PAR.SPREAD)

/-- A reshape of kind SPREAD over the dies in service; a value out of range is ignored (log entry 33). -/
def State.reshapeSpread (s : State) (spread : Nat) : State :=
  if spread < 8 || 64 < spread then s.reshapeReject
  else s.beginReshape s.servingDies spread

/-- CLEAR_GO written 1 (R258): the wear classes of the die's blocks come from their own page headers. -/
def State.clearDie (s : State) (d : Nat) (a : ClearAnswer) : State :=
  if !s.dieFailed d || s.rebuilding || s.par.reshaping || !a.ok then s.reshapeReject
  else
    let own := s.fl.erases.filter fun e => e.1 / dieBlocks != d
    let s := { s with
      par := { s.par with failed := s.par.failed.filter (· != d), cleared := addTo s.par.cleared d }
      fl := { s.fl with
        odd := s.fl.odd.filter (· != d)
        erases := a.erases.foldl (fun m (e : Nat × Nat) => if e.1 < dieBlocks then mset 0 m (devBlock d e.1) e.2 else m) own } }
    let s := s.layoutAppend (.cleared d)
    ((s.setb (FCH.DIE_FAILED (dieChan d)) (d % 16) false).setb (FCH.DIE_PRESENT (dieChan d)) (d % 16) true).raise
      PAR.page PAR.evDIE_CLEARED

/-! ## Moves (R178) -/

/-- Is a move's copy whole: every page of a promotion, the row of a fill that holds the slot; a log slot commits with its
group (R178, R233, R238)? -/
def State.copyWhole (s : State) (e : Nat) : Bool :=
  match s.extent e with
  | none => false
  | some x =>
    match x.move with
    | none => false
    | some .flash =>
      let b := s.lb (e / 6144)
      !b.slc.isEmpty && (e % 6144 / 4 * 4 + 4 ≤ b.fill || b.log.isSome || b.fillOver) && !(match b.log with
        | some n => ((mget s.fl.logs n).map fun l => l.slots.contains (some e)).getD false
        | none => false)
    | some _ => x.home != .flash || x.got == 15

/-- Row `i` of a logical block's fill programmed, with its headers: nonces, pages and parity (R233, R234). -/
def State.fillRow (s : State) (lb i : Nat) : Bool × State :=
  let x := s.lb lb
  let sb := x.slc.getD (i / 512) 0
  match s.programRows sb (i % 512) 1 with
  | (false, s) => (false, s)
  | (true, s) =>
    let ws := (List.range 4).map fun j =>
      s.slotWrite 2 ((4 * i + j) % 2048) (if 4 * i + j < x.fill then some (6144 * lb + 4 * i + j) else none)
    (true, (((s.closeGroup sb (i % 512))).putSlots sb ws).setLb lb { x with slcRows := i + 1 })

/-- The rows of a fill up to row `i` programmed, in order: are they? -/
def State.fillRows (s : State) (lb i : Nat) : Bool × State :=
  ((List.range (i + 1)).drop (s.lb lb).slcRows).foldl (fun (a : Bool × State) k => if a.1 then a.2.fillRow lb k else a) (true, s)

/-- A superblock of a fill whose block failed to program replaced, its committed rows copied first, as a log's are (R240, R241; log
entry 73). -/
def State.restartFill (s : State) (lb i : Nat) : State :=
  let x := s.lb lb
  match x.slc[i / 512]? with
  | none => s
  | some o => match s.newSb .slc with
    | (none, s) => s
    | (some d, s) => match s.copyRows o d (min 512 (x.slcRows - 512 * (i / 512))) with
      | (false, s) => s
      | (true, s) =>
        let groups := ((s.par.journal ++ s.par.queued).filter fun e => e.sb == o).map (·.group)
        groups.foldl (fun s g => s.issueGroup d g 2) ((s.freeSb o).setLb lb { s.lb lb with slc := x.slc.set (i / 512) d })

/-- MOVE_COMMIT (R178): the copy has met array faults, and the home switches; of a fill, once its rows are programmed. A block
of the fill that failed is retired (R241), as it is under a retired storage key (R291). -/
def State.moveCommit (s : State) (e : Nat) (r : CopyEnd) : State :=
  if !s.copyWhole e || s.mus.stopped || s.heldBack (65536 * e) 65536 then s
  else
    let lb := e / 6144
    let row := e % 6144 / 4
    let sb := (s.lb lb).slc.getD (row / 512) 0
    let toFlash : Bool := match s.extent e with
      | some x => x.move == some .flash
      | none => false
    match toFlash, r.failed with
    | true, some m => ((s.retireBlock (s.sbBlock sb m.member.val) m.erase).restartFill lb row).manageTiers
    | _, _ =>
      let s := s.readCells r.cells (65536 * e) 65536
      match (if toFlash then s.fillRows lb row else (true, s)) with
      | (false, s) => if s.storeRetired then ((s.retireData sb).restartFill lb row).manageTiers else s
      | (true, s) =>
        let s := if toFlash then s.inc FTL.USER_BYTES 65536 else s
        (s.commitMove e).manageTiers.examine.runReads

/-- The programs in flight as a muster of cause 5 began have ended (R263). -/
def State.finishPrograms (s : State) : State :=
  (s.par.journal ++ s.par.queued).foldl (fun s e =>
    if e.kind == 0 then
      match s.fl.logs.find? fun l => l.2.sb == e.sb with
      | some (n, l) => if (l.programmed) ≤ 12 * e.group then s.groupDone n e.group l [] else s
      | none => s
    else if e.kind == 2 then
      match s.fl.lbt.find? fun b => b.2.slc.contains e.sb with
      | some (lb, b) => (s.fillRows lb (512 * (b.slc.takeWhile (· != e.sb)).length + e.group)).2
      | none => s
    else s) s

/-! ## The commands -/

/-- FLASH_GROUP_PROGRAMMED (R238). -/
def execFlashGroupProgrammed (log : BitVec 10) (r : GroupEnd) (s : State) : Result :=
  .next (s.whenDp fun s => s.flashGroup log.toNat r)

/-- ROW_HOLD_EXPIRY (R238). -/
def execRowHoldExpiry (log : BitVec 10) (s : State) : Result := .next (s.whenDp fun s => s.rowHold log.toNat)

/-- MERGE_DONE (R239). -/
def execMergeDone (lb : BitVec 20) (failed : Option BlockFail) (r : MergeReads) (s : State) : Result :=
  .next (s.whenDp fun s => s.mergeDone lb.toNat failed r)

/-- PAGE_READ_DONE (R256). -/
def execPageReadDone (p : PageDone) (s : State) : Result := .next (s.whenDp fun s => (s.at p.time).pageRead p)

/-- RECON_AT (R256). -/
def execReconAt (p : PageDone) (s : State) : Result := .next (s.whenDp fun s => (s.at p.time).reconAt p)

/-- READ_TIMEOUT (R256). -/
def execReadTimeout (time : Nat) (late : LateRead) (s : State) : Result :=
  .next (s.whenDp fun s => (s.at time).readTimeout (late.at time))

/-- MOVE_COMMIT (R178). -/
def execMoveCommit (extent : BitVec 32) (r : CopyEnd) (s : State) : Result :=
  .next (s.whenDp fun s => s.moveCommit extent.toNat r)

end Sys2Proof.Machine
end

