-- ==== Sys2Proof/Machine/Muster.lean ====
section
/-! DEFINITION. The muster and restore (R189 to R200): the end of its commit, the image, the muster record in NOR, and what
a restore brings back; the energy declaration (R185, R186). -/

namespace Sys2Proof.Machine

/-! ## The muster-record areas (R193, R199) -/

/-- The two muster-record areas. -/
def recordArea (i : Nat) : Nat := norSector 2 (if i = 0 then 4 else 7)

/-- The byte address of record slot k of an area. -/
def recordSlot (area k : Nat) : Nat := area + 256 * k

/-- Is a record slot erased? -/
def State.slotErased (s : State) (a : Nat) : Bool := (List.range 64).all fun i => s.norWord (a + 4 * i) == norErased

/-- The lowest erased slot of the active area (R199). -/
def State.freeSlot (s : State) : Option Nat :=
  match s.activeArea (recordArea 0) (recordArea 1) with
  | none => none
  | some act => ((List.range 15).map fun k => recordSlot act (k + 1)).find? s.slotErased

/-- Does the record at an address verify: MAGIC, and the CRC over bytes 0 to 247 (R193)? -/
def State.recordOk (s : State) (a : Nat) : Bool :=
  s.norWord a == 0x4D535452 && s.norWord (a + 252) == crc32 (s.norBytes a 248)

/-- The verified records of both areas. -/
def State.records (s : State) : List Nat :=
  (([recordArea 0, recordArea 1].filter s.areaValid).flatMap fun a =>
    (List.range 15).map fun k => recordSlot a (k + 1)).filter s.recordOk

/-- The record that R196 chooses: CONSUMED erased, TWIN_STATE PAIRED or ALONE, highest SERIAL. -/
def State.chosenRecord (s : State) : Option Nat :=
  s.newest (s.records.filter fun a => s.norWord (a + 248) == norErased &&
    (fieldLE (s.norBytes a 16) 9 1 == 1 || fieldLE (s.norBytes a 16) 9 1 == 2))

/-- Room made for the next record at a start (R199): a first area, or the newest record copied into the other area. -/
def State.roomForRecord (s : State) : State :=
  let a := recordArea 0
  let b := recordArea 1
  match s.activeArea a b with
  | none => s.devNor [(a, none), (a, some 1), (a + 4, some (notWord 1))]
  | some act =>
    if s.freeSlot.isSome then s
    else
      let other := if act = a then b else a
      let g := (s.norWord act + 1) % 2 ^ 32
      let copy := match s.newest s.records with
        | some r => wordsAt (recordSlot other 1) (wordsLE 64 (s.norBytes r 256))
        | none => []
      s.devNor ([(other, none), (other, some g), (other + 4, some (notWord g))] ++ copy ++ [(act, none)])

/-- The CONSUMED of the restored record at `a` is asked for: once it is programmed, room is made for the next record (R197,
R199). -/
def State.roomAfter (s : State) (a : Nat) : State :=
  if s.norWord (a + 248) == 0 then { s.roomForRecord with mus := { s.roomForRecord.mus with consuming := none } }
  else { s with mus := { s.mus with consuming := some a } }

/-! ## The conditions of ARMED (R200) -/

/-- AREA_READY: is AREA_NEXT wholly erased? -/
def State.areaReady (s : State) : Bool := !s.mus.dirty.contains s.mus.areaNext

/-- Does CPH.STORE_KEY name a loaded instance of the storage class (R288)? -/
def State.storeKeyOk (s : State) : Bool := s.storeInst.isSome

/-- What waited for CONSUMED, once the bank is free (R197, R199). -/
def State.consumedDone (s : State) : State :=
  match s.mus.consuming with
  | some a => s.roomAfter a
  | none => s

/-- ARMED entered at the first moment that every condition holds (R200), CONSUMED programmed (R197). -/
def State.checkArmed (s : State) : State :=
  if (s.mus.state == .unready || s.mus.state == .restoring) && s.mus.restored && s.mus.consuming.isNone && s.areaReady &&
      s.flag MUS.DECL_LOCKED && 1 ≤ s.vhcEff && s.storeKeyOk && s.freeSlot.isSome then
    { s with mus := { s.mus with state := .armed } }
  else s

/-! ## Steps 2 to 5 of a muster (R190 to R193) -/

/-- Every key of an epoch committed that can be, in commit order. -/
def State.commitKeys (s : State) (n : Nat) (cells : List CellFault) : State :=
  let e := s.epochRec n
  (s.inOrder e.floors (s.unionOf e)).foldl (fun s k => s.commitKey n k cells) s

/-- What step 2 still commits (R191): ALONE every staged epoch; PAIRED each epoch whose union is held. -/
def State.commitRest (s : State) (cells : List CellFault) : State :=
  let s := if s.cm.twin == .alone then
      let n := s.ep.num
      (s.setEpochRec n { s.epochRec n with solo := true, calSec := s.cal.sec }).endEpoch n
    else s
  (s.cm.ended.foldl (fun s n =>
    if s.soloEpoch (s.epochRec n) || (s.epochRec n).holdsUnion then s.commitKeys n cells else s) s).settle

/-- Is the commit of a cause 4 muster still to go on (R191): the pair, no epoch with both tallies empty committed yet, and the 3
epochs of R190 not over? -/
def State.commitGoesOn (s : State) : Bool :=
  s.mus.cause == 4 && s.cm.twin == .paired && !s.mus.emptied && s.ep.num < s.mus.ep0 + 3

/-- MUSTER_COMMIT_END: the commit ends, its atomics having met array faults (R205), queued answers are sent, the MUSTER is
answered (R190, R191, R198). -/
def State.musterCommitEnd (s : State) (cells : List CellFault) : State :=
  if s.mus.state != .mustering || s.mus.step != .commit || s.commitGoesOn then s
  else (s.commitRest cells).musterStep3 .image

/-- Where the blocks of the image come from, in the order of R192: the reserved region, the staging SRAM, the translation SRAM, the
frames in use (log entry 37). -/
def State.imageSources (s : State) : List BlockSrc :=
  let hot := s.tier.ext.filterMap fun e => match e.2.home with
    | .hot f => some (BlockSrc.hot f e.1)
    | _ => none
  let warm := s.tier.ext.filterMap fun e => match e.2.home with
    | .warm f => some (BlockSrc.warm f e.1)
    | _ => none
  (List.range 8192).map .reserved ++ (List.range 768).map .staging ++ (List.range 1152).map .onChip ++ hot ++ warm

/-- How many blocks that is. -/
def State.imageBlocks (s : State) : Nat :=
  8192 + 768 + 1152 + (s.usedFrames false).length + (s.usedFrames true).length

/-- The CRC-32 of a block (R192, R43): of a frame's bytes; of a table whose byte layout the spec does not give, free. -/
def State.blockCrc (s : State) (i : Nat) : BlockSrc → Nat
  | .hot _ e => crc32 (s.readMem (e * 65536) 65536)
  | .warm _ e => crc32 (s.readMem (e * 65536) 65536)
  | _ => Config.freeNat (s.free + i) % 2 ^ 32

/-- The blocks of the image with their CRCs (R192). -/
def State.imageList (s : State) (serial : Nat) : List ImageBlock :=
  let l := s.imageSources
  (List.range l.length).zipWith (fun i b => { src := b, serial := serial, crc := s.blockCrc i b }) l

/-- The layout row of the superblock that holds a block of a muster area (R233, R245): 2,048 blocks to a superblock, the areas'
superblocks over the rows in turn. -/
def State.musterRow (s : State) (area block : Nat) : List Nat :=
  s.fl.maRows.getD ((area * s.fl.maGib * 8 + block / 2048) % max 1 s.fl.maRows.length) []

/-- Can every block of an area be read back, with P and Q where dies have failed (R194, R196)? -/
def State.areaReadable (s : State) (area blocks : Nat) : Bool :=
  (List.range (ceilDiv blocks 2048)).all fun i => ((s.musterRow area (2048 * i)).filter s.dieOut).length ≤ 2

/-- Do an image's blocks verify (R192, R196): the muster's serial number, and the CRC-32 of each frame? -/
def Image.verifies (m : Image) : Bool :=
  m.blocks.all fun b => b.serial == m.serial && match b.src with
    | .hot _ e => b.crc == crc32 (Memory.readN m.mem (e * 65536) 65536)
    | .warm _ e => b.crc == crc32 (Memory.readN m.mem (e * 65536) 65536)
    | _ => true

/-- The muster record's 256 bytes, CONSUMED erased (R193). -/
def State.recordWords (s : State) (serial : Nat) : List Nat :=
  let v := 65536 * s.mus.v0
  let bs := bytesLE 4 0x4D535452 ++ bytesLE 4 serial ++
    [BitVec.ofNat 8 (s.mus.cause + 8 * b2n (s.mus.cause == 4 && s.mus.mode)), BitVec.ofNat 8 s.cm.twin.code,
     BitVec.ofNat 8 s.mus.areaNext, 0] ++
    bytesLE 4 s.cm.claim ++ bytesLE 8 s.cm.committed ++ bytesLE 8 s.cm.hash ++ bytesLE 8 s.mus.cal0 ++ bytesLE 8 v ++
    bytesLE 4 s.imageBlocks ++ bytesLE 4 ((s.now - s.mus.t0) / usCycles) ++ bytesLE 2 s.vhcEff ++
    List.replicate 190 (0 : Byte)
  wordsLE 62 bs ++ [norErased, crc32 bs]

/-- The image as it lies in a muster area (R192); the programs that a muster of cause 5 let finish are in no journal (R263). -/
def State.image (s : State) (serial : Nat) : Image :=
  { serial := serial, blocks := s.imageList serial, staged := s.cm.ep, q := s.q.q, dom := s.win.dom, win := s.win.win, ext := s.tier.ext
    poison := s.tier.poison
    untrusted := s.tier.untrusted, tablePoison := s.mc.poison, mem := s.mem, jrn := s.acc.jrn, fl := { s.fl with draining := [] }
    par := { s.par with queued := [] }, lastCal := s.cm.lastCal }

/-- The members of a muster area's stripes that hold the first `n` blocks, as die and pages: the blocks of a superblock spread over
its row's 16 data members, P and Q beside them; four pages to a block. A member whose die is out is left out (R194). -/
def State.areaPages (s : State) (area n : Nat) : List (Nat × Nat) :=
  (List.range (ceilDiv n 2048)).flatMap fun i =>
    ((s.musterRow area (2048 * i)).filter fun d => !s.dieOut d).map fun d => (d, ceilDiv (min 2048 (n - 2048 * i)) 4)

/-- Pages of a muster area, programmed or read, through the storage channels, first in priority (R284, R300). -/
def State.areaMsgs (s : State) (counter : Nat → Fld) (ps : List (Nat × Nat)) : State :=
  ps.foldl (fun s p => (s.inc (counter (dieChan p.1)) p.2).channelMsg (storeChan p.1) (16384 * p.2) 1 (count := p.2)
    (ctx := { inst := s.get CPH.STORE_KEY })) s

/-- The image written, or, under a storage key that retires, its pages failed to program (R291): its blocks then fail their check
at a restore. -/
def State.writeImage (s : State) (serial : Nat) (ok : Bool) : State :=
  let area := s.mus.areaNext
  let ps := s.areaPages area s.imageBlocks
  let s := if ok then s.areaMsgs FCH.PAGE_PROGRAMS ps
    else ps.foldl (fun s p =>
      (s.inc (FCH.PROGRAM_FAIL (dieChan p.1))).raise (FCH.page (dieChan p.1)) FCH.evPROGRAM_FAIL_EVT) s
  let images := if ok then mput s.mus.images area (s.image serial) else mdel s.mus.images area
  { s with free := s.free + s.imageSources.length
           mus := { s.mus with step := .record, images := images, dirty := addTo s.mus.dirty area } }

/-- MUSTER_IMAGE_DONE: memory has been read through the muster's port (R221), the image is written under the storage key, and
the record is programmed (R192, R193, R295). What a muster of cause 5 let finish has finished (R263). -/
def State.musterImageDone (s : State) (cells : List CellFault) : State :=
  if s.mus.state != .mustering || s.mus.step != .image || s.chanWaits 8 || s.storeInst.isNone then s
  else
    let s := if s.mus.cause == 5 then s.finishPrograms else s
    let (ok, t) := s.useCounters (s.get CPH.STORE_KEY) (4 * s.imageBlocks)
    if !ok && !t.storeRetired then s
    else
      let s := (cells.foldl State.readCell t).chargePort 17
        (65536 * (8192 + (t.usedFrames false).length + (t.usedFrames true).length))
      let serial := match s.newest s.records with
        | some a => (s.norWord (a + 4) + 1) % 2 ^ 32
        | none => 1
      let ws := s.recordWords serial
      let s := s.writeImage serial ok
      let s := match s.freeSlot with
        | some a => s.devNor (wordsAt a ws)
        | none => s
      (s.put MUS.LAST_SERIAL serial).put MUS.LAST_MUSTER_US ((s.now - s.mus.t0) / usCycles)

/-! ## Restore (R196, R197) -/

/-- A queue's context after a restore: FLOOR at HIGH_SEQ, RET past it, nothing in flight (R196 step 4). -/
def Queue.restored (q : Queue) : Queue :=
  { q with floor := q.high, ret := (q.high + 1) % 2 ^ 32, inFlight := 0, returned := [], addrs := [] }

/-- An extent whose member is out of service given a frame of the other volatile tier, or of its own, or a FLASH home with a slot
behind it; where no slot can be had it waits for a frame (R196 step 2). -/
def State.rehouse (s : State) (e : Nat) : State :=
  match s.extent e with
  | none => s
  | some x =>
    let up : Bool := match x.home with
      | .hot f => s.groupUp false (f / (s.ways false * frameStride))
      | .warm f => s.groupUp true (f / (s.ways true * frameStride))
      | _ => true
    if up then s
    else
      let w := x.isHot
      match s.allocFrame w with
      | (some f, s) => s.setExtent e { x with home := homeAt w f }
      | (none, s) => match s.allocFrame (!w) with
        | (some f, s) => s.setExtent e { x with home := homeAt (!w) f }
        | (none, s) => match s.flashPlace e with
          | (true, s) => s.setExtent e { x with home := .flash }
          | (false, s) => s.setExtent e { x with home := .wait }

/-- A log after the journal's replay: the slots of a void group count as padded, and the frontier moves past it
(R265). -/
def FlashLog.voided (l : FlashLog) (groups : List Nat) : FlashLog :=
  let slots := (List.range l.slots.length).map fun k =>
    if groups.contains (k / 12) then none else l.slots.getD k none
  let last := groups.foldl (fun a g => max a (12 * g + 12)) l.programmed
  { l with slots := slots ++ List.replicate (last - slots.length) none, programmed := last, void := l.void ++ groups }

/-- A merge that was running given up: a destination of its own is freed (R240). -/
def State.forgetMerge (s : State) (lb : Nat) : State :=
  let x := s.lb lb
  let s := match x.dest with
    | some d => if x.kind == 0 then s else s.freeSb d
    | none => s
  s.setLb lb { s.lb lb with merging := false, dest := none, kind := 0 }

/-- The stripe journal replayed (R265): void groups, merge destinations freed, and the full merges that follow, queued. The
ZEROs that waited for a merge wait no longer (R240). -/
def State.replayJournal (s : State) : State :=
  let dead := s.par.journal.filter fun e => e.aborted
  let s := s.inc PAR.VOID_GROUPS dead.length
  let s := { s with par := { s.par with journal := [], queued := [] } }
  let hit := s.fl.logs.filter fun l => dead.any fun e => e.sb == l.2.sb
  let s := hit.foldl (fun s l =>
    s.setLog l.1 (l.2.voided ((dead.filter fun e => e.sb == l.2.sb).map (·.group)))) s
  let fills := s.fl.lbt.filter fun b => dead.any fun e => e.kind == 2 && b.2.slc.contains e.sb
  let s := fills.foldl (fun s b => s.setLb b.1 { s.lb b.1 with fillOver := true }) s
  let s := ((s.fl.lbt.filter fun e => e.2.merging).map (·.1)).foldl State.forgetMerge s
  let s := ((hit.map fun l => l.2.lb) ++ fills.map (·.1)).eraseDups.foldl
    (fun s lb => s.setLb lb { s.lb lb with dueMerge := true }) s
  s.stepDue.retryZeros

/-- What a restore takes of the image's flash state: what the dies and the format settled stays as it is. -/
def State.restoredFlash (s : State) (f : FlashSt) : FlashSt :=
  { f with
    erases := s.fl.erases, retired := s.fl.retired, board := s.fl.board, odd := s.fl.odd, draining := []
    maDie := s.fl.maDie, maBlocks := s.fl.maBlocks, maRows := s.fl.maRows, maGib := s.fl.maGib }

/-- What a restore takes of the image's parity state: the layout and the failed-die list are those of NOR bank 2. -/
def State.restoredPar (s : State) (p : ParitySt) : ParitySt :=
  { p with
    rows := s.par.rows, failed := s.par.failed, oldRows := s.par.oldRows, cleared := s.par.cleared, reshaping := s.par.reshaping
    reshapeLb := s.par.reshapeLb, checkpoint := s.par.checkpoint, maDegraded := s.par.maDegraded, timeouts := [] }

/-- A valid restore (R196, R197, R199). -/
def State.restoreImage (s : State) (a : Nat) (m : Image) : State :=
  let area := fieldLE (s.norBytes a 16) 10 1 % 2
  let committed := fieldLE (s.norBytes a 32) 16 8
  let s := s.areaMsgs FCH.PAGE_READS (s.areaPages area m.blocks.length)
  let s := { s with
    q := { s.q with q := mmap (fun _ (q : Queue) => q.restored) m.q, refigure := true }
    win := { s.win with dom := m.dom, win := mmap (fun _ (w : Window) => { w with answer := none }) m.win }
    tier := { ext := m.ext, poison := m.poison, untrusted := m.untrusted }
    mem := m.mem
    acc := { s.acc with jrn := m.jrn }
    mc := { s.mc with poison := m.tablePoison }
    fl := s.restoredFlash m.fl
    par := s.restoredPar m.par
    cm := { s.cm with
      committed := committed, hash := fieldLE (s.norBytes a 32) 24 8, placed := committed, lastCal := m.lastCal
      highest := max s.cm.highest committed } }
  let s := (m.ext.map (·.1)).foldl State.rehouse s
  -- R221: frames and the reserved region written back through the muster's port
  let s := s.chargePort 17 (65536 * (8192 + (s.usedFrames false).length + (s.usedFrames true).length))
  let s := s.replayJournal
  let s := (s.devNor [(a + 248, some 0)]).roomAfter a
  let next := 1 - area
  let s := { s with mus := { s.mus with
    restoreValid := true, restored := true, formatted := true, recordTwin := twinOf (fieldLE (s.norBytes a 16) 9 1 % 8)
    areaNext := next, erasing := (if s.mus.dirty.contains next then [next] else []) ++ [area] } }
  ((s.put MUS.LAST_SERIAL (s.norWord (a + 4))).raise MUS.page MUS.evRESTORE_DONE).manageTiers

/-- The device starts without restored state: it formats, and goes on to ARMED (R200, R236). -/
def State.startFresh (s : State) : State :=
  let s := s.formatFlash.roomForRecord
  ({ s with mus := { s.mus with restored := true } }).checkArmed

/-- RESTORE_DONE (R196, R200): after every key record has been reloaded (R289), under the storage key (R288). -/
def State.restoreDone (s : State) (blocksOk : Bool) (ms : Nat) : State :=
  if s.mus.state != .restoring || s.mus.restored || !s.key.reload.isEmpty then s
  else
    let s := s.put MUS.LAST_RESTORE_MS ms
    let img : Option (Nat × Image) := match s.chosenRecord with
      | none => none
      | some a => match mget s.mus.images (fieldLE (s.norBytes a 16) 10 1 % 2) with
        | some m => if m.serial == s.norWord (a + 4) && blocksOk && m.verifies && s.storeKeyOk &&
            s.areaReadable (fieldLE (s.norBytes a 16) 10 1 % 2) m.blocks.length then some (a, m) else none
        | none => none
    let s := match img with
      | some (a, m) => s.restoreImage a m
      | none => ((s.raise MUS.page MUS.evRESTORE_INVALID)).startFresh
    s.resumeAgain.checkArmed

/-- AREA_READY: a background erase ends (R197); the erases in flight are aborted by a muster (R263). -/
def State.areaErased (s : State) : State :=
  match s.mus.erasing with
  | [] => s
  | a :: rest =>
    if s.mus.stopped then s else
    let s := { s with mus := { s.mus with
      dirty := s.mus.dirty.filter (· != a), erasing := rest, images := mdel s.mus.images a } }
    (s.raise MUS.page MUS.evAREA_READY_EVT).checkArmed

/-- ARM written 1 (R200): ignored in any other state than UNREADY. -/
def State.arm (s : State) : State :=
  if s.mus.state != .unready || s.mus.restored then s
  else if s.chosenRecord.isSome then { s with mus := { s.mus with state := .restoring } }
  else s.startFresh.resumeAgain

/-! ## The declaration (R185, R186) -/

/-- DECL_J written: the first write through PCIe after power-on takes effect, with ENERGY_DECL_EN high. -/
def State.declare (s : State) (p : Path) (v : Nat) : State :=
  if p != .pcie || s.flag MUS.DECL_LOCKED || !s.pwr.energyEn then s
  else
    let s := (s.put MUS.DECL_J v).put MUS.DECL_LOCKED 1
    s.takeVhc.checkVhc.checkArmed

/-! ## The commands -/

/-- MUSTER_COMMIT_END (R190, R191). -/
def execMusterCommitEnd (r : CommitReads) (s : State) : Result :=
  .next (s.whenDp fun s => (s.at r.time).musterCommitEnd r.cells)

/-- MUSTER_IMAGE_DONE (R192, R193). -/
def execMusterImageDone (r : ImageRead) (s : State) : Result :=
  .next (s.whenDp fun s => (s.at r.time).musterImageDone r.cells)

/-- RESTORE_DONE (R196). -/
def execRestoreDone (blocksOk : Bool) (ms : Nat) (s : State) : Result := .next (s.whenDp fun s => s.restoreDone blocksOk ms)

/-- AREA_READY (R197). -/
def execAreaReady (s : State) : Result := .next (s.whenDp State.areaErased)

end Sys2Proof.Machine
end

