-- ==== Sys2Proof/Machine/Boundary.lean ====
section
/-! DEFINITION. What an epoch boundary does (R35): the epoch that ends, twin protocol, tables, windows and queues, figures
and SCALE, allowances, memory and flash slots, parking; and the five kinds of boundary (R24, R29 to R33). -/

namespace Sys2Proof.Machine

/-! ## Twin protocol (R28, R133, R136, R144, R149, R212) -/

/-- The relay marker of the leader (R28). -/
def State.relayMarker (s : State) : State :=
  if s.pwr.twinPos == 0 && s.flag EPC.RELAY_EN then
    s.sendAdit 0x04 s.ep.num (BitVec.ofNat 8 (b2n (s.ep.state == .holdover)) :: List.replicate 7 (0 : Byte))
  else s

/-- Epoch `old` ends at a twin that commits. -/
def State.endOld (s : State) (old : Nat) : State :=
  if s.cm.twin == .paired || s.cm.twin == .alone then
    (s.setEpochRec old { s.epochRec old with calSec := s.cal.sec, solo := s.alone }).endEpoch old
  else s

/-- The epoch before `old` judged when the boundary after `old` comes (R133, R136): empty, over, or whole in time. A last frame
that came in the same core cycle as the boundary counts as after it. -/
def State.judgeEpoch (s : State) (old : Nat) : State :=
  if s.cm.twin != .paired then s
  else match (s.cm.ended.filter (· < old)).getLast? with
    | none => { s with cm := { s.cm with empties := 0 } }
    | some n =>
      let e := s.epochRec n
      if e.solo || e.ofPeer then s
      else if !e.peer.whole || s.ep.last256 / 256 ≤ e.peer.wholeAt then
        let s := s.tallyLate n
        { s with cm := { s.cm with empties := s.cm.empties + 1 } }
      else
        let s := { s with cm := { s.cm with empties := 0 } }
        if e.holdsUnion && e.peerWhole then s
        else (s.setEpochRec n { e with extended := true }).raise CMT.page CMT.evREPAIR_OVER

/-- A yield for damage at this boundary (R212, R302): YIELD is sent and the twin is RETURNING. What it holds is kept until
the next boundary, at which the peer's own yield may make it withdraw (log entry 40). -/
def State.yieldDamage (s : State) : State :=
  let hurt := s.mc.damaged && s.cm.twin == .paired && s.flag CEL.UE_YIELD_EN
  let s := { s with mc := { s.mc with damaged := false } }
  if hurt then
    let s := (s.sendAdit 0x08 s.ep.num []).raise CEL.page CEL.evUE_YIELD
    { s with cm := { s.cm with yieldNext := true, twin := .returning, inService := false } }
  else s

/-- Loss of the peer and yields at the boundary after epoch `old` (R144, R212; none is declared during a muster, R191). -/
def State.judgePeer (s : State) (old : Nat) : State :=
  if s.mus.stopped then s
  else if s.cm.yieldNext then
    let s := { s with cm := { s.cm with yieldNext := false } }
    if s.cm.departed && s.cm.peerClaim < s.cm.claim then s.declareLost.endOld old
    else { s.enterReturning with cm := { s.enterReturning.cm with resumeSent := false } }
  else if s.cm.twin != .paired then s
  else if s.cm.diverged then s.goAlone.yieldDamage
  else if s.cm.departed || 2 ≤ s.cm.empties then s.declareLost.yieldDamage
  else s.yieldDamage

/-- A twin that became RETURNING with the link up says so (R146). -/
def State.sayReturning (s : State) : State :=
  if s.cm.twin == .returning && !s.cm.yieldNext then s.sendResume else s

/-- The join at the first boundary at which its conditions hold (R149), and word of it to the serving twin (log entry 21). -/
def State.askJoin (s : State) : State := if s.mayJoin then (s.resumeFrame .returning true false).join else s

/-! ## Tables, windows and queues (R56, R76, R102, R112, R117, R118, R169) -/

/-- One table change that a member committed in epoch `c` (R114). -/
def State.applyTable (s : State) (c : Nat) (p : List Byte) : State :=
  if p.length == 32 then s.domainEffect p
  else match parseWin p with
    | some q => s.windowEffect q c
    | none => s

/-- The table changes of the epochs that have ended, of every member, in order of gang position, then commit order (R169);
the boundary then brings them into effect. -/
def State.applyTables (s : State) (old : Nat) : State :=
  let ts := sortBy (fun (a b : Nat × Nat × Nat × List Byte) =>
    a.1 < b.1 || (a.1 == b.1 && a.2.1 ≤ b.2.1)) (s.win.tables.filter fun t => t.2.2.1 ≤ old)
  ts.foldl (fun s t => s.applyTable t.2.2.1 t.2.2.2)
    { s with win := { s.win with tables := s.win.tables.filter fun t => old < t.2.2.1 } }

/-- Queues at a boundary (R76, R102). -/
def State.turnQueues (s : State) : State :=
  let qs := mmap (fun _ (q : Queue) => q.turn) s.q.q
  let s := { s with q := { s.q with q := qs } }
  (qs.filter fun e => e.2.state == .deleting).foldl (fun s e => s.checkFree e.1) s

/-- Entries that reach the horizon retire, and FLOOR follows them (R56, R57); the carried excess. -/
def State.retire (s : State) : State :=
  let isOld (e : Nat × RrtEntry) : Bool := e.2.epoch + 32 ≤ s.ep.num
  let gone := s.net.rrt.filter isOld
  let s := { s with net := { s.net with
    rrt := s.net.rrt.filter fun e => !isOld e
    excess := s.net.excess + s.net.count - 131072, count := 0, naks := [] } }
  let s := s.capEvent
  gone.foldl (fun s e =>
    let n := e.2.key.qid.toNat
    let q := s.queue n
    if n = 0 || q.state == .free then s
    else s.setQueue n ({ q with floor := laterSeq q.floor e.2.key.seq.toNat }).settle) s

/-- What a fence still leaves open is cut off at F + 1 and F + 2 (R118). -/
def State.cutFences (s : State) : State :=
  let ws := s.win.win.filter fun e => (e.2.state == .revoking || e.2.state == .closing) && e.2.fence + 1 ≤ s.ep.num
  ws.foldl (fun s e =>
    let s := s.cutHeld e.1 e.2.fence
    if e.2.fence + 2 ≤ s.ep.num then s.cutSegments e.1 e.2.fence else s) s

/-! ## Figures, SCALE and allowances (R99, R101 to R103, R278, R362) -/

/-- Figures where something has changed them, and SCALE (R103); both stand still while PARKED (R343). DESIGN CHOICE (log entry
71): SCALE changes where its word in QMG.SCALE does. -/
def State.turnScale (s : State) : State :=
  if s.pwr.park == .parked then s
  else
    let s := if s.q.refigure then
        let s := s.regulators
        { s with q := { s.q with fig := s.figures, refigure := false } }
      else s
    let r := scaleOf s.q.fig s.sums
    let w := scaleWord r
    let still := s.q.oversub && r.1 != r.2
    if w == s.q.scale then { s with q := { s.q with scaleIn := r, oversub := still } }
    else (({ s with q := { s.q with scale := w, scaleIn := r, oversub := still } }).post none 0x0003 0 w).raise
      QMG.page QMG.evGUARANTEE_CHANGE

/-- An allowance at a boundary: it gains its grant and is capped at it (R99). -/
def gain (a : Int) (grant : Nat) : Int := min grant (a + grant)

/-- A line channel's grant: 1.6 Tb/s × period ÷ 8 (R99). -/
def State.lineGrant (s : State) : Nat := 200000000000 * s.periodP / (256 * secCycles)

/-- A port's curator datagram allowance, in bytes: 125,000,000 bytes per second, capped at 16,384 (R362). -/
def State.curatorGrant (s : State) : Nat := 125000000 * s.periodP / (256 * secCycles)

/-- Every allowance at a boundary. -/
def State.refill (s : State) : State :=
  let one (q : Queue) : Queue := { q with
    alWr := gain q.alWr (s.grant q.ct.wr), alRd := gain q.alRd (s.grant q.ct.rd)
    alFl := gain q.alFl (s.grant q.ct.fl), alReq := gain q.alReq (s.grant q.ct.reqs) }
  { s with
    q := { s.q with q := mmap (fun _ q => one q) s.q.q
                    alLine := mofList ((List.range 8).map fun c => (c, gain (mgetD s.q.alLine c 0) s.lineGrant)) }
    acc := { s.acc with tagAl := min s.tagGrant (s.acc.tagAl + s.tagGrant) }
    cur := { s.cur with alPort := mofList ((List.range 16).map fun p =>
      (p, min 16384 (mgetD s.cur.alPort p 0 + s.curatorGrant))) } }

/-! ## Parking (R343, R344) -/

/-- PARK and wakes at a boundary. -/
def State.turnPark (s : State) : State :=
  match s.pwr.park with
  | .awake =>
    if s.pwr.parkReq || s.pwr.reparkReq then
      { s with pwr := { s.pwr with park := .parking, parkReq := false, reparkReq := false, wakeReq := false, wakeReason := 0 } }
    else s
  | .parked =>
    if s.pwr.wakeReq then
      { s with pwr := { s.pwr with park := .waking, wakeReq := false, hostSerdes := true } }
    else s
  | _ => s

/-! ## The boundary -/

/-- Everything that a boundary does once the epoch has its number and its time; `old` is the epoch that ended. During
the image and record steps of a muster only the epoch counts on and memory is refreshed (R190, R217). -/
def State.atBoundary (s : State) (old : Nat) (env : BoundaryEnv) : State :=
  let s := env.mismatches.foldl State.mismatch (env.curators.foldl State.coreOp s)
  let s := (if env.mismatches.isEmpty then s else s.checkAdit).relayMarker
  if s.mus.state == .mustering && s.mus.step != .commit || s.mus.state == .mustered then s.refillPorts.refreshAll
  else
    let s := (s.endOld old).applyTables old
    let s := s.turnWindows.turnQueues
    let s := (s.judgeEpoch old).judgePeer old
    let s := if s.mus.stopped then s else s.takeNext s.ep.num
    let s := s.settle.sayReturning.askJoin
    let s := (s.stepRehome env.rehome env.rehomeCells).retire
    let s := s.turnPark.turnScale
    let s := if s.pwr.throttled then s.inc THM.THROTTLE_EPOCHS (s.ep.num - old) else s
    let s := s.refill.coreSend.cutFences
    let s := env.fill.foldl (fun s x => if s.linkUp x.link then s.pfcFill x.link x.prio.val x.pct else s) s
    let s := if s.mus.stopped || s.cm.yieldNext then s else s.examine
    let hops := ((List.range 8).filter fun n => (s.member (8 + n)).fspReq.isSome).map (8 + ·)
    let s := s.refillPorts.refreshAll
    let s := ((s.scrubSlot env).patrolSlot env).judgeBehind
    let s := ((s.calSlot env.cal hops (s.ep.num - old)).retrainSlot env.retrain).turnFsp
    s.flushWaiting.manageTiers

/-- A boundary: what it does at once, the epoch receiver as the boundary has set it. -/
def State.boundary (s : State) (old : Nat) (env : BoundaryEnv) : State := { s.atBoundary old env with ep := s.ep }

/-- A boundary from the own input at a time, with its edge if there was one. -/
def State.ownBoundary (s : State) (t256 : Nat) (edge : Option Nat) (env : BoundaryEnv) : State :=
  let s := s.at (t256 / 256)
  (s.alignAt t256 edge).boundary s.ep.num env

/-- A boundary in RELAY or HOLDOVER, of number `n`. -/
def State.placedBoundary (s : State) (t256 n : Nat) (env : BoundaryEnv) : State :=
  let s := s.at (t256 / 256)
  let old := s.ep.num
  ({ s with ep := { s.ep with num := n, last256 := t256, edge := none, seen := false } }).boundary old env

/-- A boundary that continues the count. -/
def State.nextBoundary (s : State) (t256 : Nat) (env : BoundaryEnv) : State := s.placedBoundary t256 (s.ep.num + 1) env

/-- A SYNC edge (R24, R33): inside the window it issues the boundary, in HOLDOVER it may reacquire; any other is ignored. -/
def State.syncEdge (s : State) (edge : Nat) (env : BoundaryEnv) : State :=
  if !s.usesEpoch then s
  else if s.ownInput && s.inWin edge s.ownExpected then
    let s := s.missUnseen
    if s.ownInput then s.ownBoundary (edge * 256) (some edge) env else s
  else match s.reacquireAt edge with
    | some n => if n ≤ s.ep.num then s.refuseSource else ((s.at edge).reacquire edge n).boundary s.ep.num env
    | none => s

/-- No edge came: the boundary at the expected time, and the frame missed (R24, R26). With ALIGN_EN at 0 the input counts
as lost, and no frame as missed (R427). -/
def State.expectedBoundary (s : State) (env : BoundaryEnv) : State :=
  if !s.ownInput || (s.ep.state == .search && !s.usesEpoch) then s
  else
    let s := s.missUnseen
    let uses := s.usesEpoch
    if !s.ownInput then s
    else
      let s := s.ownBoundary s.ownExpected none env
      if uses then ({ s with ep := { s.ep with lastGood := none } }).missFrame else s.loseEpoch

/-- Does the device follow relay markers, or does it from the next boundary? -/
def State.relays (s : State) : Bool := (s.ep.state == .relay && !s.ep.returning) || s.ep.relayNext

/-- RELAY, entered or kept, at a boundary (R30, R32): a frame of the own input that never came resets the count. -/
def State.keepRelay (s : State) : State :=
  if s.ep.state == .relay then
    (if s.ep.seen then s else { s with ep := { s.ep with agree := 0, lastGood := none } })
  else ({ s with ep := { s.ep with
    state := .relay, relayNext := false, agree := 0, returning := false, target := none, lastGood := none
    missRow := 0, markerMiss := 0 } }).raise EPC.page EPC.evRELAY_ENTER

/-- A boundary placed from the leader's marker (R29), also where the marker came before FORCE_HOLDOVER was set (log entry
60). Numbers that the leader skipped are skipped here too (R33). -/
def State.relayedBoundary (s : State) (env : BoundaryEnv) : State :=
  if !s.relays then s
  else match s.relayTime with
    | none => s
    | some (t, n) =>
      let s := s.keepRelay.skipTo n
      ({ s with ep := { s.ep with markerMiss := 0 } }).placedBoundary t n env

/-- An expected boundary without a marker: issued at the expected time; the second in a row ends RELAY (R30). -/
def State.markerMissing (s : State) (env : BoundaryEnv) : State :=
  if !s.relays || s.relayTime.isSome then s
  else
    let s := s.keepRelay
    let s := ({ s with ep := { s.ep with markerMiss := s.ep.markerMiss + 1 } }).nextBoundary s.expected env
    if 2 ≤ s.ep.markerMiss then ({ s with ep := { s.ep with markerMiss := 0 } }).holdOver else s

/-- A boundary in HOLDOVER (R31); while reacquisition waits for a source edge none falls at the expected time (R33). Where the
source's next edge lies past 1.5 periods, the boundary falls at the expected time and reacquisition goes on. A search whose
edge never came begins again (log entry 60). -/
def State.holdoverBoundary (s : State) (env : BoundaryEnv) : State :=
  if s.ep.state != .holdover || s.awaitsEdge then s
  else ({ s with ep := { s.ep with target := if s.edgeDue then none else s.ep.target } }).nextBoundary s.expected env

/-! ## The commands -/

/-- EPOCH_FRAME (R16 to R26). -/
def execEpochFrame (edge : Nat) (bits : List Bool) (s : State) : Result := .next (s.whenDp fun s => s.epochFrame edge bits)

/-- EPOCH_BOUNDARY (R24, R33). -/
def execEpochBoundary (edge : Nat) (env : BoundaryEnv) (s : State) : Result := .next (s.whenDp fun s => s.syncEdge edge env)

/-- EXPECTED_TIME_BOUNDARY (R24, R26). -/
def execExpectedTimeBoundary (env : BoundaryEnv) (s : State) : Result := .next (s.whenDp fun s => s.expectedBoundary env)

/-- RELAYED_BOUNDARY (R29). -/
def execRelayedBoundary (env : BoundaryEnv) (s : State) : Result := .next (s.whenDp fun s => s.relayedBoundary env)

/-- HOLDOVER_BOUNDARY (R31). -/
def execHoldoverBoundary (env : BoundaryEnv) (s : State) : Result := .next (s.whenDp fun s => s.holdoverBoundary env)

/-- RELAY_MARKER_MISSING (R30). -/
def execRelayMarkerMissing (env : BoundaryEnv) (s : State) : Result := .next (s.whenDp fun s => s.markerMissing env)

end Sys2Proof.Machine
end

