-- ==== Sys2Proof/Machine/Pins.lean ====
section
/-! DEFINITION. The package (R414, R417 to R422): which signal or rail each of the 102 × 102 balls carries. -/

namespace Sys2Proof.Machine

/-- The four wires of a SerDes lane. -/
inductive Wire | txP | txN | rxP | rxN
  deriving DecidableEq, Repr

/-- The supplies (R423). -/
inductive Rail | vss | vbat | vsup | vaux | vcore | vsrd | vsrdH | vstk | vddqW | vnf
  deriving DecidableEq, Repr

/-- The signals of a warm channel (R414). -/
inductive WarmPin
  | dq (i : Nat) | dqsP (j : Nat) | dqsN (j : Nat) | ca (i : Nat) | caPar | csN (i : Nat) | ckP (i : Nat) | ckN (i : Nat)
  | alertN | mresetN
  deriving DecidableEq, Repr

/-- The signals of a NAND channel (R414). -/
inductive NandPin
  | dq (i : Nat) | dqsP | dqsN | reP | reN | weN | ale | cle | wpN | ceN (i : Nat) | rbN (i : Nat)
  deriving DecidableEq, Repr

/-- The signals of the system field (R421). -/
inductive SysPin
  | epochP | epochN | refcoreP | refcoreN | refsrdP (k : Nat) | refsrdN (k : Nat) | xtalIn | xtalOut | pfailN | musterDoneN
  | resetN | rstoutN (x : Nat) | seqEn (x : Nat) | scnCh (x : Nat) | lockA | lockSense | vitrineN | gangId (i : Nat) | twinPos
  | energyDeclEn | pcie (lane : Nat) (w : Wire) | pcieRefP | pcieRefN | pciePerstN | smbClk | smbDat | tck | tms | tdi | tdo
  deriving DecidableEq, Repr

/-- What a ball carries. -/
inductive Ball
  | hp (port lane : Nat) (w : Wire)
  | adit (lane : Nat) (w : Wire)
  | dl (j lane : Nat) (w : Wire)
  | dch (n : Nat) (p : WarmPin)
  | fch (c : Nat) (p : NandPin)
  | sys (p : SysPin)
  | rail (v : Rail)
  deriving DecidableEq, Repr

/-- Where a ball lies from the body centre, in half millimetres east and north (R417). -/
def ballPlace (r c : Nat) : Int × Int := (2 * Int.ofNat c - 103, 103 - 2 * Int.ofNat r)

/-- The row of the north half that a row of bands C and D mirrors (R418). -/
def northRow (r : Nat) : Nat := if r ≤ 51 then r else 103 - r

/-- The lane of a slot of a band (R418): bands A, B, C, D as 0 to 3. -/
def laneOf (band slot : Nat) (w : Wire) : Ball :=
  let pair (a b i : Nat) : Ball := if i < 8 then .hp a i w else .hp b (i - 8) w
  let g := slot / 16
  let i := slot % 16
  if band = 0 then pair (2 * g) (2 * g + 1) i
  else if band = 1 then (if g = 0 then pair 6 7 i else if g = 1 then .adit i w else .dl 0 i w)
  else if band = 2 then (if g = 0 then pair 8 9 i else .dl g i w)
  else pair (10 + 2 * g) (11 + 2 * g) i

/-- The balls of the lane bands (R418): rows 1 to 12 and 91 to 102, columns 4 to 99. -/
def laneBall (r c : Nat) : Ball :=
  let n := northRow r
  let band := if r ≤ 51 then (n - 1) / 6 else 3 - (n - 1) / 6
  let wire : Option Wire := match (n - 1) % 6 with
    | 0 => some .txP
    | 1 => some .txN
    | 3 => some .rxP
    | 4 => some .rxN
    | _ => none
  match wire with
  | some w => if c % 2 = 0 && c ≤ 98 then laneOf band ((c - 4) / 2) w else .rail .vss
  | none => .rail .vss

/-- Field row `j` and field column `k` of a warm channel (R419); `none` is VSS. -/
def warmPin (j k : Nat) : Option WarmPin :=
  if j < 14 then
    some (if k < 8 then .dq (8 * j + k) else if k = 8 then .dqsP j else .dqsN j)
  else
    let q := 10 * (j - 14) + k
    if q < 14 then some (.ca q)
    else if q = 14 then some .caPar
    else if q < 17 then some (.csN (q - 15))
    else if q < 21 then some (if (q - 17) % 2 = 0 then .ckP ((q - 17) / 2) else .ckN ((q - 17) / 2))
    else if q = 21 then some .alertN
    else if q = 22 then some .mresetN
    else none

/-- The balls of the warm channels (R419): rows 14 to 89, columns 1 to 10 and 93 to 102. -/
def warmBall (r c : Nat) : Ball :=
  let west := c ≤ 10
  let n := (r - 14) / 19 + (if west then 0 else 4)
  match warmPin ((r - 14) % 19) (if west then c - 1 else 102 - c) with
  | some p => .dch n p
  | none => .rail .vss

/-- Ball `s` of a NAND channel's field (R420); `none` is VSS. -/
def nandPin (s : Nat) : Option NandPin :=
  if s < 8 then some (.dq s)
  else if s = 8 then some .dqsP
  else if s = 9 then some .dqsN
  else if s = 10 then some .reP
  else if s = 11 then some .reN
  else if s = 12 then some .weN
  else if s = 13 then some .ale
  else if s = 14 then some .cle
  else if s = 15 then some .wpN
  else if s < 20 then some (.ceN (s - 16))
  else if s < 24 then some (.rbN (s - 20))
  else none

/-- The ball of a NAND channel's field (R420), where (r, c) lies in one. -/
def nandBall (r c : Nat) : Option Ball :=
  let w := if c ≤ 51 then c else 103 - c
  if 22 ≤ r && r ≤ 69 && 13 ≤ w && w ≤ 36 && (r - 22) % 6 < 5 && (w - 13) % 6 < 5 then
    let m := (r - 22) / 6 + 8 * ((w - 13) / 6)
    match nandPin (5 * ((r - 22) % 6) + (w - 13) % 6) with
    | some p => some (.fch (m + if c ≤ 51 then 0 else 32) p)
    | none => some (.rail .vss)
  else none

/-- Signal `s` of the system field (R421). -/
def sysPin (s : Nat) : SysPin :=
  let wire (i : Nat) : Wire := if i = 0 then .txP else if i = 1 then .txN else if i = 2 then .rxP else .rxN
  if s < 4 then (if s = 0 then .epochP else if s = 1 then .epochN else if s = 2 then .refcoreP else .refcoreN)
  else if s < 12 then (if s % 2 = 0 then .refsrdP ((s - 4) / 2) else .refsrdN ((s - 5) / 2))
  else if s < 17 then
    (if s = 12 then .xtalIn else if s = 13 then .xtalOut else if s = 14 then .pfailN else if s = 15 then .musterDoneN else .resetN)
  else if s < 21 then .rstoutN (s - 17)
  else if s < 37 then .seqEn (s - 21)
  else if s < 68 then .scnCh (s - 37)
  else if s < 71 then (if s = 68 then .lockA else if s = 69 then .lockSense else .vitrineN)
  else if s < 75 then (if s = 73 then .twinPos else if s = 74 then .energyDeclEn else .gangId (s - 71))
  else if s < 91 then .pcie ((s - 75) / 4) (wire ((s - 75) % 4))
  else if s < 94 then (if s = 91 then .pcieRefP else if s = 92 then .pcieRefN else .pciePerstN)
  else if s < 96 then (if s = 94 then .smbClk else .smbDat)
  else if s = 96 then .tck
  else if s = 97 then .tms
  else if s = 98 then .tdi
  else .tdo

/-- The rail of a ball that R418 to R421 do not assign (R422): the first region that holds it. -/
def railBall (r c : Nat) : Rail :=
  let checker (v : Rail) : Rail := if (r + c) % 2 = 0 then v else .vss
  let rows (a b : Nat) : Bool := a ≤ r && r ≤ b
  let cols (a b : Nat) : Bool := a ≤ c && c ≤ b
  if r = 1 && c = 1 then .vbat
  else if rows 1 12 && cols 1 3 || rows 91 102 && cols 100 102 then checker .vsup
  else if rows 1 12 && cols 100 102 || rows 91 102 && cols 1 3 then checker .vaux
  else if r = 13 || r = 90 then .vss
  else if (rows 14 16 || rows 87 89) && cols 11 92 then checker .vsrd
  else if (rows 17 19 || rows 84 86) && cols 11 92 then checker .vsrdH
  else if rows 20 83 && cols 38 65 then checker .vcore
  else if rows 20 83 && (cols 36 37 || cols 66 67) then checker .vstk
  else if rows 20 83 && (cols 11 12 || cols 91 92) then checker .vddqW
  else if rows 20 70 && (cols 13 35 || cols 68 90) then checker .vnf
  else checker .vstk

/-- What ball (r, c) carries; `none` where there is no such ball (R417). -/
def ballAt (r c : Nat) : Option Ball :=
  if r = 0 || 102 < r || c = 0 || 102 < c then none
  else if (r ≤ 12 || 91 ≤ r) && 4 ≤ c && c ≤ 99 then some (laneBall r c)
  else if 14 ≤ r && r ≤ 89 && (c ≤ 10 || 93 ≤ c) then some (warmBall r c)
  else if 72 ≤ r && r ≤ 81 && 13 ≤ c && c ≤ 22 then some (.sys (sysPin (10 * (r - 72) + (c - 13))))
  else match nandBall r c with
    | some b => some b
    | none => some (.rail (railBall r c))

end Sys2Proof.Machine
end

