-- ==== Sys2Proof/Machine/Reset.lean ====
section
/-! DEFINITION. Resets (R334 to R338, R402, R406): what each domain's reset restores, what a reset waits for (R356), and
the RSTOUT_N outputs. -/

namespace Sys2Proof.Machine

/-! ## Register fields by domain (R406) -/

/-- Does a reset of domain `d` restore the field of this key: its own domain, or a block field of a page of the domain;
never a ROS field (R405)? -/
def keyOf (d : Dom) (k : Nat) : Bool :=
  !keyRos k && (keyDom k == d.code || (keyDom k == 3 && pageDom (keyPage k) == d))

/-- Register fields restored. -/
def State.clearRegs (s : State) (p : Nat → Bool) : State := { s with reg := s.reg.filter fun e => !p e.1 }

/-! ## RSTOUT_N (R337) -/

/-- Is the management domain held in reset? The datapath domain is held with it. -/
def State.heldInReset (s : State) : Bool := !(s.pwr.seq == .on && s.pwr.vsupOk && !s.pwr.resetN && !s.pwr.clockHold)

/-- The conditions of the four outputs as they now stand: a condition that ends begins the stretch. -/
def State.rstout (s : State) : State :=
  (List.range 4).foldl (fun s x =>
    let was := bitOf s.pwr.rstCond x
    let is := !s.pwr.everOn || (s.heldInReset && s.get (RST.SRC x) != 0)
    { s with pwr := { s.pwr with
      rstCond := setBit s.pwr.rstCond x is
      rstStretch := setBit s.pwr.rstStretch x (!is && (was || bitOf s.pwr.rstStretch x)) } }) s

/-- A reset that is over at once: the outputs that it drives are in their stretch. -/
def State.rstPulse (s : State) (dp : Bool) : State :=
  (List.range 4).foldl (fun s x =>
    let src := s.get (RST.SRC x)
    if bitOf src 1 || (dp && bitOf src 0) then
      { s with pwr := { s.pwr with rstStretch := setBit s.pwr.rstStretch x true } }
    else s) s

/-! ## The shutdown of the rails (R330) -/

/-- The number of entries. -/
def State.seqLen (s : State) : Nat := min 16 (s.get PSQ.SEQ_LEN)

/-- SEQ_EN output of entry k driven. -/
def State.driveEn (s : State) (k : Nat) (b : Bool) : State :=
  { s with pwr := { s.pwr with seqEn := setBit s.pwr.seqEn (s.get (PSQ.EN k)) b } }

/-- A shutdown from entry k down (R330). -/
def State.shutFrom (s : State) (k : Nat) (toFault : Bool) : State :=
  s.lockA (({ s with pwr := { s.pwr with
    seq := .falling, entry := k, wait := .discharged, disLate := 0, toFault := toFault } }).driveEn k false).rstout

/-- The shutdown of a device whose rails are on, or rise (R330, R342). -/
def State.shutDown (s : State) : State :=
  match s.pwr.seq with
  | .on => s.shutFrom (s.seqLen - 1) false
  | .rising => s.shutFrom s.pwr.entry false
  | _ => s

/-! ## The datapath domain -/

/-- A datapath reset (R334, R406): every block of a datapath page, the straps apart. What NOR and flash hold stays; what the
device held in its memories and tables is gone (R78, R111, R113). -/
def State.dpReset (s : State) : State :=
  let vhc := min 65535 s.vhcMax
  let s := if s.serviceUp then s.raise SYS.page SYS.evSERVICE_CLOSED else s
  let s := s.clearRegs (keyOf .datapath)
  let mark := s.lastMark.getD 0 - 2 ^ 25
  { s with
    snap := []
    free := s.free + 1
    ep := {}
    net := {}
    q := {}
    win := {}
    cm := { claim := s.loggedClaim.getD (2 - s.pwr.strapTwin), claimLogged := s.loggedClaim.isSome, highest := mark }
    gang := {}
    tier := {}
    mem := []
    mc := { members := mmap (fun _ (x : MemberSt) => { codes := x.codes, lastSave := x.lastSave }) s.mc.members
            scrubStart := s.now }
    acc := {}
    clk := { coreLock := s.clk.coreLock, srdLock := s.clk.srdLock }
    mus := { images := s.mus.images, areaNext := s.mus.areaNext, dirty := s.mus.dirty, vhc := vhc }
    fl := { erases := s.fl.erases, retired := s.fl.retired, maDie := s.fl.maDie, maBlocks := s.fl.maBlocks, maRows := s.fl.maRows
            maGib := s.fl.maGib, board := s.fl.board }
    par := { s.layoutReload with maDegraded := s.par.maDegraded }
    key := { s.key with
      inst := [], marking := [], entOk := true, seeded := true, halted := false, outCh := [], mismatches := []
      drbgPast := [], drbgSeed := s.free, drbgReqs := 0, chan := [], haltPages := [], haltLoad := none, reload := []
      txBase := none, rxBase := none, rxLast := 0, haltRx := [], haltAdit := [], heldAns := none }
    vit := { s.vit with frozen := false, deferred := none }
    pwr := { s.pwr with hostSerdes := s.pwr.park != .parked && s.pwr.park != .parking, parkReq := false, reparkReq := false } }

/-- The datapath domain leaves reset: straps sampled (R338), keys and STORE_KEY reloaded (R289, R296). -/
def State.leaveDp (s : State) : State :=
  let s := { s with pwr := { s.pwr with gangId := s.pwr.strapGang, twinPos := s.pwr.strapTwin } }
  (s.put CPH.STORE_KEY s.key.storeKeyNor).reloadKeys

/-! ## The management domain -/

/-- A management reset (R334, R350, R359, R361): the curators and the NOR and CUR pages; firmware commands that wait end
with ABORTED_BY_RESET, the download is forgotten, and the boot ROM starts. An erase of the Census store goes on. -/
def State.mgReset (s : State) : State :=
  let s := s.cur.fw.foldl (fun s _ => s.fwEnd 0x0B) s
  let s := s.clearRegs (keyOf .management)
  { s with cur := { s.cur with
    todo := s.cur.todo.filter fun e => e.1 == 3, dlBytes := 0, dlRanges := [], dlSectors := [], verifying := none, selecting := false
    booting := true, active := 0, recovery := false, fallback := false, verified := false
    txq := [], prefetch := [], branch := [], dead := [] } }

/-- What CUR says of the last reset (R361, R364): a watchdog's, a lock-up's or neither. -/
def State.lastReset (s : State) (cause : Nat) : State :=
  let s := if cause == 3 then s.raise CUR.page CUR.evWDT_RESET else s.put CUR.LAST_WDT 0
  if cause == 7 then s.raise CUR.page CUR.evLOCKUP_RESET else s.put CUR.LAST_LOCKUP 0

/-- A reset with its bit of RST.CAUSE: of the management domain, or of both. Only the reset that RESET_N applies takes a device out
of MUSTERED (R200, R339), and any that ends Vitrine (R388). -/
def State.domainReset (s : State) (cause : Nat) (dp : Bool) : State :=
  let s := s.setb RST.CAUSE cause true
  if dp then
    let old := s
    let s := { s with cur := { s.cur with fw := [] } }
    let t := (s.dpReset.mgReset.lastReset cause).leaveDp
    let t := old.lockA t
    if s.mus.state == .mustered && !s.vit.frozen && cause != 2 && cause != 6 then
      { t with mus := { t.mus with state := .mustered, step := .done, stopped := true } }
    else t
  else (s.mgReset.lastReset cause).raise RST.page RST.evMGMT_RESET

/-- A reset that takes effect now: one that RESET_N or a clock failure holds stays in force. -/
def State.applyReset (s : State) (cause : Nat) (dp : Bool) : State :=
  let s := s.domainReset cause dp
  if cause == 2 then
    ({ s with pwr := { s.pwr with resetN := s.pwr.resetLow, musterDoneN := false } }.rstPulse dp).rstout
  else if cause == 6 then
    ({ s with pwr := { s.pwr with clockHold := !s.clk.coreLock, musterDoneN := false } }.rstPulse dp).rstout
  else s.rstPulse dp

/-- A reset asked for: it waits for a NOR operation in flight (R356). -/
def State.askReset (s : State) (cause : Nat) (dp : Bool) : State :=
  if s.norInFlight then { s with cur := { s.cur with waits := s.cur.waits ++ [.reset cause dp] } }
  else s.applyReset cause dp

/-- What waited for the NOR takes effect once nothing is in flight (R356), in the order in which it came. -/
def State.norWaits (s : State) : State :=
  if s.norInFlight then s
  else
    let ws := s.cur.waits
    ws.foldl (fun s w => match w with
      | .reset c dp => s.applyReset c dp
      | .off => s.shutDown
      | .muster c => if s.mus.state == .mustering || s.mus.state == .mustered then s else s.beginMuster c)
      { s with cur := { s.cur with waits := [] } }

/-! ## Power-on -/

/-- The supervisor domain as a power-on reset leaves it (R406): every register, ROS included; the calendar runs on (R378). -/
def State.supReset (s : State) (gang : Nat) (twin energy : Bool) : State :=
  let n := s.scanSlots
  { s.clearRegs (fun _ => true) with
    pwr := { strapGang := gang, strapTwin := b2n twin, strapEnergy := b2n energy, gangId := gang, twinPos := b2n twin
             energyEn := energy }
    cen := { nextSlot := n, newest := if n = 0 then none else some (n - 1), full := n == 65536, start := s.calTime }
    vit := {}
    smb := {} }

/-- A power-on reset (R332, R334, R338): every domain. -/
def State.powerOn (s : State) (gang : Nat) (twin energy brownOut : Bool) : State :=
  let s := { s with cur := { s.cur with busy := [], todo := [], devWait := [], waits := [], fw := [], alPort := [], sram := [] }
                    key := { s.key with heldRec := none, heldAns := none, heldFormat := false } }
  let s := (s.supReset gang twin energy).dpReset.mgReset
  let s := { s with cur := { s.cur with booting := false } }
  let s := if s.cal.lost then (s.put RTC.OSC_FAIL 1).raise RTC.page RTC.evOSC_FAIL_EVT else s
  let s := { s with cal := { s.cal with lost := false } }
  (s.leaveDp.setb RST.CAUSE 0 true).setb RST.CAUSE 1 brownOut

end Sys2Proof.Machine
end

