-- ==== Sys2Proof/Machine/Power.lean ====
section
/-! DEFINITION. The supervisor (R325 to R344): sequencer, scanning converter, last record, resets, clock failure, heat and
parking; the end of a muster (R190) and the entry into Vitrine (R383). -/

namespace Sys2Proof.Machine

/-- The supervisor runs: `f` of the state, else no effect (R332). -/
def State.whenSup (s : State) (f : State → State) : State := if s.pwr.vsupOk then s.settled (f s) else s

/-! ## The sequencer (R325 to R330) -/

/-- Power-up begins at entry 0 (R327). -/
def State.startUp (s : State) : State :=
  ({ s with pwr := { s.pwr with seq := .rising, entry := 0, wait := .good } }).driveEn 0 true

/-- The last entry is good (R327): ON, and the management and datapath domains leave reset. -/
def State.seqOn (s : State) : State :=
  let s := ({ s with pwr := { s.pwr with seq := .on, wait := .none, everOn := true }, cur := { s.cur with booting := true } }).raise
    PSQ.page PSQ.evSEQ_DONE
  s.lockA (if s.heldInReset then s else s.leaveDp).rstout

/-- The next entry of a power-up. -/
def State.nextUp (s : State) : State :=
  let k := s.pwr.entry + 1
  if s.seqLen ≤ k then s.seqOn
  else ({ s with pwr := { s.pwr with entry := k, wait := .good } }).driveEn k true

/-- An entry is good: DELAY_MS, then the next (R327). -/
def State.entryGood (s : State) : State :=
  if s.get (PSQ.DELAY_MS s.pwr.entry) == 0 then s.nextUp else { s with pwr := { s.pwr with wait := .delay } }

/-- The next entry of a shutdown, or its end in OFF or FAULT. -/
def State.nextDown (s : State) : State :=
  if s.pwr.entry = 0 then
    ({ s with pwr := { s.pwr with seq := if s.pwr.toFault then .fault else .off, wait := .none } }).rstout
  else ({ s with pwr := { s.pwr with entry := s.pwr.entry - 1 } }).driveEn (s.pwr.entry - 1) false

/-- Would SEQ_GO be rejected (R326)? -/
def State.seqBad (s : State) : Bool :=
  let n := s.seqLen
  let ens := (List.range n).map fun k => s.get (PSQ.EN k)
  n == 0 || ens.eraseDups.length != n || (List.range n).any (fun k => s.get (PSQ.CH k) == 31) ||
    50 < ((List.range n).map fun k => max 1 (s.get (PSQ.DIS_TMO_MS k))).sum

/-- SEQ_GO written 1 through SMBus (R325, R326). -/
def State.seqGo (s : State) : State :=
  if s.pwr.locked then s
  else if s.seqBad then s.raise PSQ.page PSQ.evTABLE_REJECT
  else ({ s with pwr := { s.pwr with locked := true } }).startUp

/-- An entry that is not good in time (R327). -/
def State.upTimeout (s : State) : State :=
  if s.pwr.seq == .rising && s.pwr.wait == .good then
    let s := ({ s with pwr := { s.pwr with failEntry := s.pwr.entry } }).raise PSQ.page PSQ.evSEQ_FAULT
    s.shutFrom s.pwr.entry true
  else s

/-- A rail that does not discharge in time (R330). -/
def State.disTimeout (s : State) : State :=
  if s.pwr.seq == .falling && s.pwr.wait == .discharged then
    let k := s.pwr.entry
    let s := ({ s with pwr := { s.pwr with disLate := setBit s.pwr.disLate k true } }).raise PSQ.page PSQ.evDIS_LATE_EVT
    (s.census 13 k).nextDown
  else s

/-! ## Conversions (R311, R312, R329, R331, R346, R369) -/

/-- Is a channel named by the table or by MUS.BI_CH? -/
def State.chUsed (s : State) (ch : Nat) : Bool :=
  ch < 31 && ((List.range s.seqLen).any (fun k => s.get (PSQ.CH k) == ch) || s.get MUS.BI_CH == ch)

/-- A rail's extremes and sum (R369). -/
def State.railSample (s : State) (k code : Nat) : State :=
  let r := mgetD s.cen.rails k {}
  let t := min 63 (64 * (s.calTime - s.cen.start) / max 1 (s.cen.period * 60 * 32768))
  let r := if !r.seen || code < r.min then { r with min := code, tMin := t } else r
  let r := if !r.seen || r.max < code then { r with max := code, tMax := t } else r
  let r := { r with seen := true }
  ({ s with cen := { s.cen with rails := mput s.cen.rails k { r with sum := r.sum + code } } }).inc (CEN.RAIL_SUM k) code

/-- Each entry judged by the channel, while ON (R329). -/
def State.judgeRails (s : State) (ch code : Nat) : State :=
  ((List.range s.seqLen).filter fun k => s.get (PSQ.CH k) == ch).foldl (fun s k =>
    let s := s.railSample k code
    if code < s.get (PSQ.GOOD_MIN k) then (s.raise PSQ.page PSQ.evRAIL_OUT).census 0 k
    else if s.get (PSQ.GOOD_MAX k) < code then (s.raise PSQ.page PSQ.evRAIL_OUT).census 1 k
    else s) s

/-- LOCK by a conversion of channel 31, and its quarrel with the DLLs (R311, R312). -/
def State.judgeLock (s : State) (code : Nat) : State :=
  let was := s.clk.lock
  let s := if code < s.get CLK.LOCK_THR then
      ({ s with clk := { s.clk with lock := true, above := 0 } }).raiseIf (!was) CLK.page CLK.evLOCK_GAINED
    else
      let n := s.clk.above + 1
      let s := { s with clk := { s.clk with above := n } }
      if n == 2 && was then
        ((({ s with clk := { s.clk with lock := false } }).inc CLK.LOCK_LOSSES).raise CLK.page CLK.evLOCK_LOST).census 14 0
      else s
  let allIn := (List.range 17).all fun i => !s.dllEnabled i || s.dllIn i
  let n := if s.clk.lock == allIn then 0 else s.clk.disagree + 1
  let s := { s with clk := { s.clk with disagree := n } }
  if n == 16 then ({ s with clk := { s.clk with pathFault := true } }).raise CLK.page CLK.evLOCK_PATH_FAULT_EVT else s

/-- A conversion's part in the sequencer. -/
def State.seqSample (s : State) (ch code : Nat) : State :=
  let k := s.pwr.entry
  match s.pwr.seq, s.pwr.wait with
  | .rising, .good =>
    if s.get (PSQ.CH k) == ch && s.get (PSQ.GOOD_MIN k) ≤ code && code ≤ s.get (PSQ.GOOD_MAX k) then s.entryGood else s
  | .falling, .discharged => if s.get (PSQ.CH k) == ch && code ≤ s.get (PSQ.DIS_MAX k) then s.nextDown else s
  | .on, _ => s.judgeRails ch code
  | _, _ => s

/-- A conversion (R331). Channel 31 is never a rail channel, also where BI_CH names it (R310). -/
def State.conversion (s : State) (ch code : Nat) : State :=
  let s := s.put (SCN.CODE ch) code
  let s := s.raiseIf (s.chUsed ch && (code == 0 || code == 16383)) SCN.page SCN.evSAT
  let s := s.seqSample ch code
  let s := if s.dpUp && s.flag MUS.BI_EN && ch < 31 && ch == s.get MUS.BI_CH && code < s.get MUS.BI_MIN then s.musterTrigger 2 else s
  if ch = 31 then
    let s := (s.inc SCN.SCANS).inc CEN.SAMPLES
    if s.dpUp then s.judgeLock code else s
  else s

/-! ## Alarms (R299) -/

/-- An alarm: wherever the key store has its supply, in a muster that holds the rails on too. -/
def State.alarm (s : State) (cause : Nat) : State :=
  if s.pwr.seq != .on then s
  else
    let s := s.keyAlarm cause
    if s.dpUp then s.checkAdit else s

/-! ## Vitrine entered (R383, R384) -/

/-- The device freezes (R383): privileged keys are erased, every clock but the supervisor's stops, the entry is recorded. -/
def State.freeze (s : State) (cause : Nat) (deferred : Bool) : State :=
  let s := s.keyAlarm 3
  let s := ((s.put VIT.CAUSE cause).putb VIT.DEFERRED deferred).inc VIT.ENTRIES
  let s := (s.put VIT.ENTRY_SEC s.cal.sec).put VIT.ENTRY_EPOCH s.ep.num
  s.lockA (({ s with vit := { s.vit with frozen := true, deferred := none } }).raise VIT.page VIT.evVITRINE_ENTERED)

/-- Entry into Vitrine: deferred while a muster runs (R384). -/
def State.enterVitrine (s : State) (cause : Nat) : State :=
  if s.heldInReset || s.vit.frozen then s
  else if s.mus.state == .mustering then { s with vit := { s.vit with deferred := some cause } }
  else s.freeze cause false

/-! ## The end of a muster (R190, R198, R339) -/

/-- MUSTER_DONE_N asserted, MUSTERED, and step 7: rails off, unless Vitrine takes its place, MODE 1 of cause 4 holds them, or
a clock failure's reset follows. -/
def State.musterEnd (s : State) : State :=
  if s.mus.state != .mustering || s.mus.step != .record then s
  else
    let s := s.lockA { s with
      mus := { s.mus with state := .mustered, step := .done }, pwr := { s.pwr with musterDoneN := true } }
    let s := (s.inc MUS.MUSTERS).raise MUS.page MUS.evMUSTER_DONE
    match s.vit.deferred with
    | some c => s.freeze c true
    | none =>
      if s.mus.cause == 6 then s.askReset 6 true
      else if s.mus.cause == 4 && s.mus.mode then s
      else s.shutDown

/-! ## The last record (R332, R356) -/

/-- An operation in flight abandoned: a program can leave bits set, an erase part of its sector (R356); which is free. -/
def State.abandonOp (s : State) (op : NorOp) : State :=
  if op.erase then
    let base := op.addr / 4096 * 4096
    ((s.cur.words.filter fun e => base ≤ e.1 && e.1 < base + 4096).map (·.1)).foldl (fun s a =>
      let (v, s) := s.freeNat
      s.norSet a (Nat.lor (s.norWord a) (v % 2 ^ 32))) s
  else
    let (v, s) := s.freeNat
    s.norSet op.addr (Nat.land (s.norWord op.addr) (Nat.lor op.data (v % 2 ^ 32)))

/-- VSUP below 2.90 V (R332): SEQ_EN low, both domains in reset, NOR operations abandoned, the LAST record programmed, as far as
VSUP lasts: how many of its 64 words are programmed is free (log entry 75). -/
def State.vsupFall (s : State) : State :=
  if !s.pwr.vsupOk then s
  else
    let s := { s with pwr := { s.pwr with vsupOk := false, seq := .idle, wait := .none, seqEn := 0 } }
    let ops := s.cur.busy.map (·.2)
    let s := { s with cur := { s.cur with busy := [], todo := [], devWait := [], waits := [], selecting := false } }
    let s := (ops.foldl State.abandonOp s).setb RST.CAUSE 1 true
    let s := { s with cen := { s.cen with clearing := false } }.findSlot
    let s := if s.cen.full then s.inc CEN.DROPPED
      else
        let (v, s) := s.freeNat
        let n := v % 65
        let bs := s.recordBytes 3 0 0 false
        (s.programWords bs n).raiseIf (n == 64) RST.page RST.evLAST_RECORD
    s.rstout

/-! ## RESET_N and clock failure (R335, R339) -/

/-- RESET_N low (R335): under 2 µs ignored, from 10 µs honoured, between them free. -/
def State.resetAssert (s : State) (low : Nat) : State :=
  if low < 2 * usCycles || s.pwr.resetLow then s
  else
    let (b, s) := if low < 10 * usCycles then s.freeBit else (true, s)
    if b then ({ s with pwr := { s.pwr with resetLow := true } }).askReset 2 true else s

/-- RESET_N released (R328, R335): the reset ends; with the rails off, power-up runs again. -/
def State.resetRelease (s : State) : State :=
  if !s.pwr.resetLow then s
  else
    let held := s.pwr.resetN
    let s := { s with pwr := { s.pwr with resetLow := false, resetN := false } }
    if s.pwr.locked && (s.pwr.seq == .off || s.pwr.seq == .fault) then s.startUp.rstout
    else if held && s.pwr.seq == .on then s.lockA s.leaveDp.rstout
    else s.rstout

/-- A clock failure (R339): the ring oscillator, the clock alarm, a muster of cause 6; a reset that is in force holds until
CORE_SYN_LOCK returns. -/
def State.clockFail (s : State) : State :=
  let s := ({ s with clk := { s.clk with coreLock := false }, pwr := { s.pwr with onBackup := true } }).raise
    RST.page RST.evCLOCK_FAIL
  let s := s.alarm 1
  if s.dpUp then s.musterTrigger 6
  else if s.heldInReset then { s with pwr := { s.pwr with clockHold := true } }
  else s

/-- CORE_SYN_LOCK returns: the held reset ends (R339). -/
def State.lockReturn (s : State) : State :=
  let s := { s with clk := { s.clk with coreLock := true }, pwr := { s.pwr with onBackup := false } }
  if s.pwr.clockHold then
    let s := { s with pwr := { s.pwr with clockHold := false } }
    s.lockA (if s.heldInReset then s else s.leaveDp).rstout
  else s

/-! ## Heat (R340 to R342) -/

/-- Is sensor i excluded (R340)? Its neighbours are those of the numbers next to its own, in a ring (log entry 41). -/
def sensorOut (ts : List Int) (i : Nat) : Bool :=
  let t := ts.getD i 0
  let off (j : Nat) : Bool := 15 < (t - ts.getD (j % 24) 0).natAbs
  t < -40 || 150 < t || (off (i + 23) && off (i + 1))

/-- Throttle entered or left (R341, R103). -/
def State.setThrottle (s : State) (b : Bool) : State :=
  if s.pwr.throttled == b then s
  else ({ s with pwr := { s.pwr with throttled := b }, q := { s.q with refigure := true } }).raise THM.page
    (if b then THM.evTHROTTLE_ON else THM.evTHROTTLE_OFF)

/-- Fewer than 12 valid sensors (R340). -/
def State.sensorLow (s : State) : Bool := s.pwr.sensors.length != 0 && 12 < s.pwr.excluded.length

/-- The trip (R342, R386), at every reading of 120 °C or more: a muster of cause 5 and then the shutdown; without a datapath to
muster, the shutdown alone, once no NOR operation is in flight (R356). -/
def State.trip (s : State) : State :=
  let s := ({ s with pwr := { s.pwr with tripped := true } }).raise THM.page THM.evTRIP
  if s.dpUp then s.musterTrigger 5
  else if s.norInFlight then
    if s.cur.waits.contains .off then s else { s with cur := { s.cur with waits := s.cur.waits ++ [.off] } }
  else s.shutDown

/-- The 24 sensors read (R340 to R342). -/
def State.thermal (s : State) (ts : List Int) : State :=
  let out := (List.range 24).filter (sensorOut ts)
  let good := (List.range 24).filter fun i => !out.contains i
  let first := s.pwr.sensors.isEmpty
  let hot : Option Nat := good.foldl (fun b i => match b with
    | none => some i
    | some j => some (if ts.getD j 0 < ts.getD i 0 then i else j)) none
  let s := s.raiseIf (!out.isEmpty) THM.page THM.evSENSOR_FAULT
  let s := if ts.any fun t => 130 < t || t < -45 then s.alarm 2 else s
  let s := { s with pwr := { s.pwr with
    sensors := mofList ((List.range 24).map fun i => (i, ts.getD i 0)), excluded := out } }
  let s := match hot with
    | none => s
    | some i =>
      let t := ts.getD i 0
      let s := { s with
        pwr := { s.pwr with tj := t, tjPeak := if first then t else max s.pwr.tjPeak t }
        cen := { s.cen with tjMin := some (min t (s.cen.tjMin.getD t)), tjMax := some (max t (s.cen.tjMax.getD t)) } }
      let s := if Int.ofNat (s.get CEN.TJ_WARN) ≤ t then s.census 2 i else s
      let s := if 105 ≤ t then s.setThrottle true else s
      if 120 ≤ t then s.trip else s
  if s.sensorLow then s.setThrottle true else s

/-- Tj at or below 100 °C for 1 ms (R341). -/
def State.coolOff (s : State) : State :=
  if s.pwr.throttled && s.pwr.tj ≤ 100 && !s.sensorLow then s.setThrottle false else s

/-! ## PARKED (R343, R344) -/

/-- Is the twin RETURNING, as far as this device knows: by its RESUME, or by its word that it joins next (R146, R149)? -/
def State.peerReturning (s : State) : Bool :=
  s.cm.twin == .returning || (s.alone && (match s.cm.peerResume with
    | some r => r.twin == .returning
    | none => false) || s.cm.rehomeSrc)

/-- PARK written (R343, R344). -/
def State.writePark (s : State) (v : Bool) : State :=
  if v then
    if !s.serviceUp || s.mus.state != .armed || s.peerReturning then s.raise PSQ.page PSQ.evPARK_REJECT
    else
      let s := s.put PSQ.PARK 1
      match s.pwr.park with
      | .awake => { s with pwr := { s.pwr with parkReq := true } }
      | .waking => { s with pwr := { s.pwr with reparkReq := true } }
      | _ => s
  else
    let s := s.put PSQ.PARK 0
    ({ s with pwr := { s.pwr with parkReq := false, reparkReq := false } }).wakeSource 0

/-- PARKING ends (R343): answers queued are sent, and the host SerDes go off. -/
def State.parkDone (s : State) : State :=
  if s.pwr.park != .parking then s
  else
    let s := s.flushWaiting
    ({ s with pwr := { s.pwr with park := .parked, hostSerdes := false } }).raise PSQ.page PSQ.evPARKED_EVT

/-- WAKING ends (R344). -/
def State.awake (s : State) : State :=
  if s.pwr.park != .waking then s
  else ({ s with pwr := { s.pwr with park := .awake, wakeReq := false } }).raise PSQ.page PSQ.evWOKEN

/-! ## Pins (R338) -/

/-- What a pin does: driven, driven at a density in 1/6000 (R309), high impedance, an input with the weak pull-up, or as its block
uses it. -/
inductive PinState | low | high | pulses (density : Nat) | highZ | pullUp | block
  deriving DecidableEq, Repr

/-- A pin of a block's page: the block's once it is enabled outside reset. -/
def State.blockPin (s : State) (page : Nat) : PinState :=
  if s.mgUp && s.flag (HDR.ENABLE page) && !s.flag (HDR.IN_RESET page) then .block else .pullUp

/-- What a ball's pin does (R338); a rail has none. -/
def State.pinState (s : State) : Ball → Option PinState
  | .hp port _ _ => some (s.blockPin (HP.page port))
  | .adit .. => some (s.blockPin ADT.page)
  | .dl j _ _ => some (s.blockPin (DFT.page j))
  | .dch n _ => some (s.blockPin (DCH.page n))
  | .fch c _ => some (s.blockPin (FCH.page c))
  | .sys (.seqEn x) => some (if bitOf s.pwr.seqEn x then .high else .low)
  | .sys (.rstoutN x) => some (if bitOf s.pwr.rstCond x || bitOf s.pwr.rstStretch x then .low else .high)
  | .sys .musterDoneN => some (if s.pwr.musterDoneN then .low else .high)
  | .sys .lockA => some (.pulses s.lockDensity)
  | .sys (.scnCh _) | .sys .lockSense => some .highZ
  | .sys .tck | .sys .tms | .sys .tdi | .sys .tdo | .sys .smbClk | .sys .smbDat | .sys .xtalIn | .sys .xtalOut => some .block
  | .sys (.pcie ..) | .sys .pcieRefP | .sys .pcieRefN | .sys .pciePerstN => some (if s.mgUp then .block else .pullUp)
  | .sys .epochP | .sys .epochN | .sys .refcoreP | .sys .refcoreN | .sys (.refsrdP _) | .sys (.refsrdN _) =>
    some (if s.mgUp then .block else .pullUp)
  | .sys .pfailN | .sys .resetN | .sys .vitrineN | .sys (.gangId _) | .sys .twinPos | .sys .energyDeclEn => some .pullUp
  | .rail _ => none

/-! ## The commands -/

/-- ALARM (R299). -/
def execAlarm (cause : Fin 5) (s : State) : Result := .next (s.whenSup fun s => s.alarm cause.val)

/-- PFAIL (R189): under 0.5 µs ignored, from 1 µs a muster, between them free. -/
def execPfail (time low : Nat) (s : State) : Result :=
  .next (s.whenDp fun s =>
    let s := s.at time
    if !s.flag MUS.PFAIL_EN || 2 * low < usCycles then s
    else
      let (b, s) := if low < usCycles then s.freeBit else (true, s)
      if b then s.musterTrigger 1 else s)

/-- MUSTER_DONE (R190). -/
def execMusterDone (s : State) : Result := .next (s.whenDp State.musterEnd)

/-- SERVICE_OPEN (R13). -/
def execServiceOpen (s : State) : Result :=
  .next (s.whenDp fun s =>
    if !s.serviceUp && s.mayOpen then (s.put SYS.OPEN 1).raise SYS.page SYS.evSERVICE_OPENED else s)

/-- CONVERSION (R331). -/
def execConversion (time : Nat) (ch : Fin 32) (volts : BallVolts) (s : State) : Result :=
  .next (s.whenSup fun s => (s.at time).conversion ch.val (volts.code ch.val))

/-- SEQ_DELAY (R327): DELAY_MS has passed. -/
def execSeqDelay (s : State) : Result :=
  .next (s.whenSup fun s => if s.pwr.seq == .rising && s.pwr.wait == .delay then s.nextUp else s)

/-- SEQ_UP_TIMEOUT (R327). -/
def execSeqUpTimeout (s : State) : Result := .next (s.whenSup State.upTimeout)

/-- DIS_TIMEOUT (R330). -/
def execDisTimeout (s : State) : Result := .next (s.whenSup State.disTimeout)

/-- VSUP_LOW (R332). -/
def execVsupLow (s : State) : Result := .next (s.settled s.vsupFall)

/-- POWER_ON_RESET (R334, R338): VSUP has stood above 3.00 V for 1 ms. -/
def execPowerOnReset (gangId : BitVec 2) (twinPos energyEn : Bool) (s : State) : Result :=
  .next (s.settled (s.powerOn gangId.toNat twinPos energyEn !s.pwr.vsupOk))

/-- RESET_N_ASSERT (R335). -/
def execResetNAssert (low : Nat) (s : State) : Result := .next (s.whenSup fun s => s.resetAssert low)

/-- RESET_N_RELEASE (R328, R335). -/
def execResetNRelease (s : State) : Result := .next (s.whenSup State.resetRelease)

/-- CLOCK_FAIL (R339). -/
def execClockFail (time : Nat) (s : State) : Result := .next (s.whenSup fun s => (s.at time).clockFail)

/-- SYN_LOCK_RETURN (R339). -/
def execSynLockReturn (s : State) : Result := .next (s.whenSup State.lockReturn)

/-- RSTOUT_STRETCH (R337): the stretch of one output is over. -/
def execRstoutStretch (x : Fin 4) (s : State) : Result :=
  .next (s.whenSup fun s => { s with pwr := { s.pwr with rstStretch := setBit s.pwr.rstStretch x.val false } })

/-- THERMAL_READ (R340). -/
def execThermalRead (time : Nat) (readings : List Int) (s : State) : Result :=
  .next (s.whenSup fun s => (s.at time).thermal readings)

/-- THROTTLE_OFF (R341). -/
def execThrottleOff (s : State) : Result := .next (s.whenSup State.coolOff)

/-- PARKED (R343). -/
def execParked (s : State) : Result := .next (s.whenDp State.parkDone)

/-- SIGNAL_WAKE (R344). -/
def execSignalWake (port : Fin 16) (s : State) : Result :=
  .next (s.whenDp fun s => if s.flag PSQ.WAKE_SIG_EN && port.val < 16 then s.wakeSource 2 else s)

/-- AWAKE (R344). -/
def execAwake (s : State) : Result := .next (s.whenDp State.awake)

end Sys2Proof.Machine
end

