-- ==== Sys2Proof/Machine/Sha.lean ====
section
/-! DEFINITION. The image verifier's arithmetic (R358, R359): SHA-384 and ECDSA over P-384, by the published standards
that the spec names (log entry 42). -/

namespace Sys2Proof.Machine

/-! ## SHA-384 -/

/-- The round constants, rounds 0 to 19. -/
def shaK0 : List Nat :=
  [0x428A2F98D728AE22, 0x7137449123EF65CD, 0xB5C0FBCFEC4D3B2F, 0xE9B5DBA58189DBBC,
   0x3956C25BF348B538, 0x59F111F1B605D019, 0x923F82A4AF194F9B, 0xAB1C5ED5DA6D8118,
   0xD807AA98A3030242, 0x12835B0145706FBE, 0x243185BE4EE4B28C, 0x550C7DC3D5FFB4E2,
   0x72BE5D74F27B896F, 0x80DEB1FE3B1696B1, 0x9BDC06A725C71235, 0xC19BF174CF692694,
   0xE49B69C19EF14AD2, 0xEFBE4786384F25E3, 0x0FC19DC68B8CD5B5, 0x240CA1CC77AC9C65]

/-- The round constants, rounds 20 to 39. -/
def shaK1 : List Nat :=
  [0x2DE92C6F592B0275, 0x4A7484AA6EA6E483, 0x5CB0A9DCBD41FBD4, 0x76F988DA831153B5,
   0x983E5152EE66DFAB, 0xA831C66D2DB43210, 0xB00327C898FB213F, 0xBF597FC7BEEF0EE4,
   0xC6E00BF33DA88FC2, 0xD5A79147930AA725, 0x06CA6351E003826F, 0x142929670A0E6E70,
   0x27B70A8546D22FFC, 0x2E1B21385C26C926, 0x4D2C6DFC5AC42AED, 0x53380D139D95B3DF,
   0x650A73548BAF63DE, 0x766A0ABB3C77B2A8, 0x81C2C92E47EDAEE6, 0x92722C851482353B]

/-- The round constants, rounds 40 to 59. -/
def shaK2 : List Nat :=
  [0xA2BFE8A14CF10364, 0xA81A664BBC423001, 0xC24B8B70D0F89791, 0xC76C51A30654BE30,
   0xD192E819D6EF5218, 0xD69906245565A910, 0xF40E35855771202A, 0x106AA07032BBD1B8,
   0x19A4C116B8D2D0C8, 0x1E376C085141AB53, 0x2748774CDF8EEB99, 0x34B0BCB5E19B48A8,
   0x391C0CB3C5C95A63, 0x4ED8AA4AE3418ACB, 0x5B9CCA4F7763E373, 0x682E6FF3D6B2B8A3,
   0x748F82EE5DEFB2FC, 0x78A5636F43172F60, 0x84C87814A1F0AB72, 0x8CC702081A6439EC]

/-- The round constants, rounds 60 to 79. -/
def shaK3 : List Nat :=
  [0x90BEFFFA23631E28, 0xA4506CEBDE82BDE9, 0xBEF9A3F7B2C67915, 0xC67178F2E372532B,
   0xCA273ECEEA26619C, 0xD186B8C721C0C207, 0xEADA7DD6CDE0EB1E, 0xF57D4F7FEE6ED178,
   0x06F067AA72176FBA, 0x0A637DC5A2C898A6, 0x113F9804BEF90DAE, 0x1B710B35131C471B,
   0x28DB77F523047D84, 0x32CAAB7B40C72493, 0x3C9EBE0A15C9BEBC, 0x431D67C49C100D4C,
   0x4CC5D4BECB3E42B6, 0x597F299CFC657E2A, 0x5FCB6FAB3AD6FAEC, 0x6C44198C4A475817]

/-- The round constants of SHA-384. -/
def shaK : List Nat := shaK0 ++ shaK1 ++ shaK2 ++ shaK3

/-- The initial hash value of SHA-384. -/
def shaInit : List Nat :=
  [0xCBBB9D5DC1059ED8, 0x629A292A367CD507, 0x9159015A3070DD17, 0x152FECD8F70E5939,
   0x67332667FFC00B31, 0x8EB44A8768581511, 0xDB0C2E0D64F98FA7, 0x47B5481DBEFA4FA4]

/-- A 64-bit word rotated right. -/
def rotr64 (x n : Nat) : Nat := Nat.lor (x / 2 ^ n) (x * 2 ^ (64 - n) % 2 ^ 64)

/-- XOR of three words. -/
def xor3 (a b c : Nat) : Nat := Nat.xor (Nat.xor a b) c

/-- The message schedule, continued: the last 16 words, newest first, give the next. -/
def shaNext (w : List Nat) : Nat :=
  let s0 := let x := w.getD 14 0; xor3 (rotr64 x 1) (rotr64 x 8) (x / 2 ^ 7)
  let s1 := let x := w.getD 1 0; xor3 (rotr64 x 19) (rotr64 x 61) (x / 2 ^ 6)
  (w.getD 15 0 + s0 + w.getD 6 0 + s1) % 2 ^ 64

/-- One round: working variables a to h, a round constant and a schedule word. -/
def shaRound (v : List Nat) (k w : Nat) : List Nat :=
  match v with
  | [a, b, c, d, e, f, g, h] =>
    let s1 := xor3 (rotr64 e 14) (rotr64 e 18) (rotr64 e 41)
    let ch := Nat.xor (Nat.land e f) (Nat.land (Nat.xor e (2 ^ 64 - 1)) g)
    let t1 := (h + s1 + ch + k + w) % 2 ^ 64
    let s0 := xor3 (rotr64 a 28) (rotr64 a 34) (rotr64 a 39)
    let maj := xor3 (Nat.land a b) (Nat.land a c) (Nat.land b c)
    [(t1 + s0 + maj) % 2 ^ 64, a, b, c, (d + t1) % 2 ^ 64, e, f, g]
  | v => v

/-- The rounds of one block: the schedule window holds 16 words, newest first, the oldest used next. -/
def shaRounds : List Nat → List Nat → List Nat → List Nat
  | [], _, v => v
  | k :: ks, w, v => shaRounds ks (shaNext w :: w.take 15) (shaRound v k (w.getD 15 0))

/-- One block of 128 bytes into the hash value. -/
def shaBlock (h : List Nat) (bs : List Byte) : List Nat :=
  let w := (List.range 16).map fun i => fieldBE bs (8 * i) 8
  List.zipWith (fun x y => (x + y) % 2 ^ 64) h (shaRounds shaK w.reverse h)

/-- `n` blocks into the hash value. -/
def shaBlocks : Nat → List Nat → List Byte → List Nat
  | 0, h, _ => h
  | n + 1, h, bs => shaBlocks n (shaBlock h (bs.take 128)) (bs.drop 128)

/-- The SHA-384 digest of a message, 48 bytes. -/
def sha384 (m : List Byte) : List Byte :=
  let pad := (239 - m.length % 128) % 128
  let full := m ++ [0x80] ++ List.replicate pad (0 : Byte) ++ bytesBE 16 (8 * m.length)
  ((shaBlocks (full.length / 128) shaInit full).take 6).flatMap (bytesBE 8)

/-! ## ECDSA over P-384 -/

/-- The field prime of P-384. -/
def p384 : Nat := 2 ^ 384 - 2 ^ 128 - 2 ^ 96 + 2 ^ 32 - 1

/-- The order of the group. -/
def p384n : Nat := 0xFFFFFFFFFFFFFFFFFFFFFFFFFFFFFFFFFFFFFFFFFFFFFFFFC7634D81F4372DDF581A0DB248B0A77AECEC196ACCC52973

/-- The curve's coefficient b; its coefficient a is −3. -/
def p384b : Nat := 0xB3312FA7E23EE7E4988E056BE3F82D19181D9C6EFE8141120314088F5013875AC656398D8A2ED19D2A85C8EDD3EC2AEF

/-- The base point. -/
def p384g : Nat × Nat :=
  (0xAA87CA22BE8B05378EB1C71EF320AD746E1D3B628BA79B9859F741E082542A385502F25DBF55296C3A545E3872760AB7,
   0x3617DE4A96262C6F5D9E98BF9292DC29F8F41DBD289A147CE9DA3113B5F0B8C00A60B1CE1D7E819D7A431D7C90EA0E5F)

/-- A power modulo `m`, the exponent's bits given most significant first. -/
def powMod (m a : Nat) (bits : List Bool) : Nat :=
  bits.foldl (fun r b => let q := r * r % m; if b then q * a % m else q) 1

/-- The inverse modulo a prime of at most 384 bits. -/
def invMod (m a : Nat) : Nat := powMod m (a % m) (bitsMSB 384 (m - 2))

/-- A point of the curve; `none` is the point at infinity. -/
abbrev Point := Option (Nat × Nat)

/-- The sum of two points of P-384. -/
def ecAdd : Point → Point → Point
  | none, q => q
  | p, none => p
  | some (x1, y1), some (x2, y2) =>
    if x1 == x2 && (y1 + y2) % p384 == 0 then none
    else
      let l := if x1 == x2 then (3 * x1 * x1 + p384 - 3) * invMod p384 (2 * y1) % p384
        else (y2 + p384 - y1) * invMod p384 (x2 + p384 - x1) % p384
      let x := (l * l + 2 * p384 - x1 - x2) % p384
      some (x, (l * (x1 + p384 - x) + p384 - y1) % p384)

/-- A multiple of a point. -/
def ecMul (k : Nat) (p : Point) : Point :=
  (bitsMSB 384 k).foldl (fun r b => let d := ecAdd r r; if b then ecAdd d p else d) none

/-- Is (x, y) a point of the curve? -/
def onCurve (x y : Nat) : Bool :=
  x < p384 && y < p384 && y * y % p384 == (x * x * x + (p384 - 3) * x + p384b) % p384

/-- Does (r, sg) sign the digest under the public key (x, y)? -/
def ecdsaOk (x y : Nat) (digest : List Byte) (r sg : Nat) : Bool :=
  if r == 0 || p384n ≤ r || sg == 0 || p384n ≤ sg || !onCurve x y then false
  else
    let w := invMod p384n sg
    let u := natOfBE digest * w % p384n
    let v := r * w % p384n
    match ecAdd (ecMul u (some p384g)) (ecMul v (some (x, y))) with
    | none => false
    | some (x1, _) => x1 % p384n == r

end Sys2Proof.Machine
end

