-- ==== Sys2Proof/Machine/Curators.lean ====
section
/-! DEFINITION. Curators, the boot ROM and the embedded NOR (R349 to R361): image verification, boot, watchdogs and
lock-up, NOR operations and their ends, the commit of an image. -/

namespace Sys2Proof.Machine

/-! ## Images (R358, R359) -/

/-- The word of a bank at a byte offset. -/
def State.bankWordAt (s : State) (bank off : Nat) : Nat := s.norWord (norSector bank 0 + off)

/-- Bytes of a bank. -/
def State.bankBytes (s : State) (bank off n : Nat) : List Byte := s.norBytes (norSector bank 0 + off) n

/-- Is every word of the bank erased? -/
def State.bankEmpty (s : State) (bank : Nat) : Bool := !s.cur.words.any fun e => norBank e.1 == bank

/-- Does the header of the bank's image follow R358? -/
def State.headerOk (s : State) (bank : Nat) : Bool :=
  let w := s.bankWordAt bank
  let len := w 16
  w 0 == 0x4C4F4445 && w 4 == 256 && len % 4 == 0 && 256 ≤ len && len ≤ 16776704 && w 20 < len &&
    w 24 % 256 < 4 && allZero (s.bankBytes bank 25 7) && allZero (s.bankBytes bank 192 64) &&
    (List.range 8).all fun i =>
      let start := w (32 + 8 * i)
      let n := w (36 + 8 * i)
      start % 4096 == 0 && n % 4096 == 0 && (n == 0 || start + n ≤ len)

/-- Does the bank's image verify (R359)? -/
def State.imageOk (s : State) (bank : Nat) : Bool :=
  if !s.headerOk bank then false
  else
    let len := s.bankWordAt bank 16
    sha384 (s.bankBytes bank 96 96) == s.key.pubDigests.getD (s.bankWordAt bank 24 % 256) [] &&
      ecdsaOk (natOfBE (s.bankBytes bank 96 48)) (natOfBE (s.bankBytes bank 144 48)) (sha384 (s.bankBytes bank 0 len))
        (natOfBE (s.bankBytes bank len 48)) (natOfBE (s.bankBytes bank (len + 48) 48))

/-! ## Boot (R359) -/

/-- Curator 0 boots from a bank. -/
def State.bootFrom (s : State) (bank : Nat) (fallback : Bool) : State :=
  ({ s with cur := { s.cur with
    booting := false, active := bank, verified := true, recovery := false, fallback := fallback } }).raiseIf
    fallback CUR.page CUR.evFALLBACK_BOOT

/-- The end of the boot ROM's verification (R359): the selected bank, else the other one, else the recovery loader. -/
def State.bootEnd (s : State) (ms : Nat) : State :=
  if !s.mgUp || !s.cur.booting then s
  else
    let b := b2n (s.bankSelect.getD false)
    let s := s.put CUR.BOOT_MS (min 65535 ms)
    if s.imageOk b then s.bootFrom b false
    else if s.imageOk (1 - b) then s.bootFrom (1 - b) true
    else { s with cur := { s.cur with booting := false, active := b, verified := false, recovery := true } }

/-! ## Watchdogs and lock-up (R361) -/

/-- Curator `c` executes no more until the management reset that `f` records (R361). -/
def State.coreDies (s : State) (c : Nat) (f : Fld) : State :=
  { s.put f (2 ^ c) with cur := { (s.put f (2 ^ c)).cur with dead := addTo s.cur.dead c } }

/-- A curator's watchdog expires. -/
def State.watchdogEnd (s : State) (c : Fin 4) : State :=
  if !s.mgUp || !s.flag (CUR.WDT_EN c.val) then s else (s.coreDies c.val CUR.LAST_WDT).askReset 3 false

/-- A curator locks up. -/
def State.lockUp (s : State) (c : Fin 4) : State :=
  if !s.mgUp then s else (s.coreDies c.val CUR.LAST_LOCKUP).askReset 7 false

/-- WDT_KICK written (R361): the one value that restarts the count; any other is counted. -/
def State.wdtKick (s : State) (v : Nat) : State := if v == 0x0000C3A5 then s else s.inc CUR.BAD_KICKS

/-! ## Operations of the NOR page (R351 to R354) -/

/-- Is a sector closed to a curator's program or erase (R354): bank 3, bank 2 below sector 904, the bank booted? -/
def State.norFenced (s : State) (a : Nat) : Bool :=
  let b := norBank a
  b == 3 || (b == 2 && a % 2 ^ 24 / 4096 < 904) || (b == s.cur.active && s.cur.verified)

/-- NOR.OP written (R352, R354): refused, or begun. -/
def State.norOp (s : State) (path : Path) (erase : Bool) : State :=
  let a := s.get NOR.ADDR
  let b := norBank a
  if s.norFenced a then
    ((s.put NOR.RESULT 2).raise NOR.page NOR.evFENCED_EVT).fence 5 (match path with
      | .curator k => some k
      | _ => none) (0x10000000 + a)
  else if s.norBusy b || (b == 2 && !s.cur.devWait.isEmpty) then s.put NOR.RESULT 3
  else if !erase && s.norWord a != norErased then
    ((s.put NOR.RESULT 1).inc NOR.NOT_ERASED).raise NOR.page NOR.evNOT_ERASED_EVT
  else s.norBegin b [{ erase := erase, addr := a, data := s.get NOR.DATA }]

/-- Operations that a bank still has to do begun where it is idle; none while a reset or a muster waits (R356). -/
def State.norResume (s : State) : State :=
  if !s.cur.waits.isEmpty then s
  else (List.range 4).foldl (fun s b =>
    if s.norBusy b then s
    else
      let (bad, s) := s.norNext b (mgetD s.cur.todo b [])
      if bad then s.fwEnd 0x09 else s) s

/-- The erase of the Census store is complete (R376): the held records are written from slot 0. -/
def State.clearDone (s : State) : State :=
  let rs := s.cen.clearAnswer
  let s := { s with cen := { s.cen with clearing := false, nextSlot := 0, newest := none, full := false, clearAnswer := [] } }
  let s := rs.foldl (fun s r => s.adminAnswer r r.epoch 0 []) s
  s.writeHeld.raise CEN.page CEN.evCLEAR_DONE

/-- Blob records are erased with the marks, and every instance is unloaded (R290, KS_FORMAT). -/
def State.formatKeys (s : State) : State :=
  let s := s.tableErase 72 647
  { s with key := { s.key with records := [], marks := [], marking := [], inst := [], heldFormat := false } }

/-- Bank 2 is free again: the record, the format and the answer that waited for it (R288, R289, R356). -/
def State.keyNorFree (s : State) : State :=
  let s := match s.key.heldRec with
    | some c => ({ s with key := { s.key with heldRec := none } }).applyRec c
    | none => s
  let s := if s.key.heldFormat then s.formatKeys else s
  match s.key.heldAns with
  | none => s
  | some (r, ans) =>
    let s := { s with key := { s.key with heldAns := none } }
    (s.adm0Answer r 0 ans).raiseIf (fieldBE r.payload 0 1 % 4 == 0) KST.page KST.evKEY_LOADED

/-- What an owner does when the last of its operations in a bank has ended. -/
def State.norOwnerDone (s : State) (o : NorBy) : State :=
  match o with
  | .curator => s
  | .firmware => s.fwEnd 0
  | .census => s.clearDone

/-- The end of a commit with its status (R108, R360): COMMIT_RESULT and the event, then R108's answer and its ACTION. -/
def State.commitEnd (s : State) (byFirmware : Bool) (st : Nat) : State :=
  let s := { s with cur := { s.cur with verifying := none, selecting := false } }
  let s := (s.put NOR.COMMIT_RESULT st).raiseIf (st == 0) NOR.page NOR.evCOMMIT_DONE
  let s := s.raiseIf (st == 0x10) NOR.page NOR.evCOMMIT_FAIL
  if !byFirmware then State.fwPump s.cur.fw.length s
  else
    let action := match s.cur.fw with
      | r :: _ => fieldBE r.payload 0 1
      | [] => 0
    let s := s.fwEnd st
    if st == 0 && action == 1 then s.askReset 4 false else State.fwPump s.cur.fw.length s

/-- The bank-select record that waited is programmed: its commit ends. -/
def State.selectDone (s : State) : State :=
  match s.cur.verifying with
  | some (_, byFirmware) => if s.cur.selecting then s.commitEnd byFirmware 0 else s
  | none => s

/-- A NOR operation ends (R352, R353, R356): its result, what the device itself waits to do in bank 2, what waits for the
NOR, and what its owner does next. -/
def State.norOpDone (s : State) (bank : Nat) : State :=
  match mget s.cur.busy bank with
  | none => s
  | some op =>
    let s := s.norApply op
    let s := { s with cur := { s.cur with busy := mdel s.cur.busy bank } }
    let s := if op.owner == .curator then (s.put NOR.RESULT 0).raise NOR.page NOR.evOP_DONE
      else if op.owner == .firmware then s.dlDone op else s
    let s := if bank == 2 then (s.keyNorFree.devNorDrain).selectDone.consumedDone.checkArmed else s
    let s := if (mgetD s.cur.todo bank []).isEmpty then s.norOwnerDone op.owner else s
    let s := s.norWaits.norResume
    State.fwPump s.cur.fw.length s

/-! ## The commit of an image (R108, R360) -/

/-- NOR.COMMIT_REQ written: the boot ROM's verifier starts, unless it runs. R360 speaks of the inactive bank alone; a request that
names the active one is treated in the same way (log entry 44). -/
def State.commitReq (s : State) (bank : Bool) : State :=
  if s.cur.verifying.isSome then s else { s with cur := { s.cur with verifying := some (b2n bank, false) } }

/-- The verifier ends (R360): it reads the bank once no operation is in flight there (R352), and the record is programmed only if
the image passes. The commit ends when it is: at once, or once bank 2 is free (R356). -/
def State.commitDone (s : State) : State :=
  match s.cur.verifying with
  | none => s
  | some (bank, byFirmware) =>
    if !s.mgUp || s.cur.selecting then s
    else
      let v := s.norStalled bank
      let s := s.countStall bank
      if v.bankEmpty bank then s.commitEnd byFirmware 0x02
      else if !v.imageOk bank then s.commitEnd byFirmware 0x10
      else
        let wait := s.norBusy 2
        let s := s.selectBank (bank == 1)
        if wait then { s with cur := { s.cur with selecting := true } } else s.commitEnd byFirmware 0

/-! ## The commands -/

/-- WATCHDOG (R361). -/
def execWatchdog (c : Fin 4) (s : State) : Result := .next (s.whenSup fun s => s.watchdogEnd c)

/-- LOCKUP (R361). -/
def execLockup (c : Fin 4) (s : State) : Result := .next (s.whenSup fun s => s.lockUp c)

/-- BOOT_VERIFY (R359). -/
def execBootVerify (ms : Nat) (s : State) : Result := .next (s.whenSup fun s => s.bootEnd ms)

/-- NOR_OP_DONE (R353). -/
def execNorOpDone (bank : Fin 4) (s : State) : Result := .next (s.whenSup fun s => s.norOpDone bank.val)

/-- COMMIT_DONE (R360). -/
def execCommitDone (s : State) : Result := .next (s.whenSup State.commitDone)

end Sys2Proof.Machine
end

