-- ==== Sys2Proof/Machine/KeyOps.lean ====
section
/-! DEFINITION. Key commands and what happens to keys (R286 to R300): LOAD, UNLOAD and QUERY, marks programmed, alarms, the
entropy source, the format of the key store and the storage key. -/

namespace Sys2Proof.Machine

/-! ## KEY LOAD (R286, R288) -/

/-- The answer of KEY LOAD for an instance (R286): the first fields as sent, KEK_INST as loaded, POLICY, COUNTER and
MARK. -/
def State.keyAnswer (s : State) (p : List Byte) (n : Nat) (k : KeyInst) : List Byte :=
  slice p 0 8 ++ bytesBE 4 k.kek ++ slice p 12 4 ++ bytesBE 8 k.policy ++ bytesBE 8 k.counter ++
    bytesBE 8 (s.keyMark n) ++ List.replicate 88 (0 : Byte)

/-- Are the reserved fields of a KEY LOAD payload 0, and is its ACTION one of the three (R286)? -/
def keyFieldsOk (p : List Byte) : Bool :=
  let a := fieldBE p 0 1
  let len := fieldBE p 12 2
  a / 8 == 0 && a % 4 != 3 && allZero (slice p 1 3) && allZero (slice p 14 2) &&
    (if a % 4 == 0 then 112 < len || allZero (p.drop (16 + len)) else len == 0 && allZero (p.drop 16))

/-- May the instance be unloaded (R288)? -/
def State.unloadOk (s : State) (n : Nat) : Bool :=
  (s.keyInst n).isSome && !s.keyInUse n && !s.key.inst.any fun e => e.2.kek == n && e.1 != n

/-- A KEY LOAD command (R286, R288): its status and answer, or no status while the answer waits for a NOR program in bank 2
(R288, R289). -/
def State.keyCommand (s : State) (r : Req) : Option (Nat × List Byte) × State :=
  let p := r.payload
  let n := fieldBE p 4 4
  let action := fieldBE p 0 1 % 4
  if !keyFieldsOk p then (some (0x02, []), s)
  else if action == 0 then
    let kek := fieldBE p 8 4
    let len := fieldBE p 12 2
    let pad := bitOf (fieldBE p 0 1) 2
    let (st, k) := s.loadJudge n kek len pad (slice p 16 len)
    let unwraps := s.loadUnwraps n kek len
    if unwraps && (s.chanWaits 18 || s.keyWaits kek) then (none, { s with key := { s.key with haltLoad := some r } })
    else
    let s := if unwraps then s.unwrapMsg kek len (st == 0x10) else s
    match (st, k) with
    | (0, some k) =>
      let busy := s.norBusy 2
      let s := (s.keyRec (.inl { inst := n, kek := kek, pad := pad, blob := slice p 16 len })).installKey n k
      let ans := s.keyAnswer p n (mgetD s.key.inst n k)
      if busy then (none, { s with key := { s.key with heldAns := some (r, ans) } })
      else (some (0, ans), s.raise KST.page KST.evKEY_LOADED)
    | (st, _) => (some (st, []), s)
  else if action == 1 then
    if !s.unloadOk n then (some (0x02, []), s)
    else
      let busy := s.norBusy 2
      let ans := s.keyAnswer p n (mgetD s.key.inst n {})
      let s := (s.eraseKey n).keyRec (.inr n)
      if busy then (none, { s with key := { s.key with heldAns := some (r, ans) } }) else (some (0, ans), s)
  else match s.keyInst n with
    | none => (some (0x02, []), s)
    | some k => (some (0, s.keyAnswer p n k), s)

/-! ## What waits for keys -/

/-- A key has come or gone: the adit link, what waits to be sent, and readiness to muster (R154, R200, R290). -/
def State.keysChanged (s : State) : State := s.checkAdit.flushWaiting.checkArmed

/-! ## Alarms and entropy (R297, R299) -/

/-- The DRBG halts every channel (R297). -/
def State.drbgHalt (s : State) : State :=
  ({ s with key := { s.key with halted := true, seeded := false } }).raise CPH.page CPH.evDRBG_HALT

/-- The command of queue 0 that waited for a channel or a mark executed (R290, R297). -/
def State.runHalted (s : State) (r : Req) : State :=
  if r.op == 0x2B then match s.keyCommand r with
    | (some (st, data), s) => (s.adm0Answer r st data).keysChanged
    | (none, s) => s.keysChanged
  else if s.recordWaits r then { s with key := { s.key with haltLoad := some r } }
  else match s.commitAdmin { r with epoch := s.ep.num } s.ep.num s.cal.sec with
    | (d, s) => if d.later then s else s.adm0Answer { r with epoch := s.ep.num } d.status d.data

/-- Channels work again, or an instance has its mark: the messages that waited for them, in their order. -/
def State.chansResume (s : State) : State :=
  let adit := s.key.haltAdit
  let rx := s.key.haltRx
  let pages := s.key.haltPages
  let load := s.key.haltLoad
  let s := { s with key := { s.key with haltAdit := [], haltRx := [], haltPages := [], haltLoad := none } }
  let s := s.keysChanged
  let s := adit.foldl (fun s e => s.aditFrame e.1 e.2) s
  let s := rx.foldl (fun s e => s.pipeline e.2.1 e.1 true e.2.2) s
  let s := pages.foldl (fun s p => if s.pageWanted p.extent p.page.val then s.finishPage p true else s) s
  match load with
  | none => s
  | some r => s.runHalted r

/-- MARK_PROGRAMMED (R290): the oldest mark being programmed, once bank 2 is free. -/
def State.markProgrammed (s : State) : State :=
  match s.key.marking with
  | [] => s
  | (n, v) :: rest =>
    if s.norBusy 2 then s
    else (({ s with key := { s.key with marking := rest } }).markDone n v).chansResume

/-- A reseed succeeds (R297): fresh entropy, no request since, and the channels resume. -/
def State.reseeded (s : State) : State :=
  let past := s.key.drbgPast ++ [(s.key.drbgSeed, s.key.drbgReqs)]
  let s := { s with
    free := s.free + 1
    key := { s.key with
      halted := false, seeded := true, entOk := true, drbgPast := past, drbgSeed := s.free, drbgReqs := 0 } }
  (s.inc CPH.DRBG_RESEEDS).chansResume

/-! ## KST and CPH writes (R290, R296) -/

/-- KS_FORMAT written 1: ignored while an instance is in use. -/
def State.ksFormat (s : State) : State :=
  if s.key.inst.any fun e => s.keyInUse e.1 then s.raise KST.page KST.evFORMAT_REJECT
  else if s.norBusy 2 then { s with key := { s.key with heldFormat := true } }
  else s.formatKeys

/-- STORE_KEY written (R296): taken only while MUS.STATE is UNREADY. -/
def State.writeStoreKey (s : State) (v : Nat) : State :=
  if s.mus.state != .unready then s.raise CPH.page CPH.evSTORE_KEY_REJECT
  else ({ s.put CPH.STORE_KEY v with key := { s.key with storeKeyNor := v } }).checkArmed

/-! ## The commands -/

/-- MARK_PROGRAMMED (R290). -/
def execMarkProgrammed (s : State) : Result := .next (s.whenDp State.markProgrammed)

/-- ENT_FAIL (R297). -/
def execEntFail (s : State) : Result :=
  .next (s.whenDp fun s => ({ s with key := { s.key with entOk := false } }).raise CPH.page CPH.evENT_FAIL)

/-- DRBG_HALT (R297). -/
def execDrbgHalt (s : State) : Result := .next (s.whenDp State.drbgHalt)

/-- RESEED_DONE (R297). -/
def execReseedDone (s : State) : Result := .next (s.whenDp State.reseeded)

end Sys2Proof.Machine
end

