-- ==== Sys2Proof/Machine/Requests.lean ====
section
/-! DEFINITION. What hosts and the board controller send: host frames and links (R38 to R44, R103, R428), the requests of
the opcode table (R83), and queue 0 (R80, R82). -/

namespace Sys2Proof.Machine

/-! ## Host links (R38, R41, R72, R103) -/

/-- How many links a port has in its mode (R38). -/
def State.portLinks (s : State) (p : Nat) : Nat := 2 ^ s.get (HP.MODE p)

/-- A sub-link comes up (R103): one that the mode uses, of a port whose page is enabled (R401). -/
def State.hostUp (s : State) (l : HostLink) : State :=
  let p := l.port.val
  let k := l.sub.val
  if !s.flag (HDR.ENABLE (HP.page p)) || s.portLinks p ≤ k || bitOf (s.get (HP.LINK_UP p)) k || !bitOf s.clk.srdLock (p / 4) then s
  else
    let s := ((s.setb (HP.LINK_UP p) k true).setb (HP.HI_BER p) k false).raise (HP.page p) HP.evLINK_UP_EVT
    ({ s with q := { s.q with refigure := true } }).flushWaiting

/-- A sub-link loses link (R103): what waits for it is discarded (R44). -/
def State.hostDown (s : State) (l : HostLink) : State :=
  let p := l.port.val
  let k := l.sub.val
  if !bitOf (s.get (HP.LINK_UP p)) k then s
  else
    let s := (s.setb (HP.LINK_UP p) k false).raise (HP.page p) HP.evLINK_DOWN
    ({ s with q := { s.q with refigure := true } }).flushWaiting

/-- Every link of a port down. -/
def State.portDown (s : State) (n : Nat) : State :=
  if h : n < 16 then (List.finRange 8).foldl (fun s k => s.hostDown ⟨⟨n, h⟩, k⟩) s else s

/-- The rate of a link in Gb/s (R38). -/
def State.linkRate (s : State) (p : Nat) : Nat := 1600 / s.portLinks p

/-- A PFC frame (R41): each enabled priority is paused for its time, in units of 512 bit times, or resumed by a time of 0. -/
def State.pfcFrame (s : State) (l : HostLink) (enable : Nat) (quanta : List Nat) : State :=
  let p := l.port.val
  if !s.linkUp l then s
  else
    let s := s.inc (HP.PFC_RX p)
    if !s.flag (HP.PFC_EN p) then s
    else
      let s := (List.range 8).foldl (fun s i =>
        if bitOf enable i && bitOf (s.get (HP.PFC_PRIO p)) i then
          let k := linkNo l * 8 + i
          let cycles := ceilDiv (quanta.getD i 0 * 4096) (5 * s.linkRate p)
          let m := if cycles == 0 then mdel s.net.paused k else mput s.net.paused k (s.now + cycles)
          { s with net := { s.net with paused := m } }
        else s) s
      s.flushWaiting

/-- An ARP request or a neighbour solicitation for the link's own address is answered (R39); one for another address gets
nothing and is no frame dropped under R39 (log entry 62). -/
def State.resolve (s : State) (f : EthFrame) (target : BitVec 128) (v6 : Bool) : State :=
  let p := f.link.port.val
  let f := { f with ip6 := v6 }
  let s := s.at f.time
  if !s.linkUp f.link then s
  else if !f.fcsOk then (s.frameIn f).inc (HP.RX_FCS_ERR p)
  else
    let s := (s.frameIn f).inc (HP.RX_FRAMES p)
    if s.frameBad f then s.inc (XPT.RX_DROP p)
    else if target.toNat != (if v6 then s.linkIp6 f.link else s.get (XPT.IPV4 p f.link.sub.val)) then s
    else
      let mac := BitVec.ofNat 48 (s.linkMac f.link)
      let head := s.frameHead f.link f.srcMac v6 f.srcIp (s.ownTag f.link)
      (s.inc (HP.TX_FRAMES p)).send (if v6 then .neighbour f.link mac target head else .arp f.link mac target head)

/-! ## Queue 0 (R80, R82) -/

/-- A request on queue 0 executed at receipt (R80): steps 10 and 11, then the command; a command whose answer comes later
leaves BUSY set. -/
def State.runQueue0 (s : State) (r : Req) : State :=
  match s.step10 r 0 with
  | some st => s.adm0Nak r st
  | none =>
    if r.op == 0x2B then
      match s.keyCommand r with
      | (some (st, data), s) => (s.adm0Answer r st data).keysChanged
      | (none, s) => s.keysChanged
    else if readOnly r.op r.payload then
      let (st, data) := s.adminRead r
      (s.adminStalls r st).adm0Answer r st data
    else s.runHalted r

/-- QMG.ADM0_DOORBELL written 1 (R82): the request in the buffer is submitted, unless one is in progress. -/
def State.doorbell (s : State) : State :=
  if s.q.adm0Busy then s.raise QMG.page QMG.evADM0_OVERRUN
  else
    let s := { s with q := { s.q with adm0Busy := true, adm0Done := false } }
    let (h, op) := parseReq (s.getRegion1 0 32)
    let h := { h with qid := 0 }
    let n := min (payloadLen op h.count) 16352
    s.runQueue0 { hdr := h, op := op, payload := s.getRegion1 32 n, time := s.now, epoch := s.ep.num, arrived := s.ep.num }

/-- ADM0_DOORBELL (R82): bytes written into the request buffer through the PCIe endpoint, then the doorbell. -/
def State.adm0Submit (s : State) (path : Path) (request : List Byte) : State :=
  let s := if path == .pcie && s.flag PCE.LINK_UP then s.setRegion1 0 (request.take 16384) else s
  s.doorbell

/-- A KEY LOAD on queue 0 with its ACTION (R286): header and payload written into the request buffer, then the doorbell. -/
def State.keyRequest (s : State) (action : Nat) (payload : List Byte) : State :=
  let p := match slice payload 0 128 with
    | b :: rest => BitVec.ofNat 8 (setBits b.toNat 0 2 action) :: rest
    | [] => []
  (s.setRegion1 0 (encodeReq {} 0x2B ++ p)).doorbell

/-! ## Rows of one opcode -/

/-- A datagram whose payload holds the ACTION of its row in its first byte (R112, R115). -/
def withAction (d : Dgram) (action : Nat) : Dgram :=
  { d with payload := match d.payload with
      | _ :: rest => BitVec.ofNat 8 action :: rest
      | [] => [] }

/-! ## The commands -/

/-- HOST_FRAME_DROP (R428). -/
def execHostFrameDrop (d : Dgram) (s : State) : Result := .next (s.ingress d 0)

/-- ARP_REQUEST (R39). -/
def execArpRequest (f : EthFrame) (target : BitVec 128) (s : State) : Result :=
  .next (s.whenDp fun s => s.resolve f target false)

/-- NEIGHBOR_SOLICITATION (R39). -/
def execNeighborSolicitation (f : EthFrame) (target : BitVec 128) (s : State) : Result :=
  .next (s.whenDp fun s => s.resolve f target true)

/-- PFC_FRAME (R41). -/
def execPfcFrame (link : HostLink) (enable : BitVec 8) (quanta : List Nat) (s : State) : Result :=
  .next (s.whenDp fun s => s.pfcFrame link enable.toNat quanta)

/-- PFC_HELD (R72). -/
def execPfcHeld (link : HostLink) (prio : Fin 8) (s : State) : Result :=
  .next (s.whenDp fun s => s.raiseIf (s.linkUp link && bitOf (s.get (HP.PFC_PRIO link.port.val)) prio.val)
    (HP.page link.port.val) HP.evPFC_HELD)

/-- HI_BER (R72). -/
def execHiBer (link : HostLink) (s : State) : Result :=
  .next (s.whenDp fun s =>
    (s.setb (HP.HI_BER link.port.val) link.sub.val true).raise (HP.page link.port.val) HP.evHI_BER_EVT)

/-- ADM0_DOORBELL (R82). -/
def execAdm0Doorbell (path : Path) (time : Nat) (request : List Byte) (s : State) : Result :=
  .next (s.whenDp fun s => (s.at time).adm0Submit path request)

/-- READ (R83, R90). -/
def execRead (d : Dgram) (s : State) : Result := .next (s.ingress d 0x01)

/-- WRITE (R83). -/
def execWrite (d : Dgram) (s : State) : Result := .next (s.ingress d 0x02)

/-- CAS8 (R83). -/
def execCas8 (d : Dgram) (s : State) : Result := .next (s.ingress d 0x03)

/-- CAS16 (R83). -/
def execCas16 (d : Dgram) (s : State) : Result := .next (s.ingress d 0x04)

/-- FADD8 (R83). -/
def execFadd8 (d : Dgram) (s : State) : Result := .next (s.ingress d 0x05)

/-- FLUSH (R83, R128). -/
def execFlush (d : Dgram) (s : State) : Result := .next (s.ingress d 0x06)

/-- SECTOR READ (R83). -/
def execSectorRead (d : Dgram) (s : State) : Result := .next (s.ingress d 0x08)

/-- SECTOR WRITE (R83). -/
def execSectorWrite (d : Dgram) (s : State) : Result := .next (s.ingress d 0x09)

/-- DISCARD (R83). -/
def execDiscard (d : Dgram) (s : State) : Result := .next (s.ingress d 0x0A)

/-- APPEND (R83). -/
def execAppend (d : Dgram) (s : State) : Result := .next (s.ingress d 0x10)

/-- SEAL (R83). -/
def execSeal (d : Dgram) (s : State) : Result := .next (s.ingress d 0x11)

/-- RECORD READ (R83). -/
def execRecordRead (d : Dgram) (s : State) : Result := .next (s.ingress d 0x12)

/-- IDENTIFY (R83, R104). -/
def execIdentify (d : Dgram) (s : State) : Result := .next (s.ingress d 0x20)

/-- GET LOG PAGE (R83, R105). -/
def execGetLogPage (d : Dgram) (s : State) : Result := .next (s.ingress d 0x21)

/-- GET FEATURE (R83, R106). -/
def execGetFeature (d : Dgram) (s : State) : Result := .next (s.ingress d 0x22)

/-- SET FEATURE (R83, R106). -/
def execSetFeature (d : Dgram) (s : State) : Result := .next (s.ingress d 0x23)

/-- FIRMWARE DOWNLOAD (R83, R107). -/
def execFirmwareDownload (d : Dgram) (s : State) : Result := .next (s.ingress d 0x24)

/-- FIRMWARE COMMIT (R83, R108). -/
def execFirmwareCommit (d : Dgram) (s : State) : Result := .next (s.ingress d 0x25)

/-- QUEUE CREATE (R83, R109). -/
def execQueueCreate (d : Dgram) (s : State) : Result := .next (s.ingress d 0x26)

/-- QUEUE DELETE (R83, R109). -/
def execQueueDelete (d : Dgram) (s : State) : Result := .next (s.ingress d 0x27)

/-- QUEUE RESTART (R83, R109). -/
def execQueueRestart (d : Dgram) (s : State) : Result := .next (s.ingress d 0x28)

/-- CENSUS READ (R83, R375). -/
def execCensusRead (d : Dgram) (s : State) : Result := .next (s.ingress d 0x2C)

/-- CENSUS CLEAR (R83, R376). -/
def execCensusClear (d : Dgram) (s : State) : Result := .next (s.ingress d 0x2D)

/-- CLOCK SET (R83, R379). -/
def execClockSet (d : Dgram) (s : State) : Result := .next (s.ingress d 0x2E)

/-- MUSTER (R83, R198). -/
def execMuster (d : Dgram) (s : State) : Result := .next (s.ingress d 0x2F)

/-- DOMAIN MANAGE, CREATE (R112). -/
def execDomainCreate (d : Dgram) (s : State) : Result := .next (s.ingress (withAction d 0) 0x29)

/-- DOMAIN MANAGE, DELETE (R112). -/
def execDomainDelete (d : Dgram) (s : State) : Result := .next (s.ingress (withAction d 1) 0x29)

/-- DOMAIN MANAGE, SET QUOTA (R112). -/
def execSetQuota (d : Dgram) (s : State) : Result := .next (s.ingress (withAction d 2) 0x29)

/-- DOMAIN MANAGE, QUERY (R112). -/
def execDomainQuery (d : Dgram) (s : State) : Result := .next (s.ingress (withAction d 3) 0x29)

/-- WINDOW MANAGE, OPEN (R116). -/
def execOpenWindow (d : Dgram) (s : State) : Result := .next (s.ingress (withAction d 0) 0x2A)

/-- WINDOW MANAGE, REVOKE (R118). -/
def execRevoke (d : Dgram) (s : State) : Result := .next (s.ingress (withAction d 1) 0x2A)

/-- WINDOW MANAGE, MODIFY (R117). -/
def execModify (d : Dgram) (s : State) : Result := .next (s.ingress (withAction d 2) 0x2A)

/-- WINDOW MANAGE, CLOSE (R118). -/
def execClose (d : Dgram) (s : State) : Result := .next (s.ingress (withAction d 3) 0x2A)

/-- WINDOW MANAGE, QUERY (R115). -/
def execWindowQuery (d : Dgram) (s : State) : Result := .next (s.ingress (withAction d 4) 0x2A)

/-- KEY LOAD, LOAD (R286, R288). -/
def execLoad (payload : List Byte) (s : State) : Result :=
  .next (s.whenDp fun s => s.keyRequest 0 payload)

/-- KEY LOAD, UNLOAD (R286, R288). -/
def execUnload (payload : List Byte) (s : State) : Result :=
  .next (s.whenDp fun s => s.keyRequest 1 payload)

/-- KEY LOAD, QUERY (R286, R288). -/
def execKeyQuery (payload : List Byte) (s : State) : Result :=
  .next (s.whenDp fun s => s.keyRequest 2 payload)

/-- INVALID_OPCODE (R83). -/
def execInvalidOpcode (d : Dgram) (op : BitVec 6) (s : State) : Result := .next (s.ingress d op.toNat)

end Sys2Proof.Machine
end

