-- ==== Sys2Proof/Machine/Calendar.lean ====
section
/-! DEFINITION. What the calendar and the Census recorder do at their own times (R370, R372, R377 to R379). -/

namespace Sys2Proof.Machine

/-- A second passes (R377): CAL_SEC counts, and stops at the end of the range. A record that waited for a SUMMARY that did not
come is written. -/
def State.calendarTick (s : State) : State :=
  if s.cal.ended then s
  else if calLast ≤ s.cal.sec then
    ({ s with cal := { s.cal with ended := true } }).raise RTC.page RTC.evCAL_END_EVT
  else
    let t := s.cal.tickAt + secCycles
    (({ s with cal := { s.cal with sec := s.cal.sec + 1, tickAt := t } }).at t).writeHeld

/-- Time lost (R378): the calendar restarts, not valid, with OSC_FAIL set; the period in progress counts from there (log entry
75). -/
def State.calendarLost (s : State) : State :=
  let s := { s with cal := { tickAt := s.now, lost := !s.pwr.vsupOk }, cen := { s.cen with start := 0 } }
  if s.pwr.vsupOk then (s.put RTC.OSC_FAIL 1).raise RTC.page RTC.evOSC_FAIL_EVT else s

/-- A summary period closes (R370) once CAL_SEC has reached a multiple of its length. -/
def State.summary (s : State) : State := if s.periodDue then s.closePeriod false else s

/-- A code's bucket gains a token (R372). -/
def State.censusToken (s : State) (code : Nat) : State :=
  let t := min 4 (mgetD s.cen.tokens code 4 + 1)
  { s with cen := { s.cen with tokens := mset 4 s.cen.tokens code t } }

/-- RTC.APPLY written 1 (R379): SET_TIME and SET_DATE in the bits of 0x020 and 0x024; ignored from a curator. -/
def State.calApply (s : State) (path : Path) : State :=
  match path with
  | .curator _ => s
  | _ =>
    let t := s.get RTC.SET_TIME
    let d := s.get RTC.SET_DATE
    (s.calSet (2000 + bitsOf d 16 9) (bitsOf d 8 4) (bitsOf d 0 5) (bitsOf t 16 5) (bitsOf t 8 6) (bitsOf t 0 6)).2

/-! ## The commands -/

/-- SUMMARY (R370). -/
def execSummary (s : State) : Result := .next (s.whenSup State.summary)

/-- CENSUS_TOKEN (R372). -/
def execCensusToken (code : Fin 16) (s : State) : Result := .next (s.whenSup fun s => s.censusToken code.val)

/-- CALENDAR_TICK (R377). -/
def execCalendarTick (s : State) : Result := .next (s.settled s.calendarTick)

/-- OSC_FAIL (R378). -/
def execOscFail (s : State) : Result := .next (s.settled s.calendarLost)

end Sys2Proof.Machine
end

