-- ==== Sys2Proof/Machine/Vitrine.lean ====
section
/-! DEFINITION. Vitrine, the JTAG port and Canary (R382 to R393). -/

namespace Sys2Proof.Machine

/-! ## Vitrine and the TAP (R382 to R390) -/

/-- VITRINE_N low (R382): under 1 µs ignored, from 2 µs honoured, between them free. -/
def State.vitrinePin (s : State) (low : Nat) : State :=
  if low < usCycles then s
  else
    let (b, s) := if low < 2 * usCycles then s.freeBit else (true, s)
    if b then s.enterVitrine 1 else s

/-- The instruction register at a code. -/
def State.setIr (s : State) (code : Nat) : State := { s with vit := { s.vit with ir := code, drive := .device, pulsing := false } }

/-- An instruction that acts as BYPASS: one bit, captured as 0. -/
def State.asBypass (s : State) (code : Nat) : State := (s.setIr code).send (.tdo 1 0)

/-- May the instructions of R390 act: in Vitrine, or while RESET_N holds the datapath in reset? -/
def State.pinTest (s : State) : Bool := s.vit.frozen || s.pwr.resetN

/-- Who drives the output pins: the boundary register only while R390 lets it. -/
def State.pinsBy (s : State) : PinDrive := if s.pinTest then s.vit.drive else .device

/-- An instruction of R390: it drives the pins, or acts as BYPASS. -/
def State.pinInstr (s : State) (code : Nat) (drive : PinDrive) (pulsing bsr : Bool) : State :=
  if !s.pinTest then s.asBypass code
  else
    let s := { s with vit := { s.vit with ir := code, drive := drive, pulsing := pulsing } }
    if bsr then s.send (.tdo Config.boundaryLength s.vit.bsr) else s.send (.tdo 1 0)

/-- VITRINE (R382): refused while JTAG_LOCK is set. -/
def State.vitrineInstr (s : State) : State :=
  let s := s.asBypass 0x20
  if s.flag VIT.JTAG_LOCK then s.raise VIT.page VIT.evJTAG_REFUSED else s.enterVitrine 2

/-- SAMPLE/PRELOAD (R389): the pins as sampled shift out, the preload shifts in. -/
def State.samplePreload (s : State) (pins preload : Nat) : State :=
  let s := s.setIr 0x02
  ({ s with vit := { s.vit with bsr := preload % 2 ^ Config.boundaryLength } }).send
    (.tdo Config.boundaryLength (pins % 2 ^ Config.boundaryLength))

/-- A chain's length (R387): 0 for a reserved page and for an unassigned chain. -/
def chainLen (c : Nat) : Nat :=
  if (0x04 ≤ c && c ≤ 0xE1 && (pageBase c).isSome) || (0xF0 ≤ c && c ≤ 0xF3) then Config.chainLength c else 0

/-- `n` bits of a chain shifted out, recirculating (R387): zeros outside Vitrine or of a chain of length 0. -/
def State.scanOut (s : State) (n : Nat) : Nat :=
  let len := chainLen s.vit.chain
  if !s.vit.frozen || len == 0 then 0
  else
    let v := Config.chainContent (s.get VIT.ENTRIES) s.vit.chain
    ((List.range n).filter fun i => bitOf v (i % len)).foldl (fun a i => a + 2 ^ i) 0

/-- VIT.STATUS. -/
def State.vitStatus (s : State) : Nat := b2n s.vit.frozen + 2 * s.get VIT.CAUSE + 8 * s.get VIT.DEFERRED

/-- DBG_RESET (R388, R389): 0b01 the management domain, ignored while FROZEN; 0b11 both. -/
def State.dbgReset (s : State) (v : Nat) : State :=
  let s := s.setIr 0x24
  if s.heldInReset then s
  else if v == 1 && !s.vit.frozen then s.askReset 5 false
  else if v == 3 then s.askReset 5 true
  else s

/-- The codes of R389 other than BYPASS's own. -/
def irAssigned (c : Nat) : Bool := (1 ≤ c && c ≤ 7) || (0x20 ≤ c && c ≤ 0x25)

/-! ## Canary (R391 to R393) -/

/-- Is an event one that counts under a code of R366 marked for an out-of-cycle record (log entry 45)? -/
def injMarked (page bit : Nat) : Bool :=
  (page == PSQ.page && (bit == PSQ.evRAIL_OUT || bit == PSQ.evDIS_LATE_EVT)) || (page == CEL.page && bit == CEL.evPOISON) ||
    (page == PAR.page && (bit == PAR.evSECTOR_LOST || bit == PAR.evDIE_FAILED_EVT)) || (page == FEN.page && bit < 6) ||
    (page == ACC.page && bit == ACC.evCLOCK_STEP) || (page == RTC.page && bit == RTC.evSET_DONE) ||
    (page == CMT.page && bit == CMT.evTWIN_LOST) || (page == MUS.page && bit == MUS.evMUSTER_START) ||
    (page == CLK.page && bit == CLK.evLOCK_LOST)

/-- An injection at a point (R392): the EVT_RAW bit and the counts, and nothing of the device's own actions. A reserved bit
is counted only. -/
def State.inject (s : State) (page point : Nat) : State :=
  let known := point < pageEvents page
  let s := if known then s.raise page point else s
  let s := ((s.inc VIT.CANARY_COUNT).put VIT.LAST_INJ (page + 256 * point)).censusInjected (known && injMarked page point)
  s.raiseIf known VIT.page VIT.evCANARY_FIRED

/-- A write of a page's CANARY register (R391): POINT, then FIRE; refused without the arm or the unlock. -/
def State.canaryWrite (s : State) (page v : Nat) : State :=
  if !s.flag SYS.CANARY_ARM || !s.flag (HDR.EXPERT page) then
    (s.inc VIT.CANARY_REFUSED).raise VIT.page VIT.evCANARY_REFUSED_EVT
  else
    let s := s.put (HDR.POINT page) (bitsOf v 0 5)
    if bitOf v 8 && !s.vit.frozen && !s.flag (HDR.IN_RESET page) then s.inject page (bitsOf v 0 5) else s

/-! ## The commands -/

/-- VITRINE_N (R382). -/
def execVitrineN (low : Nat) (s : State) : Result := .next (s.whenSup fun s => s.vitrinePin low)

/-- VITRINE (R382). -/
def execVitrine (s : State) : Result := .next (s.whenSup State.vitrineInstr)

/-- IDCODE (R389). -/
def execIdcode (s : State) : Result := .next (s.whenSup fun s => (s.setIr 0x01).send (.tdo 32 0x1964056B))

/-- SAMPLE/PRELOAD (R389). -/
def execSamplePreload (pins preload : Nat) (s : State) : Result := .next (s.whenSup fun s => s.samplePreload pins preload)

/-- EXTEST (R390). -/
def execExtest (s : State) : Result := .next (s.whenSup fun s => s.pinInstr 0x03 .boundary false true)

/-- CLAMP (R390). -/
def execClamp (s : State) : Result := .next (s.whenSup fun s => s.pinInstr 0x04 .clamped false false)

/-- HIGHZ (R390). -/
def execHighz (s : State) : Result := .next (s.whenSup fun s => s.pinInstr 0x05 .floating false false)

/-- EXTEST_PULSE (R390). -/
def execExtestPulse (s : State) : Result := .next (s.whenSup fun s => s.pinInstr 0x06 .boundary true true)

/-- EXTEST_TRAIN (R390). -/
def execExtestTrain (s : State) : Result := .next (s.whenSup fun s => s.pinInstr 0x07 .boundary true true)

/-- SCAN_SEL (R387). -/
def execScanSel (chain : Byte) (s : State) : Result :=
  .next (s.whenSup fun s => { s.setIr 0x21 with vit := { (s.setIr 0x21).vit with chain := chain.toNat } })

/-- SCAN_READ (R387). -/
def execScanRead (bits : Nat) (s : State) : Result :=
  .next (s.whenSup fun s => (s.setIr 0x22).send (.tdo bits (s.scanOut bits)))

/-- CHAIN_LEN (R387). -/
def execChainLen (s : State) : Result := .next (s.whenSup fun s => (s.setIr 0x23).send (.tdo 32 (chainLen s.vit.chain % 2 ^ 32)))

/-- DBG_RESET (R388). -/
def execDbgReset (v : BitVec 2) (s : State) : Result := .next (s.whenSup fun s => s.dbgReset v.toNat)

/-- VIT_STATUS (R389). -/
def execVitStatus (s : State) : Result := .next (s.whenSup fun s => (s.setIr 0x25).send (.tdo 32 s.vitStatus))

/-- BYPASS, and every unassigned code (R389). -/
def execBypass (code : Byte) (s : State) : Result :=
  .next (s.whenSup fun s => if irAssigned code.toNat then s else s.asBypass code.toNat)

end Sys2Proof.Machine
end

