-- ==== Sys2Proof/Machine/Gang.lean ====
section
/-! DEFINITION. The drift links and what gang members send each other (R158 to R170). -/

namespace Sys2Proof.Machine

/-! ## Forming and losing the gang (R160, R168) -/

/-- The position that drift link j leads to (R159). -/
def State.linkPos (s : State) (j : Nat) : Nat := (s.gangPos + j + 1) % 4

/-- The device IDs of the gang and the twin gang that are known here. -/
def State.gangIds (s : State) : List Nat :=
  s.get GNG.DEV_ID :: s.get GNG.TWIN_DEV_ID :: s.gang.peers.flatMap fun e => [e.2.devId, e.2.twinId]

/-- Does the exchange on link j agree with R160? -/
def State.peerAgrees (s : State) (j : Nat) (x : GangPeer) : Bool :=
  x.pos == s.linkPos j && x.size == s.get GNG.SIZE

/-- Is the gang formed as R160 asks: every other position's link up, every exchange in agreement? -/
def State.gangComplete (s : State) : Bool :=
  s.gangN == 1 ||
    ((List.range s.gangN).all (fun p => p == s.gangPos || (s.flag (DFT.LINK_UP (s.linkTo p)) &&
      (match mget s.gang.peers (s.linkTo p) with
        | some x => s.peerAgrees (s.linkTo p) x
        | none => false))) && s.gangPos < s.gangN && s.gangIds.eraseDups.length == s.gangIds.length)

/-- FORMED rises once the GNG page is enabled and R160 is met. -/
def State.checkFormed (s : State) : State :=
  if s.gang.formed || !s.flag (HDR.ENABLE GNG.page) || !s.gangComplete then s
  else
    ({ s with gang := { s.gang with formed := true }, q := { s.q with refigure := true } }).raise GNG.page GNG.evGANG_FORMED

/-- A drift link trains (R160, R162): what the peer says of itself, judged. -/
def State.driftUp (s : State) (j roundTrip : Nat) (x : GangPeer) : State :=
  if s.gangN == 1 || !s.flag (DFT.LINK_EN j) || !bitOf s.clk.srdLock 1 || s.flag (HDR.IN_RESET (DFT.page j)) then s
  else
    let was := s.flag (DFT.LINK_UP j)
    let s := ((s.put (DFT.ALIGNED j) 1).put (DFT.LANE_OK j) 0xFFFF).put (DFT.LINK_UP j) 1
    let s := (s.put (DFT.DELAY j) (roundTrip / 2)).put (DFT.PEER_POS j) x.pos
    let s := s.raiseIf (!was) (DFT.page j) DFT.evLINK_UP_EVT
    let s := { s with gang := { s.gang with
      peers := mput s.gang.peers j x, txSeq := mdel s.gang.txSeq j, lost := s.gang.lost.filter (· != j) } }
    let s := { s with q := { s.q with refigure := true } }
    let wrong := x.pos != s.linkPos j
    let s := s.raiseIf wrong (DFT.page j) DFT.evPEER_WRONG
    let s := s.raiseIf (!s.peerAgrees j x || s.gangIds.eraseDups.length != s.gangIds.length) GNG.page GNG.evGANG_MISMATCH
    s.checkFormed

/-- Remote data of a read that has come, or will not (R167, R168): its status and bytes. -/
def State.gotRemote (s : State) (tag status : Nat) (data : List Byte) : State :=
  match mget s.gang.remote tag with
  | none => s
  | some (ga, _) =>
    let rs := s.net.reads.map fun (p : Pending) =>
      if p.asked.contains tag then { p with remote := p.remote ++ [(ga, status, data)] } else p
    { s with gang := { s.gang with remote := mdel s.gang.remote tag }, net := { s.net with reads := rs } }

/-- A drift link down (R151, R168): because two markers were missing, or because it was disabled or reset. -/
def State.driftDown (s : State) (j : Nat) (markers : Bool) : State :=
  if !s.flag (DFT.LINK_UP j) then s
  else
    let s := ((s.put (DFT.ALIGNED j) 0).put (DFT.LANE_OK j) 0).put (DFT.LINK_UP j) 0
    let s := if markers then (s.inc (DFT.MARKER_MISS j) 2).raise (DFT.page j) DFT.evALIGN_LOST else s
    let s := s.raise (DFT.page j) DFT.evLINK_DOWN
    if !s.gang.formed then { s with gang := { s.gang with peers := mdel s.gang.peers j } }
    else if s.gangN ≤ s.linkPos j then s
    else
      let s := ({ s with gang := { s.gang with lost := addTo s.gang.lost j }, q := { s.q with refigure := true } }).raise
        GNG.page GNG.evMEMBER_LOST
      let tags := (s.gang.remote.filter fun e => s.homeOf e.2.1 == s.linkPos j).map (·.1)
      (tags.foldl (fun s t => s.gotRemote t 0x0F []) s).runReads

/-! ## Synthesizers of the SerDes (R306) -/

/-- SRD_SYN_LOCK[k] lost: the links that the synthesizer clocks go down. -/
def State.srdLost (s : State) (k : Nat) : State :=
  let s := { s with clk := { s.clk with srdLock := setBit s.clk.srdLock k false } }
  let s := (List.range 4).foldl (fun s i => s.portDown (4 * k + i)) s
  let s := if k == 0 && s.flag ADT.ALIGNED then s.aditDown else s
  if k == 1 then (List.range 3).foldl (fun s j => s.driftDown j false) s else s

/-- SRD_SYN_LOCK[k] is back. -/
def State.srdBack (s : State) (k : Nat) : State := { s with clk := { s.clk with srdLock := setBit s.clk.srdLock k true } }

/-- HOST_LINK_DOWN (R103), by the loss of its synthesizer's lock or of its own (R306). -/
def execHostLinkDown (e : LinkEvent) (s : State) : Result :=
  .next (s.whenDp fun s => if e.srd then s.srdLost (e.link.port.val / 4) else s.hostDown e.link)

/-- HOST_LINK_UP, with the return of its synthesizer's lock or with that lock held (R306). -/
def execHostLinkUp (e : LinkEvent) (s : State) : Result :=
  .next (s.whenDp fun s => (if e.srd then s.srdBack (e.link.port.val / 4) else s).hostUp e.link)

/-! ## Frames (R152, R170) -/

/-- A drift frame received: dropped where the link is down or its CRC is bad (R152). -/
def State.recvDrift (s : State) (j typ : Nat) (f : LinkFrame) : Bool × State :=
  let s := s.at f.time
  if !s.flag (DFT.LINK_UP j) then (false, s)
  else
    let s := (((s.inc (DFT.FEC_CORR j) f.fecCorr).inc (DFT.FEC_UNCORR j) f.fecUncorr).raiseIf (f.fecUncorr != 0) (DFT.page j)
      DFT.evFEC_UNCORR_EVT).inc (DFT.RX_FRAMES j)
    if f.crcOk typ && f.tag.isEmpty && f.body.length ≤ 16384 then (true, s)
    else (false, (s.inc (DFT.RX_DROP j)).raise (DFT.page j) DFT.evFRAME_DROP)

/-- The return addresses that a return block spells (R170), for answers over drift link j. -/
def parseReturn (b : List Byte) (j : Option (Fin 3)) : RetAddr :=
  let k := fieldBE b 0 1 % 128
  { link := ⟨⟨k / 8, by omega⟩, ⟨k % 8, by omega⟩⟩, ip6 := fieldBE b 1 1 == 6, mac := BitVec.ofNat 48 (fieldBE b 6 6)
    ip := BitVec.ofNat 128 (fieldBE b 12 16)
    tag := if fieldBE b 3 1 % 2 == 1 then
        some { vid := BitVec.ofNat 12 (fieldBE b 4 2), pcp := BitVec.ofNat 3 (fieldBE b 2 1) } else none
    drift := j }

/-- The datagram of a FWD_DGRAM frame, and its OPCODE: as it would stand after its arrival on the same host link. -/
def parseFwd (time : Nat) (b : List Byte) (sealedPort : Nat) : Dgram × Nat :=
  let a := parseReturn b none
  let udp := b.drop 32
  let g := udp.drop 8
  let frame : EthFrame :=
    { link := a.link, time := time, bytes := b.length, tags := a.tag.toList, ip6 := a.ip6, srcMac := a.mac, srcIp := a.ip
      srcPort := BitVec.ofNat 16 (fieldBE udp 0 2), dstPort := BitVec.ofNat 16 (fieldBE udp 2 2)
      udpSum := BitVec.ofNat 16 (fieldBE udp 6 2) }
  let isSealed := fieldBE udp 2 2 == sealedPort
  let pre := if isSealed then 16 else 0
  let tail := if isSealed then 20 else 4
  let h := parseReq (slice g pre 32)
  let n := g.length - (pre + 32 + tail)
  ({ frame := frame, hdr := h.1, payload := slice g (pre + 32) n
     sealing := if isSealed then
         some { keyInst := BitVec.ofNat 32 (fieldBE g 0 4), counter := BitVec.ofNat 64 (fieldBE g 4 8)
                rsvd := BitVec.ofNat 32 (fieldBE g 12 4), tag := slice g (48 + n) 16 }
       else none
     icrc := BitVec.ofNat 32 (fieldBE g (g.length - 4) 4), cut := g.length < pre + 32 + tail }, h.2)

/-- FWD_DGRAM (R165): the datagram checked from step 1 as if it had arrived on the same host link; its answers go back. -/
def State.fwdDgram (s : State) (j : Fin 3) (f : LinkFrame) : State :=
  match s.recvDrift j.val 0x16 f with
  | (false, s) => s
  | (true, s) =>
    let s := s.inc (DFT.FWD_BYTES_RX j.val) (f.body.length - 32)
    let port := (parseReturn f.body none).link.port.val
    let (d, op) := parseFwd f.time f.body (s.get (XPT.UDP_PORT_SEALED port))
    if s.mus.stopped then s
    else if s.frameBad d.frame || d.cut then s.inc (XPT.RX_DROP port)
    else if d.sealing.isNone && d.frame.dstPort.toNat != s.get (XPT.UDP_PORT port) then s
    else if !icrcOk d op then (s.inc (XPT.RX_DROP port)).raise (XPT.page port) XPT.evICRC_ERR
    else if d.hdr.typ != 0 then s.inc (XPT.RX_DROP port)
    else s.pipeline d op d.sealing.isSome (some j)

/-- FWD_ANSWER (R165): the answer transmitted unchanged on the link that received the request. -/
def State.fwdAnswer (s : State) (j : Fin 3) (f : LinkFrame) : State :=
  match s.recvDrift j.val 0x17 f with
  | (false, s) => s
  | (true, s) =>
    (s.inc (DFT.FWD_BYTES_RX j.val) (f.body.length - 32)).relayAnswer (parseReturn f.body none) (f.body.drop 32)

/-- TABLE (R169): a change that another member committed, for the boundary that begins C + 1. -/
def State.takeTable (s : State) (j : Fin 3) (f : LinkFrame) : State :=
  match s.recvDrift j.val 0x11 f with
  | (false, s) => s
  | (true, s) =>
    let t := (s.linkPos j.val, s.nextTable, fieldBE f.body 0 8, f.body.drop 40)
    { s with win := { s.win with tables := s.win.tables ++ [t] } }

/-! ## Remote memory (R167) -/

/-- PLACE_END (R167): every write of the member's epoch has come. -/
def State.placeEnd (s : State) (j : Fin 3) (f : LinkFrame) : State :=
  match s.recvDrift j.val 0x12 f with
  | (false, s) => s
  | (true, s) =>
    let pos := s.linkPos j.val
    let n := max f.epoch.toNat (mgetD s.gang.placeEnd pos 0)
    ({ s with gang := { s.gang with placeEnd := mput s.gang.placeEnd pos n } }).applyPlaces pos n

/-- MEM_PLACE (R167): a write held until its member's PLACE_END. -/
def State.memPlace (s : State) (j : Fin 3) (b : List Byte) : State :=
  let pos := s.linkPos j.val
  let e := (pos, fieldBE b 8 8, fieldBE b 16 4, fieldBE b 0 8, b.drop 24)
  let s := { s with gang := { s.gang with placing := s.gang.placing ++ [e] } }
  match mget s.gang.placeEnd pos with
  | some n => if fieldBE b 8 8 ≤ n then s.applyPlaces pos n else s
  | none => s

/-- MEM_READ (R167): answered, or waiting for an idle member (R308). -/
def State.memRead (s : State) (j : Fin 3) (b : List Byte) (cells : List CellFault) : State :=
  ({ s with gang := { s.gang with waiting := s.gang.waiting ++ [(j.val, b, cells)] } }).pumpHomeReads

/-- MEM_DATA (R167). -/
def State.memData (s : State) (j : Fin 3) (f : LinkFrame) : State :=
  match s.recvDrift j.val 0x14 f with
  | (false, s) => s
  | (true, s) => (s.gotRemote (fieldBE f.body 0 4) (fieldBE f.body 4 1) (f.body.drop 8)).runReads

/-- A command that names device addresses of this member: a fault beyond the presented capacity (R232). -/
def State.withDa (s : State) (j typ : Nat) (f : LinkFrame) (n : Nat) (g : State → State) : Result :=
  if !s.dpUp then .next s
  else match s.recvDrift j typ f with
    | (false, t) => .next (s.settled t)
    | (true, t) =>
      if t.presBytes < fieldBE f.body 0 8 + n then .fault .deviceAddressAbsent else .next (s.settled (g t))

/-! ## The commands -/

/-- DRIFT_LINK_UP (R160). -/
def execDriftLinkUp (j : Fin 3) (roundTrip : Nat) (pos size : BitVec 2) (devId twinId : BitVec 16) (capacityGib : Nat)
    (s : State) : Result :=
  .next (s.whenDp fun s => s.driftUp j.val roundTrip ⟨pos.toNat, size.toNat, devId.toNat, twinId.toNat, capacityGib⟩)

/-- DRIFT_LINK_DOWN (R168). -/
def execDriftLinkDown (j : Fin 3) (s : State) : Result := .next (s.whenDp fun s => s.driftDown j.val true)

/-- FWD_DGRAM (R165). -/
def execFwdDgram (j : Fin 3) (f : LinkFrame) (s : State) : Result := .next (s.whenDp fun s => s.fwdDgram j f)

/-- FWD_ANSWER (R165). -/
def execFwdAnswer (j : Fin 3) (f : LinkFrame) (s : State) : Result := .next (s.whenDp fun s => s.fwdAnswer j f)

/-- TABLE (R169). -/
def execTable (j : Fin 3) (f : LinkFrame) (s : State) : Result := .next (s.whenDp fun s => s.takeTable j f)

/-- PLACE_END (R167). -/
def execPlaceEnd (j : Fin 3) (f : LinkFrame) (s : State) : Result := .next (s.whenDp fun s => s.placeEnd j f)

/-- MEM_READ (R167). -/
def execMemRead (j : Fin 3) (r : HomeRead) (s : State) : Result :=
  s.withDa j.val 0x13 r.frame (fieldBE r.frame.body 8 4) fun s => s.memRead j r.frame.body r.cells

/-- MEM_DATA (R167). -/
def execMemData (j : Fin 3) (f : LinkFrame) (s : State) : Result := .next (s.whenDp fun s => s.memData j f)

/-- MEM_PLACE (R167). -/
def execMemPlace (j : Fin 3) (f : LinkFrame) (s : State) : Result :=
  s.withDa j.val 0x15 f (f.body.length - 24) fun s => s.memPlace j f.body

end Sys2Proof.Machine
end

