-- ==== Sys2Proof/Machine/RegPages.lean ====
section
/-! DEFINITION. What the registers read: the fields that show state held elsewhere, page by page, and the words of the
table windows (R408). A field that no list here names reads what was last stored in it. -/

namespace Sys2Proof.Machine

/-- Fields that show state held elsewhere, each with its value. -/
abbrev Shown : Type := List (Fld × (Unit → Nat))

/-- A truth value as a field shows it. -/
def shown (b : Bool) : Unit → Nat := fun _ => b2n b

/-! ## The pages -/

/-- HP n (R38, R343): no link is up while the host SerDes are off. -/
def State.showHp (s : State) (n : Nat) : Shown :=
  [(HP.LINK_UP n, fun _ => if s.pwr.hostSerdes then s.get (HP.LINK_UP n) else 0)]

/-- EPC (R36). -/
def State.showEpc (s : State) : Shown :=
  [(EPC.STATE, fun _ => s.ep.state.code), (EPC.HOLDOVER, shown (s.ep.state == .holdover)),
   (EPC.LEADER, fun _ => 1 - s.pwr.twinPos), (EPC.DLL_LOCK, shown (s.dllIn 0)),
   (EPC.EPOCH_LO, fun _ => s.ep.num % 2 ^ 32), (EPC.EPOCH_HI, fun _ => s.get (HDR.LATCH EPC.page 0x028)),
   (EPC.PERIOD_MEAS, fun _ => s.ep.period % 2 ^ 23), (EPC.ADIT_DELAY, fun _ => min (2 ^ 32 - 1) s.cm.delay)]

/-- QMG (R77, R82, R101, R102). -/
def State.showQmg (s : State) : Shown :=
  [(QMG.OVERSUBSCRIBED, shown s.q.oversub), (QMG.D_WR, fun _ => min (2 ^ 32 - 1) s.q.fig.wr),
   (QMG.D_RD, fun _ => min (2 ^ 32 - 1) s.q.fig.rd), (QMG.D_FL, fun _ => min (2 ^ 32 - 1) s.q.fig.fl),
   (QMG.D_REQ, fun _ => min (2 ^ 32 - 1) s.q.fig.reqs), (QMG.SUM_WR, fun _ => s.sums.wr), (QMG.SUM_RD, fun _ => s.sums.rd),
   (QMG.SUM_FL, fun _ => s.sums.fl), (QMG.SUM_REQ, fun _ => s.sums.reqs), (QMG.SCALE, fun _ => s.q.scale),
   (QMG.ACTIVE_QUEUES, fun _ => 1 + (s.q.q.filter fun e => e.2.state != .free).length),
   (QMG.BUSY, shown s.q.adm0Busy), (QMG.DONE, shown s.q.adm0Done), (QMG.SEGS, fun _ => s.q.adm0Segs)] ++
  (List.range 16).map fun i => (QMG.QCTX i, fun _ => fieldLE (s.queue (s.get QMG.QCTX_SEL)).bytes (4 * i) 4)

/-- WIN (R111, R113, R125). -/
def State.showWin (s : State) : Shown :=
  [(WIN.WINDOWS_USED, fun _ => (s.win.win.filter fun e => e.2.state != .free).length),
   (WIN.DOMAINS_USED, fun _ => 1 + (s.win.dom.filter fun e => e.1 != 0 && e.2.state != .free).length),
   (WIN.WLB_HIT, fun _ => mgetD s.win.hits (s.get WIN.WLB_PIPE_SEL) 0),
   (WIN.WLB_MISS, fun _ => mgetD s.win.misses (s.get WIN.WLB_PIPE_SEL) 0),
   (WIN.PF_USED, fun _ => mgetD s.win.pfUsed (s.get WIN.WLB_PIPE_SEL) 0)] ++
  ((List.range 16).map fun i => (WIN.DESC i, fun _ => fieldLE (s.window (s.get WIN.WIN_SEL)).bytes (4 * i) 4)) ++
  ((List.range 8).map fun i => (WIN.DOM i, fun _ => fieldLE (s.domBytes (s.get WIN.DOM_SEL)) (4 * i) 4) : Shown)

/-- CMT (R131, R138, R140, R149). -/
def State.showCmt (s : State) : Shown :=
  [(CMT.TWIN_STATE, fun _ => s.cm.twin.code), (CMT.DIVERGED, shown s.cm.diverged), (CMT.REHOME_SRC, shown s.cm.rehomeSrc),
   (CMT.CLAIM, fun _ => s.cm.claim), (CMT.PEER_CLAIM, fun _ => s.cm.peerClaim), (CMT.COMMITTED, fun _ => s.cm.committed),
   (CMT.PLACED, fun _ => s.cm.placed), (CMT.HASH, fun _ => s.cm.hash),
   (CMT.STAGED_BYTES, fun _ => (s.cm.staged.map (·.2)).sum),
   (CMT.REHOME_DONE_MIB, fun _ => (if s.cm.rehomeSrc then s.cm.rehomeSent else s.cm.rehomed.length) / 16),
   (CMT.REHOME_TOTAL_MIB, fun _ => s.cm.rehomeAll / 16)]

/-- GNG (R158, R160, R163). -/
def State.showGng (s : State) : Shown :=
  [(GNG.POS, fun _ => s.strapPos), (GNG.FORMED, shown s.gang.formed),
   (GNG.LINKS_UP, fun _ => ((List.range 3).map fun j => s.get (DFT.LINK_UP j) * 2 ^ j).sum),
   (GNG.SPAN_GIB, fun _ => s.spanGib)] ++
  (List.range 4).map fun p => (GNG.MEMBER p, fun (_ : Unit) =>
    if p == s.strapPos then s.get GNG.DEV_ID + 2 ^ 16 * s.get GNG.TWIN_DEV_ID
    else match mget s.gang.peers (s.linkTo p) with
      | some x => x.devId + 2 ^ 16 * x.twinId
      | none => 0)

/-- TIR (R177, R182 to R184). -/
def State.showTir (s : State) : Shown :=
  [(TIR.MOVES_ACTIVE, fun _ => (s.tier.ext.filter fun e => e.2.move.isSome).length),
   (TIR.HOT_MIB, fun _ => (s.usedFrames false).length / 16), (TIR.WARM_MIB, fun _ => (s.usedFrames true).length / 16),
   (TIR.FLASH_GIB, fun _ => (s.tier.ext.filter fun e => e.2.home == .flash).length / 16384),
   (TIR.VOL_MIB, fun _ => s.volUnits / 16), (TIR.BOOK_HOT, fun _ => s.book (s.get TIR.DOM_SEL) .hot / 16),
   (TIR.BOOK_WARM, fun _ => s.book (s.get TIR.DOM_SEL) .warm / 16),
   (TIR.BOOK_FLASH, fun _ => s.book (s.get TIR.DOM_SEL) .flash / 16), (TIR.OWNED_MIB, fun _ => s.owned (s.get TIR.DOM_SEL) / 16)]

/-- MUS (R186, R197, R200). -/
def State.showMus (s : State) : Shown :=
  [(MUS.STATE, fun _ => s.mus.state.code), (MUS.AREA_NEXT, fun _ => s.mus.areaNext), (MUS.AREA_READY, shown s.areaReady),
   (MUS.RESTORE_VALID, shown s.mus.restoreValid), (MUS.LAST_CAUSES, fun _ => s.mus.causes / 2),
   (MUS.VHC_MAX, fun _ => min 65535 s.vhcMax), (MUS.VHC, fun _ => s.vhc), (MUS.VHC_EFF, fun _ => s.vhcEff),
   (MUS.MR_MBS, fun _ => s.musterRate / 1000000)]

/-- CEL (R214, R219, R221). -/
def State.showCel (s : State) : Shown :=
  [(CEL.FILL_BUSY, shown s.mc.fillBusy), (CEL.FILL_DONE, shown s.mc.fillDone),
   (CEL.SCRUB_PCT, fun _ => 100 * s.mc.scrubbed / max 1 s.scrubUnits), (CEL.G_RD, fun _ => min (2 ^ 32 - 1) s.mc.gRd),
   (CEL.G_WR, fun _ => min (2 ^ 32 - 1) s.mc.gWr), (CEL.H, fun _ => min (2 ^ 32 - 1) s.mc.h)]

/-- FTL (R232, R239, R242, R244). -/
def State.showFtl (s : State) : Shown :=
  let live := s.fl.erases.filter fun e => !s.fl.retired.contains e.1
  let classes := live.map fun e => e.2 / 32
  [(FTL.PRES_LB, fun _ => s.fl.presLb), (FTL.LOGS_FREE, fun _ => s.logsFree), (FTL.SLC_USED, fun _ => s.slcUsed),
   (FTL.SLC_TARGET, fun _ => s.slcTarget), (FTL.FREE_BLOCKS, fun _ => s.freeF), (FTL.RETIRED, fun _ => s.fl.retired.length),
   (FTL.WEAR_MIN, fun _ => if live.length + s.fl.retired.length < s.populated * dieBlocks then 0
      else classes.foldl min (classes.headD 0)),
   (FTL.WEAR_MAX, fun _ => classes.foldl max 0)]

/-- PTL (R246). -/
def State.showPtl (s : State) : Shown := [(PTL.PASS_PCT, fun _ => 100 * s.fl.patrolRead / max 1 s.fl.patrolTotal)]

/-- PAR (R255, R257, R259 to R261, R268). -/
def State.showPar (s : State) : Shown :=
  let row : List Nat := mgetD s.par.rows (s.get PAR.LAYOUT_SEL) []
  [(PAR.REBUILDING, shown s.rebuilding), (PAR.RESHAPING, shown s.par.reshaping), (PAR.REBUILD_STALL, shown s.par.stall),
   (PAR.MA_DEGRADED, shown s.par.maDegraded), (PAR.LOST_FULL, shown s.lostFull),
   (PAR.DIES_HEALTHY, fun _ => s.goodDies.length), (PAR.DIES_FAILED, fun _ => s.par.failed.length),
   (PAR.ROWS, fun _ => s.par.rows.length), (PAR.ROWS_OPEN, fun _ => (s.par.rows.filter fun e => s.rowOpen e.1).length),
   (PAR.REBUILD_LEFT, fun _ => s.rebuildSet.length), (PAR.RESHAPE_LB, fun _ => s.par.reshapeLb),
   (PAR.LOST_USED, fun _ => s.par.lost.length)] ++
  (List.range 9).map fun w => (PAR.LAYOUT w, fun _ => row.getD (2 * w) 0 + 2 ^ 16 * row.getD (2 * w + 1) 0)

/-- ACC: the selected journal (R270, R271, R277, R283). -/
def State.showAcc (s : State) : Shown :=
  let x := s.jrn (s.get ACC.JRN_SEL)
  [(ACC.BOUND, shown x.window.isSome), (ACC.KEY_OK, shown (s.tagKey x.keyInst).isSome), (ACC.FULL, shown x.full),
   (ACC.JRN_WINDOW, fun _ => x.window.getD 0), (ACC.KEY_INST, fun _ => x.keyInst), (ACC.NEXT_ACC, fun _ => x.next),
   (ACC.WP, fun _ => x.wp), (ACC.LAST_SEAL, fun _ => x.lastSeal), (ACC.ASM_USED, fun _ => s.asmUsed)]

/-- CPH (R297, R301). -/
def State.showCph (s : State) : Shown :=
  [(CPH.ENT_OK, shown s.key.entOk), (CPH.DRBG_SEEDED, shown (s.key.seeded && !s.key.halted)),
   (CPH.PINNED, fun _ => (s.tier.untrusted.map fun sec => sec / 16).eraseDups.length)]

/-- KST: the selected instance (R287, R290, R291). -/
def State.showKst (s : State) : Shown :=
  let n := s.get KST.INST_SEL
  let k := (s.keyInst n).getD {}
  [(KST.LOADED, shown (s.keyInst n).isSome), (KST.ALG, fun _ => k.alg), (KST.MODE, fun _ => k.mode), (KST.CLASS, fun _ => k.cls),
   (KST.LEGACY, shown k.legacy), (KST.RETIRED, shown k.retired), (KST.KEK_OF_SEL, fun _ => k.kek),
   (KST.COUNTER, fun _ => k.counter), (KST.MARK, fun _ => s.keyMark n), (KST.INSTANCES_USED, fun _ => s.key.inst.length),
   (KST.MARKS_USED, fun _ => s.markEntries), (KST.ROOT_ID, fun _ => s.key.rootId)]

/-- Cipher channel i (R298, R300). -/
def State.showCch (s : State) (i : Nat) : Shown :=
  [(CCH.IN_SERVICE i, shown (!s.key.outCh.contains i)), (CCH.SUBST i, fun _ => (s.channelOf i).getD i),
   (CCH.CTX_USED i, fun _ => (s.chanNow i).saved.length),
   (CCH.LEGACY_ACTIVE i, shown (match (s.chanNow i).run with
     | some j => j.legacy && 0 < j.left
     | none => false))]

/-- The delay code stored for a DLL at a set point (R313); that of the epoch DLL is the device's own and open. -/
def State.dllCode (s : State) (i f : Nat) : Option Nat :=
  if i = 0 then (if f = 0 then s.clk.epochCode else none) else mget (s.member (i - 1)).codes f

/-- CLK (R306, R307, R311 to R313, R320). -/
def State.showClk (s : State) : Shown :=
  let i := s.get CLK.DLL_SEL
  let code := s.dllCode i (s.get CLK.FSP_SEL)
  let m := mgetD s.clk.margins (s.get CLK.LANE_SEL) {}
  [(CLK.DLL_EN, fun _ => ((List.range 17).map fun k => b2n (s.dllEnabled k) * 2 ^ k).sum), (CLK.LOCK, shown s.clk.lock),
   (CLK.CORE_SYN_LOCK, shown s.clk.coreLock), (CLK.SRD_SYN_LOCK, fun _ => s.clk.srdLock),
   (CLK.RETRAIN_BUSY, shown s.clk.retrain.isSome), (CLK.MSCAN_BUSY, shown s.clk.scan.isSome),
   (CLK.LOCK_PATH_FAULT, shown s.clk.pathFault),
   (CLK.DLL_IN_WIN, fun _ => ((List.range 17).map fun k => b2n (s.dllIn k) * 2 ^ k).sum),
   (CLK.SENSE_CODE, fun _ => s.get (SCN.CODE 31)), (CLK.DLL_CODE, fun _ => code.getD 0), (CLK.CODE_VALID, shown code.isSome),
   (CLK.PHASE_ERR_PS, fun _ => min 65535 (if i = 0 then s.clk.epochPhase else (s.member (i - 1)).phaseErr)),
   (CLK.MSCAN_RESULT, fun _ => m.left + 2 ^ 8 * m.right + 2 ^ 16 * m.vlow + 2 ^ 24 * m.vhigh)]

/-- PSQ (R325 to R330, R343, R344). -/
def State.showPsq (s : State) : Shown :=
  [(PSQ.SEQ_STATE, fun _ => s.pwr.seq.code), (PSQ.SEQ_LOCKED, shown s.pwr.locked), (PSQ.PARK_STATE, fun _ => s.pwr.park.code),
   (PSQ.WAKE_REASON, fun _ => s.pwr.wakeReason), (PSQ.FAIL_ENTRY, fun _ => s.pwr.failEntry), (PSQ.DIS_LATE, fun _ => s.pwr.disLate)]

/-- SCN (R331). -/
def State.showScn (s : State) : Shown := [(SCN.CH_USED, fun _ => ((List.range 31).map fun c => b2n (s.chUsed c) * 2 ^ c).sum)]

/-- RST (R335, R339). -/
def State.showRst (s : State) : Shown :=
  [(RST.RESET_N_LEVEL, shown (!s.pwr.resetLow)), (RST.ON_BACKUP, shown s.pwr.onBackup)]

/-- THM (R340 to R342): temperatures in 8-bit two's complement. -/
def State.showThm (s : State) : Shown :=
  let i := s.get THM.SENSOR_SEL
  [(THM.THROTTLED, shown s.pwr.throttled), (THM.TRIPPED, shown s.pwr.tripped), (THM.SENSOR_LOW, shown s.sensorLow),
   (THM.TJ_C, fun _ => (tempByte s.pwr.tj).toNat), (THM.TJ_PEAK_C, fun _ => (tempByte s.pwr.tjPeak).toNat),
   (THM.SENSOR_C, fun _ => (tempByte (mgetD s.pwr.sensors i 0)).toNat),
   (THM.SENSOR_VALID, shown ((mget s.pwr.sensors i).isSome && !s.pwr.excluded.contains i)),
   (THM.THRESHOLDS, fun _ => 105 + 2 ^ 8 * 100 + 2 ^ 16 * 120)]

/-- NOR (R107, R352, R359, R360). -/
def State.showNor (s : State) : Shown :=
  [(NOR.BANK_BUSY, fun _ => ((List.range 4).map fun b => b2n (s.norBusy b) * 2 ^ b).sum),
   (NOR.COMMIT_BUSY, shown s.cur.verifying.isSome), (NOR.ACTIVE_BANK, fun _ => s.cur.active),
   (NOR.NEXT_BANK, fun _ => s.nextBank), (NOR.DL_BYTES, fun _ => s.cur.dlBytes)]

/-- CUR (R349, R359). -/
def State.showCur (s : State) : Shown :=
  [(CUR.FALLBACK, shown s.cur.fallback), (CUR.RECOVERY, shown s.cur.recovery),
   (CUR.RUNNING, fun _ => ((List.range 4).map fun c => b2n (s.coreRuns c) * 2 ^ c).sum)]

/-- CEN (R373, R374, R376). -/
def State.showCen (s : State) : Shown :=
  [(CEN.FULL, shown s.cen.full), (CEN.CLEARING, shown s.cen.clearing),
   (CEN.HELD, shown (s.cen.heldSum.isSome || s.cen.heldOoc.isSome)), (CEN.NEXT_SLOT, fun _ => s.cen.nextSlot)] ++
  (List.range 64).map fun w => (CEN.WIN w, fun _ => s.slotWord (s.get CEN.CURSOR) w)

/-- RTC (R377, R378): the calendar in its parts. -/
def State.showRtc (s : State) : Shown :=
  let t := s.cal.sec % 86400
  let d := s.cal.sec / 86400
  let y := yearOfDay d
  let md := monthOfDay y (d - yearDays y)
  [(RTC.SEC, fun _ => t % 60), (RTC.MIN, fun _ => t / 60 % 60), (RTC.HOUR, fun _ => t / 3600), (RTC.DAY, fun _ => md.2),
   (RTC.MONTH, fun _ => md.1), (RTC.YEAR_OFS, fun _ => y - 2000), (RTC.FRAC, fun _ => s.calFrac),
   (RTC.CAL_SEC, fun _ => s.cal.sec), (RTC.CAL_VALID, shown s.cal.valid), (RTC.CAL_END, shown s.cal.ended)]

/-- SYS (R3, R13, R338, R409). -/
def State.showSys (s : State) : Shown :=
  [(SYS.PART, fun _ => 0x9640), (SYS.STEPPING, fun _ => 0xB1), (SYS.TWIN_POS, fun _ => s.pwr.twinPos),
   (SYS.GANG_ID, fun _ => s.pwr.gangId), (SYS.ENERGY_DECL_EN, shown s.pwr.energyEn),
   (SYS.MIN_SET, fun _ => ((List.range 8).map fun i => b2n (s.minSet.getD i false) * 2 ^ i).sum),
   (SYS.FILLED, shown s.mc.fillDone), (SYS.LOCKED, shown s.clk.lock), (SYS.GANG_OK, shown s.gangOk),
   (SYS.VHC_OK, shown (1 ≤ s.vhcEff))] ++
  (List.range 8).map fun w => (SYS.PEND w, fun _ =>
    ((List.range 32).map fun i => b2n (s.evtPending (32 * w + i) != 0) * 2 ^ i).sum)

/-- The fields of page `p` that show state held elsewhere. -/
def State.shownOn (s : State) (p : Nat) : Shown :=
  if p == SYS.page then s.showSys
  else if p == RST.page then s.showRst
  else if p == PSQ.page then s.showPsq
  else if p == SCN.page then s.showScn
  else if p == CLK.page then s.showClk
  else if p == EPC.page then s.showEpc
  else if p == RTC.page then s.showRtc
  else if p == CEN.page then s.showCen
  else if p == NOR.page then s.showNor
  else if p == CUR.page then s.showCur
  else if p == VIT.page then [(VIT.FROZEN, shown s.vit.frozen)]
  else if p == THM.page then s.showThm
  else if 0x10 ≤ p && p < 0x20 then s.showHp (p - 0x10)
  else if p == QMG.page then s.showQmg
  else if p == WIN.page then s.showWin
  else if p == CMT.page then s.showCmt
  else if p == GNG.page then s.showGng
  else if p == TIR.page then s.showTir
  else if p == MUS.page then s.showMus
  else if 0x40 ≤ p && p < 0x48 then
    [(STK.DRAINED (p - 0x40), shown (s.drained (p - 0x40))),
     (STK.REF_POSTPONED (p - 0x40), fun _ => (s.member (p - 0x40)).postponed.headD 0)]
  else if 0x48 ≤ p && p < 0x50 then
    [(DCH.DRAINED (p - 0x48), shown (s.drained (p - 0x40))),
     (DCH.REF_POSTPONED (p - 0x48), fun _ => (s.member (p - 0x40)).postponed.sum)]
  else if p == CEL.page then s.showCel
  else if 0x60 ≤ p && p < 0xA0 then
    [(FCH.DIE_FAILED (p - 0x60), fun _ => ((List.range 16).map fun k => b2n (s.dieFailed (16 * (p - 0x60) + k)) * 2 ^ k).sum)]
  else if p == FTL.page then s.showFtl
  else if p == PAR.page then s.showPar
  else if p == PTL.page then s.showPtl
  else if p == CPH.page then s.showCph
  else if p == KST.page then s.showKst
  else if 0xB2 ≤ p && p < 0xC8 then s.showCch (p - 0xB2)
  else if p == ACC.page then s.showAcc
  else if p == PCE.page then [(PCE.MSIX_MASKED, shown (s.flag PCE.MSIX_MASKED || bitOf (s.get PCE.MSIX_CTRL) 0))]
  else if p == SMB.page then [(SMB.ADDR, fun _ => 0x58 + s.pwr.strapGang)]
  else []

/-- The value of a field as a read shows it; a write-only field, and the command fields that read 0, show 0 (R405). -/
def State.fieldValue (s : State) (f : Fld) : Nat :=
  if f.acc == .wo || f == PAR.CLEAR_DIE || f == PAR.CLEAR_GO || f == KST.KS_FORMAT then 0
  else match (s.shownOn f.page).find? fun e => e.1 == f with
    | some e => e.2 () % 2 ^ f.width
    | none => s.get f

/-! ## Header words (R400 to R403) -/

/-- BUSY: does the block of page `p` hold accepted work (R400; log entry 47)? -/
def State.blockBusy (s : State) (p : Nat) : Bool :=
  if 0x10 ≤ p && p < 0x20 then s.net.waiting.any fun w => w.dst.link.port.val == p - 0x10
  else if p == QMG.page then s.q.adm0Busy || !s.net.held.isEmpty
  else if p == CMT.page then !s.cm.ended.isEmpty || !s.cm.unplaced.isEmpty
  else if p == TIR.page then s.tier.ext.any fun e => e.2.move.isSome
  else if p == MUS.page then s.mus.state == .mustering || s.mus.state == .restoring
  else if p == CEL.page then s.mc.fillBusy
  else if p == FTL.page then s.fl.lbt.any fun e => e.2.merging
  else if p == PAR.page then s.rebuilding || s.par.reshaping
  else if p == CLK.page then s.clk.scan.isSome || s.clk.retrain.isSome
  else if p == NOR.page then s.norInFlight || s.cur.verifying.isSome
  else if p == CEN.page then s.cen.clearing
  else false

/-- FAULT: is the block of page `p` out of service for a cause of its chapter (R224, R298, R308; log entry 47)? -/
def State.blockFault (s : State) (p : Nat) : Bool :=
  if 0x40 ≤ p && p < 0x50 then
    s.flag (HDR.ENABLE p) && s.flag (trainedFld (p - 0x40)) && !s.flag (inServiceFld (p - 0x40))
  else if 0xB2 ≤ p && p < 0xC8 then s.key.outCh.contains (p - 0xB2)
  else if p == PSQ.page then s.pwr.seq == .fault
  else false

/-- ENABLE as it reads: 1 on a page that is no block page, 0 in a block reset, the remembered enable in a shutdown. -/
def State.enableRead (s : State) (p : Nat) : Bool :=
  fixedPage p || (!s.flag (HDR.IN_RESET p) &&
    (if s.flag (HDR.PENDING_OFF p) then s.flag (HDR.REMEMBERED p) else s.flag (HDR.ENABLE p)))

/-- A word of the header of page `p` of a kind whose first page is `base`. -/
def State.headerWord (s : State) (p base off : Nat) : Nat :=
  if off == 0x000 then 0x01 + 2 ^ 8 * (p - base) + 2 ^ 16 * base
  else if off == 0x004 then b2n (s.enableRead p)
  else if off == 0x008 then
    b2n (s.blockBusy p) + 2 * s.get (HDR.PENDING_OFF p) + 4 * b2n (s.blockFault p) + 8 * s.get (HDR.EXPERT p) +
      16 * s.get (HDR.IN_RESET p)
  else if off == 0x00C then s.get (HDR.EVT_RAW p)
  else if off == 0x010 then s.get (HDR.EVT_ENABLE p)
  else if off == 0x014 then s.evtPending p
  else if off == 0x018 then s.get (HDR.POINT p) + 512 * s.get SYS.CANARY_ARM
  else 0

/-! ## Words outside the header -/

/-- What a read of the LO word at `off` latches for its HI word (R396): the upper half of the pair. -/
def State.hiOf (s : State) (p off : Nat) : Option Nat :=
  if p == EPC.page && off == 0x028 then some (s.ep.num / 2 ^ 32)
  else ((pageFields p).find? fun f => f.pair && f.off == off).map fun f => s.fieldValue f / 2 ^ 32

/-- The word at `off` as it stands now; a HI word as it was latched, `hi` in its place when given. -/
def State.liveWord (s : State) (p off : Nat) (hi : Bool) : Nat :=
  (pageFields p).foldl (fun a f =>
    if f.off == off then a + s.fieldValue f % 2 ^ 32 * 2 ^ f.lsb
    else if f.pair && f.off + 4 == off then
      a + (if hi then s.fieldValue f / 2 ^ 32 % 2 ^ 32 else s.get (HDR.LATCH p f.off))
    else a) 0

/-- The table windows of page `p` (R408): the selector's offset, the first word and the number of words. -/
def tableWindows (p : Nat) : List (Nat × Nat × Nat) :=
  if p == QMG.page then [(0x020, 0x040, 16)]
  else if p == WIN.page then [(0x020, 0x040, 16), (0x024, 0x080, 8)]
  else if p == TIR.page then [(0x038, 0x03C, 4)]
  else if p == PAR.page then [(0x03C, 0x040, 9)]
  else if p == ACC.page then [(0x020, 0x024, 9)]
  else if p == KST.page then [(0x020, 0x024, 7)]
  else if p == CLK.page then [(0x030, 0x034, 2), (0x044, 0x048, 1)]
  else if p == THM.page then [(0x030, 0x034, 1)]
  else []

/-- A snapshot of a window's words as the selected entry stands (R408). -/
def State.snapshot (s : State) (p first n : Nat) : State :=
  let ws := (List.range n).map fun i => s.liveWord p (first + 4 * i) true
  { s with snap := mput s.snap (p * 4096 + first) ws }

/-- The window that the word at `off` lies in, ACC.KEY_INST apart: it is no window word. -/
def windowAt (p off : Nat) : Option (Nat × Nat) :=
  if p == ACC.page && off == 0x02C then none
  else ((tableWindows p).find? fun w => w.2.1 ≤ off && off < w.2.1 + 4 * w.2.2).map (·.2)

/-- A word outside the header: a window's word from the latest snapshot, any other as it stands. -/
def State.pageWord (s : State) (p off : Nat) : Nat :=
  match windowAt p off with
  | some (first, _) => match mget s.snap (p * 4096 + first) with
    | some ws => ws.getD ((off - first) / 4) 0
    | none => s.liveWord p off true
  | none =>
    if p == RTC.page && 0x024 ≤ off && off ≤ 0x030 then s.get (HDR.LATCH p off) else s.liveWord p off false

end Sys2Proof.Machine
end

