-- ==== Sys2Proof/Machine/RegAccess.lean ====
section
/-! DEFINITION. Register accesses (R395 to R408): which path reaches which page, what a write of each field does, blocks
enabled, shut down and reset, and what a read returns and latches. -/

namespace Sys2Proof.Machine

/-! ## Paths (R395, R385) -/

/-- The code of a path in LAST_BAD_PATH. -/
def pathCode : Path → Nat
  | .pcie => 0
  | .smbus => 1
  | .curator k => 2 + k.val

/-- Does an access on a path reach page `p`? In Vitrine only SMBus, and only pages that the supervisor reset restores. -/
def State.reaches (s : State) (path : Path) (p : Nat) : Bool :=
  match path with
  | .pcie => s.pwr.vsupOk && s.flag PCE.LINK_UP && !s.vit.frozen
  | .smbus => s.pwr.vsupOk && (!s.vit.frozen || ((pageBase p).isSome && pageDom p == .supervisor))
  | .curator _ => s.mgUp

/-- Is the domain that holds a field running? A field of a domain in reset takes no write (log entry 48). -/
def State.fieldUp (s : State) (f : Fld) : Bool :=
  let d := if f.dom == .block then pageDom f.page else f.dom
  match d with
  | .datapath => s.dpUp
  | .management => s.mgUp
  | _ => s.pwr.vsupOk

/-- LAST_BAD_ADDR, LAST_BAD_PATH and LAST_BAD_KIND. -/
def State.lastBad (s : State) (path : Path) (addr kind : Nat) : State :=
  ((s.put SYS.LAST_BAD_ADDR addr).put SYS.LAST_BAD_PATH (pathCode path)).put SYS.LAST_BAD_KIND kind

/-- An access that R396 counts: kind 0 of bad width or alignment, kind 1 of a reserved page. -/
def State.badAccess (s : State) (path : Path) (addr kind : Nat) : State :=
  ((s.inc SYS.BAD_ACCESS).lastBad path addr kind).raise SYS.page SYS.evBAD_ACCESS_EVT

/-- A write of an RWE field of a locked page (R404). -/
def State.denied (s : State) (path : Path) (addr : Nat) : State :=
  ((s.inc SYS.EXPERT_DENIED).lastBad path addr 2).raise SYS.page SYS.evEXPERT_DENIED_EVT

/-- A curator's write against a fence (R362): its curator address. -/
def State.curatorFence (s : State) (path : Path) (cause addr : Nat) : State :=
  match path with
  | .curator k => s.fence cause (some k) (0x20000000 + addr)
  | _ => s

/-! ## Blocks (R231, R336, R401, R402) -/

/-- Is a page enabled for a field that is writable only while it is disabled (R401)? -/
def State.counted (s : State) (p : Nat) : Bool := s.flag (HDR.ENABLE p) || s.flag (HDR.PENDING_OFF p)

/-- A flash channel comes up: the dies below DIES answer Read ID. One with another geometry stays out of service; one that does not
answer is declared failed (R231, R256). -/
def State.channelUp (s : State) (c : Nat) : State :=
  let a := mgetD s.fl.board c {}
  let n := 2 ^ s.get (FCH.DIES c)
  let absent := a.absent.toNat % n
  let odd := Nat.land (a.other.toNat % n) (n - 1 - absent)
  let s := ((s.put (FCH.DIE_PRESENT c) (n - 1 - absent)).put (FCH.TRAINED c) 1).put (FCH.IN_SERVICE c) 1
  let s := { s with fl := { s.fl with odd := s.fl.odd.filter (dieChan · != c) ++ (onesBelow 16 odd).map (16 * c + ·) } }
  let s := (s.raiseIf (odd != 0) (FCH.page c) FCH.evDIE_MISMATCH).raiseIf (absent != 0) (FCH.page c) FCH.evDIE_ABSENT
  let s := (onesBelow 16 absent).foldl (fun s k => s.failDie (16 * c + k)) s
  ({ s with q := { s.q with refigure := true } }).checkVhc.checkArmed

/-- A flash channel goes out of service (R103, R186), and every die of it fails at once (R256). -/
def State.channelDown (s : State) (c : Nat) : State :=
  let was := s.flag (FCH.IN_SERVICE c)
  let s := (s.put (FCH.IN_SERVICE c) 0).put (FCH.TRAINED c) 0
  let s := if was then ((List.range 16).filter fun k => s.diePresent (16 * c + k)).foldl (fun s k => s.failDie (16 * c + k)) s
    else s
  ({ s with q := { s.q with refigure := true } }).checkVhc.manageTiers

/-- A block starts. A stack or channel enters service when its DLL is in its window (R308). -/
def State.blockStart (s : State) (p : Nat) : State :=
  let s := s.put (HDR.ENABLE p) 1
  if 0x60 ≤ p && p < 0xA0 then s.channelUp (p - 0x60)
  else if p == GNG.page then s.checkFormed
  else s

/-- A block has powered down (log entry 43). -/
def State.blockOff (s : State) (p : Nat) : State :=
  if 0x10 ≤ p && p < 0x20 then s.portDown (p - 0x10)
  else if 0x60 ≤ p && p < 0xA0 then s.channelDown (p - 0x60)
  else if p == GNG.page then { s with gang := { s.gang with formed := false }, q := { s.q with refigure := true } }
  else s

/-- ENABLE written 0 on an enabled page: the shutdown starts; a stack or channel that is not DRAINED refuses (R226). -/
def State.shutBlock (s : State) (p : Nat) : State :=
  let off (s : State) : State := (s.put (HDR.ENABLE p) 0).put (HDR.PENDING_OFF p) 1
  if 0x40 ≤ p && p < 0x50 then
    if s.mayDisable (p - 0x40) then (off s).memberOff (p - 0x40)
    else s.raise p (if p < 0x48 then STK.evDISABLE_REJECT else DCH.evDISABLE_REJECT)
  else off s

/-- ENABLE written (R400, R401): nothing on a page that is no block page; remembered, or the memory withdrawn, during a
shutdown. -/
def State.writeEnable (s : State) (p : Nat) (v : Bool) : State :=
  if fixedPage p then s
  else if s.flag (HDR.PENDING_OFF p) then s.putb (HDR.REMEMBERED p) v
  else if v == s.flag (HDR.ENABLE p) then s
  else if v then s.lockA (s.blockStart p)
  else s.lockA (s.shutBlock p)

/-- A shutdown completes (R401): PENDING_OFF clears, and a remembered enable starts the block again. -/
def State.shutdownDone (s : State) (p : Nat) : State :=
  if !s.flag (HDR.PENDING_OFF p) then s
  else
    let again := s.flag (HDR.REMEMBERED p)
    let s0 := s
    let s := ((s.put (HDR.PENDING_OFF p) 0).put (HDR.REMEMBERED p) 0).blockOff p
    s0.lockA (if again then s.blockStart p else s)

/-- The flash channel that holds page `pg` of an extent (R233). -/
def State.pageChannel (s : State) (e pg : Nat) : Option Nat :=
  (s.flashSlot e).map fun a => s.sbBlock a.1 (4 * (a.2 % 4) + pg) / dieBlocks / 16

/-- Does a read wait for what page `p`'s block was fetching (R336): a flash channel its own pages, the translation and the parity
blocks every page, a drift link the data asked for over it, a memory member its own bytes? -/
def State.carried (s : State) (p : Nat) (r : Pending) : Bool :=
  (r.fetch.any fun g =>
    p == FTL.page || p == PAR.page || (0x60 ≤ p && p < 0xA0 && s.pageChannel (g / 4) (g % 4) == some (p - 0x60))) ||
  (0x34 ≤ p && p < 0x37 && r.asked.any fun t => match mget s.gang.remote t with
    | some (ga, _) => s.homeOf ga == s.linkPos (p - 0x34)
    | none => false) ||
  (0x40 ≤ p && p < 0x50 && (s.localPieces r.ga r.len).any fun q =>
    (sectorsIn q.1 q.2.1).any fun sec => s.sectorIn sec (p - 0x40))

/-- The reads whose work a block's outstanding transfers carried end with ABORTED_BY_RESET (R336). -/
def State.abortReads (s : State) (p : Nat) : State :=
  let ps := s.net.reads
  ps.foldl (fun s r =>
    if s.carried p r then
      let (r, s) := (List.range r.segs).foldl (fun (a : Pending × State) k =>
        if (mget a.1.sent k).isNone then a.2.sendSegment a.1 k (some 0x0B) else a) (r, s)
      s.endRead r
    else { s with net := { s.net with reads := s.net.reads ++ [r] } }) { s with net := { s.net with reads := [] } }

/-- What a block loses with its registers (log entry 47): links, service, figures and counts that they show. -/
def State.blockLoses (s : State) (p : Nat) : State :=
  if 0x40 ≤ p && p < 0x50 then
    let m := p - 0x40
    let s := if s.memberUp m then s.dropMember m else s
    s.setMember m { s.member m with inWindow := false, outSince := none }
  else if p == ADT.page then (if s.flag ADT.ALIGNED then s.aditDown else s)
  else if 0x34 ≤ p && p < 0x37 then s.driftDown (p - 0x34) false
  else if p == QMG.page then
    { s with q := { s.q with
      fig := {}, scale := 65536, oversub := false, refigure := true, adm0Busy := false, adm0Done := false, adm0Segs := 0 } }
  else if p == WIN.page then { s with win := { s.win with hits := [], misses := [], pfUsed := [], wlb := [] } }
  else if 0xB2 ≤ p && p < 0xC8 then
    ({ s with key := { s.key with
      outCh := s.key.outCh.filter (· != p - 0xB2), chan := mdel s.key.chan (p - 0xB2)
      mismatches := mdel s.key.mismatches (p - 0xB2) } }).checkAdit.chansResume
  else s.blockOff p

/-- Does a block reset of page `p` restore the field of this key: datapath, management and block fields, ROS included? -/
def blockKey (p k : Nat) : Bool := keyPage k == p && (keyDom k == 0 || keyDom k == 1 || keyDom k == 3)

/-- BLOCK_RESET written 1 (R336, R402): from here on the wrapper answers for the block, which is out of service; what it carried
ends with ABORTED_BY_RESET. A shutdown that runs ends with it. -/
def State.blockReset (s : State) (p : Nat) : State :=
  if fixedPage p || s.flag (HDR.IN_RESET p) then s
  else
    let u := (((s.put (HDR.PENDING_OFF p) 0).put (HDR.REMEMBERED p) 0).put (HDR.ENABLE p) 0).put (HDR.IN_RESET p) 1
    s.lockA ((u.abortReads p).blockLoses p)

/-- A block reset ends (R336, R402): the registers at their reset values, the page locked. -/
def State.blockResetDone (s : State) (p : Nat) : State :=
  if !s.flag (HDR.IN_RESET p) then s
  else
    let s := (s.blockLoses p).clearRegs (blockKey p)
    if 0x60 ≤ p && p < 0xA0 then s.channelDown (p - 0x60) else s

/-! ## The header's commands (R403, R404) -/

/-- EXPERT_KEY written (R404). -/
def State.expertKey (s : State) (p v : Nat) : State :=
  if v == 0x5A5A then s.put (HDR.KEY_STEP p) 1
  else
    let s := if v == 0xA5A5 && s.flag (HDR.KEY_STEP p) then s.put (HDR.EXPERT p) 1 else s
    s.put (HDR.KEY_STEP p) 0

/-- EVT_PENDING written (R403, R409): the bits clear in EVT_RAW, and an interrupt still due is sent again. -/
def State.clearEvents (s : State) (p mask : Nat) : State :=
  let raw := s.get (HDR.EVT_RAW p)
  let s := s.put (HDR.EVT_RAW p) (raw - Nat.land raw mask)
  if s.pcieIrq then s.msix else s

/-! ## Fields with a rule of their own -/

/-- ALIGN_EN or FORCE_HOLDOVER written (R427): a search of the input that runs is given up. -/
def State.writeAlign (s : State) (f : Fld) (v : Nat) : State :=
  let s := s.put f v
  if s.usesEpoch then s
  else { s with ep := { s.ep with target := none, lastGood := none, agree := 0, returning := false } }

/-- MUS.VHC written (R186): only a lower value takes effect. -/
def State.writeVhc (s : State) (path : Path) (v : Nat) : State :=
  if v == s.vhc then s
  else if v < s.vhc then ({ s with mus := { s.mus with vhc := v } }).checkVhc.checkArmed
  else (s.raise MUS.page MUS.evVHC_RAISE).curatorFence path 4 (MUS.page * 4096 + 0x030)

/-- DECL_J written (R185, R362). -/
def State.writeDecl (s : State) (path : Path) (v : Nat) : State :=
  (s.declare path v).curatorFence path 3 (MUS.page * 4096 + 0x028)

/-- ACC.KEY_INST written, for the selected journal (R271). -/
def State.writeKeyInst (s : State) (v : Nat) : State :=
  let j := s.get ACC.JRN_SEL
  let x := s.jrn j
  if x.window.isSome || (v != 0 && s.acc.jrn.any fun e => e.1 != j && e.2.keyInst == v) then
    s.raise ACC.page ACC.evKEY_REJECT
  else s.setJrn j { x with keyInst := v }

/-- A reservation of a memory port written (R221): ignored where the reservations would pass m ÷ 2. -/
def State.writeRsv (s : State) (f : Fld) (v : Nat) : State :=
  if s.budgetM < 2 * 409600 * (s.rsvSum - s.get f + v) then s.raise CEL.page CEL.evRSV_REJECT
  else { s.put f v with q := { s.q with refigure := true } }

/-- A percentage of TIR written (R181): ignored unless each LO stays below its HI. -/
def State.writePct (s : State) (f : Fld) (v : Nat) : State :=
  let ok := if f == TIR.HOT_HI_PCT then s.get TIR.HOT_LO_PCT < v
    else if f == TIR.HOT_LO_PCT then v < s.get TIR.HOT_HI_PCT
    else if f == TIR.VHC_HI_PCT then s.get TIR.VHC_LO_PCT < v
    else v < s.get TIR.VHC_HI_PCT
  if ok then (s.put f v).manageTiers else s

/-- A field of the sequence table written (R325, R362): through SMBus, until the table is locked. -/
def State.writeTable (s : State) (path : Path) (f : Fld) (v : Nat) : State :=
  if path == .smbus && !s.pwr.locked then s.put f v else s

/-- Is a field one of the sequence table (R325)? -/
def tableField (f : Fld) : Bool := f.page == PSQ.page && f != PSQ.SEQ_GO && f != PSQ.PARK && f != PSQ.WAKE_SIG_EN

/-- SEQ_GO written 1 (R325, R326, R362). -/
def State.writeSeqGo (s : State) (path : Path) : State :=
  if path == .smbus then s.seqGo else s.curatorFence path 3 (PSQ.page * 4096 + 0x020)

/-- SW_DP written 1 (R334, R362). -/
def State.writeSwDp (s : State) (path : Path) : State :=
  match path with
  | .curator _ => s.curatorFence path 3 (RST.page * 4096 + 0x020)
  | _ => s.askReset 4 true

/-- The vector unmasked with its message pending: the message is sent (R409, R411). -/
def State.msixUnmask (s : State) : State :=
  if s.flag PCE.MSIX_PBA && s.flag PCE.MSIX_EN && !s.flag PCE.MSIX_MASKED && !bitOf (s.get PCE.MSIX_CTRL) 0 &&
      s.flag PCE.LINK_UP then (s.put PCE.MSIX_PBA 0).msix
  else s

/-- RESHAPE_CMD written with START set (R267): kind ADD or SPREAD; a reserved kind starts nothing. -/
def State.reshapeCmd (s : State) (w : Nat) : State :=
  if bitsOf w 1 2 == 0 then s.reshapeAdd
  else if bitsOf w 1 2 == 1 then s.reshapeSpread (bitsOf w 8 7)
  else s.reshapeReject

/-! ## What a write of a field does -/

/-- A value stored, and the figures computed again at the next boundary (R103). -/
def State.putFigure (s : State) (f : Fld) (v : Nat) : State := { s.put f v with q := { s.q with refigure := true } }

/-- Are frames of a tier in use (R229)? -/
def State.tierUsed (s : State) (warm : Bool) : Bool := !(s.usedFrames warm).isEmpty

/-- A write of a field of a page outside the blocks. `w` is the word written. -/
def State.writeFixed (s : State) (path : Path) (f : Fld) (v w : Nat) : State :=
  let p := f.page
  if p == SYS.page then (if f.off < 0x080 && 0x060 ≤ f.off then s.irqEdge (s.put f v) else s.put f v)
  else if p == RST.page then
    if f == RST.SW_MGMT then (if v == 1 && !(bitOf w 1 && (path == .pcie || path == .smbus)) then s.askReset 4 false else s)
    else if f == RST.SW_DP then (if v == 1 then s.writeSwDp path else s)
    else if (List.range 4).any fun x => f == RST.SRC x then (s.put f v).rstout
    else s.put f v
  else if p == PSQ.page then
    if f == PSQ.SEQ_GO then (if v == 1 then s.writeSeqGo path else s)
    else if f == PSQ.PARK then s.writePark (v == 1)
    else if f == PSQ.WAKE_SIG_EN then s.put f v
    else s.writeTable path f v
  else if p == CLK.page then
    if f == CLK.START then (if v == 1 then s.scanStart else s)
    else if f == CLK.RETRAIN_START then (if v == 1 then s.retrainStart else s)
    else s.put f v
  else if p == EPC.page then
    if f == EPC.ALIGN_EN || f == EPC.FORCE_HOLDOVER then s.writeAlign f v else s.put f v
  else if p == RTC.page then (if f == RTC.APPLY then (if v == 1 then s.calApply path else s) else s.put f v)
  else if p == NOR.page then
    if f == NOR.OP then (if v == 1 then s.norOp path false else if v == 2 then s.norOp path true else s)
    else if f == NOR.COMMIT_REQ then (if v == 1 then s.commitReq (bitOf w 1) else s)
    else if f == NOR.COMMIT_BANK then s
    else s.put f v
  else if p == CUR.page then
    if f == CUR.RUN then s.put f (setBit v 0 true)
    else if f == CUR.FW_READY then (s.put f v).raiseIf (v == 1 && !s.flag f) CUR.page CUR.evFW_READY_EVT
    else if (List.range 4).any fun c => f == CUR.WDT_EN c then (if v == 1 then s.put f 1 else s)
    else if (List.range 4).any fun c => f == CUR.WDT_PERIOD c && s.flag (CUR.WDT_EN c) then s
    else if (List.range 4).any fun c => f == CUR.WDT_KICK c then s.wdtKick v
    else s.put f v
  else if p == VIT.page then
    match path with
    | .curator _ => s
    | _ => if v == 1 then s.put f 1 else s
  else if p == THM.page && f == THM.THROTTLE_PCT then s.putFigure f v
  else if p == PCE.page then (s.put f v).msixUnmask
  else s.put f v

/-- A write of a field of a memory, tier or muster page. -/
def State.writeVolatile (s : State) (path : Path) (f : Fld) (v : Nat) : State :=
  let p := f.page
  if p == TIR.page then
    if 0x400 ≤ f.off then s.writePct f v
    else if f == TIR.DOM_SEL then s.put f v
    else (s.put f v).manageTiers
  else if p == MUS.page then
    if f == MUS.DECL_J then s.writeDecl path v
    else if f == MUS.VHC then s.writeVhc path v
    else if f == MUS.ARM then (if v == 1 then s.arm else s)
    else if f == MUS.AREA_GIB then (if s.mus.state == .unready then (s.put f v).checkVhc.checkArmed else s)
    else s.put f v
  else if p == CEL.page then
    if f == CEL.FILL_START then (if v == 1 then s.fillStart else s)
    else if f == CEL.HOT_ORDER || f == CEL.HOT_GRAIN || f == CEL.HOT_WAYS then (if s.tierUsed false then s else s.putFigure f v)
    else if f == CEL.WARM_ORDER || f == CEL.WARM_GRAIN || f == CEL.WARM_WAYS then (if s.tierUsed true then s else s.putFigure f v)
    else if f == CEL.EFF_PCT || f == CEL.HOST_RD_PCT then s.putFigure f v
    else if 0x500 ≤ f.off then s.writeRsv f v
    else s.put f v
  else if p < 0x48 then (if f == STK.DRAIN (p - 0x40) then s.setDrain (p - 0x40) (v == 1) else (s.put f v).showX2 (p - 0x40))
  else
    let n := p - 0x48
    if f == DCH.DRAIN n then s.setDrain (8 + n) (v == 1)
    else if f == DCH.FSP n then s.writeFsp n v
    else if f == DCH.RANK_EN n then (if s.counted p then s else s.put f v)
    else if f == DCH.FORCE_X2 n then (s.put f v).showX2 (8 + n)
    else s.put f v

/-- A write of a field of any other block page. -/
def State.writeBlock (s : State) (f : Fld) (v w : Nat) : State :=
  let p := f.page
  if p < 0x20 then
    if f == HP.MODE (p - 0x10) then (if s.counted p then s.raise p HP.evMODE_REJECT else s.put f v) else s.put f v
  else if p < 0x30 then
    if f.off == 0x020 then (if bitsOf w 0 16 == bitsOf w 16 16 then s else s.put f v)
    else (s.put f v).flushWaiting
  else if p == QMG.page then
    if f == QMG.ADM0_DOORBELL then (if v == 1 then s.doorbell else s)
    else if f == QMG.QCTX_SEL then s.put f v
    else s.putFigure f v
  else if p == CMT.page then
    if f == CMT.FORCE_FRESH && v == 1 then ({ s.put f v with cm := { (s.put f v).cm with forced := true } }).resumeAgain
    else s.put f v
  else if p == ADT.page then (s.put f v).checkAdit
  else if p == GNG.page then (if f == GNG.SIZE then (if s.counted p then s else s.put f v) else s.put f v)
  else if 0x34 ≤ p && p < 0x37 then
    if f == DFT.LINK_EN (p - 0x34) && v == 0 then (s.driftDown (p - 0x34) false).put f v else s.put f v
  else if 0x60 ≤ p && p < 0xA0 then (if f.off == 0x020 && s.counted p then s else s.put f v)
  else if p == PAR.page then
    if f == PAR.START then (if v == 1 then s.reshapeCmd w else s)
    else if f == PAR.KIND || f == PAR.NEW_SPREAD || f == PAR.CLEAR_DIE then s
    else if f == PAR.CLEAR_GO then
      if v == 1 then
        let (ok, s) := s.freeBit
        let counts := (List.range dieBlocks).map fun b => (b, Config.freeNat (s.free + b) % 2 ^ 32)
        ({ s with free := s.free + dieBlocks }).clearDie (bitsOf w 0 10) { ok := ok, erases := counts }
      else s
    else if f == PAR.REBUILD_EN then
      let t := s.put f v
      (if t.rebuilding && !s.rebuilding then t.rebuildLine else t).stepRebuild
    else s.put f v
  else if f == ACC.KEY_INST then s.writeKeyInst v
  else if f == CPH.STORE_KEY then s.writeStoreKey v
  else if f == KST.KS_FORMAT then (if v == 1 then s.ksFormat else s)
  else s.put f v

/-- A write of a field takes effect (R405), by its page. -/
def State.writeField (s : State) (path : Path) (f : Fld) (v w : Nat) : State :=
  if fixedPage f.page then s.writeFixed path f v w
  else if f.page == TIR.page || f.page == MUS.page || (0x40 ≤ f.page && f.page ≤ CEL.page) then s.writeVolatile path f v
  else s.writeBlock f v w

/-- What a field stores for a value written to it; `none` where such a write is ignored (R405). -/
def Fld.stores (f : Fld) (v : Nat) : Option Nat :=
  match f.treat with
  | .any => some v
  | .clamp lo hi => some (max lo (min hi v))
  | .ignore lo hi => if lo ≤ v && v ≤ hi then some v else none

/-- One field of a word written, by its access code (R405). -/
def State.setField (s : State) (path : Path) (f : Fld) (w : Nat) : State :=
  let v := bitsOf w f.lsb f.width
  if !s.fieldUp f then s
  else match f.acc with
    | .ro => s
    | .ros => s
    | .w1c => s.put f (s.get f - Nat.land (s.get f) v)
    | _ => match f.stores v with
      | some x => s.writeField path f x w
      | none => s

/-- The fields that a write of some of the word's fields reaches: an RWE field only while the page is unlocked; the
refusal is counted once (R404), as is a curator's attempt on a word of the sequence table (R362). -/
def State.setFields (s : State) (path : Path) (p off : Nat) (fs : List Fld) (w : Nat) : State :=
  let locked := !s.flag (HDR.EXPERT p)
  let s := if locked && fs.any (·.acc == .rwe) then s.denied path (p * 4096 + off) else s
  let s := if fs.any fun f => tableField f && f.acc == .rw then s.curatorFence path 3 (p * 4096 + off) else s
  (fs.filter fun f => !(locked && f.acc == .rwe)).foldr (fun f s => s.setField path f w) s

/-- A 32-bit word written to a page: the header's words, else the fields at the offset, those of the highest bits first,
and the snapshot that a selector takes (R400 to R408). -/
def State.setWord (s : State) (path : Path) (p off w : Nat) : State :=
  let up := s.fieldUp (HDR.ENABLE p)
  if off == 0x004 then
    if !up then s else if bitOf w 1 && !fixedPage p then s.blockReset p else s.writeEnable p (bitOf w 0)
  else if off == 0x010 then
    if !up then s else s.irqEdge (s.put (HDR.EVT_ENABLE p) (w % 2 ^ pageEvents p))
  else if off == 0x014 then if !up then s else s.clearEvents p w
  else if off == 0x018 then if !up then s else s.canaryWrite p w
  else if off == 0x01C then if !up then s else s.expertKey p w
  else
    let s := s.setFields path p off ((pageFields p).filter fun f => f.off == off) w
    ((tableWindows p).filter fun t => t.1 == off).foldl (fun s t => s.snapshot p t.2.1 t.2.2) s

/-- A register write on a path (R395, R396, R402): one aligned 32-bit word. -/
def State.regWrite (s : State) (path : Path) (addr w : Nat) : State :=
  let p := addr / 4096
  if !s.reaches path p then s
  else if (pageBase p).isNone then s.badAccess path addr 1
  else if s.flag (HDR.IN_RESET p) then s
  else s.setWord path p (addr % 4096) w

/-- A write that acts on one field alone, the others of its word as they stand: `act`, where the access reaches the field and
an expert field is unlocked (R395, R402, R404). -/
def State.regRun (s : State) (path : Path) (f : Fld) (act : State → State) : State :=
  if !s.reaches path f.page || s.flag (HDR.IN_RESET f.page) then s
  else if f.acc == .rwe && !s.flag (HDR.EXPERT f.page) then s.denied path (f.page * 4096 + f.off)
  else if s.fieldUp f then act s
  else s

/-! ## Reads -/

/-- The side effects of a read: a snapshot for word 0 of a window, the halves that a LO word latches, the Census cursor
(R374, R396, R408). -/
def State.readEffects (s : State) (p off : Nat) : State :=
  let s := match windowAt p off with
    | some (first, n) => if off == first then s.snapshot p first n else s
    | none => s
  let s := if p == CEN.page && 0x100 ≤ off && off ≤ 0x1FC then s.countStall 3 else s
  if p == RTC.page && off == 0x020 then
    [0x024, 0x028, 0x02C, 0x030].foldl (fun s o => s.put (HDR.LATCH p o) (s.liveWord p o true)) s
  else if p == CEN.page && off == 0x1FC then s.put CEN.CURSOR (min 65536 (s.get CEN.CURSOR + 1))
  else match s.hiOf p off with
    | some h => s.put (HDR.LATCH p off) h
    | none => s

/-- A register read that reaches its page: the word, and the state after it. -/
def State.readPage (s : State) (path : Path) (addr : Nat) : Nat × State :=
  let p := addr / 4096
  let off := addr % 4096
  match pageBase p with
  | none => (0, s.badAccess path addr 1)
  | some base =>
    if off < 0x020 then (s.headerWord p base off, s)
    else if s.flag (HDR.IN_RESET p) then (0, s)
    else
      let t := s.readEffects p off
      ((if p == CEN.page then s else t).pageWord p off, t)

/-- A register read on a path: `none` where nothing answers; a page out of reach over SMBus reads 0 (R385, R395). -/
def State.regRead (s : State) (path : Path) (addr : Nat) : Option Nat × State :=
  if s.reaches path (addr / 4096) then
    let (v, s) := s.readPage path addr
    (some v, s)
  else if path == .smbus && s.pwr.vsupOk then (some 0, s)
  else (none, s)

/-- A register read whose data are returned on its path: 0 for one that is not aligned, which is counted (R396). -/
def State.regFetch (s : State) (path : Path) (addr : Nat) : State :=
  if addr % 4 != 0 then
    if s.reaches path (addr / 4096) then (s.badAccess path addr 0).send (.regData path addr 0) else s
  else match s.regRead path addr with
  | (some v, s) => s.send (.regData path addr v)
  | (none, s) => s

end Sys2Proof.Machine
end

