-- ==== Sys2Proof/Machine/RegRows.lean ====
section
/-! DEFINITION. The commands that are register writes and reads, the SMBus target and the PCIe link (R395 to R413). -/

namespace Sys2Proof.Machine

/-! ## The SMBus target (R398) -/

/-- A transaction NAKed at its last byte: it changes nothing. -/
def State.smbusNak (s : State) : State := (s.inc SMB.NAKED).send .smbNak

/-- A transaction run unless its PEC is wrong, or missing where it is required: then it is discarded. -/
def State.smbusPec (s : State) (pec : Option Bool) (act : State → State) : State :=
  if pec == some false || (pec.isNone && s.flag SMB.PEC_REQ) then (s.inc SMB.PEC_ERR).raise SMB.page SMB.evPEC_ERR_EVT
  else (act s).inc SMB.TRANSACTIONS

/-- The 20-bit address in the first three bytes of a block, least significant byte first. DESIGN CHOICE: the reserved bits 23:20
are dropped, and the access is performed (log entry 67; R9 states no status for the target). -/
def smbusAddr (bytes : List Byte) : Nat := fieldLE bytes 0 3 % 2 ^ 20

/-- A block write of command 0x10 or 0x11, of `n` bytes: NAKed where the count or the alignment is wrong. -/
def State.smbusBlock (s : State) (n : Nat) (bytes : List Byte) (pec : Option Bool) (act : State → State) : State :=
  if bytes.length != n || smbusAddr bytes % 4 != 0 then s.smbusNak else s.smbusPec pec act

/-- A block read of command 0x12. -/
def State.smbusFetch (s : State) : State :=
  let (v, s) := s.regRead .smbus s.smb.ptr
  s.send (.smbData (bytesLE 4 (v.getD 0)))

/-! ## The PCIe link (R411) -/

/-- The link trains at a speed and width of R411, with the MSI-X enable and function mask of configuration space. -/
def State.pcieUp (s : State) (speed width : Nat) (msix masked : Bool) : State :=
  if !(1 ≤ speed && speed ≤ 5) || !(width == 1 || width == 2 || width == 4) then s
  else
    let was := s.flag PCE.LINK_UP
    let s := ((((s.put PCE.LINK_UP 1).put PCE.SPEED speed).put PCE.WIDTH width).putb PCE.MSIX_EN msix).putb PCE.MSIX_MASKED masked
    (s.raiseIf (!was) PCE.page PCE.evLINK_UP_EVT).msixUnmask

/-- The link falls. -/
def State.pcieDown (s : State) : State :=
  if s.flag PCE.LINK_UP then (s.put PCE.LINK_UP 0).raise PCE.page PCE.evLINK_DOWN else s

/-- A register write of R396: one aligned 32-bit word, or two of a PCIe write of 8 aligned bytes, lower address first; any
other is counted. -/
def State.registerWrite (s : State) (path : Path) (addr bytes : Nat) (full : Bool) (v : Nat) : State :=
  if bytes == 4 && full && addr % 4 == 0 then s.regWrite path addr (v % 2 ^ 32)
  else if bytes == 8 && full && addr % 8 == 0 && path == .pcie then
    (s.regWrite path addr (v % 2 ^ 32)).regWrite path (addr + 4) (v / 2 ^ 32 % 2 ^ 32)
  else if s.reaches path (addr / 4096) then s.badAccess path addr 0
  else s

/-! ## The commands: writes of one field -/

/-- ALIGN_EN (R427). -/
def execAlignEn (path : Path) (v : Bool) (s : State) : Result :=
  .next (s.whenSup fun s => s.regRun path EPC.ALIGN_EN fun s => s.writeAlign EPC.ALIGN_EN (b2n v))

/-- FORCE_HOLDOVER (R427). -/
def execForceHoldover (path : Path) (v : Bool) (s : State) : Result :=
  .next (s.whenSup fun s => s.regRun path EPC.FORCE_HOLDOVER fun s => s.writeAlign EPC.FORCE_HOLDOVER (b2n v))

/-- FILL_START (R214). -/
def execFillStart (path : Path) (s : State) : Result :=
  .next (s.whenSup fun s => s.regRun path CEL.FILL_START State.fillStart)

/-- DRAIN (R226). -/
def execDrain (path : Path) (m : MemberId) (v : Bool) (s : State) : Result :=
  .next (s.whenSup fun s => s.regRun path (if m.val < 8 then STK.DRAIN m.val else DCH.DRAIN (m.val - 8)) fun s => s.setDrain m.val v)

/-- FSP (R225). -/
def execFsp (path : Path) (n : Fin 8) (v : BitVec 2) (s : State) : Result :=
  .next (s.whenSup fun s => s.regRun path (DCH.FSP n.val) fun s => s.writeFsp n.val v.toNat)

/-- ARM (R200). -/
def execArm (path : Path) (s : State) : Result := .next (s.whenSup fun s => s.regRun path MUS.ARM State.arm)

/-- DECL_J (R185). -/
def execDeclJ (path : Path) (v : BitVec 16) (s : State) : Result :=
  .next (s.whenSup fun s => s.regRun path MUS.DECL_J fun s => s.writeDecl path v.toNat)

/-- VHC (R186). -/
def execVhc (path : Path) (v : BitVec 16) (s : State) : Result :=
  .next (s.whenSup fun s => s.regRun path MUS.VHC fun s => s.writeVhc path v.toNat)

/-- SEQ_GO (R325, R326). -/
def execSeqGo (path : Path) (s : State) : Result :=
  .next (s.whenSup fun s => s.regRun path PSQ.SEQ_GO fun s => s.writeSeqGo path)

/-- SW_MGMT (R334). -/
def execSwMgmt (path : Path) (s : State) : Result :=
  .next (s.whenSup fun s => s.regRun path RST.SW_MGMT fun s => s.askReset 4 false)

/-- SW_DP (R334). -/
def execSwDp (path : Path) (s : State) : Result :=
  .next (s.whenSup fun s => s.regRun path RST.SW_DP fun s => s.writeSwDp path)

/-- PARK (R343, R344). -/
def execPark (path : Path) (v : Bool) (s : State) : Result :=
  .next (s.whenSup fun s => s.regRun path PSQ.PARK fun s => s.writePark v)

/-- WDT_KICK (R361). -/
def execWdtKick (path : Path) (c : Fin 4) (v : Word) (s : State) : Result :=
  .next (s.whenSup fun s => s.regRun path (CUR.WDT_KICK c.val) fun s => s.wdtKick v.toNat)

/-- NOR_PROGRAM (R352). -/
def execNorProgram (path : Path) (s : State) : Result :=
  .next (s.whenSup fun s => s.regRun path NOR.OP fun s => s.norOp path false)

/-- NOR_ERASE (R352). -/
def execNorErase (path : Path) (s : State) : Result :=
  .next (s.whenSup fun s => s.regRun path NOR.OP fun s => s.norOp path true)

/-- COMMIT_REQ (R360). -/
def execCommitReq (path : Path) (bank : Bool) (s : State) : Result :=
  .next (s.whenSup fun s => s.regRun path NOR.COMMIT_REQ fun s => s.commitReq bank)

/-- KS_FORMAT (R288, R290). -/
def execKsFormat (path : Path) (s : State) : Result :=
  .next (s.whenSup fun s => s.regRun path KST.KS_FORMAT State.ksFormat)

/-- STORE_KEY (R296). -/
def execStoreKey (path : Path) (v : Word) (s : State) : Result :=
  .next (s.whenSup fun s => s.regRun path CPH.STORE_KEY fun s => s.writeStoreKey v.toNat)

/-- KEY_INST (R271). -/
def execKeyInst (path : Path) (v : Word) (s : State) : Result :=
  .next (s.whenSup fun s => s.regRun path ACC.KEY_INST fun s => s.writeKeyInst v.toNat)

/-- MSCAN_START (R320). -/
def execMscanStart (path : Path) (s : State) : Result :=
  .next (s.whenSup fun s => s.regRun path CLK.START State.scanStart)

/-- RETRAIN_START (R322). -/
def execRetrainStart (path : Path) (s : State) : Result :=
  .next (s.whenSup fun s => s.regRun path CLK.RETRAIN_START State.retrainStart)

/-- CLEAR_DIE (R258). -/
def execClearDie (path : Path) (die : BitVec 10) (answer : ClearAnswer) (s : State) : Result :=
  .next (s.whenSup fun s => s.regRun path PAR.CLEAR_GO fun s => s.clearDie die.toNat answer)

/-- RESHAPE_ADD (R267). -/
def execReshapeAdd (path : Path) (s : State) : Result :=
  .next (s.whenSup fun s => s.regRun path PAR.START State.reshapeAdd)

/-- RESHAPE_SPREAD (R267). -/
def execReshapeSpread (path : Path) (spread : BitVec 7) (s : State) : Result :=
  .next (s.whenSup fun s => s.regRun path PAR.START fun s => s.reshapeSpread spread.toNat)

/-- APPLY (R379). -/
def execApply (path : Path) (s : State) : Result :=
  .next (s.whenSup fun s => s.regRun path RTC.APPLY fun s => s.calApply path)

/-! ## The commands: the page header -/

/-- CANARY_FIRE (R391, R392). -/
def execCanaryFire (path : Path) (page : Byte) (v : Word) (s : State) : Result :=
  .next (s.whenSup fun s => s.regWrite path (page.toNat * 4096 + 0x018) v.toNat)

/-- What the dies of a flash channel's page answer (R231). -/
def State.fitDies (s : State) (p : Nat) (dies : DieAnswers) : State :=
  if 0x60 ≤ p && p < 0xA0 then { s with fl := { s.fl with board := mset {} s.fl.board (p - 0x60) dies } } else s

/-- ENABLE (R401). -/
def execEnable (path : Path) (page : Byte) (w : EnableWrite) (s : State) : Result :=
  .next (s.whenSup fun s => (s.fitDies page.toNat w.dies).regWrite path (page.toNat * 4096 + 0x004) (b2n w.on))

/-- SHUTDOWN_DONE (R401). -/
def execShutdownDone (page : Byte) (s : State) : Result := .next (s.whenDp fun s => s.shutdownDone page.toNat)

/-- BLOCK_RESET (R402). -/
def execBlockReset (path : Path) (page : Byte) (s : State) : Result :=
  .next (s.whenSup fun s => s.regWrite path (page.toNat * 4096 + 0x004) 2)

/-- BLOCK_RESET_DONE (R402). -/
def execBlockResetDone (page : Byte) (s : State) : Result := .next (s.whenDp fun s => s.blockResetDone page.toNat)

/-- EXPERT_KEY (R404). -/
def execExpertKey (path : Path) (page : Byte) (v : Word) (s : State) : Result :=
  .next (s.whenSup fun s => s.regWrite path (page.toNat * 4096 + 0x01C) v.toNat)

/-- EVT_PENDING_CLEAR (R403, R409). -/
def execEvtPendingClear (path : Path) (page : Byte) (mask : Word) (s : State) : Result :=
  .next (s.whenSup fun s => s.regWrite path (page.toNat * 4096 + 0x014) mask.toNat)

/-! ## The commands: other accesses -/

/-- SELECTOR_WRITE (R408). -/
def execSelectorWrite (path : Path) (addr : BitVec 20) (v : Word) (s : State) : Result :=
  .next (s.whenSup fun s => s.registerWrite path addr.toNat 4 true v.toNat)

/-- WINDOW_WORD0_READ (R408). -/
def execWindowWord0Read (path : Path) (addr : BitVec 20) (s : State) : Result :=
  .next (s.whenSup fun s => s.regFetch path addr.toNat)

/-- LATCHING_LO_READ (R396). -/
def execLatchingLoRead (path : Path) (addr : BitVec 20) (s : State) : Result :=
  .next (s.whenSup fun s => s.regFetch path addr.toNat)

/-- CENSUS_WINDOW_READ (R374): a read of WIN_63. -/
def execCensusWindowRead (path : Path) (s : State) : Result :=
  .next (s.whenSup fun s => s.regFetch path (CEN.page * 4096 + 0x1FC))

/-- REGISTER_WRITE (R396, R405). -/
def execRegisterWrite (path : Path) (addr : BitVec 20) (bytes : Nat) (full : Bool) (v : Long) (s : State) : Result :=
  .next (s.whenSup fun s => s.registerWrite path addr.toNat bytes full v.toNat)

/-- SMBUS_WRITE (R398): command 0x10. -/
def execSmbusWrite (bytes : List Byte) (pec : Option Bool) (s : State) : Result :=
  .next (s.whenSup fun s => s.smbusBlock 7 bytes pec fun s => s.regWrite .smbus (smbusAddr bytes) (fieldLE bytes 3 4))

/-- SMBUS_SET_POINTER (R398): command 0x11. -/
def execSmbusSetPointer (bytes : List Byte) (pec : Option Bool) (s : State) : Result :=
  .next (s.whenSup fun s => s.smbusBlock 3 bytes pec fun s => { s with smb := { s.smb with ptr := smbusAddr bytes } })

/-- SMBUS_READ (R398): command 0x12. -/
def execSmbusRead (pec : Option Bool) (s : State) : Result := .next (s.whenSup fun s => s.smbusPec pec State.smbusFetch)

/-- SMBUS_TIMEOUT (R398). -/
def execSmbusTimeout (s : State) : Result :=
  .next (s.whenSup fun s => (s.inc SMB.TIMEOUTS).raise SMB.page SMB.evTIMEOUT_EVT)

/-- PCIE_LINK_UP (R411, R412). -/
def execPcieLinkUp (link : PcieLink) (msix : MsixConfig) (s : State) : Result :=
  .next (s.whenSup fun s => s.pcieUp link.speed.toNat link.width.toNat msix.enable msix.masked)

/-- PCIE_LINK_DOWN (R411, R412). -/
def execPcieLinkDown (s : State) : Result := .next (s.whenSup State.pcieDown)

end Sys2Proof.Machine
end

