-- ==== Sys2Proof/Machine/Dispatch.lean ====
section
/-! DEFINITION. Which meaning each command has: one arm per constructor. -/

namespace Sys2Proof.Machine

def exec (i : Instr) (s : State) : Host.Outcome State Fault Refusal :=
  match i with
  | .epochFrame edge bits => Sys2Proof.Machine.execEpochFrame edge bits s
  | .epochBoundary edge env => Sys2Proof.Machine.execEpochBoundary edge env s
  | .expectedTimeBoundary env => Sys2Proof.Machine.execExpectedTimeBoundary env s
  | .relayedBoundary env => Sys2Proof.Machine.execRelayedBoundary env s
  | .holdoverBoundary env => Sys2Proof.Machine.execHoldoverBoundary env s
  | .alignEn path v => Sys2Proof.Machine.execAlignEn path v s
  | .forceHoldover path v => Sys2Proof.Machine.execForceHoldover path v s
  | .hostFrameDrop d => Sys2Proof.Machine.execHostFrameDrop d s
  | .arpRequest f target => Sys2Proof.Machine.execArpRequest f target s
  | .neighborSolicitation f target => Sys2Proof.Machine.execNeighborSolicitation f target s
  | .pfcFrame link enable quanta => Sys2Proof.Machine.execPfcFrame link enable quanta s
  | .pfcHeld link prio => Sys2Proof.Machine.execPfcHeld link prio s
  | .hostLinkDown e => Sys2Proof.Machine.execHostLinkDown e s
  | .hostLinkUp e => Sys2Proof.Machine.execHostLinkUp e s
  | .read d => Sys2Proof.Machine.execRead d s
  | .write d => Sys2Proof.Machine.execWrite d s
  | .cas8 d => Sys2Proof.Machine.execCas8 d s
  | .cas16 d => Sys2Proof.Machine.execCas16 d s
  | .fadd8 d => Sys2Proof.Machine.execFadd8 d s
  | .flush d => Sys2Proof.Machine.execFlush d s
  | .sectorRead d => Sys2Proof.Machine.execSectorRead d s
  | .sectorWrite d => Sys2Proof.Machine.execSectorWrite d s
  | .discard d => Sys2Proof.Machine.execDiscard d s
  | .append d => Sys2Proof.Machine.execAppend d s
  | .seal d => Sys2Proof.Machine.execSeal d s
  | .recordRead d => Sys2Proof.Machine.execRecordRead d s
  | .identify d => Sys2Proof.Machine.execIdentify d s
  | .getLogPage d => Sys2Proof.Machine.execGetLogPage d s
  | .getFeature d => Sys2Proof.Machine.execGetFeature d s
  | .setFeature d => Sys2Proof.Machine.execSetFeature d s
  | .firmwareDownload d => Sys2Proof.Machine.execFirmwareDownload d s
  | .firmwareCommit d => Sys2Proof.Machine.execFirmwareCommit d s
  | .queueCreate d => Sys2Proof.Machine.execQueueCreate d s
  | .queueDelete d => Sys2Proof.Machine.execQueueDelete d s
  | .queueRestart d => Sys2Proof.Machine.execQueueRestart d s
  | .domainCreate d => Sys2Proof.Machine.execDomainCreate d s
  | .domainDelete d => Sys2Proof.Machine.execDomainDelete d s
  | .setQuota d => Sys2Proof.Machine.execSetQuota d s
  | .domainQuery d => Sys2Proof.Machine.execDomainQuery d s
  | .openWindow d => Sys2Proof.Machine.execOpenWindow d s
  | .revoke d => Sys2Proof.Machine.execRevoke d s
  | .modify d => Sys2Proof.Machine.execModify d s
  | .close d => Sys2Proof.Machine.execClose d s
  | .windowQuery d => Sys2Proof.Machine.execWindowQuery d s
  | .load payload => Sys2Proof.Machine.execLoad payload s
  | .unload payload => Sys2Proof.Machine.execUnload payload s
  | .keyQuery payload => Sys2Proof.Machine.execKeyQuery payload s
  | .censusRead d => Sys2Proof.Machine.execCensusRead d s
  | .censusClear d => Sys2Proof.Machine.execCensusClear d s
  | .clockSet d => Sys2Proof.Machine.execClockSet d s
  | .muster d => Sys2Proof.Machine.execMuster d s
  | .adm0Doorbell path time request => Sys2Proof.Machine.execAdm0Doorbell path time request s
  | .tally f => Sys2Proof.Machine.execTally f s
  | .tallyDeadline time => Sys2Proof.Machine.execTallyDeadline time s
  | .repair f => Sys2Proof.Machine.execRepair f s
  | .unionWhole f => Sys2Proof.Machine.execUnionWhole f s
  | .relay f => Sys2Proof.Machine.execRelay f s
  | .resume f => Sys2Proof.Machine.execResume f s
  | .rehome f => Sys2Proof.Machine.execRehome f s
  | .depart f => Sys2Proof.Machine.execDepart f s
  | .yield f => Sys2Proof.Machine.execYield f s
  | .resend f => Sys2Proof.Machine.execResend f s
  | .aditLinkUp roundTrip peerBase => Sys2Proof.Machine.execAditLinkUp roundTrip peerBase s
  | .aditAlignLost => Sys2Proof.Machine.execAditAlignLost s
  | .commitKey epoch key cells => Sys2Proof.Machine.execCommitKey epoch key cells s
  | .writePlaced epoch key time => Sys2Proof.Machine.execWritePlaced epoch key time s
  | .revokeDone window => Sys2Proof.Machine.execRevokeDone window s
  | .pairTmo => Sys2Proof.Machine.execPairTmo s
  | .moveCommit extent cells => Sys2Proof.Machine.execMoveCommit extent cells s
  | .flashGroupProgrammed log failed => Sys2Proof.Machine.execFlashGroupProgrammed log failed s
  | .rowHoldExpiry log => Sys2Proof.Machine.execRowHoldExpiry log s
  | .mergeDone lb failed unreadable => Sys2Proof.Machine.execMergeDone lb failed unreadable s
  | .pageReadDone p => Sys2Proof.Machine.execPageReadDone p s
  | .reconAt p => Sys2Proof.Machine.execReconAt p s
  | .readTimeout time late => Sys2Proof.Machine.execReadTimeout time late s
  | .stackTempRead n celsius => Sys2Proof.Machine.execStackTempRead n celsius s
  | .mrTempRead n rank levels => Sys2Proof.Machine.execMrTempRead n rank levels s
  | .caParity m again => Sys2Proof.Machine.execCaParity m again s
  | .dllOut d time err => Sys2Proof.Machine.execDllOut d time err s
  | .dllTimeout m => Sys2Proof.Machine.execDllTimeout m s
  | .fillStart path => Sys2Proof.Machine.execFillStart path s
  | .fillDone => Sys2Proof.Machine.execFillDone s
  | .drain path m v => Sys2Proof.Machine.execDrain path m v s
  | .fsp path n v => Sys2Proof.Machine.execFsp path n v s
  | .pfail time low => Sys2Proof.Machine.execPfail time low s
  | .musterCommitEnd time => Sys2Proof.Machine.execMusterCommitEnd time s
  | .musterImageDone r => Sys2Proof.Machine.execMusterImageDone r s
  | .musterDone => Sys2Proof.Machine.execMusterDone s
  | .restoreDone blocksOk ms => Sys2Proof.Machine.execRestoreDone blocksOk ms s
  | .areaReady => Sys2Proof.Machine.execAreaReady s
  | .arm path => Sys2Proof.Machine.execArm path s
  | .declJ path v => Sys2Proof.Machine.execDeclJ path v s
  | .vhc path v => Sys2Proof.Machine.execVhc path v s
  | .serviceOpen => Sys2Proof.Machine.execServiceOpen s
  | .seqGo path => Sys2Proof.Machine.execSeqGo path s
  | .conversion time ch volts => Sys2Proof.Machine.execConversion time ch volts s
  | .seqDelay => Sys2Proof.Machine.execSeqDelay s
  | .seqUpTimeout => Sys2Proof.Machine.execSeqUpTimeout s
  | .disTimeout => Sys2Proof.Machine.execDisTimeout s
  | .vsupLow => Sys2Proof.Machine.execVsupLow s
  | .powerOnReset gangId twinPos energyEn => Sys2Proof.Machine.execPowerOnReset gangId twinPos energyEn s
  | .resetNAssert low => Sys2Proof.Machine.execResetNAssert low s
  | .resetNRelease => Sys2Proof.Machine.execResetNRelease s
  | .swMgmt path => Sys2Proof.Machine.execSwMgmt path s
  | .swDp path => Sys2Proof.Machine.execSwDp path s
  | .clockFail time => Sys2Proof.Machine.execClockFail time s
  | .synLockReturn => Sys2Proof.Machine.execSynLockReturn s
  | .rstoutStretch x => Sys2Proof.Machine.execRstoutStretch x s
  | .thermalRead time readings => Sys2Proof.Machine.execThermalRead time readings s
  | .throttleOff => Sys2Proof.Machine.execThrottleOff s
  | .park path v => Sys2Proof.Machine.execPark path v s
  | .parked => Sys2Proof.Machine.execParked s
  | .signalWake port => Sys2Proof.Machine.execSignalWake port s
  | .awake => Sys2Proof.Machine.execAwake s
  | .watchdog c => Sys2Proof.Machine.execWatchdog c s
  | .wdtKick path c v => Sys2Proof.Machine.execWdtKick path c v s
  | .lockup c => Sys2Proof.Machine.execLockup c s
  | .bootVerify ms => Sys2Proof.Machine.execBootVerify ms s
  | .norProgram path => Sys2Proof.Machine.execNorProgram path s
  | .norErase path => Sys2Proof.Machine.execNorErase path s
  | .norOpDone bank => Sys2Proof.Machine.execNorOpDone bank s
  | .commitReq path bank => Sys2Proof.Machine.execCommitReq path bank s
  | .commitDone => Sys2Proof.Machine.execCommitDone s
  | .markProgrammed => Sys2Proof.Machine.execMarkProgrammed s
  | .alarm cause => Sys2Proof.Machine.execAlarm cause s
  | .entFail => Sys2Proof.Machine.execEntFail s
  | .drbgHalt => Sys2Proof.Machine.execDrbgHalt s
  | .reseedDone => Sys2Proof.Machine.execReseedDone s
  | .ksFormat path => Sys2Proof.Machine.execKsFormat path s
  | .storeKey path v => Sys2Proof.Machine.execStoreKey path v s
  | .keyInst path v => Sys2Proof.Machine.execKeyInst path v s
  | .mscanStart path => Sys2Proof.Machine.execMscanStart path s
  | .mscanDone lanes => Sys2Proof.Machine.execMscanDone lanes s
  | .retrainStart path => Sys2Proof.Machine.execRetrainStart path s
  | .retrainDone codes => Sys2Proof.Machine.execRetrainDone codes s
  | .clearDie path die answer => Sys2Proof.Machine.execClearDie path die answer s
  | .reshapeAdd path => Sys2Proof.Machine.execReshapeAdd path s
  | .reshapeSpread path spread => Sys2Proof.Machine.execReshapeSpread path spread s
  | .driftLinkUp j roundTrip pos size devId twinId capacityGib => Sys2Proof.Machine.execDriftLinkUp j roundTrip pos size devId twinId capacityGib s
  | .driftLinkDown j => Sys2Proof.Machine.execDriftLinkDown j s
  | .fwdDgram j f => Sys2Proof.Machine.execFwdDgram j f s
  | .fwdAnswer j f => Sys2Proof.Machine.execFwdAnswer j f s
  | .table j f => Sys2Proof.Machine.execTable j f s
  | .placeEnd j f => Sys2Proof.Machine.execPlaceEnd j f s
  | .memRead j r => Sys2Proof.Machine.execMemRead j r s
  | .memData j f => Sys2Proof.Machine.execMemData j f s
  | .memPlace j f => Sys2Proof.Machine.execMemPlace j f s
  | .summary => Sys2Proof.Machine.execSummary s
  | .censusToken code => Sys2Proof.Machine.execCensusToken code s
  | .censusWindowRead path => Sys2Proof.Machine.execCensusWindowRead path s
  | .calendarTick => Sys2Proof.Machine.execCalendarTick s
  | .oscFail => Sys2Proof.Machine.execOscFail s
  | .apply path => Sys2Proof.Machine.execApply path s
  | .vitrineN low => Sys2Proof.Machine.execVitrineN low s
  | .vitrine => Sys2Proof.Machine.execVitrine s
  | .idcode => Sys2Proof.Machine.execIdcode s
  | .samplePreload pins preload => Sys2Proof.Machine.execSamplePreload pins preload s
  | .extest => Sys2Proof.Machine.execExtest s
  | .clamp => Sys2Proof.Machine.execClamp s
  | .highz => Sys2Proof.Machine.execHighz s
  | .extestPulse => Sys2Proof.Machine.execExtestPulse s
  | .extestTrain => Sys2Proof.Machine.execExtestTrain s
  | .scanSel chain => Sys2Proof.Machine.execScanSel chain s
  | .scanRead bits => Sys2Proof.Machine.execScanRead bits s
  | .chainLen => Sys2Proof.Machine.execChainLen s
  | .dbgReset v => Sys2Proof.Machine.execDbgReset v s
  | .vitStatus => Sys2Proof.Machine.execVitStatus s
  | .bypass code => Sys2Proof.Machine.execBypass code s
  | .canaryFire path page v => Sys2Proof.Machine.execCanaryFire path page v s
  | .enable path page w => Sys2Proof.Machine.execEnable path page w s
  | .shutdownDone page => Sys2Proof.Machine.execShutdownDone page s
  | .blockReset path page => Sys2Proof.Machine.execBlockReset path page s
  | .blockResetDone page => Sys2Proof.Machine.execBlockResetDone page s
  | .expertKey path page v => Sys2Proof.Machine.execExpertKey path page v s
  | .evtPendingClear path page mask => Sys2Proof.Machine.execEvtPendingClear path page mask s
  | .selectorWrite path addr v => Sys2Proof.Machine.execSelectorWrite path addr v s
  | .windowWord0Read path addr => Sys2Proof.Machine.execWindowWord0Read path addr s
  | .latchingLoRead path addr => Sys2Proof.Machine.execLatchingLoRead path addr s
  | .registerWrite path addr bytes full v => Sys2Proof.Machine.execRegisterWrite path addr bytes full v s
  | .smbusWrite bytes pec => Sys2Proof.Machine.execSmbusWrite bytes pec s
  | .smbusSetPointer bytes pec => Sys2Proof.Machine.execSmbusSetPointer bytes pec s
  | .smbusRead pec => Sys2Proof.Machine.execSmbusRead pec s
  | .smbusTimeout => Sys2Proof.Machine.execSmbusTimeout s
  | .pcieLinkUp link msix => Sys2Proof.Machine.execPcieLinkUp link msix s
  | .pcieLinkDown => Sys2Proof.Machine.execPcieLinkDown s
  | .relayMarkerMissing env => Sys2Proof.Machine.execRelayMarkerMissing env s
  | .dllBackInWindow d time err => Sys2Proof.Machine.execDllBackInWindow d time err s
  | .hiBer link => Sys2Proof.Machine.execHiBer link s
  | .invalidOpcode d op => Sys2Proof.Machine.execInvalidOpcode d op s

end Sys2Proof.Machine
end

