-- ==== Sys2Proof/Safety.lean ====
section
/-! DEFINITION. The terms that claims use: what a command answers, what it leaves as it was, when a register write reaches its
field, and the invariant of data service. -/

namespace Sys2Proof.Machine

/-- The command is answered with a next state of which `P` holds. -/
def State.answers (s : State) (c : Instr) (P : State → Prop) : Prop := ∃ t, exec c s = .next t ∧ P t

/-- The command leaves `t`, with data service judged by R13 and the queue of `s`. -/
def State.gives (s : State) (c : Instr) (t : State) : Prop := exec c s = .next (s.settled t)

/-- Every byte of memory reads as before. -/
def State.sameMemory (s t : State) : Prop := ∀ a, Memory.read t.mem a = Memory.read s.mem a

/-- What sending the frames that the links still hold may write: the links' TX_FRAMES, the counters of cipher channel AC_0 and
its event register (R152, R170, R300). -/
def linkFields : List Fld :=
  [ADT.TX_FRAMES, DFT.TX_FRAMES 0, DFT.TX_FRAMES 1, DFT.TX_FRAMES 2, CCH.BLOCKS 16, CCH.MESSAGES 16, CCH.SUSPENDS 16,
    CPH.SUSPENDS]

/-- Every register field reads as before, but for those named, for what judging data service may write (SYS.OPEN, the event
register of SYS and the pending bit of the MSI-X vector: R13, R403, R409), and for what the sending of frames may. -/
def State.sameRegs (s t : State) (but : List Fld) : Prop :=
  ∀ f : Fld, (∀ g ∈ but ++ linkFields ++ [HDR.EVT_RAW (CCH.page 16), SYS.OPEN, HDR.EVT_RAW SYS.page, PCE.MSIX_PBA],
    f.key ≠ g.key) → t.get f = s.get f

/-- The commit unit holds what it held, but for the frames that the adit link has sent, or discarded, since. -/
def State.sameCommit (s t : State) : Prop := { t.cm with txq := s.cm.txq, txSeq := s.cm.txSeq, kept := s.cm.kept } = s.cm

/-- The key unit holds what it held, but for what the cipher channels hold of messages in work, and the generator's requests for
them. -/
def State.sameKeys (s t : State) : Prop := { t.key with chan := s.key.chan, drbgReqs := s.key.drbgReqs } = s.key

/-- Does a freeze end anything that is held or waits (R96)? -/
def State.frozenCut (s : State) : Bool := s.net.held.any s.frozenAfter || s.net.reads.any fun p => s.frozenAfter p.req

/-- Would a freeze of queue `n` end anything that is held or waits, or does one that stands? -/
def State.freezeCuts (s : State) (n : Nat) : Bool :=
  s.frozenCut || (s.queue n).cls == 2 &&
    (s.net.held.any (fun r => r.hdr.qid.toNat == n) || s.net.reads.any fun p => p.req.hdr.qid.toNat == n)

/-- Does a write on the path reach the field and take effect: the path reaches the page, the page is not in a block reset, an
expert field is unlocked, and the field's domain runs (R395, R402, R404)? -/
def State.canWrite (s : State) (path : Path) (f : Fld) : Bool :=
  s.pwr.vsupOk && s.reaches path f.page && !s.flag (HDR.IN_RESET f.page) && (f.acc != .rwe || s.flag (HDR.EXPERT f.page)) &&
    s.fieldUp f

/-- Does a word written to page `p` on the path reach the page's header (R395, R396, R402)? -/
def State.canWritePage (s : State) (path : Path) (p : Nat) : Bool :=
  s.pwr.vsupOk && s.reaches path p && (pageBase p).isSome && !s.flag (HDR.IN_RESET p) && s.fieldUp (HDR.ENABLE p)

/-- Is an SMBus transaction with this PEC carried out: right where there is one, and not missing where one is required
(R398)? -/
def State.pecGood (s : State) (pec : Option Bool) : Bool := pec == some true || (pec.isNone && !s.flag SMB.PEC_REQ)

/-! ## Requests from hosts -/

/-- The datagram that a request's row sends, with the ACTION of its row (R112, R115), and its OPCODE (R83). -/
def hostRow : Instr → Option (Dgram × Nat)
  | .read d => some (d, 0x01)
  | .write d => some (d, 0x02)
  | .cas8 d => some (d, 0x03)
  | .cas16 d => some (d, 0x04)
  | .fadd8 d => some (d, 0x05)
  | .flush d => some (d, 0x06)
  | .sectorRead d => some (d, 0x08)
  | .sectorWrite d => some (d, 0x09)
  | .discard d => some (d, 0x0A)
  | .append d => some (d, 0x10)
  | .seal d => some (d, 0x11)
  | .recordRead d => some (d, 0x12)
  | .identify d => some (d, 0x20)
  | .getLogPage d => some (d, 0x21)
  | .getFeature d => some (d, 0x22)
  | .setFeature d => some (d, 0x23)
  | .firmwareDownload d => some (d, 0x24)
  | .firmwareCommit d => some (d, 0x25)
  | .queueCreate d => some (d, 0x26)
  | .queueDelete d => some (d, 0x27)
  | .queueRestart d => some (d, 0x28)
  | .domainCreate d => some (withAction d 0, 0x29)
  | .domainDelete d => some (withAction d 1, 0x29)
  | .setQuota d => some (withAction d 2, 0x29)
  | .domainQuery d => some (withAction d 3, 0x29)
  | .openWindow d => some (withAction d 0, 0x2A)
  | .revoke d => some (withAction d 1, 0x2A)
  | .modify d => some (withAction d 2, 0x2A)
  | .close d => some (withAction d 3, 0x2A)
  | .windowQuery d => some (withAction d 4, 0x2A)
  | .censusRead d => some (d, 0x2C)
  | .censusClear d => some (d, 0x2D)
  | .clockSet d => some (d, 0x2E)
  | .muster d => some (d, 0x2F)
  | .invalidOpcode d op => some (d, op.toNat)
  | _ => none

/-- Does the device receive from hosts: no muster has stopped host ingress, and it is neither parked nor parking (R190,
R343)? -/
def State.receives (s : State) : Bool :=
  s.dpUp && !s.mus.stopped && s.pwr.park != .parked && s.pwr.park != .parking

/-- Does a datagram in clear pass steps 1 to 3 of R52 up to its ICRC: its link up, the frame good, sent to UDP_PORT, whole? -/
def State.arrives (s : State) (d : Dgram) : Bool :=
  s.receives && s.linkUp d.frame.link && d.frame.fcsOk && !s.frameBad d.frame &&
    d.frame.dstPort.toNat == s.get (XPT.UDP_PORT d.frame.link.port.val) &&
    d.frame.dstPort.toNat != s.get (XPT.UDP_PORT_SEALED d.frame.link.port.val) && !d.cut && d.sealing.isNone

/-- Does a datagram in clear pass steps 1 to 3 of R52, and step 4: it is for this device's board or its twin's? -/
def State.reachesChecks (s : State) (d : Dgram) (op : Nat) : Bool :=
  s.arrives d && icrcOk d op && d.hdr.typ == 0 && !s.flag (XPT.SEAL_REQUIRED d.frame.link.port.val) &&
    (d.hdr.dstDev.toNat == s.get GNG.DEV_ID || d.hdr.dstDev.toNat == s.get GNG.TWIN_DEV_ID) && s.inMask d.hdr

/-- Does it pass steps 5 to 9 as well: service open for its queue, the queue ACTIVE with its key and sender, the request new, in
the queue's credit, and within the table (R52, R56, R60)? -/
def State.hears (s : State) (d : Dgram) (op : Nat) : Bool :=
  let h := d.hdr
  let n := h.qid.toNat
  let q := s.queue n
  s.reachesChecks d op && (s.cm.twin == .paired || s.cm.twin == .alone) && (n < 16 || s.serviceUp && s.gangOk) && n != 0 &&
    q.state == .active && q.key == h.qkey.toNat && q.srcEp == h.srcEp.toNat && (s.entry h.key).isNone &&
    precedes q.floor h.seq.toNat && !precedes (s.credit n) h.seq.toNat && s.net.count + 1 ≤ 131072 - s.net.excess

/-- The request that a datagram in clear brings. -/
def State.reqOf (s : State) (d : Dgram) (op : Nat) : Req :=
  { hdr := d.hdr, op := op, payload := d.payload, time := d.frame.time, epoch := s.ep.num, arrived := s.ep.num
    ret := some (retAddr d false none), cells := d.cells }

/-- Does a request pass steps 10 and 11 (R83, R121)? -/
def State.judgedGood (s : State) (d : Dgram) (op : Nat) : Bool :=
  (s.step10 (s.reqOf d op) 0).isNone &&
    (!windowed op || (s.ingress11 d.hdr op (s.queue d.hdr.qid.toNat).domain).1.isNone)

/-- Does step 12 let in a state-changing request at once (R99, R131, R179, R243, R278): nothing is held, no muster has stopped
admission, allowances and staging have room, and every extent it writes is in DRAM and not moving? -/
def State.admitsNow (s : State) (d : Dgram) (op : Nat) : Bool :=
  let r := s.reqOf d op
  s.net.held.isEmpty && !s.mus.stopped && (s.queue d.hdr.qid.toNat).allows (s.charges r) && s.stageRoom r &&
    (op != 0x10 || 0 ≤ s.acc.tagAl) && (op != 0x0A || 0 < s.logsFree) &&
    match s.storeSpan r with
    | none => true
    | some (ga, n) => ((s.localPieces ga n).flatMap fun q => extentsIn q.1 q.2.1).all fun e => match s.extent e with
      | some x => x.isVolatile && x.move.isNone
      | none => false

/-- Is a range of gang addresses all here, in hot frames, with no poison, with no staged write over it and no earlier write
still to be placed in it? -/
def State.readableNow (s : State) (ga n : Nat) : Bool :=
  (s.remotePieces ga n).isEmpty && !s.stagedMeets ga n &&
    (s.localPieces ga n).all fun q =>
      !s.heldBack q.1 q.2.1 && ((extentsIn q.1 q.2.1).all fun e => match s.extent e with
        | some x => (match x.home with
          | .hot _ => true
          | _ => false)
        | none => false) && (sectorsIn q.1 q.2.1).all fun x => !s.poisoned x

/-! ## Frames of the adit link -/

/-- The frame that a row of the adit link receives, and its TYPE (R152). -/
def aditRow : Instr → Option (LinkFrame × Nat)
  | .tally f => some (f, 1)
  | .repair f => some (f, 2)
  | .unionWhole f => some (f, 3)
  | .relay f => some (f, 4)
  | .resume f => some (f, 5)
  | .rehome f => some (f, 6)
  | .depart f => some (f, 7)
  | .yield f => some (f, 8)
  | .resend f => some (f, 9)
  | _ => none

/-- Is a frame of the link in clear good and the next one expected (R152, R153)? -/
def State.nextFrame (s : State) (f : LinkFrame) (typ : Nat) : Bool :=
  s.dpUp && s.flag ADT.LINK_UP && !s.flag ADT.SEAL_EN && f.crcOk typ && f.tag.isEmpty && (!s.cm.rxAny || f.fseq.toNat == s.cm.rxSeq)

/-- The state in which such a frame's content acts: counted, and the next frame number expected. -/
def State.tookFrame (s : State) (f : LinkFrame) : State :=
  let u := ((s.at f.time).aditFec f.fecCorr f.fecUncorr).inc ADT.RX_FRAMES
  { u with cm := { u.cm with rxSeq := (f.fseq.toNat + 1) % 2 ^ 32, rxAny := true } }

/-! ## The epoch frame as a source sends it (R16 to R20) -/

/-- `n` bits of a number, most significant first. -/
def msbBits (n v : Nat) : List Bool := (List.range n).map fun i => bitOf v (n - 1 - i)

/-- Bits with a 0 stuffed after every run of seven ones, `ones` of which stand before them (R18). -/
def stuff : Nat → List Bool → List Bool
  | ones, [] => if ones = 7 then [false] else []
  | ones, b :: bs =>
    if ones = 7 then false :: b :: stuff (if b then 1 else 0) bs else b :: stuff (if b then ones + 1 else 0) bs

/-- An epoch frame's bits: SYNC, then number, FLAGS and CRC, stuffed (R16 to R18). -/
def frameBits (num flags : Nat) : List Bool :=
  let content := msbBits 64 num ++ msbBits 8 flags
  syncBits ++ stuff 0 (content ++ msbBits 16 (crc16 content))

/-! ## Invariants -/

/-- Data service is open only while the conditions of R13, R160, R187 and R200 hold. -/
def State.openHeld (s : State) : Bool := !s.serviceUp || s.serviceHolds

/-- The canonical form of memory, and of the memory in every muster image (log entry 52). -/
def State.memoryOk (s : State) : Bool := Memory.wf s.mem && s.mus.images.all fun e => Memory.wf e.2.mem

end Sys2Proof.Machine
end

