-- ==== Sys2Proof/Certificates/Slice0/Obligations.lean ====
section
/-! DEFINITION. The statements for the provers. In the statements about a command, `s.answers c P` says that the command is
answered with a next state of which `P` holds; `s.settled t` is what a command leaves whose effect is `t`: `t` with data service
judged by R13 and the queue of `s`. -/

open Sys2Proof Sys2Proof.Machine

/-! ## The block as a machine -/

/-- A step takes the command at the front of the queue and runs it on the state with the queue's rest. -/
def Obligations.StepTakesFrontCommand : Prop :=
  ∀ (s : State) (c : Instr) (rest : List Instr),
    step { s with pending := c :: rest } = exec c { s with pending := rest }

/-- With no command waiting a step lets one core cycle pass and changes nothing else. The model's choice: log entry 2. No
command touches the queue of waiting commands: after every one of them it holds what it held. -/
def Obligations.IdlesAndKeepsTheQueue : Prop :=
  (∀ s : State, s.pending = [] → step s = .next { s with now := s.now + 1 }) ∧
  (∀ (c : Instr) (s t : State), exec c s = .next t → t.pending = s.pending)

/-- No command is refused; every command but MEM_READ and MEM_PLACE completes, whatever its operands and whatever the state;
and the one fault is an access of another gang member beyond the presented capacity (R232), made by MEM_READ or MEM_PLACE while
the datapath runs. The fault is the model's own stop: log entry 51. It completes every command but MEM_READ and MEM_PLACE,
which RemoteMemory completes; what each does is stated below. -/
def Obligations.OnlyAbsentAddressesFault : Prop :=
  (∀ (c : Instr) (s : State) (r : Refusal), exec c s ≠ .refused r) ∧
  (∀ (c : Instr) (s : State), (∀ j r, c ≠ .memRead j r) → (∀ j f, c ≠ .memPlace j f) →
    ∃ t, exec c s = .next t) ∧
  ∀ (c : Instr) (s : State) (e : Fault), exec c s = .fault e →
    e = .deviceAddressAbsent ∧ s.dpUp = true ∧
      ∃ j : Fin 3, (∃ r, c = .memRead j r) ∨ ∃ f, c = .memPlace j f

/-- Data service is open only while the conditions of R13, R160, R187 and R200 hold: a step keeps that. -/
def Obligations.ServiceOpenOnlyWhileConditionsHold : Prop :=
  ∀ s t : State, s.openHeld = true → step s = .next t → t.openHeld = true

/-- The state after reset: service closed, its invariant met, memory in canonical form and nothing waiting; every queue but
queue 0 FREE, domain 0 ACTIVE without limits and every other FREE, every window FREE; the twin in START, the muster engine
UNREADY, the epoch receiver in SEARCH; RST.CAUSE names a power-on reset. -/
def Obligations.ResetState : Prop :=
  State.reset.openHeld = true ∧ State.reset.serviceUp = false ∧ State.reset.memoryOk = true ∧ State.reset.pending = [] ∧
  (∀ n, n ≠ 0 → (State.reset.queue n).state = .free) ∧ (State.reset.queue 0).state = .active ∧
  (∀ n, State.reset.domain n = if n = 0 then
    { state := .active, quotaHot := 0xFFFFFFFF, quotaWarm := 0xFFFFFFFF, quotaFlash := 0xFFFFFFFF } else {}) ∧
  (∀ n, (State.reset.window n).state = .free) ∧ (∀ e, State.reset.extent e = none) ∧
  State.reset.cm.twin = .start ∧ State.reset.mus.state = .unready ∧ State.reset.ep.state = .search ∧
  State.reset.get RST.CAUSE = 1 ∧ (∀ a, Memory.read State.reset.mem a = 0)

/-! ## Vitrine and the JTAG port -/

/-- JTAG (R389): IDCODE shifts out version, part and manufacturer; SAMPLE/PRELOAD shifts the pins out and the preload in;
SCAN_SEL selects a chain; CHAIN_LEN, SCAN_READ and VIT_STATUS shift out what they name; every code that is not assigned acts
as BYPASS. Each drives nothing and leaves everything else as it was. SCAN_READ in Vitrine recirculates (R387): bit i of what
is shifted out of a chain of length n is bit i mod n of the chain; a chain of length 0 gives zeros. The boundary instructions
(R390) drive the pins in Vitrine or while RESET_N holds the datapath in reset, and act as BYPASS at any other time. It
completes: idcode, samplePreload, extest, clamp, highz, extestPulse, extestTrain, scanSel, scanRead, chainLen, vitStatus,
bypass. -/
def Obligations.JtagAndBoundaryScan : Prop :=
  (∀ s : State, s.pwr.vsupOk = true →
    let at_ (code : Nat) : VitrineSt := { s.vit with ir := code, drive := .device, pulsing := false }
    exec .idcode s = .next (s.settled { s with vit := at_ 0x01, out := s.out ++ [.tdo 32 0x1964056B] }) ∧
    (∀ pins preload, exec (.samplePreload pins preload) s = .next (s.settled { s with
      vit := { at_ 0x02 with bsr := preload % 2 ^ Config.boundaryLength }
      out := s.out ++ [.tdo Config.boundaryLength (pins % 2 ^ Config.boundaryLength)] })) ∧
    (∀ chain : Byte, exec (.scanSel chain) s = .next (s.settled { s with vit := { at_ 0x21 with chain := chain.toNat } })) ∧
    (∀ n, s.vit.frozen = false ∨ chainLen s.vit.chain = 0 → exec (.scanRead n) s = .next (s.settled { s with
      vit := at_ 0x22, out := s.out ++ [.tdo n 0] })) ∧
    (s.vit.chain < 4 ∨ (0xE1 < s.vit.chain ∧ s.vit.chain < 0xF0) ∨ 0xF3 < s.vit.chain →
      exec .chainLen s = .next (s.settled { s with vit := at_ 0x23, out := s.out ++ [.tdo 32 0] })) ∧
    (0xF0 ≤ s.vit.chain ∧ s.vit.chain ≤ 0xF3 → exec .chainLen s = .next (s.settled { s with
      vit := at_ 0x23, out := s.out ++ [.tdo 32 (Config.chainLength s.vit.chain % 2 ^ 32)] })) ∧
    exec .vitStatus s = .next (s.settled { s with
      vit := at_ 0x25, out := s.out ++ [.tdo 32 (b2n s.vit.frozen + 2 * s.get VIT.CAUSE + 8 * s.get VIT.DEFERRED)] }) ∧
    (∀ code : Byte, (code = 0 ∨ 8 ≤ code.toNat ∧ code.toNat ≤ 0x1F ∨ 0x26 ≤ code.toNat) →
      exec (.bypass code) s = .next (s.settled { s with vit := at_ code.toNat, out := s.out ++ [.tdo 1 0] }))) ∧
  (∀ (s : State) (n : Nat), s.pwr.vsupOk = true → s.vit.frozen = true →
    ∃ v, exec (.scanRead n) s = .next (s.settled { s with
        vit := { s.vit with ir := 0x22, drive := .device, pulsing := false }, out := s.out ++ [.tdo n v] }) ∧
      ∀ i, i < n → bitOf v i = (decide (chainLen s.vit.chain ≠ 0) &&
        bitOf (Config.chainContent (s.get VIT.ENTRIES) s.vit.chain) (i % chainLen s.vit.chain))) ∧
  (∀ s : State, s.pwr.vsupOk = true →
    (s.vit.frozen = true ∨ s.pwr.resetN = true →
      let by_ (code : Nat) (d : PinDrive) (p : Bool) (v : Nat) (n : Nat) : Host.Outcome State Fault Refusal :=
        .next (s.settled { s with vit := { s.vit with ir := code, drive := d, pulsing := p }, out := s.out ++ [.tdo n v] })
      exec .extest s = by_ 0x03 .boundary false s.vit.bsr Config.boundaryLength ∧
      exec .clamp s = by_ 0x04 .clamped false 0 1 ∧
      exec .highz s = by_ 0x05 .floating false 0 1 ∧
      exec .extestPulse s = by_ 0x06 .boundary true s.vit.bsr Config.boundaryLength ∧
      exec .extestTrain s = by_ 0x07 .boundary true s.vit.bsr Config.boundaryLength) ∧
    (s.vit.frozen = false → s.pwr.resetN = false →
      let bypass (code : Nat) : Host.Outcome State Fault Refusal :=
        .next (s.settled { s with vit := { s.vit with ir := code, drive := .device, pulsing := false }, out := s.out ++ [.tdo 1 0] })
      exec .extest s = bypass 0x03 ∧ exec .clamp s = bypass 0x04 ∧ exec .highz s = bypass 0x05 ∧
      exec .extestPulse s = bypass 0x06 ∧ exec .extestTrain s = bypass 0x07))

/-- Entry into Vitrine (R382 to R384), by VITRINE_N low for 2 µs or more and by the VITRINE instruction while JTAG_LOCK is 0:
the device freezes with its cause, its entry is counted and raised, no privileged key and no root key is left, and memory is
kept; during a muster the entry is deferred. A low under 1 µs does nothing; with JTAG_LOCK at 1 the instruction raises
JTAG_REFUSED and does not freeze. It completes: vitrineN, vitrine. -/
def Obligations.VitrineEntry : Prop :=
  ∀ s : State, s.heldInReset = false → s.vit.frozen = false →
    let enters (c : Instr) (cause : Nat) : Prop :=
      (s.mus.state ≠ .mustering → s.answers c fun t =>
        t.vit.frozen = true ∧ t.get VIT.CAUSE = cause ∧ t.get VIT.DEFERRED = 0 ∧
        t.get VIT.ENTRIES = min (2 ^ 32 - 1) (s.get VIT.ENTRIES + 1) ∧ t.get VIT.ENTRY_SEC = s.cal.sec % 2 ^ 64 ∧
        t.get VIT.ENTRY_EPOCH = s.ep.num % 2 ^ 64 ∧ t.evt VIT.page VIT.evVITRINE_ENTERED = true ∧
        t.key.rootGone = true ∧ (∀ e ∈ t.key.inst, e.2.cls ≠ 8) ∧ t.get CPH.PRIV_ERASED = 1 ∧ s.sameMemory t) ∧
      (s.mus.state = .mustering → s.answers c fun t =>
        t.vit.frozen = false ∧ t.vit.deferred = some cause ∧ s.sameKeys t ∧ s.sameMemory t)
    (∀ low, 2 * usCycles ≤ low → enters (.vitrineN low) 1) ∧
    (s.flag VIT.JTAG_LOCK = false → enters .vitrine 2) ∧
    (∀ low, low < usCycles → exec (.vitrineN low) s = .next (s.settled s)) ∧
    (s.flag VIT.JTAG_LOCK = true → s.answers .vitrine fun t =>
      t.evt VIT.page VIT.evJTAG_REFUSED = true ∧ t.vit.frozen = false ∧ s.sameKeys t ∧ s.sameMemory t)

/-- DBG_RESET (R388): 0b11 resets both domains, which ends Vitrine; 0b01 resets the management domain, and is ignored while
FROZEN is set. With no NOR operation in flight the reset is at once (R356). A device that is MUSTERED and not in Vitrine stays
MUSTERED (R200; the model's reading: log entry 69). It completes: dbgReset. -/
def Obligations.DebugReset : Prop :=
  ∀ s : State, s.heldInReset = false → s.norInFlight = false →
    (s.answers (.dbgReset 3) fun t => t.vit.frozen = false ∧ bitOf (t.get RST.CAUSE) 5 = true ∧
      t.mus.state = (if s.mus.state = .mustered ∧ s.vit.frozen = false then .mustered else .unready) ∧
      t.cm.twin = .start ∧ (∀ n, n ≠ 0 → (t.queue n).state = .free)) ∧
    (s.vit.frozen = true → s.answers (.dbgReset 1) fun t =>
      t.vit.frozen = true ∧ t.mus = s.mus ∧ s.sameCommit t ∧ t.q = s.q ∧ t.cur = s.cur ∧ s.sameMemory t) ∧
    (s.vit.frozen = false → s.answers (.dbgReset 1) fun t =>
      t.cur.booting = true ∧ t.cur.verified = false ∧ bitOf (t.get RST.CAUSE) 5 = true ∧
      (s.cur.fw = [] → t.mus = s.mus ∧ s.sameMemory t))

/-! ## The supervisor: sequencer, resets, clock failure, heat, parking -/

/-- Starting the sequencer (R325, R326): SEQ_GO written through SMBus locks the table and drives the first entry, unless the
table is locked already or TABLE_REJECT is due; through PCIe it is ignored, and from a curator the fence of R362 counts it.
Power-up entry by entry (R327): a conversion, whose code is the voltage over 2.048 V in 16,384 steps (R331), in the good window ends the wait of the entry, its delay drives the next entry,
the last entry makes the state ON, and an entry that is not good in time falls and shuts the rails down. Shutdown in reverse
order (R330): an entry that does not discharge in time is recorded in DIS_LATE, and the next lower entry's output falls; after
entry 0 the state is OFF, or FAULT where an entry of the power-up failed. It completes: seqGo, conversion, seqDelay,
seqUpTimeout, disTimeout. -/
def Obligations.PowerSequencer : Prop :=
  (∀ (s : State) (path : Path), s.canWrite path PSQ.SEQ_GO = true →
    (path = .smbus → s.pwr.locked = true → s.gives (.seqGo path) s) ∧
    (path = .smbus → s.pwr.locked = false →
      (s.seqLen = 0 ∨ (∃ i j, i < j ∧ j < s.seqLen ∧ s.get (PSQ.EN i) = s.get (PSQ.EN j)) ∨
        (∃ i, i < s.seqLen ∧ s.get (PSQ.CH i) = 31) ∨
        50 < ((List.range s.seqLen).map fun k => max 1 (s.get (PSQ.DIS_TMO_MS k))).sum →
        s.gives (.seqGo path) (s.raise PSQ.page PSQ.evTABLE_REJECT)) ∧
      (0 < s.seqLen → (∀ i j, i < j → j < s.seqLen → s.get (PSQ.EN i) ≠ s.get (PSQ.EN j)) →
        (∀ i, i < s.seqLen → s.get (PSQ.CH i) ≠ 31) →
        ((List.range s.seqLen).map fun k => max 1 (s.get (PSQ.DIS_TMO_MS k))).sum ≤ 50 →
        s.gives (.seqGo path) { s with pwr := { s.pwr with
          locked := true, seq := .rising, entry := 0, wait := .good, seqEn := setBit s.pwr.seqEn (s.get (PSQ.EN 0)) true } })) ∧
    (path = .pcie → s.gives (.seqGo path) s) ∧
    (∀ k, path = .curator k → s.gives (.seqGo path) (s.fence 3 (some k) (0x20000000 + (PSQ.page * 4096 + 0x020))))) ∧
  (∀ s : State, s.pwr.vsupOk = true → s.pwr.seq = .rising →
    (∀ time (ch : Fin 32) (volts : BallVolts), ch.val ≠ 31 →
      let code := min 16383 (volts.nv * 16384 / 2048000000)
      s.pwr.wait = .good → s.get (PSQ.CH s.pwr.entry) = ch.val → s.get (PSQ.GOOD_MIN s.pwr.entry) ≤ code →
      code ≤ s.get (PSQ.GOOD_MAX s.pwr.entry) → s.get (PSQ.DELAY_MS s.pwr.entry) ≠ 0 →
      s.answers (.conversion time ch volts) fun t =>
        t.pwr = { s.pwr with wait := .delay } ∧ t.get (SCN.CODE ch.val) = code ∧ s.sameMemory t) ∧
    (s.pwr.wait = .delay → s.pwr.entry + 1 < s.seqLen →
      s.gives .seqDelay { s with pwr := { s.pwr with
        entry := s.pwr.entry + 1, wait := .good, seqEn := setBit s.pwr.seqEn (s.get (PSQ.EN (s.pwr.entry + 1))) true } }) ∧
    (s.pwr.wait = .delay → s.seqLen ≤ s.pwr.entry + 1 → s.answers .seqDelay fun t =>
      t.pwr.seq = .on ∧ t.pwr.wait = .none ∧ t.pwr.seqEn = s.pwr.seqEn ∧ t.evt PSQ.page PSQ.evSEQ_DONE = true) ∧
    (s.pwr.wait = .good → s.answers .seqUpTimeout fun t =>
      t.pwr.seq = .falling ∧ t.pwr.toFault = true ∧ t.pwr.failEntry = s.pwr.entry ∧
      t.pwr.seqEn = setBit s.pwr.seqEn (s.get (PSQ.EN s.pwr.entry)) false ∧ t.evt PSQ.page PSQ.evSEQ_FAULT = true)) ∧
  (∀ s : State, s.pwr.vsupOk = true → s.pwr.seq = .falling → s.pwr.wait = .discharged →
    (0 < s.pwr.entry → s.answers .disTimeout fun t =>
      t.pwr = { s.pwr with
        disLate := setBit s.pwr.disLate s.pwr.entry true, entry := s.pwr.entry - 1
        seqEn := setBit s.pwr.seqEn (s.get (PSQ.EN (s.pwr.entry - 1))) false } ∧
      t.evt PSQ.page PSQ.evDIS_LATE_EVT = true ∧ s.sameMemory t) ∧
    (s.pwr.entry = 0 → s.answers .disTimeout fun t =>
      t.pwr.seq = (if s.pwr.toFault then .fault else .off) ∧ bitOf t.pwr.disLate 0 = true ∧
      t.evt PSQ.page PSQ.evDIS_LATE_EVT = true ∧ s.sameMemory t))

/-- VSUP (R332, R334, R338): below 2.90 V every SEQ_EN output is low and RST.CAUSE shows the brown-out; the power-on reset
samples the straps, names itself in RST.CAUSE (with the brown-out where VSUP had fallen) and leaves no memory, queue, window
or pair. It completes: vsupLow, powerOnReset. -/
def Obligations.SupplyLossAndReturn : Prop :=
  ∀ s : State,
    (s.pwr.vsupOk = false → s.gives .vsupLow s) ∧
    (s.pwr.vsupOk = true → s.answers .vsupLow fun t =>
      t.pwr.vsupOk = false ∧ t.pwr.seqEn = 0 ∧ t.dpUp = false ∧ t.cur.busy = [] ∧ bitOf (t.get RST.CAUSE) 1 = true) ∧
    (∀ (g : BitVec 2) (twin energy : Bool), s.answers (.powerOnReset g twin energy) fun t =>
      t.pwr.vsupOk = true ∧ t.pwr.gangId = g.toNat ∧ t.pwr.twinPos = b2n twin ∧ t.pwr.energyEn = energy ∧
      t.pwr.seq = .idle ∧ bitOf (t.get RST.CAUSE) 0 = true ∧ bitOf (t.get RST.CAUSE) 1 = !s.pwr.vsupOk ∧
      t.q = {} ∧ t.win = {} ∧ t.net = {} ∧ t.cm.twin = .start ∧ t.mus.state = .unready ∧ t.vit = {} ∧
      (∀ a, Memory.read t.mem a = 0))

/-- RESET_N (R335): a low under 2 µs is ignored, one of 10 µs or more holds both domains in reset (unless a NOR operation
must end first, R356), between them a free value decides; the release ends the reset, and runs the power-up again where the
rails are off (R328). It completes: resetNAssert, resetNRelease. -/
def Obligations.ResetNPin : Prop :=
  ∀ s : State, s.pwr.vsupOk = true →
    (∀ low, low < 2 * usCycles → s.gives (.resetNAssert low) s) ∧
    (∀ low, 10 * usCycles ≤ low → s.pwr.resetLow = false → s.norInFlight = false → s.answers (.resetNAssert low) fun t =>
      t.pwr.resetN = true ∧ t.pwr.resetLow = true ∧ t.dpUp = false ∧ bitOf (t.get RST.CAUSE) 2 = true ∧
      t.mus.state = .unready ∧ t.q = {} ∧ (∀ a, Memory.read t.mem a = 0)) ∧
    (∀ low, 10 * usCycles ≤ low → s.pwr.resetLow = false → s.norInFlight = true → s.gives (.resetNAssert low)
      { s with pwr := { s.pwr with resetLow := true }, cur := { s.cur with waits := s.cur.waits ++ [.reset 2 true] } }) ∧
    (∀ low, 2 * usCycles ≤ low → low < 10 * usCycles → s.pwr.resetLow = false →
      s.answers (.resetNAssert low) fun t => t.pwr.resetLow = Config.freeBit s.free) ∧
    (s.pwr.resetLow = false → s.gives .resetNRelease s) ∧
    (s.pwr.resetLow = true → s.answers .resetNRelease fun t =>
      t.pwr.resetLow = false ∧ t.pwr.resetN = false ∧
      t.pwr.seq = (if s.pwr.locked && (s.pwr.seq == .off || s.pwr.seq == .fault) then .rising else s.pwr.seq) ∧ s.sameMemory t)

/-- Software resets (R334): SW_MGMT resets the management domain and data service goes on with every queue, window and byte
of memory; SW_DP resets both domains through PCIe and SMBus and is ignored from a curator, where the fence of R362 counts
it. A NOR operation in flight holds either back (R356). SW_DP does not take a device out of MUSTERED (R200) unless it ends
Vitrine. It completes: swMgmt, swDp. -/
def Obligations.SoftwareResets : Prop :=
  ∀ (s : State) (path : Path),
    (s.canWrite path RST.SW_MGMT = true →
      (s.norInFlight = false → s.cur.fw = [] → s.answers (.swMgmt path) fun t =>
        t.cur.booting = true ∧ t.cur.verified = false ∧ bitOf (t.get RST.CAUSE) 4 = true ∧
        t.evt RST.page RST.evMGMT_RESET = true ∧ t.q = s.q ∧ t.win = s.win ∧ s.sameCommit t ∧ t.mus = s.mus ∧ t.net = s.net ∧
        s.sameMemory t) ∧
      (s.norInFlight = true → s.gives (.swMgmt path) { s with cur := { s.cur with waits := s.cur.waits ++ [.reset 4 false] } })) ∧
    (s.canWrite path RST.SW_DP = true →
      (∀ k, path = .curator k →
        s.gives (.swDp path) (s.fence 3 (some k) (0x20000000 + (RST.page * 4096 + 0x020)))) ∧
      ((∀ k, path ≠ .curator k) → s.norInFlight = false → s.answers (.swDp path) fun t =>
        t.cur.booting = true ∧ bitOf (t.get RST.CAUSE) 4 = true ∧ t.q = {} ∧ t.win = {} ∧ t.cm.twin = .start ∧
        t.mus.state = (if s.mus.state = .mustered ∧ s.vit.frozen = false then .mustered else .unready) ∧
        (∀ a, Memory.read t.mem a = 0)) ∧
      ((∀ k, path ≠ .curator k) → s.norInFlight = true →
        s.gives (.swDp path) { s with cur := { s.cur with waits := s.cur.waits ++ [.reset 4 true] } }))

/-- Clock failure (R339): the ring oscillator, CLOCK_FAIL, the clock alarm while the rails are on, and a muster of cause 6 while the
datapath runs; a reset in force holds, and it and the reset that follows the muster end when CORE_SYN_LOCK returns. An output's stretch ends for that output alone (R337). It completes: clockFail,
synLockReturn, rstoutStretch. -/
def Obligations.ClockFailure : Prop :=
  ∀ s : State, s.pwr.vsupOk = true →
    (∀ time, s.answers (.clockFail time) fun t =>
      t.clk.coreLock = false ∧ t.pwr.onBackup = true ∧ t.evt RST.page RST.evCLOCK_FAIL = true ∧
      (s.pwr.seq = .on → t.key.rootGone = true ∧ bitOf (t.get CPH.ALARM_CAUSE) 1 = true) ∧
      (s.dpUp = true → bitOf t.mus.causes 6 = true ∧
        (s.norInFlight = false → s.musterWaits = false → t.mus.state = .mustering)) ∧
      (s.heldInReset = true → t.pwr.clockHold = true)) ∧
    (s.answers .synLockReturn fun t =>
      t.clk.coreLock = true ∧ t.pwr.onBackup = false ∧ t.pwr.clockHold = false ∧ s.sameMemory t) ∧
    (∀ x : Fin 4, s.gives (.rstoutStretch x) { s with pwr := { s.pwr with rstStretch := setBit s.pwr.rstStretch x.val false } })

/-- Heat (R340 to R342): with all 24 sensors valid and below the warning, Tj is the highest reading and nothing else of the
throttle changes; from 105 °C the device throttles, at 120 °C it trips, which musters with cause 5 while the datapath runs, and it
leaves throttle when Tj has been at or below 100 °C for 1 ms and 12 sensors are valid. It completes: thermalRead, throttleOff. -/
def Obligations.JunctionTemperature : Prop :=
  ∀ s : State, s.pwr.vsupOk = true →
    (∀ time ts, (∀ i, i < 24 → sensorOut ts i = false) →
      (∀ i, i < 24 → ts.getD i 0 < 105 ∧ ts.getD i 0 < Int.ofNat (s.get CEN.TJ_WARN)) →
      s.answers (.thermalRead time ts) fun t =>
        (∀ i, i < 24 → ts.getD i 0 ≤ t.pwr.tj) ∧ (∃ i, i < 24 ∧ t.pwr.tj = ts.getD i 0) ∧ t.pwr.excluded = [] ∧
        t.pwr.throttled = s.pwr.throttled ∧ t.pwr.tripped = s.pwr.tripped ∧ s.sameMemory t) ∧
    (∀ time ts, (∀ i, i < 24 → sensorOut ts i = false) → (∀ i, i < 24 → ts.getD i 0 < 120) → (∃ i, i < 24 ∧ 105 ≤ ts.getD i 0) →
      s.answers (.thermalRead time ts) fun t => t.pwr.throttled = true ∧ t.pwr.tripped = s.pwr.tripped ∧ s.sameMemory t) ∧
    (∀ time ts, (∀ i, i < 24 → sensorOut ts i = false) → (∃ i, i < 24 ∧ 120 ≤ ts.getD i 0) →
      s.answers (.thermalRead time ts) fun t => t.pwr.tripped = true ∧ t.evt THM.page THM.evTRIP = true ∧
        (s.dpUp = true → bitOf t.mus.causes 5 = true)) ∧
    (s.pwr.throttled = true → s.pwr.tj ≤ 100 → s.sensorLow = false → s.answers .throttleOff fun t =>
      t.pwr = { s.pwr with throttled := false } ∧ t.evt THM.page THM.evTHROTTLE_OFF = true ∧ t.q.refigure = true ∧ s.sameMemory t) ∧
    (s.pwr.throttled = false ∨ 100 < s.pwr.tj ∨ s.sensorLow = true → s.gives .throttleOff s)

/-- Parking (R343, R344): PARK written 1 waits for the next boundary where service is open, the muster engine is ARMED and the
twin is not RETURNING, and is rejected otherwise; PARKING ends in PARKED with the host SerDes off; signal on a host lane asks
for a wake; WAKING ends in AWAKE. It completes: park, parked, signalWake, awake. -/
def Obligations.Parking : Prop :=
  ∀ s : State, s.dpUp = true →
    (∀ path, s.canWrite path PSQ.PARK = true →
      (s.serviceUp = false ∨ s.mus.state ≠ .armed ∨ s.peerReturning = true →
        s.gives (.park path true) (s.raise PSQ.page PSQ.evPARK_REJECT)) ∧
      (s.serviceUp = true → s.mus.state = .armed → s.peerReturning = false → s.pwr.park = .awake →
        s.gives (.park path true) { s.put PSQ.PARK 1 with pwr := { s.pwr with parkReq := true } }) ∧
      (s.pwr.park = .parked → s.gives (.park path false) { s.put PSQ.PARK 0 with pwr := { s.pwr with
        parkReq := false, reparkReq := false, wakeReason := setBit s.pwr.wakeReason 0 true, wakeReq := true } })) ∧
    (s.pwr.park = .parking → s.answers .parked fun t =>
      t.pwr.park = .parked ∧ t.pwr.hostSerdes = false ∧ t.evt PSQ.page PSQ.evPARKED_EVT = true) ∧
    (s.pwr.park ≠ .parking → s.gives .parked s) ∧
    (∀ port, s.flag PSQ.WAKE_SIG_EN = true → s.pwr.park = .parked →
      s.gives (.signalWake port) { s with pwr := { s.pwr with
        wakeReason := setBit s.pwr.wakeReason 2 true, wakeReq := true } }) ∧
    (∀ port, s.flag PSQ.WAKE_SIG_EN = false ∨ s.pwr.park = .awake → s.gives (.signalWake port) s) ∧
    (s.pwr.park = .waking → s.gives .awake
      (({ s with pwr := { s.pwr with park := .awake, wakeReq := false } }).raise PSQ.page PSQ.evWOKEN)) ∧
    (s.pwr.park ≠ .waking → s.gives .awake s)

/-! ## Registers, events, the SMBus target and the PCIe link -/

/-- EXPERT_KEY (R404): 0x5A5A and then 0xA5A5 unlock the page; any other value ends the sequence. It completes: expertKey. -/
def Obligations.ExpertUnlock : Prop :=
  ∀ (s : State) (path : Path) (page : Byte) (v : Word), s.canWritePage path page.toNat = true →
    (v = 0x5A5A → s.gives (.expertKey path page v) (s.put (HDR.KEY_STEP page.toNat) 1)) ∧
    (v = 0xA5A5 → s.flag (HDR.KEY_STEP page.toNat) = true → s.gives (.expertKey path page v)
      ((s.put (HDR.EXPERT page.toNat) 1).put (HDR.KEY_STEP page.toNat) 0)) ∧
    (v ≠ 0x5A5A → v ≠ 0xA5A5 ∨ s.flag (HDR.KEY_STEP page.toNat) = false →
      s.gives (.expertKey path page v) (s.put (HDR.KEY_STEP page.toNat) 0))

/-- EVT_PENDING (R403): a write clears in EVT_RAW the events at which it has a 1 and no other, and no memory changes. It
completes: evtPendingClear. -/
def Obligations.PendingEventsCleared : Prop :=
  ∀ (s : State) (path : Path) (page : Byte) (mask : Word), s.canWritePage path page.toNat = true →
    ∃ t, s.gives (.evtPendingClear path page mask) t ∧ s.sameMemory t ∧
      (∀ bit, t.evt page.toNat bit = (s.evt page.toNat bit && !bitOf mask.toNat bit)) ∧
      ∀ f : Fld, f.key ≠ (HDR.EVT_RAW page.toNat).key → f.key ≠ PCE.MSIX_PBA.key → t.get f = s.get f

/-- ENABLE (R400, R401): no write of it changes a page that is no block page; during a shutdown it is remembered; one that
asks for what holds changes nothing; an enable starts the block: a flash channel enters service with the dies that answer
(R231), the gang controller joins the gang; a disable starts the shutdown, which a stack or channel that is not DRAINED
refuses and with which a DRAINED one leaves service (R226). LOCK_A follows the delay lines that are enabled (R309). The end of
a shutdown (R401): PENDING_OFF clears, and a remembered enable starts the block again; without a shutdown nothing happens. A
block reset (R402, R336): it ends a shutdown and holds the block of a block page in reset, ends the reads that the block carried
with ABORTED_BY_RESET and takes the block out of service, and acts on no other page; when it ends, every register of the page that it restores holds its reset value (a 0 that the spec does not state is the model's
choice: log entry 57). It completes: enable, shutdownDone, blockReset, blockResetDone. -/
def Obligations.BlockEnableAndReset : Prop :=
  (∀ (s : State) (path : Path) (page : Byte) (v : Bool), s.canWritePage path page.toNat = true →
    ∀ dies : DieAnswers,
    let p := page.toNat
    let u := s.fitDies p dies
    (fixedPage p = true → s.gives (.enable path page ⟨v, dies⟩) s) ∧
    (fixedPage p = false →
      (s.flag (HDR.PENDING_OFF p) = true → s.gives (.enable path page ⟨v, dies⟩) (u.putb (HDR.REMEMBERED p) v)) ∧
      (s.flag (HDR.PENDING_OFF p) = false →
        (v = s.flag (HDR.ENABLE p) → s.gives (.enable path page ⟨v, dies⟩) u) ∧
        (v = true → s.flag (HDR.ENABLE p) = false → (p < 0x60 ∨ 0xA0 ≤ p) → p ≠ GNG.page →
          s.gives (.enable path page ⟨v, dies⟩) (s.lockA (s.put (HDR.ENABLE p) 1))) ∧
        (v = true → s.flag (HDR.ENABLE p) = false → p = GNG.page →
          s.gives (.enable path page ⟨v, dies⟩) (s.lockA (s.put (HDR.ENABLE p) 1).checkFormed)) ∧
        (v = true → s.flag (HDR.ENABLE p) = false → 0x60 ≤ p ∧ p < 0xA0 → s.answers (.enable path page ⟨v, dies⟩) fun t =>
          t.get (HDR.ENABLE p) = 1 ∧ t.get (FCH.IN_SERVICE (p - 0x60)) = 1 ∧ t.get (FCH.TRAINED (p - 0x60)) = 1 ∧
          t.q.refigure = true ∧ s.sameMemory t) ∧
        (v = false → s.flag (HDR.ENABLE p) = true → (p < 0x40 ∨ 0x50 ≤ p) →
          s.gives (.enable path page ⟨v, dies⟩) (u.lockA ((u.put (HDR.ENABLE p) 0).put (HDR.PENDING_OFF p) 1))) ∧
        (v = false → s.flag (HDR.ENABLE p) = true → 0x40 ≤ p ∧ p < 0x50 →
          (s.mayDisable (p - 0x40) = false → s.gives (.enable path page ⟨v, dies⟩)
            (s.lockA (s.raise p (if p < 0x48 then STK.evDISABLE_REJECT else DCH.evDISABLE_REJECT)))) ∧
          (s.mayDisable (p - 0x40) = true → s.gives (.enable path page ⟨v, dies⟩)
            (s.lockA (((s.put (HDR.ENABLE p) 0).put (HDR.PENDING_OFF p) 1).memberOff (p - 0x40)))))))) ∧
  (∀ (s : State) (page : Byte), s.dpUp = true →
    (s.flag (HDR.PENDING_OFF page.toNat) = false → s.gives (.shutdownDone page) s) ∧
    (s.flag (HDR.PENDING_OFF page.toNat) = true → s.answers (.shutdownDone page) fun t =>
      t.get (HDR.PENDING_OFF page.toNat) = 0 ∧ t.get (HDR.REMEMBERED page.toNat) = 0 ∧
      t.get (HDR.ENABLE page.toNat) = (if s.flag (HDR.REMEMBERED page.toNat) then 1 else s.get (HDR.ENABLE page.toNat)) ∧
      s.sameMemory t)) ∧
  (∀ (s : State) (page : Byte),
    (∀ path, s.canWritePage path page.toNat = true →
      (fixedPage page.toNat = true → s.gives (.blockReset path page) s) ∧
      (fixedPage page.toNat = false → s.gives (.blockReset path page)
        (s.lockA ((((((s.put (HDR.PENDING_OFF page.toNat) 0).put (HDR.REMEMBERED page.toNat) 0).put (HDR.ENABLE page.toNat) 0).put
          (HDR.IN_RESET page.toNat) 1).abortReads page.toNat).blockLoses page.toNat)))) ∧
    (s.dpUp = true →
      (s.flag (HDR.IN_RESET page.toNat) = false → s.gives (.blockResetDone page) s) ∧
      (s.flag (HDR.IN_RESET page.toNat) = true → fixedPage page.toNat = false → s.answers (.blockResetDone page) fun t =>
        (∀ f : Fld, blockKey page.toNat f.key = true → f.rst = 0 →
          (∀ g ∈ linkFields ++ [HDR.EVT_RAW (CCH.page 16), HDR.EVT_RAW page.toNat], f.key ≠ g.key) → t.get f = 0) ∧
        (s.net.reads = [] → s.key.haltAdit = [] → s.key.haltRx = [] → s.key.haltPages = [] → s.key.haltLoad = none →
          s.sameMemory t))))

/-- Canary (R391, R392): without the arm or the unlock a write of CANARY is counted and raised, and does nothing else; an
injection sets the event's bit in EVT_RAW, counts, names itself in LAST_INJ, and acts on nothing else. It completes:
canaryFire. -/
def Obligations.CanaryInjects : Prop :=
  ∀ (s : State) (path : Path) (page : Byte) (v : Word), s.canWritePage path page.toNat = true →
    let p := page.toNat
    (s.flag SYS.CANARY_ARM = false ∨ s.flag (HDR.EXPERT p) = false →
      s.gives (.canaryFire path page v) ((s.inc VIT.CANARY_REFUSED).raise VIT.page VIT.evCANARY_REFUSED_EVT)) ∧
    (s.flag SYS.CANARY_ARM = true → s.flag (HDR.EXPERT p) = true → bitOf v.toNat 8 = false →
      s.gives (.canaryFire path page v) (s.put (HDR.POINT p) (bitsOf v.toNat 0 5))) ∧
    (s.flag SYS.CANARY_ARM = true → s.flag (HDR.EXPERT p) = true → bitOf v.toNat 8 = true → s.vit.frozen = false →
      bitsOf v.toNat 0 5 < pageEvents p → s.answers (.canaryFire path page v) fun t =>
        t.evt p (bitsOf v.toNat 0 5) = true ∧ t.evt VIT.page VIT.evCANARY_FIRED = true ∧
        t.get VIT.CANARY_COUNT = min (2 ^ 32 - 1) (s.get VIT.CANARY_COUNT + 1) ∧
        t.get VIT.LAST_INJ = p + 256 * bitsOf v.toNat 0 5 ∧
        t.mus = s.mus ∧ s.sameCommit t ∧ t.q = s.q ∧ t.win = s.win ∧ t.tier = s.tier ∧ t.pwr = s.pwr ∧ s.sameKeys t ∧
        s.sameMemory t)

/-- Table windows (R408): a write of a selector, and a read of word 0, take a snapshot of every word of the selected entry;
the read returns word 0 of it. A pair of words (R396): the read of the LO word latches the upper half of the value for the HI
word, whatever the value does before the HI word is read. It completes: selectorWrite, windowWord0Read, latchingLoRead. -/
def Obligations.SnapshotsAndLatches : Prop :=
  (∀ (s : State) (path : Path) (addr : BitVec 20) (x : Nat × Nat × Nat),
    let p := addr.toNat / 4096
    x ∈ tableWindows p → s.canWritePage path p = true → addr.toNat % 4 = 0 →
    let taken (u : State) : State := { u with
      snap := mput u.snap (p * 4096 + x.2.1) ((List.range x.2.2).map fun i => u.liveWord p (x.2.1 + 4 * i) true) }
    (addr.toNat % 4096 = x.1 → ∀ v,
      let u := s.setFields path p x.1 ((pageFields p).filter fun f => f.off == x.1) v.toNat
      s.gives (.selectorWrite path addr v) (taken u) ∧ s.sameMemory u) ∧
    (addr.toNat % 4096 = x.2.1 →
      let latched := match s.hiOf p x.2.1 with
        | some h => (taken s).put (HDR.LATCH p x.2.1) h
        | none => taken s
      s.gives (.windowWord0Read path addr) (latched.send (.regData path addr.toNat (s.liveWord p x.2.1 true))))) ∧
  (∀ (s : State) (path : Path) (addr : BitVec 20) (h : Nat),
    let p := addr.toNat / 4096
    let off := addr.toNat % 4096
    s.canWritePage path p = true → addr.toNat % 4 = 0 → 0x020 ≤ off → windowAt p off = none → p ≠ RTC.page → p ≠ CEN.page →
    s.hiOf p off = some h →
      let u := s.put (HDR.LATCH p off) h
      s.gives (.latchingLoRead path addr) (u.send (.regData path addr.toNat (u.pageWord p off))) ∧
        u.get (HDR.LATCH p off) = h % 2 ^ 32 ∧ ∀ f : Fld, f.key ≠ (HDR.LATCH p off).key → u.get f = s.get f)

/-- Register writes (R396, R405): a write of other widths or alignments is counted and changes nothing else; one of a
reserved page is counted as well; a word of read-only fields takes none; a PCIe write of 8 aligned bytes is two writes,
the lower address first. It completes: registerWrite. -/
def Obligations.RegisterWriteRules : Prop :=
  ∀ (s : State) (path : Path) (addr : BitVec 20) (v : Long), s.pwr.vsupOk = true → s.reaches path (addr.toNat / 4096) = true →
    (∀ bytes full, full = false ∨ (bytes ≠ 4 ∧ bytes ≠ 8) ∨ addr.toNat % 4 ≠ 0 →
      s.gives (.registerWrite path addr bytes full v) (s.badAccess path addr.toNat 0)) ∧
    (addr.toNat % 4 = 0 → pageBase (addr.toNat / 4096) = none →
      s.gives (.registerWrite path addr 4 true v) (s.badAccess path addr.toNat 1)) ∧
    (addr.toNat % 4 = 0 → 0x020 ≤ addr.toNat % 4096 → (pageBase (addr.toNat / 4096)).isSome = true →
      (∀ f ∈ pageFields (addr.toNat / 4096), f.off = addr.toNat % 4096 → f.acc = .ro ∨ f.acc = .ros) →
      (∀ x ∈ tableWindows (addr.toNat / 4096), x.1 ≠ addr.toNat % 4096) →
      s.gives (.registerWrite path addr 4 true v) s) ∧
    (addr.toNat % 8 = 0 → path = .pcie → s.gives (.registerWrite path addr 8 true v)
      ((s.regWrite path addr.toNat (v.toNat % 2 ^ 32)).regWrite path (addr.toNat + 4) (v.toNat / 2 ^ 32 % 2 ^ 32)))

/-- The SMBus target (R398): a count or an address that is wrong is NAKed, a PEC that is wrong or missing is counted, and
neither does anything else; a good block write writes the register, a good pointer write sets the pointer, a good read
returns four bytes; each of them is counted. A timeout is counted and raised. It completes: smbusWrite, smbusSetPointer,
smbusRead, smbusTimeout. -/
def Obligations.SmbusTarget : Prop :=
  ∀ (s : State), s.pwr.vsupOk = true →
    (∀ bytes pec, bytes.length ≠ 7 ∨ smbusAddr bytes % 4 ≠ 0 →
      s.gives (.smbusWrite bytes pec) ((s.inc SMB.NAKED).send .smbNak)) ∧
    (∀ bytes pec, bytes.length = 7 → smbusAddr bytes % 4 = 0 →
      (s.pecGood pec = false → s.gives (.smbusWrite bytes pec) ((s.inc SMB.PEC_ERR).raise SMB.page SMB.evPEC_ERR_EVT)) ∧
      (s.pecGood pec = true → s.gives (.smbusWrite bytes pec)
        ((s.regWrite .smbus (smbusAddr bytes) (fieldLE bytes 3 4)).inc SMB.TRANSACTIONS))) ∧
    (∀ bytes pec, bytes.length ≠ 3 ∨ smbusAddr bytes % 4 ≠ 0 →
      s.gives (.smbusSetPointer bytes pec) ((s.inc SMB.NAKED).send .smbNak)) ∧
    (∀ bytes pec, bytes.length = 3 → smbusAddr bytes % 4 = 0 →
      (s.pecGood pec = false → s.gives (.smbusSetPointer bytes pec) ((s.inc SMB.PEC_ERR).raise SMB.page SMB.evPEC_ERR_EVT)) ∧
      (s.pecGood pec = true → s.gives (.smbusSetPointer bytes pec)
        (({ s with smb := { s.smb with ptr := smbusAddr bytes } }).inc SMB.TRANSACTIONS))) ∧
    (∀ pec, s.pecGood pec = false → s.gives (.smbusRead pec) ((s.inc SMB.PEC_ERR).raise SMB.page SMB.evPEC_ERR_EVT)) ∧
    (∀ pec, s.pecGood pec = true → ∃ t, s.gives (.smbusRead pec) t ∧ s.sameMemory t ∧
      t.out = (s.regRead .smbus s.smb.ptr).2.out ++ [.smbData (bytesLE 4 ((s.regRead .smbus s.smb.ptr).1.getD 0))]) ∧
    s.gives .smbusTimeout ((s.inc SMB.TIMEOUTS).raise SMB.page SMB.evTIMEOUT_EVT)

/-- The PCIe link (R411): it trains at a speed of 1 to 5 and a width of 1, 2 or 4 codes and raises LINK_UP once, with the
MSI-X enable and mask that configuration space holds then, under which a pending vector is sent; it falls with LINK_DOWN; a
training outside those codes does nothing (the model's choice: log entry 48). The PCIe interrupt (R403, R409): an event that
is enabled on its page, with the page unmasked and nothing pending before, sends the MSI-X message of vector 0; with MSI-X off
or masked, or the link down, it sets the vector's pending bit. It completes: pcieLinkUp, pcieLinkDown. -/
def Obligations.PcieLinkAndInterrupt : Prop :=
  (∀ s : State, s.pwr.vsupOk = true →
    (∀ speed width : BitVec 3, 1 ≤ speed.toNat → speed.toNat ≤ 5 → width.toNat = 1 ∨ width.toNat = 2 ∨ width.toNat = 4 →
      ∀ msix masked, s.gives (.pcieLinkUp ⟨speed, width⟩ ⟨msix, masked⟩)
        (((((((s.put PCE.LINK_UP 1).put PCE.SPEED speed.toNat).put PCE.WIDTH width.toNat).putb PCE.MSIX_EN msix).putb
          PCE.MSIX_MASKED masked).raiseIf (!s.flag PCE.LINK_UP) PCE.page PCE.evLINK_UP_EVT).msixUnmask)) ∧
    (∀ speed width msix masked, speed.toNat < 1 ∨ 5 < speed.toNat ∨ width.toNat ∉ [1, 2, 4] →
      s.gives (.pcieLinkUp ⟨speed, width⟩ ⟨msix, masked⟩) s) ∧
    (s.flag PCE.LINK_UP = true → s.gives .pcieLinkDown ((s.put PCE.LINK_UP 0).raise PCE.page PCE.evLINK_DOWN)) ∧
    (s.flag PCE.LINK_UP = false → s.gives .pcieLinkDown s)) ∧
  (∀ s : State, s.pwr.vsupOk = true → s.pcieIrq = false → bitOf (s.get (HDR.EVT_ENABLE SMB.page)) SMB.evTIMEOUT_EVT = true →
    bitOf (s.get (SYS.PCIE_MASK (SMB.page / 32))) (SMB.page % 32) = true →
    (s.flag PCE.MSIX_EN = true → s.flag PCE.MSIX_MASKED = false → bitOf (s.get PCE.MSIX_CTRL) 0 = false →
      s.flag PCE.LINK_UP = true → ∃ t, s.gives .smbusTimeout t ∧
        t.out = s.out ++ [.msix (s.get PCE.MSIX_ADDR_LO + 2 ^ 32 * s.get PCE.MSIX_ADDR_HI) (s.get PCE.MSIX_DATA)]) ∧
    (s.flag PCE.MSIX_EN = false ∨ s.flag PCE.MSIX_MASKED = true ∨ bitOf (s.get PCE.MSIX_CTRL) 0 = true ∨
      s.flag PCE.LINK_UP = false → ∃ t, s.gives .smbusTimeout t ∧ t.out = s.out ∧ t.get PCE.MSIX_PBA = 1))

/-! ## Epochs -/

/-- Every epoch frame that a source sends is read as the number and the FLAGS it was sent with, whatever follows it: stuffed
zeros, SYNC and CRC are undone exactly (R16 to R20). -/
def Obligations.EpochFrameRoundTrip : Prop :=
  ∀ (num flags : Nat) (tail : List Bool), num < 2 ^ 64 → flags < 256 →
    readFrame (frameBits num flags ++ tail) = .good num flags

/-- A frame of the EPOCH input (R21, R25, R26, R37): without SYNC nothing happens; a bad one raises CRC_ERR; a good one of the
current boundary with the current number is checked and ends a run of missed frames; one with another number raises
NUM_MISMATCH and counts as missed. No frame moves the epoch or its time. It completes: epochFrame. -/
def Obligations.EpochFrameChecked : Prop :=
  ∀ (s : State) (edge : Nat) (bits : List Bool), s.dpUp = true →
    (s.answers (.epochFrame edge bits) fun t => t.ep.num = s.ep.num ∧ t.ep.last256 = s.ep.last256) ∧
    (s.usesEpoch = false ∨ readFrame bits = .noSync → s.gives (.epochFrame edge bits) s) ∧
    (s.usesEpoch = true → readFrame bits = .bad → s.answers (.epochFrame edge bits) fun t =>
      t.evt EPC.page EPC.evCRC_ERR = true ∧ (s.ep.state = .relay → t.ep.agree = 0) ∧
      (s.ep.state = .aligned → s.ep.edge = some edge → s.ep.seen = false →
        t.ep.seen = true ∧ t.get EPC.MISSED = min (2 ^ 32 - 1) (s.get EPC.MISSED + 1))) ∧
    (∀ num flags, s.usesEpoch = true → readFrame bits = .good num flags → s.clk.epochDllIn = true → s.ep.state = .aligned →
      s.ep.edge = some edge → s.ep.seen = false →
      (num = s.ep.num → s.answers (.epochFrame edge bits) fun t =>
        t.ep.state = .aligned ∧ t.ep.seen = true ∧ t.ep.missRow = 0 ∧ t.ep.lastGood = some (edge, num) ∧
        t.ep.num = s.ep.num ∧ t.ep.last256 = s.ep.last256 ∧ t.get EPC.FLAGS_LAST = flags % 256) ∧
      (num ≠ s.ep.num → s.answers (.epochFrame edge bits) fun t =>
        t.evt EPC.page EPC.evNUM_MISMATCH = true ∧ t.ep.num = s.ep.num ∧ t.ep.last256 = s.ep.last256 ∧
        t.get EPC.MISSED = min (2 ^ 32 - 1) (s.get EPC.MISSED + 1)))

/-- A boundary takes the previous number plus 1, at the time that its rule gives (R24, R29 to R31): the SYNC edge inside the
window, while an edge outside it is ignored; the expected time without one, which ends a run of frames without a miss; the
marker's arrival plus the period less the delay in RELAY, with the number after the marker's; the expected time without a
marker, twice in a row of which ends RELAY; the last period in HOLDOVER, unless the device waits for the edge of a source that
it will reacquire (R33). EPOCH lost (R26, R30, R31): the second missed frame in a row raises LOST, and the device follows the
leader's markers from the next boundary or, with a measured period, holds over. It completes: epochBoundary,
expectedTimeBoundary, relayedBoundary, holdoverBoundary, relayMarkerMissing. -/
def Obligations.BoundaryAdvancesTheEpoch : Prop :=
  (∀ (s : State) (env : BoundaryEnv), s.dpUp = true →
    (∀ edge, s.usesEpoch = true → s.ep.state = .aligned → s.ep.relayNext = false → s.ep.edge = none ∨ s.ep.seen = true →
      s.inWin edge (s.ep.last256 + s.ep.period) = true → s.answers (.epochBoundary edge env) fun t =>
        t.ep.state = .aligned ∧ t.ep.num = s.ep.num + 1 ∧ t.ep.last256 = edge * 256 ∧ t.ep.edge = some edge) ∧
    (∀ edge, s.usesEpoch = true → s.ep.state = .aligned → s.inWin edge (s.ep.last256 + s.ep.period) = false →
      s.gives (.epochBoundary edge env) s) ∧
    (s.usesEpoch = true → s.ep.state = .aligned → s.ep.relayNext = false → s.ep.edge = none ∨ s.ep.seen = true →
      s.ep.missRow = 0 → s.answers (.expectedTimeBoundary env) fun t =>
        t.ep.state = .aligned ∧ t.ep.num = s.ep.num + 1 ∧ t.ep.last256 = s.ep.last256 + s.ep.period ∧ t.ep.edge = none ∧
        t.ep.missRow = 1) ∧
    (∀ m, s.ep.state = .relay → s.ep.returning = false → s.ep.markers.find? (s.ep.num ≤ ·.num) = some m →
      m.num = s.ep.num ∨ m.arrival * 256 + s.ep.period - s.cm.delay * 256 ≤ s.ep.last256 + s.ep.period + s.ep.period / 2 →
      s.answers (.relayedBoundary env) fun t =>
        t.ep.state = .relay ∧ t.ep.num = m.num + 1 ∧
        t.ep.last256 = m.arrival * 256 + s.ep.period - s.cm.delay * 256 ∧ t.ep.markerMiss = 0) ∧
    (s.ep.state = .relay → s.ep.returning = false → (∀ m ∈ s.ep.markers, m.num < s.ep.num) →
      s.answers (.relayMarkerMissing env) fun t =>
        t.ep.num = s.ep.num + 1 ∧ t.ep.last256 = s.ep.last256 + s.ep.period ∧
        (s.ep.markerMiss = 0 → t.ep.state = .relay ∧ t.ep.markerMiss = 1) ∧
        (s.ep.markerMiss = 1 → s.ep.period ≠ 0 → t.ep.state = .holdover ∧ t.evt EPC.page EPC.evHOLDOVER_ENTER = true)) ∧
    (s.ep.state = .holdover → s.awaitsEdge = true → s.gives (.holdoverBoundary env) s) ∧
    (s.ep.state = .holdover → s.awaitsEdge = false → s.answers (.holdoverBoundary env) fun t =>
      t.ep.state = .holdover ∧ t.ep.num = s.ep.num + 1 ∧ t.ep.last256 = s.ep.last256 + s.ep.period)) ∧
  (∀ (s : State) (env : BoundaryEnv), s.dpUp = true → s.usesEpoch = true → s.ep.state = .aligned → s.ep.relayNext = false →
    s.ep.edge = none ∨ s.ep.seen = true → s.ep.missRow = 1 → s.ep.period ≠ 0 →
      s.answers (.expectedTimeBoundary env) fun t =>
        t.ep.num = s.ep.num + 1 ∧ t.ep.last256 = s.ep.last256 + s.ep.period ∧ t.evt EPC.page EPC.evLOST = true ∧
        (t.ep.relayNext = true ∨ t.ep.state = .holdover ∧ t.evt EPC.page EPC.evHOLDOVER_ENTER = true))

/-- ALIGN_EN and FORCE_HOLDOVER (R427): the field takes the value written and no other does; where the input is then out of use,
the search and the return that ran are given up; nothing else of the epoch receiver changes, and no memory. It completes:
alignEn, forceHoldover. -/
def Obligations.EpochInputControl : Prop :=
  ∀ (s : State) (path : Path) (v : Bool),
    let heard (t : State) : Prop := t.ep = if t.usesEpoch then s.ep else
      { s.ep with target := none, lastGood := none, agree := 0, returning := false }
    (s.canWrite path EPC.ALIGN_EN = true →
      ∃ t, s.gives (.alignEn path v) t ∧ t.flag EPC.ALIGN_EN = v ∧ heard t ∧
        (∀ f : Fld, f.key ≠ EPC.ALIGN_EN.key → t.get f = s.get f) ∧ s.sameMemory t) ∧
    (s.canWrite path EPC.FORCE_HOLDOVER = true →
      ∃ t, s.gives (.forceHoldover path v) t ∧ t.flag EPC.FORCE_HOLDOVER = v ∧ heard t ∧
        (∀ f : Fld, f.key ≠ EPC.FORCE_HOLDOVER.key → t.get f = s.get f) ∧ s.sameMemory t)

/-! ## Host links -/

/-- A link comes up where its port is enabled, its mode uses it and its synthesizer is locked (R306), and loses link; either is
raised, marks the figures for the next boundary and has what waits tried again (R103, R44); a link in the state asked for stays
as it is. A synthesizer that loses its lock takes the links of its four ports down, and its return lets them train again. PFC (R41, R72): on
a port with PFC enabled a frame is counted, and each priority it names is paused for its time or, at a time of 0, resumed; a
priority held for more than 1 ms is raised where it is one of PFC_PRIO. Address resolution (R39, R428): a request for the
link's own address in a frame that is good is answered, to the requester, with the link's MAC address; a request for another
address gets nothing; a frame with a wrong FCS is counted, and so is a bad one. It completes: arpRequest,
neighborSolicitation, pfcFrame, pfcHeld, hostLinkDown, hostLinkUp, hiBer. -/
def Obligations.HostLinksPfcAndAddresses : Prop :=
  (∀ (s : State) (l : HostLink), s.dpUp = true →
    let p := l.port.val
    let k := l.sub.val
    let v := s.srdBack (p / 4)
    let up (w : State) : State :=
      let u := ((w.setb (HP.LINK_UP p) k true).setb (HP.HI_BER p) k false).raise (HP.page p) HP.evLINK_UP_EVT
      ({ u with q := { u.q with refigure := true } }).flushWaiting
    (bitOf (s.get (HP.LINK_UP p)) k = false → s.flag (HDR.ENABLE (HP.page p)) = true → k < s.portLinks p →
      (bitOf s.clk.srdLock (p / 4) = true → s.gives (.hostLinkUp ⟨l, false⟩) (up s)) ∧
      s.gives (.hostLinkUp ⟨l, true⟩) (up v)) ∧
    (bitOf (s.get (HP.LINK_UP p)) k = true ∨ s.flag (HDR.ENABLE (HP.page p)) = false ∨ s.portLinks p ≤ k →
      s.gives (.hostLinkUp ⟨l, false⟩) s ∧ s.gives (.hostLinkUp ⟨l, true⟩) v) ∧
    (bitOf s.clk.srdLock (p / 4) = false → s.gives (.hostLinkUp ⟨l, false⟩) s) ∧
    (bitOf (s.get (HP.LINK_UP p)) k = true →
      let u := (s.setb (HP.LINK_UP p) k false).raise (HP.page p) HP.evLINK_DOWN
      s.gives (.hostLinkDown ⟨l, false⟩) ({ u with q := { u.q with refigure := true } }).flushWaiting) ∧
    (bitOf (s.get (HP.LINK_UP p)) k = false → s.gives (.hostLinkDown ⟨l, false⟩) s) ∧
    s.gives (.hostLinkDown ⟨l, true⟩) (s.srdLost (p / 4)) ∧
    (8 ≤ p → s.srdLost (p / 4) = (List.range 4).foldl (fun u i => u.portDown (4 * (p / 4) + i))
      { s with clk := { s.clk with srdLock := setBit s.clk.srdLock (p / 4) false } }) ∧
    (s.linkUp l = false → (∀ en qs, s.gives (.pfcFrame l en qs) s) ∧ ∀ prio, s.gives (.pfcHeld l prio) s) ∧
    s.gives (.hiBer l) ((s.setb (HP.HI_BER p) k true).raise (HP.page p) HP.evHI_BER_EVT)) ∧
  (∀ (s : State) (l : HostLink), s.dpUp = true → s.linkUp l = true →
    (s.flag (HP.PFC_EN l.port.val) = false → ∀ en qs, s.gives (.pfcFrame l en qs) (s.inc (HP.PFC_RX l.port.val))) ∧
    (s.flag (HP.PFC_EN l.port.val) = true → ∀ (en : BitVec 8) (qs : List Nat),
      let u := s.inc (HP.PFC_RX l.port.val)
      let named (i : Nat) : Prop := i < 8 ∧ bitOf en.toNat i = true ∧ bitOf (s.get (HP.PFC_PRIO l.port.val)) i = true
      ∃ m, s.gives (.pfcFrame l en qs) ({ u with net := { u.net with paused := m } }).flushWaiting ∧
        (∀ i, named i → mget m (linkNo l * 8 + i) =
          (let cycles := ceilDiv (qs.getD i 0 * 4096) (5 * s.linkRate l.port.val)
           if cycles = 0 then none else some (s.now + cycles))) ∧
        ∀ k, (∀ i, named i → k ≠ linkNo l * 8 + i) → mget m k = mget s.net.paused k) ∧
    (∀ prio : Fin 8, s.gives (.pfcHeld l prio) (if bitOf (s.get (HP.PFC_PRIO l.port.val)) prio.val
      then s.raise (HP.page l.port.val) HP.evPFC_HELD else s))) ∧
  (∀ (s : State) (f : EthFrame) (target : BitVec 128), s.dpUp = true → s.linkUp f.link = false →
    s.gives (.arpRequest f target) (s.at f.time) ∧ s.gives (.neighborSolicitation f target) (s.at f.time)) ∧
  (∀ (s : State) (f : EthFrame) (target : BitVec 128), s.dpUp = true → s.linkUp f.link = true →
    let p := f.link.port.val
    let in4 := (s.at f.time).frameIn { f with ip6 := false }
    let in6 := (s.at f.time).frameIn { f with ip6 := true }
    let mac := BitVec.ofNat 48 (s.linkMac f.link)
    (f.fcsOk = false → s.gives (.arpRequest f target) (in4.inc (HP.RX_FCS_ERR p)) ∧
      s.gives (.neighborSolicitation f target) (in6.inc (HP.RX_FCS_ERR p))) ∧
    (f.fcsOk = true →
      (s.frameBad { f with ip6 := false } = true →
        s.gives (.arpRequest f target) ((in4.inc (HP.RX_FRAMES p)).inc (XPT.RX_DROP p))) ∧
      (s.frameBad { f with ip6 := true } = true →
        s.gives (.neighborSolicitation f target) ((in6.inc (HP.RX_FRAMES p)).inc (XPT.RX_DROP p))) ∧
      (s.frameBad { f with ip6 := false } = false →
        (target.toNat = s.get (XPT.IPV4 p f.link.sub.val) → s.gives (.arpRequest f target)
          (((in4.inc (HP.RX_FRAMES p)).inc (HP.TX_FRAMES p)).send
            (.arp f.link mac target (s.frameHead f.link f.srcMac false f.srcIp (s.ownTag f.link))))) ∧
        (target.toNat ≠ s.get (XPT.IPV4 p f.link.sub.val) → s.gives (.arpRequest f target) (in4.inc (HP.RX_FRAMES p)))) ∧
      (s.frameBad { f with ip6 := true } = false →
        (target.toNat = s.linkIp6 f.link → s.gives (.neighborSolicitation f target)
          (((in6.inc (HP.RX_FRAMES p)).inc (HP.TX_FRAMES p)).send
            (.neighbour f.link mac target (s.frameHead f.link f.srcMac true f.srcIp (s.ownTag f.link))))) ∧
        (target.toNat ≠ s.linkIp6 f.link → s.gives (.neighborSolicitation f target) (in6.inc (HP.RX_FRAMES p))))))

/-! ## Requests from hosts -/

/-- Every request header that is encoded is read back with every field as it was, and its OPCODE: no bit of the 32 bytes of
R46 is dropped or moved. -/
def Obligations.RequestHeaderRoundTrip : Prop :=
  ∀ (h : ReqHdr) (op : Nat) (rest : List Byte), op < 64 →
    (encodeReq h op).length = 32 ∧ parseReq (encodeReq h op ++ rest) = (h, op)

/-- A datagram that is dropped before it is a request (R39, R43, R428): on a link that is down it leaves no trace, a wrong FCS,
a frame that breaks the rules of R39 and a wrong ICRC are counted, and such a request's row leaves nothing but its counters and
events, and what the frame itself brings: corrected codewords and the fill of its priority's buffer (R41, R72). It completes:
hostFrameDrop. -/
def Obligations.BadDatagramsDropped : Prop :=
  ∀ s : State, s.receives = true → ∀ d : Dgram,
    let p := d.frame.link.port.val
    (s.linkUp d.frame.link = false → s.gives (.hostFrameDrop d) (s.at d.frame.time)) ∧
    (s.linkUp d.frame.link = true → d.frame.fcsOk = false →
      s.gives (.hostFrameDrop d) (((s.at d.frame.time).frameIn d.frame).inc (HP.RX_FCS_ERR p))) ∧
    (s.linkUp d.frame.link = true → d.frame.fcsOk = true → s.frameBad d.frame = true →
      s.gives (.hostFrameDrop d) ((((s.at d.frame.time).frameIn d.frame).inc (HP.RX_FRAMES p)).inc (XPT.RX_DROP p))) ∧
    (∀ c op, hostRow c = some (d, op) → s.arrives d = true → icrcOk d op = false → s.gives c
      (((((s.at d.frame.time).frameIn d.frame).inc (HP.RX_FRAMES p)).inc (XPT.RX_DROP p)).raise (XPT.page p) XPT.evICRC_ERR))

/-- Requests turned away before they have an entry (R52, R53): where data service is not open for the queue, or the queue is
FREE, DELETING or FROZEN, or its key or sender does not match, or the sequence has passed FLOOR or lies beyond the credit, no
entry is made, nothing is staged or held, and no byte of memory changes. A request that fails at step 10 (R52, R58, R83): its
entry records the final NAK and its status, and one that would change state is tagged with the epoch, so that the twins refuse
it together (a read that freezes its queue, R96, is stated where that ends nothing else); an OPCODE that no row assigns fails as
INVALID_OPCODE. It completes: invalidOpcode, whose own effect is the refusal with INVALID_OPCODE. -/
def Obligations.RequestsRefused : Prop :=
  (∀ (s : State) (c : Instr) (d : Dgram) (op : Nat), hostRow c = some (d, op) → s.reachesChecks d op = true →
    let h := d.hdr
    let n := h.qid.toNat
    let q := s.queue n
    let serving := s.cm.twin = .paired ∨ s.cm.twin = .alone
    (n ≠ 0 ∧ ¬ serving) ∨ (16 ≤ n ∧ (s.serviceUp = false ∨ s.gangOk = false)) ∨ n = 0 ∨ q.state ≠ .active ∨
      q.key ≠ h.qkey.toNat ∨ q.srcEp ≠ h.srcEp.toNat ∨
      ((s.entry h.key).isNone ∧ (precedes q.floor h.seq.toNat = false ∨ precedes (s.credit n) h.seq.toNat = true)) →
    s.answers c fun t =>
      t.net.rrt = s.net.rrt ∧ t.net.held = s.net.held ∧ t.net.count = s.net.count ∧ t.cm.ep = s.cm.ep ∧ t.q.q = s.q.q ∧
      t.win = s.win ∧ t.tier = s.tier ∧ s.sameMemory t) ∧
  (∀ (s : State) (c : Instr) (d : Dgram) (op : Nat), hostRow c = some (d, op) → s.hears d op = true →
    (∀ st, s.step10 (s.reqOf d op) 0 = some st →
      readOnly op d.payload = false ∨ s.freezeCuts d.hdr.qid.toNat = false → s.answers c fun t =>
      (∃ e, t.entry d.hdr.key = some e ∧ e.answered = true ∧ e.isNak = true ∧ e.status = st ∧ e.epoch = s.ep.num) ∧
      (t.queue d.hdr.qid.toNat).inFlight = (s.queue d.hdr.qid.toNat).inFlight ∧
      (readOnly op d.payload = false →
        (t.epochRec s.ep.num).own = (s.epochRec s.ep.num).own ++ [d.hdr.key] ∧
        ∃ r, mget (t.epochRec s.ep.num).reqs d.hdr.key.code = some r ∧ r.refusal = some st) ∧
      t.win.win = s.win.win ∧ t.tier = s.tier ∧ s.sameMemory t) ∧
    (opClass op = none → s.step10 (s.reqOf d op) 0 = some 0x01))

/-- A state-changing request that passes every check and that step 12 admits (R56, R77, R130): it is staged under the current
epoch, its key is one of this twin's own tally, its entry exists and is not answered, a slot of its queue is in flight; what
it asks for happens at commit, so no byte of memory, no window, no domain and no extent changes yet. It completes: write,
cas8, cas16, fadd8, flush, sectorWrite, discard, append, seal, setFeature, firmwareDownload, firmwareCommit, queueCreate,
queueDelete, queueRestart, domainCreate, domainDelete, setQuota, openWindow, revoke, modify, close, censusClear, clockSet,
muster. -/
def Obligations.StateChangingRequestStaged : Prop :=
  ∀ (s : State) (c : Instr) (d : Dgram) (op : Nat), hostRow c = some (d, op) → readOnly op d.payload = false →
    s.hears d op = true → s.judgedGood d op = true → s.admitsNow d op = true →
    s.answers c fun t =>
      (t.epochRec s.ep.num).own = (s.epochRec s.ep.num).own ++ [d.hdr.key] ∧
      mget (t.epochRec s.ep.num).reqs d.hdr.key.code = some { s.reqOf d op with admitted := some s.ep.num } ∧
      t.entry d.hdr.key = some
        { key := d.hdr.key, epoch := s.ep.num, readOnly := false, mute := false, ret := some (retAddr d false none), time := d.frame.time } ∧
      (t.queue d.hdr.qid.toNat).inFlight = (s.queue d.hdr.qid.toNat).inFlight + 1 ∧
      (t.queue d.hdr.qid.toNat).high = laterSeq (s.queue d.hdr.qid.toNat).high d.hdr.seq.toNat ∧
      t.net.held = [] ∧ t.ep = s.ep ∧ t.win.win = s.win.win ∧ t.win.dom = s.win.dom ∧ t.tier = s.tier ∧ t.mus = s.mus ∧
      t.fl = s.fl ∧ s.sameMemory t

/-- A read-only ADMIN command that passes every check is answered at once (R79, R92): its entry is answered with no NAK, its
slot has returned once the answer is not held back by PFC (R60), nothing is staged, and no byte of memory changes. It
completes: identify, getLogPage, getFeature, domainQuery, windowQuery, censusRead. -/
def Obligations.AdminReadAnswered : Prop :=
  ∀ (s : State) (c : Instr) (d : Dgram) (op : Nat), hostRow c = some (d, op) → readOnly op d.payload = true →
    isRead op = false → s.hears d op = true → s.judgedGood d op = true → s.net.held = [] → s.frozenCut = false →
    s.answers c fun t =>
      (∃ e, t.entry d.hdr.key = some e ∧ e.answered = true ∧ e.isNak = false ∧ e.readOnly = true) ∧
      (s.pausedAt (retAddr d false none) = false → s.net.waiting = [] →
        (t.queue d.hdr.qid.toNat).inFlight = (s.queue d.hdr.qid.toNat).inFlight) ∧
      t.cm.ep = s.cm.ep ∧ t.win.win = s.win.win ∧ t.win.dom = s.win.dom ∧ t.tier = s.tier ∧ s.sameMemory t

/-- A read of up to one segment whose bytes are all here, in hot frames, without poison or a staged write over them, is answered
at once (R44, R48, R50, R85, R90, R281): one RESPONSE of status OK, marked LAST, with the bytes that memory holds, to the
addresses and the UDP port that it came from; its entry is answered with status OK; no byte of memory changes. It completes:
read, sectorRead, recordRead. -/
def Obligations.ReadReturnsMemory : Prop :=
  ∀ (s : State) (c : Instr) (d : Dgram) (op ga n : Nat), hostRow c = some (d, op) → isRead op = true →
    s.hears d op = true → s.judgedGood d op = true → s.net.held = [] → s.frozenCut = false →
    (s.queue d.hdr.qid.toNat).allows (s.charges (s.reqOf d op)) = true →
    (if op = 0x12 then
      fieldBE d.payload 12 4 = 0 ∧ ∃ p, s.recordRange (s.window d.hdr.window.toNat).journal (fieldBE d.payload 0 8)
        (fieldBE d.payload 8 4) d.hdr.count = some p ∧ ga = (s.window d.hdr.window.toNat).base + p.1 ∧ n = p.2
    else ga = (s.window d.hdr.window.toNat).base + d.hdr.offset.toNat ∧ n = d.hdr.count) →
    0 < n → n ≤ 8192 → s.readableNow ga n = true → d.cells = [] →
    s.silent (s.reqOf d op) = false → s.pausedAt (retAddr d false none) = false → s.net.waiting = [] →
    ∃ t hdr head udp, s.gives c t ∧
      t.out.getLast? = some (.host (retAddr d false none) hdr
        ((gangPieces ga n).flatMap fun q => s.readMem (s.daOf q.1) q.2) none head udp) ∧
      head = s.answerHead (retAddr d false none) ∧ udp.srcPort = d.frame.dstPort ∧ udp.dstPort = d.frame.srcPort ∧
      hdr.typ = 1 ∧ hdr.last = true ∧ hdr.status = 0 ∧ hdr.seq = d.hdr.seq.toNat ∧ hdr.untrusted = false ∧
      (∃ e, t.entry d.hdr.key = some e ∧ e.answered = true ∧ e.isNak = false ∧ e.readOnly = true ∧ e.status = 0) ∧
      s.sameMemory t

/-- Queue 0 (R80, R82): the doorbell of a request in progress raises ADM0_OVERRUN and submits nothing; IDENTIFY with its fields
as R83 asks is answered at once into the slots: BUSY clears, DONE and the event are set. It completes: adm0Doorbell. -/
def Obligations.QueueZeroDoorbell : Prop :=
  ∀ (s : State) (time : Nat), s.dpUp = true → s.flag PCE.LINK_UP = true →
    (s.q.adm0Busy = true → ∀ request, s.gives (.adm0Doorbell .pcie time request)
      (((s.at time).setRegion1 0 (request.take 16384)).raise QMG.page QMG.evADM0_OVERRUN)) ∧
    (s.q.adm0Busy = false → ∀ h : ReqHdr, h.window = 0 → h.gen = 0 → h.wkey = 0 → h.offset = 0 → h.length = 0 →
      s.answers (.adm0Doorbell .pcie time (encodeReq h 0x20)) fun t =>
        t.q.adm0Busy = false ∧ t.q.adm0Done = true ∧ t.q.adm0Segs = (segments (s.at time).identify).length ∧
        t.evt QMG.page QMG.evADM0_DONE = true ∧ t.win = s.win ∧ s.sameCommit t ∧ s.sameKeys t ∧ s.sameMemory t)

/-- KEY LOAD on queue 0 (R286, R288, R289): LOAD of a blob that is judged good makes its instance loaded, UNLOAD of an instance
that is not in use removes it, QUERY of a loaded instance changes no key; each is answered in the slots of queue 0 while bank 2
of the NOR is free, the key store's cipher channel does not wait, and no mark of the key that wraps the blob is awaited. What a key's coming or going then sets going is tried
after it. It completes: load, unload, keyQuery. -/
def Obligations.KeyCommands : Prop :=
  ∀ (s : State) (payload : List Byte), s.dpUp = true → s.q.adm0Busy = false → payload.length = 128 → s.norBusy 2 = false →
    let n := fieldBE payload 4 4
    let fields (action : Nat) : Prop := fieldBE payload 0 1 % 4 = action ∧ keyFieldsOk payload = true
    let told (u : State) : Prop := u.q.adm0Done = true ∧ u.q.adm0Busy = false ∧ u.evt QMG.page QMG.evADM0_DONE = true
    (fields 0 → ∀ k, s.loadJudge n (fieldBE payload 8 4) (fieldBE payload 12 2) (bitOf (fieldBE payload 0 1) 2)
        (slice payload 16 (fieldBE payload 12 2)) = (0, some k) → s.chanWaits 18 = false → s.keyWaits (fieldBE payload 8 4) = false →
      ∃ u, s.gives (.load payload) u.keysChanged ∧ (u.keyInst n).isSome = true ∧ told u ∧
        u.evt KST.page KST.evKEY_LOADED = true ∧ s.sameMemory u) ∧
    (fields 1 → s.unloadOk n = true →
      ∃ u, s.gives (.unload payload) u.keysChanged ∧ u.keyInst n = none ∧ told u ∧ s.sameMemory u) ∧
    (fields 2 → (s.keyInst n).isSome = true →
      ∃ u, s.gives (.keyQuery payload) u.keysChanged ∧ u.key = s.key ∧ told u ∧ s.sameMemory u)

/-! ## The adit link and the twin protocol -/

/-- Frames of the adit link that are not taken (R152, R154, R294): with the link down a frame leaves no trace; one in clear
with a wrong CRC or a tag, and a sealed one without a key, are counted in RX_DROP and raise FRAME_DROP; a sealed one waits
while its channel cannot work (R297). What the frames of the adit link do (R28, R134, R144, R149, R152, R153): UNION_WHOLE
says that the peer holds the union of its epoch; RELAY is the leader's marker for a follower; DEPART and YIELD are raised, and
of a pair kept for the next boundary, but not during a muster; REHOME's bytes are written at their device address at a
returning twin, its table records taken; RESEND has each frame that is still kept sent again, and raises RESEND_FAIL for each
that is not. It completes: unionWhole, relay, rehome, depart, yield, resend. -/
def Obligations.AditFrames : Prop :=
  (∀ (s : State) (c : Instr) (f : LinkFrame) (typ : Nat), aditRow c = some (f, typ) → s.dpUp = true →
    (s.flag ADT.LINK_UP = false → s.gives c (s.at f.time)) ∧
    let v := (s.at f.time).aditFec f.fecCorr f.fecUncorr
    (s.flag ADT.LINK_UP = true → s.flag ADT.SEAL_EN = false → f.crcOk typ = false ∨ f.tag ≠ [] →
      s.gives c (v.inc ADT.RX_FRAMES).dropAdit) ∧
    (s.flag ADT.LINK_UP = true → s.flag ADT.SEAL_EN = true → s.chanWaits 17 = true →
      s.gives c { v with key := { s.key with haltAdit := s.key.haltAdit ++ [(typ, { f with fecCorr := 0, fecUncorr := 0 })] } }) ∧
    (s.flag ADT.LINK_UP = true → s.flag ADT.SEAL_EN = true → s.chanWaits 17 = false →
      f.crcOk typ = false ∨ s.aditKey false = none → s.gives c (v.inc ADT.RX_FRAMES).dropAdit)) ∧
  (∀ (s : State) (f : LinkFrame),
    let u := s.tookFrame f
    let n := f.epoch.toNat
    (s.nextFrame f 3 = true → s.cm.twin = .paired →
      s.gives (.unionWhole f) (u.setEpochRec n { s.epochRec n with peerHolds := true }).settle) ∧
    (s.nextFrame f 3 = true → s.cm.twin ≠ .paired → s.gives (.unionWhole f) u) ∧
    (s.nextFrame f 4 = true → s.pwr.twinPos = 1 → s.flag EPC.RELAY_EN = true → s.flag EPC.FORCE_HOLDOVER = false →
      s.gives (.relay f) { u with ep := { s.ep with
        markers := s.ep.markers.filter (fun m => s.ep.num ≤ m.num + 1) ++ [⟨n, f.time⟩] } }) ∧
    (s.nextFrame f 4 = true → s.pwr.twinPos ≠ 1 ∨ s.flag EPC.RELAY_EN = false ∨ s.flag EPC.FORCE_HOLDOVER = true →
      s.gives (.relay f) u) ∧
    (let w := u.raise CMT.page CMT.evDEPART_RX
     let x : State := if (s.cm.twin = .paired ∨ s.cm.yieldNext = true) ∧ s.mus.stopped = false
       then { w with cm := { w.cm with departed := true } } else w
     (s.nextFrame f 7 = true → s.gives (.depart f) x) ∧ (s.nextFrame f 8 = true → s.gives (.yield f) x)) ∧
    (s.nextFrame f 6 = true → s.cm.twin = .returning → bitsOf (fieldBE f.body 0 8) 56 2 ≠ 0 → ∃ t, s.gives (.rehome f) t ∧
      (∀ a, Memory.read t.mem a =
        (let da := s.daOf (bitsOf (fieldBE f.body 0 8) 0 50)
         if da ≤ a ∧ a < da + (f.body.drop 8).length then (f.body.drop 8).getD (a - da) 0 else Memory.read s.mem a))) ∧
    (s.nextFrame f 6 = true → s.cm.twin = .returning → bitsOf (fieldBE f.body 0 8) 56 2 = 0 → s.gives (.rehome f)
      (u.takeRecord (bitsOf (fieldBE f.body 0 8) 40 10) (bitsOf (fieldBE f.body 0 8) 0 40) n (f.body.drop 8))) ∧
    (s.nextFrame f 6 = true → s.cm.twin ≠ .returning → s.gives (.rehome f) u) ∧
    (s.nextFrame f 9 = true → s.gives (.resend f) ((List.range (fieldBE f.body 4 2)).foldl (fun v i =>
      match s.cm.kept.find? fun e => e.2.1.fseq % 2 ^ 32 == (fieldBE f.body 0 4 + i) % 2 ^ 32 && s.ep.num ≤ e.1 + 1 with
      | some e => (v.inc ADT.TX_FRAMES).send (.adit e.2.1 e.2.2)
      | none => v.raise ADT.page ADT.evRESEND_FAIL) (u.inc ADT.RESEND_RX))))

/-- A tally and a repair (R132, R134): of an epoch that has committed they do nothing; of one that has not, the first frame of
a tally gives the peer's figures and the keys it names, apart from those that belong to an earlier epoch (R59), and a frame
after it more such keys; a repair brings the request of its key, unless it is there already or belongs to an earlier epoch.
What they set going for the epochs that wait follows. It completes: tally, repair. -/
def Obligations.TallyAndRepairTaken : Prop :=
  (∀ (s : State) (f : LinkFrame), f.epoch.toNat ≤ s.cm.committed →
    (s.nextFrame f 1 = true → s.gives (.tally f) (s.tookFrame f)) ∧
    (s.nextFrame f 2 = true → s.gives (.repair f) (s.tookFrame f))) ∧
  ∀ (s : State) (f : LinkFrame), s.cm.twin = .paired → s.cm.committed < f.epoch.toNat →
    let n := f.epoch.toNat
    (s.nextFrame f 1 = true → s.tallies = true → (s.epochRec n).peer.first = true →
      ∃ u : State, s.gives (.tally f) u.settle ∧ s.sameMemory u ∧
        (u.epochRec n).peer.keys = (s.epochRec n).peer.keys ++
          (((chunks 12 f.body).flatMap entryKeys).filter fun k => !s.ownedBefore n k)) ∧
    (s.nextFrame f 1 = true → s.tallies = false → s.gives (.tally f) (s.tookFrame f)) ∧
    (s.nextFrame f 1 = true → s.tallies = true → (s.epochRec n).peer.first = false → fieldBE f.body 0 8 = n →
      ∃ u : State, s.gives (.tally f) u.settle ∧
        (let p := (u.epochRec n).peer
         p.first = true ∧ p.hashPrev = fieldBE f.body 8 8 ∧ p.placed = fieldBE f.body 16 8 ∧
         p.calSec = fieldBE f.body 24 8 % 2 ^ 40 ∧ p.claim = fieldBE f.body 32 4 ∧ p.runs = fieldBE f.body 36 4 ∧
         p.keys = (s.epochRec n).peer.keys ++
           (((chunks 12 (f.body.drop 48)).flatMap entryKeys).filter fun k => !s.ownedBefore n k)) ∧
        u.cm.peerClaim = fieldBE f.body 32 4 ∧ u.cm.peerPlaced = max s.cm.peerPlaced (fieldBE f.body 16 8) ∧ s.sameMemory u) ∧
    (s.nextFrame f 2 = true →
      let k := (parseReq (slice f.body 4 32)).1.key
      (s.ownedBefore n k = true ∨ (mget (s.epochRec n).reqs k.code).isSome = true → s.gives (.repair f) (s.tookFrame f)) ∧
      (s.ownedBefore n k = false → mget (s.epochRec n).reqs k.code = none → ∃ u : State, s.gives (.repair f) u.settle ∧
        (mget (u.epochRec n).reqs k.code).isSome = true ∧ s.sameMemory u))

/-- RESUME (R146, R148): what the peer says is kept; while this device's restore still runs nothing more happens; two fresh
devices form a new pair at the next boundary, with the claims of R148. The adit link (R29, R151, R154, R306): while its
synthesizer is locked and its page not in reset, alignment gives the delay as half the round trip and, in clear, the link; with sealing on and a key missing the link waits for it; alignment lost
takes the link down and ends re-homing. Time limits of the twin protocol (R133, R147): the tally of the last epoch that has
ended, not whole 0.75 epoch on, is late, once; a device in START with a valid restore of a pair or a twin alone, and no RESUME
exchanged, opens ALONE at the next boundary. It completes: tallyDeadline, resume, aditLinkUp, aditAlignLost, pairTmo. -/
def Obligations.TwinLinkAndLimits : Prop :=
  (∀ (s : State) (f : LinkFrame), s.nextFrame f 5 = true →
    let flags := fieldBE f.body 5 1
    let r : Resume := { claim := fieldBE f.body 0 4, twin := twinOf (fieldBE f.body 4 1 % 8), valid := bitOf flags 0
                        fresh := bitOf flags 1, committed := fieldBE f.body 8 8, hash := fieldBE f.body 16 8 }
    let u := s.tookFrame f
    let v : State := { u with cm := { u.cm with peerClaim := r.claim, peerResume := some r } }
    (s.restorePending = true → ¬ (r.twin = .returning ∧ r.valid = true) → s.gives (.resume f) v) ∧
    (s.restorePending = false → r.valid = false → r.fresh = true → s.fresh = true → s.cm.inService = false →
      ∃ t, s.gives (.resume f) t ∧ t.cm.resumed = true ∧ t.cm.peerClaim = r.claim ∧
        t.cm.next = .newPair (s.newClaim r.claim) ∧ s.sameMemory t)) ∧
  (∀ s : State, s.dpUp = true →
    (∀ rt base, bitOf s.clk.srdLock 0 = false ∨ s.flag (HDR.IN_RESET ADT.page) = true → s.gives (.aditLinkUp rt base) s) ∧
    (bitOf s.clk.srdLock 0 = true → s.flag (HDR.IN_RESET ADT.page) = false → ∀ rt base, s.flag ADT.SEAL_EN = false →
      s.answers (.aditLinkUp rt base) fun t =>
      t.get ADT.ALIGNED = 1 ∧ t.get ADT.LINK_UP = 1 ∧ t.cm.delay = rt / 2 ∧ t.cm.rxAny = false ∧
      t.evt ADT.page ADT.evLINK_UP_EVT = true ∧ s.sameMemory t) ∧
    (bitOf s.clk.srdLock 0 = true → s.flag (HDR.IN_RESET ADT.page) = false → ∀ rt base, s.flag ADT.SEAL_EN = true →
      s.aditKey true = none ∨ s.aditKey false = none → s.answers (.aditLinkUp rt base) fun t =>
        t.get ADT.ALIGNED = 1 ∧ t.get ADT.LINK_UP = 0 ∧ t.get ADT.KEY_WAIT = 1 ∧ t.cm.delay = rt / 2 ∧ s.sameMemory t) ∧
    (s.answers .aditAlignLost fun t =>
      t.get ADT.ALIGNED = 0 ∧ t.get ADT.LINK_UP = 0 ∧ t.cm.rehomeSrc = false ∧ t.cm.resumed = false ∧
      t.evt ADT.page ADT.evALIGN_LOST = true ∧ (s.flag ADT.LINK_UP = true → t.evt ADT.page ADT.evLINK_DOWN = true) ∧
      s.sameMemory t)) ∧
  (∀ s : State, s.dpUp = true →
    (∀ time n, ((s.cm.ep.filter fun e => e.1 < s.ep.num).getLast?).map (·.1) = some n → s.cm.ep.find? (·.1 == n) =
        (s.cm.ep.filter fun e => e.1 < s.ep.num).getLast? → s.cm.twin = .paired → (s.epochRec n).peer.whole = false →
      (s.epochRec n).solo = false → s.cm.ended.contains n = true → (s.epochRec n).peer.late = false →
      s.answers (.tallyDeadline time) fun t =>
        (t.epochRec n).peer.late = true ∧ (t.epochRec n).extended = true ∧
        t.get CMT.TALLY_LATE = min (2 ^ 64 - 1) (s.get CMT.TALLY_LATE + 1) ∧ t.evt CMT.page CMT.evTALLY_LATE = true ∧
        s.sameMemory t) ∧
    (∀ time, (∀ e ∈ s.cm.ep, e.2.peer.late = true ∨ e.2.peer.whole = true ∨ e.2.solo = true) →
      s.gives (.tallyDeadline time) (s.at time)) ∧
    (∀ time, s.cm.twin ≠ .paired → s.gives (.tallyDeadline time) (s.at time)) ∧
    (s.cm.twin = .start → s.mus.restoreValid = true → s.mus.recordTwin = .paired ∨ s.mus.recordTwin = .alone →
      s.cm.resumed = false → s.gives .pairTmo { s with cm := { s.cm with next := .alone } }) ∧
    (s.cm.twin ≠ .start ∨ s.mus.restoreValid = false ∨ s.cm.resumed = true ∨
      (s.mus.recordTwin ≠ .paired ∧ s.mus.recordTwin ≠ .alone) → s.gives .pairTmo s))

/-! ## Commit and placement -/

/-- The commit of a key (R135 to R137): a key that may not commit yet changes nothing but what the compare of hashes does; one
that may is executed once, is done, and its commit record is kept for the state hash; what the epoch's course sets going
follows. A request that was refused by its tally or repair ends with that status at commit and changes no state (R130, R137).
It completes: commitKey. -/
def Obligations.KeyCommits : Prop :=
  (∀ (s : State) (epoch : BitVec 64) (k : ReqKey) (cells : List CellFault), s.dpUp = true →
    let n := epoch.toNat
    let b := s.compareHash.beginEpoch n
    (s.compareHash.commitReady n k = false → s.gives (.commitKey epoch k cells) s.compareHash) ∧
    (∀ r, s.compareHash.commitReady n k = true → b.cm.twin ≠ .returning → mget (b.epochRec n).reqs k.code = some r →
      r.hdr.key = k →
      let x := b.execute r n (b.epochRec n).calSec cells
      ∃ u : State, s.gives (.commitKey epoch k cells) u.settle ∧
        (u.epochRec n).done = (x.2.epochRec n).done ++ [k.code] ∧
        mget (u.epochRec n).records k.code = some (recordOf r x.1) ∧ u.mem = x.2.mem)) ∧
  (∀ (s : State) (r : Req) (n cal : Nat) (cells : List CellFault) (st : Nat), r.refusal = some st →
    s.execute r n cal cells = (ended st, s))

/-- WRITE and SECTOR WRITE at commit, in a gang of one and within the quota, to extents in DRAM that are not moving (R85,
R87): the bytes of the payload are stored from the window's base plus the offset up, and every other byte of memory is
unchanged. The atomics at commit, in a gang of one, on an extent in DRAM without poison (R86): FADD8 stores the sum modulo
2⁶⁴, CAS8 and CAS16 store the new value where the old one compares equal and nothing otherwise; each returns the old value. -/
def Obligations.WritesAndAtomicsCommit : Prop :=
  (∀ (s : State) (r : Req) (n cal : Nat) (cells : List CellFault), r.op = 0x02 ∨ r.op = 0x09 → r.refusal = none →
    r.authBad = false → (s.queue r.hdr.qid.toNat).cls = 1 →
    s.judge11 r.hdr r.op (s.queue r.hdr.qid.toNat).domain n (some cal) = none → s.gangN = 1 →
    let ga := (s.window r.hdr.window.toNat).base + r.hdr.offset.toNat
    (∀ e ∈ extentsIn ga r.payload.length, ∃ x, s.extent e = some x ∧ x.isVolatile = true ∧ x.move = none) →
    (s.execute r n cal cells).1 = stored ga r.payload [] ∧
    ∀ a, Memory.read (s.execute r n cal cells).2.mem a =
      if ga ≤ a ∧ a < ga + r.payload.length then r.payload.getD (a - ga) 0 else Memory.read s.mem a) ∧
  (∀ (s : State) (r : Req) (n : Nat), s.gangN = 1 →
    let ga := (s.window r.hdr.window.toNat).base + r.hdr.offset.toNat
    ∀ w, (r.op = 0x04 → w = 16) → (r.op = 0x03 ∨ r.op = 0x05 → w = 8) → r.op = 0x03 ∨ r.op = 0x04 ∨ r.op = 0x05 →
    secOf ga = secOf (ga + w - 1) →
    (∃ x, s.extent (extOf ga) = some x ∧ x.isVolatile = true ∧ x.move = none) → s.poisoned (secOf ga) = false →
    let old := natOfLE (s.readMem ga w)
    let x := s.commitAtomic n r w []
    let holds (t : State) (v : Nat) : Prop := natOfLE (t.readMem ga w) = v ∧
      ∀ a, a < ga ∨ ga + w ≤ a → Memory.read t.mem a = Memory.read s.mem a
    x.1.status = 0 ∧ x.1.data = bytesBE w old ∧
    (r.op = 0x05 → holds x.2 ((old + fieldBE r.payload 0 8) % 2 ^ 64)) ∧
    (r.op ≠ 0x05 → old = fieldBE r.payload 0 w → holds x.2 (fieldBE r.payload w w)) ∧
    (r.op ≠ 0x05 → old ≠ fieldBE r.payload 0 w → holds x.2 old))

/-- WRITE_PLACED (R58, R136, R279): a write that is not waiting to be placed, one whose homes are not ready, and a SEAL whose
span still has a record to place stay as they are; a placed one leaves the epoch's list, and its request is answered, where it
was not yet, with the status and the data kept for it; no byte of memory changes (it holds the bytes since the commit). It
completes: writePlaced. -/
def Obligations.PlacedWriteAnswered : Prop :=
  ∀ (s : State) (epoch : BitVec 64) (k : ReqKey) (time : Nat), s.dpUp = true →
    let n := epoch.toNat
    let e := s.epochRec n
    (e.toPlace.contains k.code = false ∨ s.homesReady e k.code = false ∨ mget e.reqs k.code = none ∨
      (∃ r, mget e.reqs k.code = some r ∧ s.sealWaits n e r = true) → s.gives (.writePlaced epoch k time) (s.at time)) ∧
    (∀ r, mget e.reqs k.code = some r → r.hdr.key = k → e.toPlace.contains k.code = true →
      s.homesReady e k.code = true → s.sealWaits n e r = false →
      ∃ u : State, s.gives (.writePlaced epoch k time) u.afterPlaced ∧ (u.epochRec n).toPlace = e.toPlace.filter (· != k.code) ∧
        (∀ y, s.entry k = some y → ∃ z, u.entry k = some z ∧ z.answered = true ∧
          (y.answered = false → z.isNak = false ∧ z.status = ((mget e.results k.code).getD (0, [])).1 ∧
            z.data = ((mget e.results k.code).getD (0, [])).2.take 16)) ∧ s.sameMemory u)

/-- REVOKE_DONE (R118): while a condition of the fence is open nothing happens; then a revoked window is OPEN again and a closed
one FREE, with nothing left of it but its two epochs, the end is raised, and the command that asked for it is answered with the
values after it (R115). It completes: revokeDone. -/
def Obligations.RevocationEnds : Prop :=
  ∀ (s : State) (w : BitVec 18), s.dpUp = true →
    (s.fenceReady w.toNat = false → s.gives (.revokeDone w) s) ∧
    (s.fenceReady w.toNat = true → s.answers (.revokeDone w) fun t =>
      (t.window w.toNat).state = (if (s.window w.toNat).state = .closing then .free else .open) ∧
      (t.window w.toNat).answer = none ∧ t.evt WIN.page WIN.evREVOKE_DONE = true ∧
      (∀ r y, (s.window w.toNat).answer = some r → s.entry r.hdr.key = some y → ∃ z, t.entry r.hdr.key = some z ∧
        z.answered = true ∧ (y.answered = false → z.isNak = false ∧ z.status = 0 ∧
          z.data = (if (s.window w.toNat).state = .closing
            then windowAnswer 3 w.toNat { effect := (s.window w.toNat).effect, fence := (s.window w.toNat).fence } (s.window w.toNat).fence
            else windowAnswer 1 w.toNat (s.window w.toNat) (s.window w.toNat).fence).take 16)) ∧
      s.sameMemory t)

/-! ## Tiers and flash -/

/-- The home that a move's destination becomes (R178): a frame of a tier, or flash. A move whose copy is not whole, or none,
stays as it is, as every move does in a muster (R190) and while a member of the extent issues no access (R308). A block of a fill
that failed to program is retired and its superblock begun again (R241). Else the copy is read, with what that meets; a move to
flash by a fill programs the rows of its superblock up to the extent's, and waits where they cannot be programmed, a retired
storage key being a program failure (R291); the end of the move switches the home in one step and leaves no move, the owner
unchanged. It completes: moveCommit. -/
def Obligations.MoveCommits : Prop :=
  ∀ (s : State) (e : BitVec 32), s.dpUp = true →
    let n := e.toNat
    let lb := n / 6144
    let row := n % 6144 / 4
    let sb := (s.lb lb).slc.getD (row / 512) 0
    (∀ r, s.copyWhole n = false ∨ s.mus.stopped = true ∨ s.heldBack (65536 * n) 65536 = true → s.gives (.moveCommit e r) s) ∧
    (∀ x d, s.extent n = some x → x.move = some d → s.copyWhole n = true → s.mus.stopped = false →
      s.heldBack (65536 * n) 65536 = false →
      (∀ cells m, d = .flash → s.gives (.moveCommit e ⟨cells, some m⟩)
        (((s.retireBlock (s.sbBlock sb m.member.val) m.erase).restartFill lb row).manageTiers) ∧
        s.sbBlock sb m.member.val ∈ (s.retireBlock (s.sbBlock sb m.member.val) m.erase).fl.retired) ∧
      ∀ r : CopyEnd, d ≠ .flash ∨ r.failed = none →
        let v := s.readCells r.cells (65536 * n) 65536
        let rows := v.fillRows lb row
        (d = .flash → rows.1 = false → s.gives (.moveCommit e r)
          (if rows.2.storeRetired then ((rows.2.retireData sb).restartFill lb row).manageTiers else rows.2)) ∧
        (d ≠ .flash ∨ rows.1 = true → ∃ u : State, s.gives (.moveCommit e r) u.manageTiers.examine.runReads ∧
          (∃ y, u.extent n = some y ∧ y.move = none ∧ y.owner = x.owner ∧ y.home = (match d with
            | .hot f => .hot f
            | .warm f => .warm f
            | .flash => .flash)) ∧ v.sameMemory u ∧ (r.cells = [] → s.sameMemory u)))

/-- A word-line group of a log (R238, R240, R241): nothing happens for a log that is not bound or has no group in flight, or
in a muster that programs no log (R190); the copies of its demotions are read, with what that meets (R205), and with pass status
the log's programmed slots reach past the group; a failure retires the block that failed and begins the log again, as a retired
storage key does (R291). The row-hold limit fills the open group with PAD and has it programmed, and does nothing to a log
without an open group. It completes: flashGroupProgrammed, rowHoldExpiry. -/
def Obligations.LogGroupsProgrammed : Prop :=
  ∀ (s : State) (log : BitVec 10), s.dpUp = true →
    let n := log.toNat
    let ends (r : GroupEnd) (u : State) : Prop := s.gives (.flashGroupProgrammed log r) u.manageTiers.examine.runReads
    (∀ r, mget s.fl.logs n = none → s.gives (.flashGroupProgrammed log r) s ∧ s.gives (.rowHoldExpiry log) s) ∧
    (∀ l r, mget s.fl.logs n = some l → s.issuedGroup l.sb = none ∨ (s.mus.stopped = true ∧ s.mus.cause ≠ 5) →
      s.gives (.flashGroupProgrammed log r) s) ∧
    (∀ l g, mget s.fl.logs n = some l → s.issuedGroup l.sb = some g → s.mus.stopped = false ∨ s.mus.cause = 5 →
      (∀ cells,
        let moving := (((List.range 12).map (12 * g + ·)).filter (· < l.slots.length)).filterMap fun k => l.slots.getD k none
        let t := moving.foldl (fun v e => v.readCells cells (65536 * e) 65536) s
        let p := t.programRows l.sb (3 * g) 3
        (p.1 = true → l.slots.length ≠ 6144 → ∃ u : State, ends ⟨none, cells⟩ u ∧
          (∃ y, mget u.fl.logs n = some y ∧ y.programmed = max l.programmed (12 * g + 12) ∧ y.slots = l.slots) ∧
          t.sameMemory u ∧ (cells = [] → s.sameMemory u)) ∧
        (p.1 = false → p.2.storeRetired = true → ends ⟨none, cells⟩ ((p.2.retireData l.sb).restartLog n l)) ∧
        (p.1 = false → p.2.storeRetired = false → ends ⟨none, cells⟩ s)) ∧
      ∀ (m : BlockFail) cells, ends ⟨some m, cells⟩ ((s.retireBlock (s.sbBlock l.sb m.member.val) m.erase).restartLog n l) ∧
        s.sbBlock l.sb m.member.val ∈ (s.retireBlock (s.sbBlock l.sb m.member.val) m.erase).fl.retired) ∧
    (∀ l, mget s.fl.logs n = some l → l.slots.length % 12 = 0 → s.gives (.rowHoldExpiry log) s) ∧
    (∀ l, mget s.fl.logs n = some l → l.slots.length % 12 ≠ 0 → s.gives (.rowHoldExpiry log)
      ((s.setLog n { l with slots := l.slots ++ List.replicate (12 - l.slots.length % 12) none }).issueGroup l.sb
        (l.slots.length / 12) 0))

/-- A merge (R239, R240): without a destination, and in a muster, nothing happens; its sources are read, from their stripes where they
must be (R253), and a lost list that is then full stops it (R260); when its destination is programmed the entry switches to it
in one step, MERGING clears and the log is unbound; a failure retires the block that failed, as a retired storage key retires the
destination's, and the merge begins again. It completes: mergeDone. -/
def Obligations.MergeSwitchesTheEntry : Prop :=
  ∀ (s : State) (lb : BitVec 20), s.dpUp = true →
    let x := s.lb lb.toNat
    (∀ failed r, x.dest = none ∨ x.merging = false ∨ s.mus.stopped = true → s.gives (.mergeDone lb failed r) s) ∧
    (∀ d, x.dest = some d → x.merging = true → s.mus.stopped = false →
      (∀ r,
        let prio := if s.rebuildSet.contains lb.toNat then 4 else 3
        let t := s.mergeReads lb.toNat d prio r
        let p := t.programRows d (s.mergeKept x / 4) (1536 - s.mergeKept x / 4) prio
        (t.lostFull = true → s.gives (.mergeDone lb none r) (t.stopMerge lb.toNat).manageTiers.examine.runReads) ∧
        (t.lostFull = false → p.1 = true →
          ∃ u : State, s.gives (.mergeDone lb none r) (u.afterMerge lb.toNat).manageTiers.examine.runReads ∧
            (u.lb lb.toNat).base = some d ∧ (u.lb lb.toNat).state = 2 ∧ (u.lb lb.toNat).merging = false ∧
            (u.lb lb.toNat).log = none ∧ t.sameMemory u ∧ (r.cells = [] → s.sameMemory u)) ∧
        (t.lostFull = false → p.1 = false → p.2.storeRetired = true →
          s.gives (.mergeDone lb none r) ((p.2.retireData d).restartMerge lb.toNat)) ∧
        (t.lostFull = false → p.1 = false → p.2.storeRetired = false → s.gives (.mergeDone lb none r) s)) ∧
      ∀ (m : BlockFail) r, s.gives (.mergeDone lb (some m) r)
        ((s.retireBlock (s.sbBlock d m.member.val) m.erase).restartMerge lb.toNat) ∧
        s.sbBlock d m.member.val ∈ (s.retireBlock (s.sbBlock d m.member.val) m.erase).fl.retired)

/-- A flash page (R253, R256, R260, R301): it is there if it reads with its header good from a die in service, or if it can be
taken from its stripe; it is counted either way. A page that is there and that nothing waits for passes its storage channel, and
what is held is looked at again; one that is waited for is handed on in clear, or as unauthenticated where its tag fails, once its
channel works (R297), with a storage key (R288) whose mark is there (R290). A page that is not there is lost. A page that is late
is taken from its stripe where at most one other member is missing. It completes: pageReadDone, reconAt. -/
def Obligations.FlashPagesDelivered : Prop :=
  ∀ (s : State) (p : PageDone), s.dpUp = true →
    let c := dieChan p.die.toNat
    let k := 4 * p.extent + p.page.val
    let wanted := s.pageWanted p.extent p.page.val
    let reads := p.uncorr = false ∧ p.headerOk = true ∧ s.dieOut p.die.toNat = false
    let v := (s.at p.time).pageTaken p
    let waits (u : State) : Prop := u.chanWaits 8 = true ∨ u.storeInst = none ∨ u.keyWaits (u.get CPH.STORE_KEY) = true
    (reads → v.1 = true ∧ v.2.get (FCH.PAGE_READS c) = min (2 ^ (FCH.PAGE_READS c).width - 1) (s.get (FCH.PAGE_READS c) + 1)) ∧
    (¬ reads → v.1 = true → v.2.get PAR.RECON_READS = min (2 ^ PAR.RECON_READS.width - 1) (s.get PAR.RECON_READS + 1)) ∧
    (p.uncorr = true → v.2.evt (FCH.page c) FCH.evCW_UNCORR_EVT = true) ∧
    v.2.net = (s.at p.time).net ∧ s.sameMemory v.2 ∧
    (wanted = false → v.1 = true → s.gives (.pageReadDone p) ((v.2.pageEnded k).pageMsg p).examine.runReads) ∧
    (wanted = false → v.1 = false → s.gives (.pageReadDone p)
      ((v.2.pageEnded k).loseSectors p.extent (15 * 16 ^ p.page.val))) ∧
    (wanted = true → s.gives (.pageReadDone p) (v.2.finishPage p v.1)) ∧
    (∀ u : State,
      u.finishPage p false = (u.loseSectors p.extent (15 * 16 ^ p.page.val)).deliverPage p.extent p.page.val .lost ∧
      (waits u → u.finishPage p true = { u with key := { u.key with haltPages := u.key.haltPages ++ [p] } }) ∧
      (¬ waits u → u.pageAuth p = true → u.finishPage p true = (u.pageMsg p).deliverPage p.extent p.page.val .good) ∧
      (¬ waits u → u.pageAuth p = false → u.finishPage p true =
        (((u.pageMsg p).inc CPH.STORE_AUTH_FAIL).raise CPH.page CPH.evSTORE_AUTH_FAIL_EVT).deliverPage p.extent p.page.val .unauth)) ∧
    (wanted = false ∨ 2 ≤ s.othersMissing p → s.gives (.reconAt p) (s.at p.time)) ∧
    (wanted = true → s.othersMissing p < 2 →
      let w := (s.at p.time).rebuildPage p
      s.gives (.reconAt p) (w.2.finishPage p w.1) ∧ w.2.net = (s.at p.time).net ∧ s.sameMemory w.2 ∧
      (w.1 = true → w.2.get PAR.RECON_READS = min (2 ^ PAR.RECON_READS.width - 1) (s.get PAR.RECON_READS + 1)))

/-- Dies (R256 to R258): a read timeout is counted and raised; a page that is still needed is taken from its stripe; the third
timeout of one die within one second declares it failed. CLEAR_GO takes a listed die off the list, with no rebuild and no reshape
running, if it answers, and is rejected otherwise. Reshape (R267, R268): rejected while a rebuild or a reshape runs, with the
lost list full or with fewer than 18 dies, and for a SPREAD out of range; else it runs over the healthy dies, or those in
service, its walk from logical block 0, the rows there before it old, the new rows after them. It completes: readTimeout, clearDie,
reshapeAdd, reshapeSpread. -/
def Obligations.DiesAndReshape : Prop :=
  (∀ (s : State) (time : Nat) (late : LateRead), s.dpUp = true →
    let p := late.at time
    let d := p.die.toNat
    let v := ((s.at time).inc PAR.TIMEOUTS).raise PAR.page PAR.evTIMEOUT_EVT
    let ends (w u : State) : Prop :=
      let ts := (w.now :: mgetD w.par.timeouts d []).filter fun t => w.now ≤ t + secCycles
      let x : State := { w with par := { w.par with timeouts := mput w.par.timeouts d ts } }
      u = if 3 ≤ ts.length then (x.failDie d).manageTiers else x
    (s.pageWanted p.extent p.page.val = false →
      ∃ u, s.gives (.readTimeout time late) u ∧ ends (v.pageEnded (4 * p.extent + p.page.val)) u) ∧
    (s.pageWanted p.extent p.page.val = true → ∃ u, s.gives (.readTimeout time late) u ∧
      ends ((v.rebuildPage p).2.finishPage p (v.rebuildPage p).1) u) ∧
    v.get PAR.TIMEOUTS = min (2 ^ PAR.TIMEOUTS.width - 1) (s.get PAR.TIMEOUTS + 1) ∧
    v.evt PAR.page PAR.evTIMEOUT_EVT = true ∧
    ∀ w : State, w.dieFailed d = false → (w.failDie d).dieFailed d = true ∧
      (w.failDie d).evt PAR.page PAR.evDIE_FAILED_EVT = true ∧ (w.failDie d).q.refigure = true ∧ w.sameMemory (w.failDie d)) ∧
  (∀ (s : State) (die : BitVec 10),
    let d := die.toNat
    (∀ path a, s.canWrite path PAR.CLEAR_GO = true →
      (s.dieFailed d = false ∨ s.rebuilding = true ∨ s.par.reshaping = true ∨ a.ok = false →
        s.gives (.clearDie path die a) (s.raise PAR.page PAR.evRESHAPE_REJECT)) ∧
      (s.dieFailed d = true → s.rebuilding = false → s.par.reshaping = false → a.ok = true →
        s.answers (.clearDie path die a) fun t =>
          t.dieFailed d = false ∧ bitOf (t.get (FCH.DIE_PRESENT (dieChan d))) (d % 16) = true ∧
          t.evt PAR.page PAR.evDIE_CLEARED = true ∧ s.sameMemory t))) ∧
  (∀ (s : State) (path : Path), s.canWrite path PAR.START = true →
    let begins (c : Instr) (dies : List Nat) (spread : Nat) : Prop := ∃ u : State, s.gives c u.stepReshape.manageTiers ∧
      u.par.reshaping = true ∧ u.par.reshapeLb = 0 ∧ u.par.oldRows = s.par.rows.map (·.1) ∧
      (let base := ((s.par.rows.map (·.1)).map (· + 1)).foldl max 0
       let new := layoutRows dies spread
       u.par.rows = (List.range new.length).foldl (fun m i => mput m (base + i) (new.getD i [])) s.par.rows) ∧ s.sameMemory u
    (s.reshapeOk s.goodDies = false → s.gives (.reshapeAdd path) (s.raise PAR.page PAR.evRESHAPE_REJECT)) ∧
    (s.reshapeOk s.goodDies = true → begins (.reshapeAdd path) s.goodDies (s.get PAR.SPREAD)) ∧
    (∀ spread : BitVec 7,
      (spread.toNat < 8 ∨ 64 < spread.toNat ∨ s.reshapeOk s.servingDies = false →
        s.gives (.reshapeSpread path spread) (s.raise PAR.page PAR.evRESHAPE_REJECT)) ∧
      (8 ≤ spread.toNat → spread.toNat ≤ 64 → s.reshapeOk s.servingDies = true →
        begins (.reshapeSpread path spread) s.servingDies spread.toNat)))

/-! ## Memory channels, clocks and calibration -/

/-- Temperatures (R217, R341): a stack's reading is shown, and doubles its refresh from 85 °C on until it is at or below 80
°C; a rank above the base rate doubles its refresh, and one above twice it sets TEMP_OVER and raises it once. Command parity
(R224): a failure is counted and raised; the third in a row of one command takes a warm channel down one set point, and a
stack, or a channel at its last set point, out of service. Delay lines (R307, R308): an error past the window takes the DLL
out of it and raises DLL_OUT; an error inside it changes nothing; a DLL that reaches its window is in it, the epoch DLL with the code
of its search where it has none (R313), and a member that is not trained enters service with it; a member whose DLL does not return within 1 ms goes out of service. It completes:
stackTempRead, mrTempRead, caParity, dllOut, dllBackInWindow, dllTimeout. -/
def Obligations.MemoryChannelFaults : Prop :=
  (∀ s : State, s.dpUp = true →
    (∀ (n : Fin 8) (c : Int), s.memberUp n.val = true → s.answers (.stackTempRead n c) fun t =>
      t.get (STK.TEMP_C n.val) = (BitVec.ofInt 8 c).toNat ∧ s.sameMemory t ∧
      (t.member n.val).hotRank = (s.member n.val).hotRank.set 0
        (if 85 ≤ c then true else if c ≤ 80 then false else (s.member n.val).hotRank.getD 0 false) ∧
      t.flag (STK.REF_X2 n.val) = t.refX2 n.val 0) ∧
    (∀ (n : Fin 8) (c : Int), s.memberUp n.val = false → s.gives (.stackTempRead n c) s) ∧
    (∀ (n : Fin 8) (rank : Fin 2) levels, s.refTarget (8 + n.val) rank.val = true →
      s.answers (.mrTempRead n rank levels) fun t =>
        (t.member (8 + n.val)).hotRank = (s.member (8 + n.val)).hotRank.set rank.val (levels.any (0 < ·)) ∧
        (let over_ := (((s.member (8 + n.val)).overRank.set rank.val (levels.any (1 < ·))).any id : Bool)
         t.flag (DCH.TEMP_OVER n.val) = over_ ∧
          (over_ = true → s.flag (DCH.TEMP_OVER n.val) = false → t.evt (DCH.page n.val) DCH.evTEMP_OVER_EVT = true ∧
            t.q.refigure = true) ∧
          (over_ = true → s.flag (DCH.TEMP_OVER n.val) = true →
            t.get (HDR.EVT_RAW (DCH.page n.val)) = s.get (HDR.EVT_RAW (DCH.page n.val)))) ∧ s.sameMemory t) ∧
    (∀ (n : Fin 8) (rank : Fin 2) levels, s.refTarget (8 + n.val) rank.val = false → s.gives (.mrTempRead n rank levels) s)) ∧
  (∀ (s : State) (m : MemberId) (again : Bool), s.dpUp = true →
    let count := if m.val < 8 then STK.CA_PARITY m.val else DCH.CA_PARITY (m.val - 8)
    let counted (t : State) : Prop := t.get count = min (2 ^ count.width - 1) (s.get count + 1)
    (s.memberUp m.val = false → s.gives (.caParity m again) s) ∧
    (s.memberUp m.val = true → again = false ∨ (s.member m.val).caRow ≠ 2 → s.answers (.caParity m again) fun t =>
      (t.member m.val).caRow = (if again then (s.member m.val).caRow + 1 else 1) ∧ counted t ∧
      t.evt (memberPage m.val) (if m.val < 8 then STK.evCA_PARITY_EVT else DCH.evCA_PARITY_EVT) = true ∧ s.sameMemory t) ∧
    (s.memberUp m.val = true → again = true → (s.member m.val).caRow = 2 → 8 ≤ m.val →
      s.get (DCH.FSP_ACTIVE (m.val - 8)) < 3 → s.answers (.caParity m again) fun t =>
        t.get (DCH.FSP_ACTIVE (m.val - 8)) = s.get (DCH.FSP_ACTIVE (m.val - 8)) + 1 ∧ (t.member m.val).caRow = 0 ∧ counted t ∧
        t.evt (DCH.page (m.val - 8)) DCH.evFSP_FALL = true ∧ t.q.refigure = true ∧ s.sameMemory t) ∧
    (s.memberUp m.val = true → again = true → (s.member m.val).caRow = 2 → m.val < 8 ∨ s.get (DCH.FSP_ACTIVE (m.val - 8)) = 3 →
      ∃ u : State, s.gives (.caParity m again) u.resettle.manageTiers ∧ u.get (inServiceFld m.val) = 0 ∧ counted u ∧
        (s.cm.twin = .paired → u.mc.damaged = true) ∧ u.q.refigure = true)) ∧
  (∀ (s : State) (i : Fin 17), s.dpUp = true →
    (∀ time err, s.dllIn i.val = true → dllWindow i.val < err → s.answers (.dllOut i time err) fun t =>
      t.dllIn i.val = false ∧ t.evt CLK.page CLK.evDLL_OUT = true ∧ s.sameMemory t) ∧
    (∀ time err, s.dllIn i.val = false ∨ err ≤ dllWindow i.val → s.gives (.dllOut i time err) (s.lockA (s.at time))) ∧
    (∀ time err, s.dllEnabled i.val = true → s.dllIn i.val = false → err ≤ dllWindow i.val →
      let v := (s.at time).setPhase i.val err true
      v.dllIn i.val = true ∧
      ((i.val = 0 ∧ s.clk.epochCode.isSome = true) ∨ (i.val ≠ 0 ∧ s.flag (trainedFld (i.val - 1)) = true) →
        s.gives (.dllBackInWindow i time err) (s.lockA v.examine.applyDue.runReads)) ∧
      (i.val = 0 → s.clk.epochCode = none → s.gives (.dllBackInWindow i time err) (s.lockA ({ v.freeNat.2 with
        clk := { v.freeNat.2.clk with epochCode := some (v.freeNat.1 % 16384) } }).examine.applyDue.runReads)) ∧
      (i.val ≠ 0 → s.flag (trainedFld (i.val - 1)) = false → ∃ u : State,
        s.gives (.dllBackInWindow i time err) (s.lockA u.resettle.manageTiers.examine.applyDue.runReads) ∧
        u.get (trainedFld (i.val - 1)) = 1 ∧ u.get (inServiceFld (i.val - 1)) = 1 ∧ u.dllIn i.val = true ∧
        u.q.refigure = true ∧ s.sameMemory u)) ∧
    (∀ time err, s.dllEnabled i.val = false ∨ s.dllIn i.val = true ∨ dllWindow i.val < err →
      s.gives (.dllBackInWindow i time err) (s.lockA (s.at time))) ∧
    (∀ m : MemberId, s.memberUp m.val = true → (s.member m.val).inWindow = false → (s.member m.val).outSince.isSome = true →
      ∃ u : State, s.gives (.dllTimeout m) u.resettle.manageTiers.examine.applyDue.runReads ∧ u.get (inServiceFld m.val) = 0 ∧
        (s.cm.twin = .paired → u.mc.damaged = true)) ∧
    (∀ m : MemberId, s.memberUp m.val = false ∨ (s.member m.val).inWindow = true ∨ (s.member m.val).outSince = none →
      s.gives (.dllTimeout m) s))

/-- The fill engine, drain and set points (R214, R225, R226): FILL_START starts one fill; its end sets FILL_DONE; DRAIN keeps
new frames off a member and moves what it holds; FSP is taken at the next boundary where the set point has a stored code or
the channel is DRAINED, and is rejected otherwise. Margin scans and retraining (R320, R322, R323): START scans the rank or
sub-channel named in SUB of the member in service named in MEMBER, unless a scan or a retraining runs; its end keeps the four margins
of each lane; a retraining runs for a DRAINED member, or at expert level for one in service, and is refused otherwise; its end keeps
a code for each set point that its slots have not ended yet. It completes: fillStart, fillDone, drain, fsp, mscanStart, mscanDone, retrainStart, retrainDone. -/
def Obligations.FillDrainScanRetrain : Prop :=
  (∀ (s : State) (path : Path),
    (s.canWrite path CEL.FILL_START = true → s.gives (.fillStart path)
      (if s.mc.fillBusy then s else { s with mc := { s.mc with fillBusy := true, fillDone := false } })) ∧
    (s.dpUp = true → s.mc.fillBusy = true → s.cm.inService = false → s.gives .fillDone
      (({ s with mc := { s.mc with
          fillBusy := false, fillDone := true, filled := (List.range 16).filter s.memberUp, refilled := []
          touched := (s.usedFrames false).map (false, ·) ++ (s.usedFrames true).map (true, ·) } }).raise CEL.page
        CEL.evFILL_DONE_EVT)) ∧
    (s.dpUp = true → s.mc.fillBusy = true → s.answers .fillDone fun t =>
      t.mc.fillBusy = false ∧ t.mc.fillDone = true ∧ t.mc.filled = (List.range 16).filter s.memberUp ∧ t.evt CEL.page CEL.evFILL_DONE_EVT = true ∧ s.sameMemory t) ∧
    (s.dpUp = true → s.mc.fillBusy = false → s.gives .fillDone s) ∧
    (∀ (m : MemberId) v, s.canWrite path (if m.val < 8 then STK.DRAIN m.val else DCH.DRAIN (m.val - 8)) = true →
      s.gives (.drain path m v)
        ((s.putb (if m.val < 8 then STK.DRAIN m.val else DCH.DRAIN (m.val - 8)) v).resettle).manageTiers) ∧
    (∀ (n : Fin 8) (v : BitVec 2), s.canWrite path (DCH.FSP n.val) = true →
      ((mget (s.member (8 + n.val)).codes v.toNat).isSome = true ∨ s.drained (8 + n.val) = true →
        s.gives (.fsp path n v)
          ((s.put (DCH.FSP n.val) v.toNat).setMember (8 + n.val) { s.member (8 + n.val) with fspReq := some v.toNat })) ∧
      (mget (s.member (8 + n.val)).codes v.toNat = none → s.drained (8 + n.val) = false →
        s.gives (.fsp path n v) (s.raise (DCH.page n.val) DCH.evFSP_REJECT)))) ∧
  (∀ (s : State) (path : Path),
    (s.canWrite path CLK.START = true →
      (s.clk.scan = none → s.clk.retrain = none → 1 ≤ s.get CLK.MEMBER → s.get CLK.MEMBER ≤ 16 →
        s.memberUp (s.get CLK.MEMBER - 1) = true → s.get CLK.SUB < memberSubs (s.get CLK.MEMBER - 1) →
        s.gives (.mscanStart path)
          { s with clk := { s.clk with scan := some (s.get CLK.MEMBER - 1), scanSub := s.get CLK.SUB, margins := [] } }) ∧
      (s.clk.scan.isSome = true ∨ s.clk.retrain.isSome = true ∨ s.get CLK.MEMBER = 0 ∨ 16 < s.get CLK.MEMBER ∨
          s.memberUp (s.get CLK.MEMBER - 1) = false ∨ memberSubs (s.get CLK.MEMBER - 1) ≤ s.get CLK.SUB →
        s.gives (.mscanStart path) s)) ∧
    (s.dpUp = true → s.clk.scan.isSome = true → ∀ lanes, s.answers (.mscanDone lanes) fun t =>
      t.clk.scan = none ∧ t.evt CLK.page CLK.evMSCAN_DONE = true ∧
      (∀ i l r v h, lanes[i]? = some [l, r, v, h] → l < 256 → r < 256 → v < 256 → h < 256 →
        (i, { left := l, right := r, vlow := v, vhigh := h }) ∈ t.clk.margins) ∧ s.sameMemory t) ∧
    (s.dpUp = true → s.clk.scan = none → ∀ lanes, s.gives (.mscanDone lanes) s) ∧
    (s.canWrite path CLK.RETRAIN_START = true →
      let i := s.get CLK.RETRAIN_MEMBER
      let refused := (s.put CLK.RETRAIN_RESULT 0x11).raise CLK.page CLK.evRETRAIN_REFUSED
      (s.clk.retrain.isSome = true ∨ i = 0 ∨ 16 < i → s.gives (.retrainStart path) refused) ∧
      (s.clk.retrain = none → 1 ≤ i → i ≤ 16 → s.drained (i - 1) = true →
        s.gives (.retrainStart path) { s with clk := { s.clk with
          retrain := some (i - 1, false), retrainFsp := 0, retrainSlots := 0, retrainAt := none } }) ∧
      (s.clk.retrain = none → 1 ≤ i → i ≤ 16 → s.drained (i - 1) = false → s.memberUp (i - 1) = false →
        s.gives (.retrainStart path) refused) ∧
      (s.clk.retrain = none → 1 ≤ i → i ≤ 16 → s.drained (i - 1) = false → s.memberUp (i - 1) = true →
        (s.flag (HDR.EXPERT CLK.page) = true → s.gives (.retrainStart path)
          { s with
            clk := { s.clk with retrain := some (i - 1, true), retrainFsp := 0, retrainSlots := 0, retrainAt := none }
            q := { s.q with refigure := true } }) ∧
        (s.flag (HDR.EXPERT CLK.page) = false → s.gives (.retrainStart path) refused))) ∧
    (s.dpUp = true → (∀ codes, s.clk.retrain = none → s.gives (.retrainDone codes) s) ∧
      (∀ m b codes, s.clk.retrain = some (m, b) → s.answers (.retrainDone codes) fun t =>
        t.clk.retrain = none ∧ t.get CLK.RETRAIN_RESULT = 0 ∧ t.evt CLK.page CLK.evRETRAIN_DONE = true ∧
        (∀ f, s.clk.retrainFsp ≤ f → f < setPoints m → ∀ c, codes[f]? = some c → c < 16384 →
          mget (t.member m).codes f = some c) ∧
        (∀ f, f < s.clk.retrainFsp ∨ setPoints m ≤ f → mget (t.member m).codes f = mget (s.member m).codes f) ∧
        s.sameMemory t)))

/-! ## Muster, restore, the declaration -/

/-- PFAIL and the steps of a muster (R189 to R193, R198): a power failure of 1 µs or more begins step 1, which stops admission
and closes service; the commit's end, where the commit does not go on, powers the host SerDes and the drift links off; the
image is kept under the next area once the storage channels and the storage key's counters can seal it, after the programs that a
muster of cause 5 lets finish (R263), and no image is, under a storage key that retires (R291); the end asserts MUSTER_DONE_N,
and the rails fall, but for MODE 1 of a commanded muster, or Vitrine is entered where it was deferred. It completes: pfail,
musterCommitEnd, musterImageDone, musterDone. -/
def Obligations.MusterSteps : Prop :=
  ∀ s : State, s.dpUp = true →
    (∀ time low, s.flag MUS.PFAIL_EN = false ∨ 2 * low < usCycles → s.gives (.pfail time low) (s.at time)) ∧
    (∀ time low, s.flag MUS.PFAIL_EN = true → usCycles ≤ low → s.mus.state = .armed → s.norInFlight = false →
      s.musterWaits = false →
      s.answers (.pfail time low) fun t =>
        t.mus.state = .mustering ∧ t.mus.step = .commit ∧ t.mus.cause = 1 ∧ bitOf t.mus.causes 1 = true ∧
        t.mus.stopped = true ∧ t.net.held = [] ∧ t.evt MUS.page MUS.evMUSTER_START = true ∧ t.serviceUp = false) ∧
    (∀ time cells, s.mus.state = .mustering → s.mus.step = .commit → (s.at time).commitGoesOn = false →
      s.answers (.musterCommitEnd ⟨time, cells⟩) fun t =>
        t.mus.step = .image ∧ t.mus.answers = [] ∧ t.pwr.hostSerdes = false ∧ ∀ j, j < 3 → t.get (DFT.LINK_UP j) = 0) ∧
    (∀ time cells, s.mus.state ≠ .mustering ∨ s.mus.step ≠ .commit ∨ (s.at time).commitGoesOn = true →
      s.gives (.musterCommitEnd ⟨time, cells⟩) (s.at time)) ∧
    (∀ time cells, s.mus.state ≠ .mustering ∨ s.mus.step ≠ .image ∨ (s.at time).chanWaits 8 = true ∨ (s.at time).storeInst = none →
      s.gives (.musterImageDone ⟨time, cells⟩) (s.at time)) ∧
    (∀ time cells, s.mus.state = .mustering → s.mus.step = .image → (s.at time).chanWaits 8 = false →
      (s.at time).storeInst.isSome = true →
      let v := if s.mus.cause = 5 then (s.at time).finishPrograms else s.at time
      let p := v.useCounters (v.get CPH.STORE_KEY) (4 * v.imageBlocks)
      (p.1 = true → s.answers (.musterImageDone ⟨time, cells⟩) fun t =>
        t.mus.step = .record ∧ t.mus.dirty.contains v.mus.areaNext = true ∧
        (∃ m, mget t.mus.images v.mus.areaNext = some m ∧ t.get MUS.LAST_SERIAL = m.serial ∧ m.q = v.q.q ∧ m.dom = v.win.dom ∧
          m.win = v.win.win ∧ m.ext = v.tier.ext ∧ m.staged = v.cm.ep ∧ m.jrn = v.acc.jrn ∧ m.lastCal = v.cm.lastCal ∧
          (∀ a, Memory.read m.mem a = Memory.read t.mem a) ∧ (cells = [] → m.poison = v.tier.poison)) ∧
        (cells = [] → v.sameMemory t)) ∧
      (p.1 = false → p.2.storeRetired = true → s.answers (.musterImageDone ⟨time, cells⟩) fun t =>
        t.mus.step = .record ∧ t.mus.dirty.contains v.mus.areaNext = true ∧ mget t.mus.images v.mus.areaNext = none) ∧
      (p.1 = false → p.2.storeRetired = false → s.gives (.musterImageDone ⟨time, cells⟩) v)) ∧
    (s.mus.state = .mustering → s.mus.step = .record →
      (s.vit.deferred = none → s.mus.cause ≠ 6 → s.answers .musterDone fun t =>
        t.mus.state = .mustered ∧ t.pwr.musterDoneN = true ∧ t.evt MUS.page MUS.evMUSTER_DONE = true ∧
        t.pwr.seq = (if s.mus.cause = 4 ∧ s.mus.mode = true then .on else .falling) ∧ s.sameMemory t) ∧
      (∀ c, s.vit.deferred = some c → s.answers .musterDone fun t =>
        t.mus.state = .mustered ∧ t.vit.frozen = true ∧ t.get VIT.DEFERRED = 1 ∧ t.key.rootGone = true ∧ s.sameMemory t)) ∧
    (s.mus.state ≠ .mustering ∨ s.mus.step ≠ .record → s.gives .musterDone s)

/-- Restore and arming (R196, R197, R200): ARM acts only in UNREADY, and begins a restore where a record is chosen;
RESTORE_DONE, once the keys are reloaded (R289), brings back the image that the record names where its blocks are good and the
storage key opens them, each queue with FLOOR at its HIGH_SEQ, and starts fresh with RESTORE_INVALID otherwise; an area whose erase
ends, but for a muster that aborts it (R263), is clean and holds no image. It completes: arm,
restoreDone, areaReady. -/
def Obligations.RestoreAndArming : Prop :=
  ∀ s : State,
    (∀ path, s.canWrite path MUS.ARM = true →
      (s.mus.state ≠ .unready ∨ s.mus.restored = true → s.gives (.arm path) s) ∧
      (s.mus.state = .unready → s.mus.restored = false → s.chosenRecord.isSome = true →
        s.gives (.arm path) { s with mus := { s.mus with state := .restoring } }) ∧
      (s.mus.state = .unready → s.mus.restored = false → s.chosenRecord = none → ∃ u : State,
        s.gives (.arm path) u.resumeAgain ∧ u.mus.restored = true ∧ (u.mus.state = .unready ∨ u.mus.state = .armed) ∧
        s.sameMemory u)) ∧
    (s.dpUp = true →
      (∀ ok ms, s.mus.state ≠ .restoring ∨ s.mus.restored = true ∨ s.key.reload ≠ [] → s.gives (.restoreDone ok ms) s) ∧
      (s.mus.state = .restoring → s.mus.restored = false → s.key.reload = [] →
        (∀ ms, ∃ u : State, s.gives (.restoreDone false ms) u.resumeAgain.checkArmed ∧ u.mus.restored = true ∧
          u.evt MUS.page MUS.evRESTORE_INVALID = true ∧ s.sameMemory u) ∧
        (∀ ms a m, s.chosenRecord = some a → mget s.mus.images (fieldLE (s.norBytes a 16) 10 1 % 2) = some m →
          m.serial = s.norWord (a + 4) → m.verifies = true → s.storeKeyOk = true →
          s.areaReadable (fieldLE (s.norBytes a 16) 10 1 % 2) m.blocks.length = true → ∃ u : State,
            s.gives (.restoreDone true ms) u.resumeAgain.checkArmed ∧ u.mus.restored = true ∧ u.mus.restoreValid = true ∧ u.evt MUS.page MUS.evRESTORE_DONE = true ∧
            (∀ n q, mget m.q n = some q → mget u.q.q n = some { q with
              floor := q.high, ret := (q.high + 1) % 2 ^ 32, inFlight := 0, returned := [], addrs := [] }) ∧
            u.cm.committed = fieldLE (s.norBytes a 32) 16 8 ∧ ∀ i, Memory.read u.mem i = Memory.read m.mem i)) ∧
      (s.mus.erasing = [] ∨ s.mus.stopped = true → s.gives .areaReady s) ∧
      (∀ a rest, s.mus.erasing = a :: rest → s.mus.stopped = false → s.answers .areaReady fun t =>
        t.mus.erasing = rest ∧ t.mus.dirty.contains a = false ∧ mget t.mus.images a = none ∧
        t.evt MUS.page MUS.evAREA_READY_EVT = true ∧ s.sameMemory t))

/-- The declaration, VHC and the opening of service (R13, R185, R186, R362): DECL_J takes effect once, through PCIe with
ENERGY_DECL_EN high, and VHC then takes the value VHC_MAX; VHC is lowered by a lower value alone; service opens once its
conditions hold. A curator's attempt against DECL_J, or to raise VHC, is counted by the fences. It completes: declJ, vhc,
serviceOpen. -/
def Obligations.DeclarationAndService : Prop :=
  ∀ s : State,
    (∀ path v, s.canWrite path MUS.DECL_J = true →
      (path = .smbus → s.gives (.declJ path v) s) ∧
      (∀ k, path = .curator k → s.gives (.declJ path v) (s.fence 3 (some k) (0x20000000 + (MUS.page * 4096 + 0x028)))) ∧
      (path = .pcie → s.flag MUS.DECL_LOCKED = true ∨ s.pwr.energyEn = false → s.gives (.declJ path v) s) ∧
      (path = .pcie → s.flag MUS.DECL_LOCKED = false → s.pwr.energyEn = true → s.answers (.declJ path v) fun t =>
        t.get MUS.DECL_J = v.toNat ∧ t.get MUS.DECL_LOCKED = 1 ∧ t.vhc = min 65535 t.vhcMax ∧ s.sameMemory t)) ∧
    (∀ path v, s.canWrite path MUS.VHC = true →
      (v.toNat = s.vhc → s.gives (.vhc path v) s) ∧
      (v.toNat < s.vhc → s.answers (.vhc path v) fun t => t.vhc = v.toNat ∧ s.sameMemory t) ∧
      (s.vhc < v.toNat → (∀ k, path = .curator k → s.gives (.vhc path v)
          ((s.raise MUS.page MUS.evVHC_RAISE).fence 4 (some k) (0x20000000 + (MUS.page * 4096 + 0x030)))) ∧
        ((∀ k, path ≠ .curator k) → s.gives (.vhc path v) (s.raise MUS.page MUS.evVHC_RAISE)))) ∧
    (s.dpUp = true →
      (s.serviceUp = false → s.mayOpen = true → s.answers .serviceOpen fun t =>
        t.serviceUp = true ∧ t.evt SYS.page SYS.evSERVICE_OPENED = true ∧ s.sameMemory t) ∧
      (s.serviceUp = true ∨ s.mayOpen = false → s.gives .serviceOpen s))

/-! ## Curators and the embedded NOR -/

/-- Curators (R359, R361): the watchdog's expiry, where it is enabled, and a lock-up reset the management domain with their
bit of RST.CAUSE and the curator's bit in CUR, and wait for a NOR operation in flight, the curator executing no more meanwhile; a kick of any other value is counted;
the boot ROM boots the selected bank, else the other one, else the recovery loader. It completes: watchdog, lockup, wdtKick,
bootVerify. -/
def Obligations.CuratorsResetAndBoot : Prop :=
  ∀ s : State, s.mgUp = true →
    (∀ c : Fin 4, s.flag (CUR.WDT_EN c.val) = false → s.gives (.watchdog c) s) ∧
    (∀ c : Fin 4, s.flag (CUR.WDT_EN c.val) = true → s.norInFlight = false → s.cur.fw = [] → s.answers (.watchdog c) fun t =>
      t.get CUR.LAST_WDT = 2 ^ c.val ∧ bitOf (t.get RST.CAUSE) 3 = true ∧ t.evt CUR.page CUR.evWDT_RESET = true ∧
      t.cur.booting = true ∧ t.cur.verified = false ∧ t.mus = s.mus) ∧
    (∀ c : Fin 4, s.norInFlight = false → s.cur.fw = [] → s.answers (.lockup c) fun t =>
      t.get CUR.LAST_LOCKUP = 2 ^ c.val ∧ bitOf (t.get RST.CAUSE) 7 = true ∧ t.evt CUR.page CUR.evLOCKUP_RESET = true ∧
      t.cur.booting = true ∧ t.cur.verified = false ∧ t.mus = s.mus) ∧
    (∀ c : Fin 4, s.norInFlight = true → s.answers (.lockup c) fun t =>
      t.cur = { s.cur with dead := addTo s.cur.dead c.val, waits := s.cur.waits ++ [.reset 7 false] } ∧ s.sameMemory t) ∧
    (∀ path (c : Fin 4), s.canWrite path (CUR.WDT_KICK c.val) = true → s.gives (.wdtKick path c 0x0000C3A5) s ∧
      ∀ v : Word, v ≠ 0x0000C3A5 → s.gives (.wdtKick path c v) (s.inc CUR.BAD_KICKS)) ∧
    (∀ ms, s.cur.booting = false → s.gives (.bootVerify ms) s) ∧
    (∀ ms, s.cur.booting = true →
      let b := b2n (s.bankSelect.getD false)
      s.answers (.bootVerify ms) fun t => t.cur.booting = false ∧ t.get CUR.BOOT_MS = min 65535 ms ∧
        (s.imageOk b = true → t.cur.active = b ∧ t.cur.verified = true ∧ t.cur.fallback = false ∧ t.cur.recovery = false) ∧
        (s.imageOk b = false → s.imageOk (1 - b) = true → t.cur.active = 1 - b ∧ t.cur.verified = true ∧
          t.cur.fallback = true ∧ t.evt CUR.page CUR.evFALLBACK_BOOT = true) ∧
        (s.imageOk b = false → s.imageOk (1 - b) = false → t.cur.verified = false ∧ t.cur.recovery = true) ∧ s.sameMemory t)

/-- The embedded NOR (R351 to R354, R356, R360): an operation is refused in a closed sector, in a busy bank and, for a
program, at a word that is not erased; else it is in flight. At its end a program has only cleared bits of its word, an erase
has left its sector erased, and no other word changes. A commit verifies what its bank holds once no operation is in flight there,
and ends with 0 when the bank-select record is programmed, with 02H for an empty bank, with 10H otherwise.
It completes: norProgram, norErase, norOpDone, commitReq, commitDone. -/
def Obligations.NorOperations : Prop :=
  ∀ s : State, s.pwr.vsupOk = true →
    (∀ path, s.canWrite path NOR.OP = true →
      let a := s.get NOR.ADDR
      let busy : Bool := s.norBusy (norBank a) || (norBank a == 2 && !s.cur.devWait.isEmpty)
      let begins (c : Instr) (op : NorOp) : Prop := s.answers c fun t =>
        mget t.cur.busy (norBank a) = some op ∧ t.cur.words = s.cur.words ∧ s.sameMemory t
      let refused (who : Option (Fin 4)) : State :=
        ((s.put NOR.RESULT 2).raise NOR.page NOR.evFENCED_EVT).fence 5 who (0x10000000 + a)
      ((∀ k, path ≠ .curator k) → s.norFenced a = true →
        s.gives (.norProgram path) (refused none) ∧ s.gives (.norErase path) (refused none)) ∧
      (∀ k, path = .curator k → s.norFenced a = true →
        s.gives (.norProgram path) (refused (some k)) ∧ s.gives (.norErase path) (refused (some k))) ∧
      (s.norFenced a = false → busy = true →
        s.gives (.norProgram path) (s.put NOR.RESULT 3) ∧ s.gives (.norErase path) (s.put NOR.RESULT 3)) ∧
      (s.norFenced a = false → busy = false → s.norWord a ≠ 0xFFFFFFFF → s.gives (.norProgram path)
        (((s.put NOR.RESULT 1).inc NOR.NOT_ERASED).raise NOR.page NOR.evNOT_ERASED_EVT)) ∧
      (s.norFenced a = false → busy = false → s.norWord a = 0xFFFFFFFF →
        begins (.norProgram path) { erase := false, addr := a, data := s.get NOR.DATA }) ∧
      (s.norFenced a = false → busy = false → begins (.norErase path) { erase := true, addr := a, data := s.get NOR.DATA })) ∧
    (∀ bank : Fin 4, mget s.cur.busy bank.val = none → s.gives (.norOpDone bank) s) ∧
    (∀ (bank : Fin 4) op, s.cur.busy = [(bank.val, op)] → op.owner = .curator → s.cur.todo = [] → s.cur.devWait = [] →
      s.cur.waits = [] → s.cur.fw = [] → s.mus.consuming = none → s.key.heldRec = none → s.key.heldFormat = false →
      s.key.heldAns = none → s.cur.selecting = false →
      s.answers (.norOpDone bank) fun t => t.cur.busy = [] ∧ t.get NOR.RESULT = 0 ∧ t.evt NOR.page NOR.evOP_DONE = true ∧
        (op.erase = false → ∀ a, t.norWord a =
          (if a / 4 = op.addr / 4 then Nat.land (s.norWord a) (op.data % 2 ^ 32) else s.norWord a)) ∧
        (op.erase = true → ∀ a, t.norWord a = (if a / 4096 = op.addr / 4096 then 0xFFFFFFFF else s.norWord a)) ∧
        s.sameMemory t) ∧
    (∀ path bank, s.canWrite path NOR.COMMIT_REQ = true →
      (s.cur.verifying.isSome = true → s.gives (.commitReq path bank) s) ∧
      (s.cur.verifying = none → s.gives (.commitReq path bank)
        { s with cur := { s.cur with verifying := some (b2n bank, false) } })) ∧
    (s.cur.verifying = none ∨ s.mgUp = false ∨ s.cur.selecting = true → s.gives .commitDone s) ∧
    (∀ bank, s.cur.verifying = some (bank, false) → s.mgUp = true → s.cur.fw = [] → s.cur.selecting = false →
      let v := s.norStalled bank
      (v.bankEmpty bank = true ∨ v.imageOk bank = false ∨ s.norBusy 2 = false → s.answers .commitDone fun t =>
        t.cur.verifying = none ∧ s.sameMemory t ∧
        (v.bankEmpty bank = true → t.get NOR.COMMIT_RESULT = 0x02) ∧
        (v.bankEmpty bank = false → v.imageOk bank = true → t.get NOR.COMMIT_RESULT = 0 ∧
          t.evt NOR.page NOR.evCOMMIT_DONE = true) ∧
        (v.bankEmpty bank = false → v.imageOk bank = false → t.get NOR.COMMIT_RESULT = 0x10 ∧
          t.evt NOR.page NOR.evCOMMIT_FAIL = true)) ∧
      (v.bankEmpty bank = false → v.imageOk bank = true → s.norBusy 2 = true →
        let u := (s.countStall bank).selectBank (bank == 1)
        s.gives .commitDone { u with cur := { u.cur with selecting := true } }))

/-! ## Keys -/

/-- Marks, alarms and entropy (R290, R297, R299): a mark counts once it is programmed, and its instance is ready; an alarm
erases the privileged keys, the mesh's every key, and the root keys; an entropy failure is raised; a halted generator stops
the channels and a reseed starts them again. It completes: markProgrammed, alarm, entFail, drbgHalt, reseedDone. -/
def Obligations.MarksAlarmsEntropy : Prop :=
  ∀ s : State, s.dpUp = true →
    (s.key.marking = [] ∨ s.norBusy 2 = true → s.gives .markProgrammed s) ∧
    (∀ n v rest, s.key.marking = (n, v) :: rest → s.norBusy 2 = false → s.flag ADT.ALIGNED = false → s.net.waiting = [] →
      s.net.relays = [] → s.key.reload = [] → s.key.haltAdit = [] → s.key.haltRx = [] → s.key.haltPages = [] →
      s.key.haltLoad = none → s.answers .markProgrammed fun t => t.key.marking = rest ∧ mget t.key.marks n = some v ∧
        (∀ k, s.keyInst n = some k → ∃ x, t.keyInst n = some x ∧ x.ready = true) ∧ s.sameMemory t) ∧
    (∀ cause : Fin 5, s.flag ADT.ALIGNED = false ∨ s.flag ADT.LINK_UP = true → s.answers (.alarm cause) fun t =>
      t.key.rootGone = true ∧ (∀ e ∈ t.key.inst, e.2.cls ≠ 8 ∧ cause.val ≠ 4) ∧ bitOf (t.get CPH.ALARM_CAUSE) cause.val = true ∧
      t.get CPH.PRIV_ERASED = 1 ∧ t.evt CPH.page CPH.evALARM = true ∧ s.sameMemory t) ∧
    s.gives .entFail (({ s with key := { s.key with entOk := false } }).raise CPH.page CPH.evENT_FAIL) ∧
    s.gives .drbgHalt (({ s with key := { s.key with halted := true, seeded := false } }).raise CPH.page CPH.evDRBG_HALT) ∧
    (s.key.haltAdit = [] → s.key.haltRx = [] → s.key.haltPages = [] → s.key.haltLoad = none → s.net.waiting = [] →
      s.net.relays = [] → s.flag ADT.ALIGNED = false ∨ s.flag ADT.LINK_UP = true → s.answers .reseedDone fun t =>
      t.key.halted = false ∧ t.key.seeded = true ∧ t.key.entOk = true ∧
      t.get CPH.DRBG_RESEEDS = min (2 ^ CPH.DRBG_RESEEDS.width - 1) (s.get CPH.DRBG_RESEEDS + 1) ∧ s.sameMemory t)

/-- Key registers (R271, R288, R290, R296): KS_FORMAT erases the blob records, the marks and every instance, unless one is in
use, and waits for the NOR; STORE_KEY is taken only in UNREADY; KEY_INST is refused for a bound journal and for an instance
that another journal names. It completes: ksFormat, storeKey, keyInst. -/
def Obligations.KeyRegisters : Prop :=
  ∀ (s : State) (path : Path),
    (s.canWrite path KST.KS_FORMAT = true →
      ((∃ e ∈ s.key.inst, s.keyInUse e.1 = true) → s.gives (.ksFormat path) (s.raise KST.page KST.evFORMAT_REJECT)) ∧
      ((∀ e ∈ s.key.inst, s.keyInUse e.1 = false) → s.norBusy 2 = true → s.gives (.ksFormat path)
        { s with key := { s.key with heldFormat := true } }) ∧
      ((∀ e ∈ s.key.inst, s.keyInUse e.1 = false) → s.norBusy 2 = false → s.answers (.ksFormat path) fun t =>
        t.key.records = [] ∧ t.key.marks = [] ∧ t.key.inst = [] ∧ s.sameMemory t)) ∧
    (∀ v, s.canWrite path CPH.STORE_KEY = true →
      (s.mus.state ≠ .unready → s.gives (.storeKey path v) (s.raise CPH.page CPH.evSTORE_KEY_REJECT)) ∧
      (s.mus.state = .unready → s.answers (.storeKey path v) fun t =>
        t.get CPH.STORE_KEY = v.toNat ∧ t.key.storeKeyNor = v.toNat ∧ s.sameMemory t)) ∧
    (∀ v, s.canWrite path ACC.KEY_INST = true →
      let j := s.get ACC.JRN_SEL
      ((s.jrn j).window.isSome = true ∨ (v ≠ 0 ∧ ∃ e ∈ s.acc.jrn, e.1 ≠ j ∧ e.2.keyInst = v.toNat) →
        s.gives (.keyInst path v) (s.raise ACC.page ACC.evKEY_REJECT)) ∧
      ((s.jrn j).window = none → v = 0 ∨ (∀ e ∈ s.acc.jrn, e.1 = j ∨ e.2.keyInst ≠ v.toNat) →
        s.answers (.keyInst path v) fun t => (t.jrn j).keyInst = v.toNat ∧ s.sameMemory t))

/-! ## The gang -/

/-- Is a frame of a drift link good: the link up, its CRC right, in clear, of a body that a frame holds (R152)? -/
def driftGood (s : State) (j : Fin 3) (f : LinkFrame) (typ : Nat) : Bool :=
  s.dpUp && s.flag (DFT.LINK_UP j.val) && f.crcOk typ && f.tag.isEmpty && decide (f.body.length ≤ 16384)

/-- What a drift link that is up makes of a frame before it looks at it (R170, R172): its corrected and uncorrected codewords
and the frame counted. -/
def driftTook (s : State) (j : Fin 3) (f : LinkFrame) : State :=
  ((((s.at f.time).inc (DFT.FEC_CORR j.val) f.fecCorr).inc (DFT.FEC_UNCORR j.val) f.fecUncorr).raiseIf (f.fecUncorr != 0)
    (DFT.page j.val) DFT.evFEC_UNCORR_EVT).inc (DFT.RX_FRAMES j.val)

/-- Drift links (R160, R165, R168, R169, R306): a link that trains, its synthesizer locked and its page not in reset, is up with half the
round trip as its delay and its peer's place, which is judged; the gang forms once every exchange agrees; a link lost before that forgets its peer, after it a member. A
frame on a link that is down, or with a wrong CRC, is not taken; a forwarded datagram is checked as if it had come on its
host link, and not taken during a muster; a forwarded answer is sent on it unchanged; a TABLE waits for the boundary. It
completes: driftLinkUp, driftLinkDown, table, fwdDgram, fwdAnswer. -/
def Obligations.DriftLinks : Prop :=
  ∀ (s : State) (j : Fin 3), s.dpUp = true →
    (∀ rt pos size dev tw cap, s.gangN = 1 ∨ s.flag (DFT.LINK_EN j.val) = false ∨ bitOf s.clk.srdLock 1 = false ∨
        s.flag (HDR.IN_RESET (DFT.page j.val)) = true → s.gives (.driftLinkUp j rt pos size dev tw cap) s) ∧
    (∀ rt (pos size : BitVec 2) (dev tw : BitVec 16) cap, s.gangN ≠ 1 → s.flag (DFT.LINK_EN j.val) = true →
      bitOf s.clk.srdLock 1 = true → s.flag (HDR.IN_RESET (DFT.page j.val)) = false → s.answers (.driftLinkUp j rt pos size dev tw cap) fun t =>
        t.get (DFT.LINK_UP j.val) = 1 ∧ t.get (DFT.DELAY j.val) = rt / 2 % 2 ^ 32 ∧ t.get (DFT.PEER_POS j.val) = pos.toNat ∧
        mget t.gang.peers j.val = some ⟨pos.toNat, size.toNat, dev.toNat, tw.toNat, cap⟩ ∧
        (pos.toNat ≠ s.linkPos j.val → t.evt (DFT.page j.val) DFT.evPEER_WRONG = true ∧
          t.evt GNG.page GNG.evGANG_MISMATCH = true) ∧
        t.gang.formed = (s.gang.formed || (s.flag (HDR.ENABLE GNG.page) && t.gangComplete)) ∧ s.sameMemory t) ∧
    (s.flag (DFT.LINK_UP j.val) = false → s.gives (.driftLinkDown j) s) ∧
    (s.flag (DFT.LINK_UP j.val) = true → s.gang.formed = false → s.answers (.driftLinkDown j) fun t =>
      t.get (DFT.LINK_UP j.val) = 0 ∧ mget t.gang.peers j.val = none ∧ t.evt (DFT.page j.val) DFT.evLINK_DOWN = true ∧
      t.evt (DFT.page j.val) DFT.evALIGN_LOST = true ∧ s.sameMemory t) ∧
    (s.flag (DFT.LINK_UP j.val) = true → s.gang.formed = true → s.linkPos j.val < s.gangN → s.gang.remote = [] →
      s.gang.waiting = [] → s.net.reads = [] → s.frozenCut = false → s.answers (.driftLinkDown j) fun t =>
        t.get (DFT.LINK_UP j.val) = 0 ∧ j.val ∈ t.gang.lost ∧ t.evt GNG.page GNG.evMEMBER_LOST = true ∧
        t.q.refigure = true ∧ s.sameMemory t) ∧
    (∀ f, s.flag (DFT.LINK_UP j.val) = false → s.gives (.fwdDgram j f) (s.at f.time) ∧ s.gives (.table j f) (s.at f.time)) ∧
    (∀ f, s.flag (DFT.LINK_UP j.val) = true → f.crcOk 0x17 = false → s.gives (.fwdAnswer j f)
      (((driftTook s j f).inc (DFT.RX_DROP j.val)).raise (DFT.page j.val) DFT.evFRAME_DROP)) ∧
    (∀ f : LinkFrame,
      let u := driftTook s j f
      (driftGood s j f 0x11 = true → s.gives (.table j f) { u with win := { u.win with
        tables := s.win.tables ++ [(s.linkPos j.val, s.nextTable, fieldBE f.body 0 8, f.body.drop 40)] } }) ∧
      (driftGood s j f 0x17 = true →
        let x := parseReturn f.body none
        let w := u.inc (DFT.FWD_BYTES_RX j.val) (f.body.length - 32)
        (s.linkUp x.link = true → s.pausedAt x = false → s.gives (.fwdAnswer j f)
          ((w.inc (HP.TX_FRAMES x.link.port.val)).send (.relayed x.link (f.body.drop 32) (w.answerHead x)))) ∧
        (s.linkUp x.link = false → s.gives (.fwdAnswer j f) (w.inc (XPT.RX_DROP x.link.port.val)))) ∧
      (driftGood s j f 0x16 = true →
        let p := (parseReturn f.body none).link.port.val
        let d := parseFwd f.time f.body (s.get (XPT.UDP_PORT_SEALED p))
        let w := u.inc (DFT.FWD_BYTES_RX j.val) (f.body.length - 32)
        (s.mus.stopped = true → s.gives (.fwdDgram j f) w) ∧
        (s.mus.stopped = false → s.frameBad d.1.frame = true ∨ d.1.cut = true →
          s.gives (.fwdDgram j f) (w.inc (XPT.RX_DROP p))) ∧
        (s.mus.stopped = false → s.frameBad d.1.frame = false → d.1.cut = false → d.1.sealing = none →
          d.1.frame.dstPort.toNat = s.get (XPT.UDP_PORT p) → icrcOk d.1 d.2 = true → d.1.hdr.typ = 0 →
          s.gives (.fwdDgram j f) (w.pipeline d.1 d.2 false (some j)))))

/-- Memory of the gang (R167): a MEM_READ of hot bytes without poison answers them in a MEM_DATA frame, and waits for a member that
stands idle (R308); beyond the presented capacity it faults (the model's own stop: log entry 51); a MEM_PLACE is held for its
member's PLACE_END, which stores every held write of the member's epochs up to its own, unless one of them goes to an idle member,
and lets none of them be held; what MEM_DATA brings goes to the reads that asked for it, and with none it changes nothing but the
counts. It completes: memRead, memPlace, placeEnd, memData. -/
def Obligations.RemoteMemory : Prop :=
  ∀ (s : State) (j : Fin 3) (f : LinkFrame),
    let u := driftTook s j f
    let pos := s.linkPos j.val
    let da := fieldBE f.body 0 8
    (driftGood s j f 0x13 = true →
      let n := fieldBE f.body 8 4
      (∀ cells, s.presBytes < da + n → exec (.memRead j ⟨f, cells⟩) s = .fault .deviceAddressAbsent) ∧
      let asks (cells : List CellFault) : State :=
        { u with gang := { u.gang with waiting := u.gang.waiting ++ [(j.val, f.body, cells)] } }
      (∀ cells, da + n ≤ s.presBytes → s.gives (.memRead j ⟨f, cells⟩) (asks cells).pumpHomeReads) ∧
      (∀ cells, s.gang.waiting = [] → (asks cells).pumpHomeReads =
        if u.heldBack da n then asks cells else u.homeRead j.val f.body cells) ∧
      ((∀ x ∈ sectorsIn da n, s.poisoned x = false) → (∀ e ∈ extentsIn da n, ∃ x k, s.extent e = some x ∧ x.home = .hot k) →
        let t := u.homeRead j.val f.body []
        t.gang.txq = mput s.gang.txq j.val (mgetD s.gang.txq j.val [] ++
            [{ typ := 0x14, epoch := s.ep.num, payload := slice f.body 12 4 ++ [0, 0, 0, 0] ++ s.readMem da n }]) ∧
          s.sameMemory t)) ∧
    (driftGood s j f 0x15 = true →
      let n := fieldBE f.body 8 8
      let v : State := { u with gang := { u.gang with
        placing := s.gang.placing ++ [(pos, n, fieldBE f.body 16 4, da, f.body.drop 24)] } }
      (s.presBytes < da + (f.body.length - 24) → exec (.memPlace j f) s = .fault .deviceAddressAbsent) ∧
      (da + (f.body.length - 24) ≤ s.presBytes →
        ((∀ m, mget s.gang.placeEnd pos = some m → m < n) → s.gives (.memPlace j f) v) ∧
        ∀ m, mget s.gang.placeEnd pos = some m → n ≤ m → s.gives (.memPlace j f) (v.applyPlaces pos m))) ∧
    (driftGood s j f 0x12 = true →
      let n := max f.epoch.toNat (mgetD s.gang.placeEnd pos 0)
      let v : State := { u with gang := { u.gang with placeEnd := mput s.gang.placeEnd pos n } }
      let due := s.gang.placing.filter fun e => e.1 == pos && e.2.1 ≤ n
      s.gives (.placeEnd j f) (v.applyPlaces pos n) ∧
      ((∃ e ∈ due, v.heldBack e.2.2.2.1 e.2.2.2.2.length = true) → v.applyPlaces pos n = v) ∧
      ((∀ e ∈ due, v.heldBack e.2.2.2.1 e.2.2.2.2.length = false) →
        (v.applyPlaces pos n).gang.placing = s.gang.placing.filter fun e => !(e.1 == pos && e.2.1 ≤ n)) ∧
      (due = [] → s.sameMemory (v.applyPlaces pos n)) ∧
      (∀ e, due = [e] → s.gang.applied = [] → v.heldBack e.2.2.2.1 e.2.2.2.2.length = false →
        (∀ k ∈ extentsIn e.2.2.2.1 e.2.2.2.2.length, ∃ x, s.extent k = some x ∧ x.isVolatile = true ∧ x.move = none) →
        ∀ a, Memory.read (v.applyPlaces pos n).mem a =
          if e.2.2.2.1 ≤ a ∧ a < e.2.2.2.1 + e.2.2.2.2.length then e.2.2.2.2.getD (a - e.2.2.2.1) 0 else Memory.read s.mem a)) ∧
    (driftGood s j f 0x14 = true →
      s.gives (.memData j f) (u.gotRemote (fieldBE f.body 0 4) (fieldBE f.body 4 1) (f.body.drop 8)).runReads ∧
      (s.gang.remote = [] → s.gang.waiting = [] → s.net.reads = [] → s.frozenCut = false → s.gives (.memData j f) u))

/-! ## Census and the calendar -/

/-- Census (R370, R372, R374): a period that is due closes with a SUMMARY record in the next slot, after which the lowest erased slot is
the next (R373), and the next period begins with every count at 0; a bucket gains a token up to four; the read of the window's last word moves the cursor on, up to 65,536. The
calendar (R377 to R379): a tick counts a second and stops at the end of the range; lost time restarts it, not valid; APPLY
loads a date and time that exist as a calendar step, refuses any other whole, and is ignored from a curator. It completes:
summary, censusToken, censusWindowRead, calendarTick, oscFail, apply. -/
def Obligations.CensusAndCalendar : Prop :=
  (∀ s : State, s.pwr.vsupOk = true →
    (s.cal.sec % (60 * s.cen.period) ≠ 0 ∨ s.cal.sec * 32768 ≤ s.cen.start → s.gives .summary s) ∧
    (s.cal.sec % (60 * s.cen.period) = 0 → s.cen.start < s.cal.sec * 32768 → s.answers .summary fun t =>
      t.cen.start = s.calTime ∧ t.cen.period = s.get CEN.PERIOD_MIN ∧ t.cen.hist = [] ∧ t.cen.counts = [] ∧ t.cen.rails = [] ∧
      t.get CEN.SAMPLES = 0 ∧
      (s.cen.full = false → s.storeBusy = false → s.cen.heldSum = none → s.cen.heldOoc = none →
        t.cen.newest = some s.cen.nextSlot ∧ t.cen.nextSlot = s.slotAfter ∧
        t.evt CEN.page CEN.evSUMMARY_DONE = true) ∧ s.sameMemory t) ∧
    (∀ code : Fin 16, s.answers (.censusToken code) fun t =>
      mgetD t.cen.tokens code.val 4 = min 4 (mgetD s.cen.tokens code.val 4 + 1) ∧
      (∀ c, c ≠ code.val → mgetD t.cen.tokens c 4 = mgetD s.cen.tokens c 4) ∧
      t.cen = { s.cen with tokens := t.cen.tokens } ∧ s.sameMemory t) ∧
    (∀ path, s.reaches path CEN.page = true → s.flag (HDR.IN_RESET CEN.page) = false →
      ∃ t, s.gives (.censusWindowRead path) t ∧ t.get CEN.CURSOR = min 65536 (s.get CEN.CURSOR + 1) ∧
        t.out = s.out ++ [.regData path (CEN.page * 4096 + 0x1FC) (s.pageWord CEN.page 0x1FC)] ∧ s.sameMemory t)) ∧
  (∀ s : State,
    (s.cal.ended = true → s.gives .calendarTick s) ∧
    (s.cal.ended = false → calLast ≤ s.cal.sec → s.gives .calendarTick
      (({ s with cal := { s.cal with ended := true } }).raise RTC.page RTC.evCAL_END_EVT)) ∧
    (s.cal.ended = false → s.cal.sec < calLast → s.answers .calendarTick fun t =>
      t.cal = { s.cal with sec := s.cal.sec + 1, tickAt := s.cal.tickAt + secCycles } ∧ s.sameMemory t) ∧
    (s.pwr.vsupOk = true → s.answers .oscFail fun t =>
      t.cal.valid = false ∧ t.cal.sec = 0 ∧ t.cen.start = 0 ∧ t.get RTC.OSC_FAIL = 1 ∧ t.evt RTC.page RTC.evOSC_FAIL_EVT = true ∧ s.sameMemory t) ∧
    (s.pwr.vsupOk = false → s.gives .oscFail
      { s with cal := { tickAt := s.now, lost := true }, cen := { s.cen with start := 0 } }) ∧
    (∀ path, s.canWrite path RTC.APPLY = true →
      let f (r : Fld) (o w : Nat) : Nat := bitsOf (s.get r) o w
      let y := 2000 + f RTC.SET_DATE 16 9
      let mo := f RTC.SET_DATE 8 4
      let d := f RTC.SET_DATE 0 5
      let h := f RTC.SET_TIME 16 5
      let mi := f RTC.SET_TIME 8 6
      let se := f RTC.SET_TIME 0 6
      (∀ k, path = .curator k → s.gives (.apply path) s) ∧
      ((∀ k, path ≠ .curator k) → calSetOk y mo d h mi se = true → s.answers (.apply path) fun t =>
        t.cal = { s.cal with sec := calOf y mo d h mi se, tickAt := s.now, valid := true, ended := false } ∧
        t.evt RTC.page RTC.evSET_DONE = true ∧ s.sameMemory t) ∧
      ((∀ k, path ≠ .curator k) → calSetOk y mo d h mi se = false → s.gives (.apply path)
        ((s.put RTC.BAD_DATE 1).raise RTC.page RTC.evBAD_DATE_EVT))))
end

