-- ==== Sys2Proof/Laws/Bits.lean ====
section
/-! SUPPORT. Single bits of numbers: setting one and reading one. -/

namespace Sys2Proof.Machine

theorem bitOf_eq_testBit (v i : Nat) : bitOf v i = v.testBit i := by
  simp [bitOf, Nat.testBit_eq_decide_div_mod_eq, beq_eq_decide]

/-- Adding a bit that is not there is an OR. -/
theorem add_two_pow_eq_or {v i : Nat} (h : v / 2 ^ i % 2 = 0) : v + 2 ^ i = v ||| 2 ^ i := by
  have hv : v = 2 ^ (i + 1) * (v / 2 ^ i / 2) + v % 2 ^ i := by
    have h1 := Nat.div_add_mod v (2 ^ i)
    have h2 := Nat.div_add_mod (v / 2 ^ i) 2
    rw [h, Nat.add_zero] at h2
    rw [Nat.pow_succ, Nat.mul_assoc, h2, h1]
  have hr : v % 2 ^ i < 2 ^ i := Nat.mod_lt _ (Nat.two_pow_pos i)
  have hr' : v % 2 ^ i < 2 ^ (i + 1) := by rw [Nat.pow_succ]; omega
  have hs : 2 ^ i + v % 2 ^ i < 2 ^ (i + 1) := by rw [Nat.pow_succ]; omega
  generalize v / 2 ^ i / 2 = q at hv
  generalize v % 2 ^ i = r at hv hr hr' hs
  subst hv
  apply Nat.eq_of_testBit_eq
  intro j
  rw [Nat.add_assoc, Nat.add_comm r, Nat.testBit_or, Nat.testBit_two_pow_mul_add _ hs, Nat.testBit_two_pow_mul_add _ hr']
  by_cases hj : j < i + 1
  · simp only [hj, if_true]
    by_cases hi : j = i
    · subst hi
      rw [Nat.testBit_two_pow_add_eq]; simp [Nat.testBit_lt_two_pow hr]
    · rw [Nat.testBit_two_pow_add_gt (by omega)]
      simp [Ne.symm hi]
  · simp [hj, show i ≠ j by omega]

/-- A number with bit `i` set is its OR with 2^i. -/
theorem setBit_true (v i : Nat) : setBit v i true = v ||| 2 ^ i := by
  simp only [setBit, setBits, bitsOf, b2n, if_true, Nat.pow_one]
  rw [show 1 % 2 * 2 ^ i = 2 ^ i by simp]
  by_cases hb : v / 2 ^ i % 2 = 1
  · have hv : 2 ^ i ≤ v := by
      by_contra h
      rw [Nat.div_eq_of_lt (by omega)] at hb
      omega
    rw [hb, Nat.one_mul, Nat.sub_add_cancel hv]
    apply Nat.eq_of_testBit_eq
    intro j
    by_cases h : j = i
    · subst h
      rw [Nat.testBit_or, Nat.testBit_two_pow_self, Nat.testBit_eq_decide_div_mod_eq, hb]
      rfl
    · simp [Nat.testBit_or, Ne.symm h]
  · rw [show v / 2 ^ i % 2 = 0 by omega, Nat.zero_mul, Nat.sub_zero, add_two_pow_eq_or (by omega)]

@[simp] theorem bitOf_setBit_self (v i : Nat) : bitOf (setBit v i true) i = true := by
  simp [bitOf_eq_testBit, setBit_true, Nat.testBit_or]

theorem bitOf_setBit_true {v i j : Nat} (h : bitOf v j = true) : bitOf (setBit v i true) j = true := by
  simp only [bitOf_eq_testBit, setBit_true, Nat.testBit_or] at h ⊢
  simp [h]

theorem bitOf_mod {v i w : Nat} (h : i < w) : bitOf (v % 2 ^ w) i = bitOf v i := by
  simp [bitOf_eq_testBit, Nat.testBit_mod_two_pow, h]

end Sys2Proof.Machine
end

