-- ==== Sys2Proof/Laws/Map.lean ====
section
/-! SUPPORT. Sparse tables: reading after writing, and that every operation keeps the keys strictly rising. -/

namespace Sys2Proof.Machine

variable {α : Type}

@[simp] theorem mget_nil (k : Nat) : mget ([] : NMap α) k = none := rfl

/-- A key just put reads as its value. -/
@[simp] theorem mget_mput_self (m : NMap α) (k : Nat) (v : α) : mget (mput m k v) k = some v := by
  induction m with
  | nil => simp [mput, mget]
  | cons e m ih =>
    obtain ⟨k', v'⟩ := e
    simp only [mput]
    split
    · simp [mget]
    · split
      · simp [mget]
      · rename_i h1 h2
        simp [mget, Ne.symm h2, ih]

/-- A put leaves every other key. -/
theorem mget_mput_ne (m : NMap α) {k k' : Nat} (v : α) (h : k' ≠ k) : mget (mput m k v) k' = mget m k' := by
  induction m with
  | nil => simp [mput, mget, Ne.symm h]
  | cons e m ih =>
    obtain ⟨j, w⟩ := e
    simp only [mput]
    split
    · simp [mget, Ne.symm h]
    · split
      · rename_i h1 h2
        subst h2
        simp [mget, Ne.symm h]
      · simp [mget, ih]

/-- A deleted key reads as absent. -/
@[simp] theorem mget_mdel_self (m : NMap α) (k : Nat) : mget (mdel m k) k = none := by
  induction m with
  | nil => rfl
  | cons e m ih =>
    obtain ⟨j, w⟩ := e
    by_cases h : j = k
    · simpa [mdel, h] using ih
    · simpa [mdel, h, mget] using ih

/-- A deletion leaves every other key. -/
theorem mget_mdel_ne (m : NMap α) {k k' : Nat} (h : k' ≠ k) : mget (mdel m k) k' = mget m k' := by
  induction m with
  | nil => rfl
  | cons e m ih =>
    obtain ⟨j, w⟩ := e
    by_cases hj : j = k
    · subst hj
      simpa [mdel, mget, Ne.symm h] using ih
    · by_cases hk : j = k'
      · simp [mdel, mget, hk, h]
      · simpa [mdel, mget, hj, hk] using ih

/-- A table entry read after `mset`: the value just set. -/
@[simp] theorem mgetD_mset_self [DecidableEq α] (d : α) (m : NMap α) (k : Nat) (v : α) :
    mgetD (mset d m k v) k d = v := by
  by_cases h : v = d <;> simp [mgetD, mset, h]

/-- `mset` leaves every other key. -/
theorem mget_mset_ne [DecidableEq α] (d : α) (m : NMap α) {k k' : Nat} (v : α) (h : k' ≠ k) :
    mget (mset d m k v) k' = mget m k' := by
  by_cases hv : v = d
  · simp [mset, hv, mget_mdel_ne m h]
  · simp [mset, hv, mget_mput_ne m v h]

theorem mgetD_mset_ne [DecidableEq α] (d d' : α) (m : NMap α) {k k' : Nat} (v : α) (h : k' ≠ k) :
    mgetD (mset d m k v) k' d' = mgetD m k' d' := by
  simp [mgetD, mget_mset_ne d m v h]

@[simp] theorem mgetD_mput_self (m : NMap α) (k : Nat) (v d : α) : mgetD (mput m k v) k d = v := by simp [mgetD]

theorem mgetD_mput_ne (m : NMap α) {k k' : Nat} (v d : α) (h : k' ≠ k) : mgetD (mput m k v) k' d = mgetD m k' d := by
  simp [mgetD, mget_mput_ne m v h]

/-! ## Canonical form -/

/-- A lower bound may be lowered. -/
theorem msorted_weaken {lo : Option Nat} {l : Nat} {m : NMap α} (h : msorted (some l) m = true)
    (hl : ∀ x, lo = some x → x ≤ l) : msorted lo m = true := by
  cases m with
  | nil => rfl
  | cons e m =>
    obtain ⟨k, v⟩ := e
    simp only [msorted, Bool.and_eq_true, decide_eq_true_eq] at h ⊢
    refine ⟨?_, h.2⟩
    cases lo with
    | none => rfl
    | some x => simpa using Nat.lt_of_le_of_lt (hl x rfl) h.1

/-- A put keeps the keys strictly rising. -/
theorem msorted_mput (lo : Option Nat) (m : NMap α) (k : Nat) (v : α) (h : msorted lo m = true)
    (hk : ∀ x, lo = some x → x < k) : msorted lo (mput m k v) = true := by
  induction m generalizing lo with
  | nil =>
    cases lo with
    | none => rfl
    | some x => simpa [mput, msorted] using hk x rfl
  | cons e m ih =>
    obtain ⟨j, w⟩ := e
    simp only [msorted, Bool.and_eq_true] at h
    simp only [mput]
    split
    · rename_i hlt
      simp only [msorted, Bool.and_eq_true, decide_eq_true_eq]
      exact ⟨by cases lo <;> simp_all, hlt, h.2⟩
    · split
      · rename_i heq
        subst heq
        simp only [msorted, Bool.and_eq_true]
        exact ⟨by cases lo <;> simp_all, h.2⟩
      · rename_i h1 h2
        simp only [msorted, Bool.and_eq_true]
        exact ⟨h.1, ih (some j) h.2 (by rintro x ⟨⟩; omega)⟩

/-- Dropping entries keeps the keys strictly rising. -/
theorem msorted_filter (lo : Option Nat) (m : NMap α) (p : Nat × α → Bool) (h : msorted lo m = true) :
    msorted lo (m.filter p) = true := by
  induction m generalizing lo with
  | nil => rfl
  | cons e m ih =>
    obtain ⟨j, w⟩ := e
    simp only [msorted, Bool.and_eq_true] at h
    by_cases hp : p (j, w) = true
    · rw [List.filter_cons_of_pos hp]
      simp only [msorted, Bool.and_eq_true]
      exact ⟨h.1, ih (some j) h.2⟩
    · rw [List.filter_cons_of_neg hp]
      refine ih lo (msorted_weaken h.2 ?_)
      rintro x rfl
      simpa using Nat.le_of_lt (by simpa using h.1)

/-- `mset` keeps the keys strictly rising. -/
theorem msorted_mset [DecidableEq α] (d : α) (m : NMap α) (k : Nat) (v : α) (h : msorted none m = true) :
    msorted none (mset d m k v) = true := by
  by_cases hv : v = d
  · simpa [mset, hv, mdel] using msorted_filter none m _ h
  · simpa [mset, hv] using msorted_mput none m k v h (by simp)

/-- `mput` lists the new value and nothing else that was not there. -/
theorem mem_mput {m : NMap α} {k : Nat} {v : α} {e : Nat × α} (h : e ∈ mput m k v) : e = (k, v) ∨ e ∈ m := by
  induction m with
  | nil => simpa [mput] using h
  | cons x m ih =>
    obtain ⟨j, w⟩ := x
    simp only [mput] at h
    split at h
    · rcases List.mem_cons.1 h with h | h
      · exact .inl h
      · exact .inr h
    · split at h
      · rcases List.mem_cons.1 h with h | h
        · exact .inl h
        · exact .inr (List.mem_cons_of_mem _ h)
      · rcases List.mem_cons.1 h with h | h
        · exact .inr (h ▸ List.mem_cons_self)
        · rcases ih h with h | h
          · exact .inl h
          · exact .inr (List.mem_cons_of_mem _ h)

end Sys2Proof.Machine
end

