-- ==== Sys2Proof/Laws/Memory.lean ====
section
/-! SUPPORT. Memory: reading after writing, and that every operation keeps the canonical form. -/

namespace Sys2Proof.Machine

/-- The byte just written is read. -/
@[simp] theorem Memory.read_write_self (m : Memory) (a : Nat) (b : Byte) : Memory.read (Memory.write m a b) a = b := by
  simp [Memory.read, Memory.write]

/-- A write leaves every other byte. -/
theorem Memory.read_write_ne (m : Memory) {a a' : Nat} (b : Byte) (h : a' ≠ a) :
    Memory.read (Memory.write m a b) a' = Memory.read m a' := by
  simpa [Memory.read, Memory.write] using mgetD_mset_ne 0 0 m b h

/-- Bytes written leave every byte outside them. -/
theorem Memory.read_writeN_out (m : Memory) (a : Nat) (bs : List Byte) (a' : Nat) (h : a' < a ∨ a + bs.length ≤ a') :
    Memory.read (Memory.writeN m a bs) a' = Memory.read m a' := by
  induction bs generalizing m a with
  | nil => rfl
  | cons b bs ih =>
    simp only [List.length_cons] at h
    rw [Memory.writeN, ih _ _ (by omega), Memory.read_write_ne m b (by omega)]

/-- Bytes written are read back. -/
theorem Memory.read_writeN_in (m : Memory) (a : Nat) (bs : List Byte) (i : Nat) (h : i < bs.length) :
    Memory.read (Memory.writeN m a bs) (a + i) = bs[i] := by
  induction bs generalizing m a i with
  | nil => simp at h
  | cons b bs ih =>
    cases i with
    | zero =>
      rw [Memory.writeN, Nat.add_zero, Memory.read_writeN_out _ _ _ _ (.inl (by omega))]
      simp
    | succ i =>
      have := ih (Memory.write m a b) (a + 1) i (by simpa using h)
      rw [Memory.writeN, show a + (i + 1) = a + 1 + i by omega, this]
      rfl

/-- One write keeps the canonical form. -/
theorem Memory.wf_write {m : Memory} (h : Memory.wf m = true) (a : Nat) (b : Byte) :
    Memory.wf (Memory.write m a b) = true := by
  simp only [Memory.wf, Memory.write, Bool.and_eq_true, List.all_eq_true, bne_iff_ne, ne_eq] at h ⊢
  refine ⟨msorted_mset 0 m a b h.1, ?_⟩
  intro c hc
  by_cases hb : b = 0
  · simp only [mset, hb, if_true, mdel] at hc
    exact h.2 c (List.mem_filter.1 hc).1
  · simp only [mset, hb, if_false] at hc
    rcases mem_mput hc with rfl | hc
    · exact hb
    · exact h.2 c hc

/-- Bytes written keep the canonical form. -/
theorem Memory.wf_writeN {m : Memory} (h : Memory.wf m = true) (a : Nat) (bs : List Byte) :
    Memory.wf (Memory.writeN m a bs) = true := by
  induction bs generalizing m a with
  | nil => exact h
  | cons b bs ih => exact ih (Memory.wf_write h a b) (a + 1)

/-- Clearing a range keeps the canonical form. -/
theorem Memory.wf_clear {m : Memory} (h : Memory.wf m = true) (a n : Nat) : Memory.wf (Memory.clear m a n) = true := by
  simp only [Memory.wf, Memory.clear, Bool.and_eq_true, List.all_eq_true] at h ⊢
  exact ⟨msorted_filter none m _ h.1, fun c hc => h.2 c (List.mem_filter.1 hc).1⟩

/-- Memory after reset is in canonical form. -/
theorem Memory.wf_reset : Memory.wf State.reset.mem = true := rfl

end Sys2Proof.Machine
end

