-- ==== Sys2Proof/Laws/State.lean ====
section
/-! SUPPORT. What each named operation on the state leaves as it is, field by field, and what registers read after one. -/

namespace Sys2Proof.Machine

@[simp] theorem State.put_pending (s : State) (f : Fld) (v : Nat) : (s.put f v).pending = s.pending := rfl
@[simp] theorem State.put_now (s : State) (f : Fld) (v : Nat) : (s.put f v).now = s.now := rfl
@[simp] theorem State.put_snap (s : State) (f : Fld) (v : Nat) : (s.put f v).snap = s.snap := rfl
@[simp] theorem State.put_out (s : State) (f : Fld) (v : Nat) : (s.put f v).out = s.out := rfl
@[simp] theorem State.put_free (s : State) (f : Fld) (v : Nat) : (s.put f v).free = s.free := rfl
@[simp] theorem State.put_ep (s : State) (f : Fld) (v : Nat) : (s.put f v).ep = s.ep := rfl
@[simp] theorem State.put_net (s : State) (f : Fld) (v : Nat) : (s.put f v).net = s.net := rfl
@[simp] theorem State.put_q (s : State) (f : Fld) (v : Nat) : (s.put f v).q = s.q := rfl
@[simp] theorem State.put_win (s : State) (f : Fld) (v : Nat) : (s.put f v).win = s.win := rfl
@[simp] theorem State.put_cm (s : State) (f : Fld) (v : Nat) : (s.put f v).cm = s.cm := rfl
@[simp] theorem State.put_gang (s : State) (f : Fld) (v : Nat) : (s.put f v).gang = s.gang := rfl
@[simp] theorem State.put_tier (s : State) (f : Fld) (v : Nat) : (s.put f v).tier = s.tier := rfl
@[simp] theorem State.put_mus (s : State) (f : Fld) (v : Nat) : (s.put f v).mus = s.mus := rfl
@[simp] theorem State.put_mem (s : State) (f : Fld) (v : Nat) : (s.put f v).mem = s.mem := rfl
@[simp] theorem State.put_pwr (s : State) (f : Fld) (v : Nat) : (s.put f v).pwr = s.pwr := rfl
@[simp] theorem State.put_mc (s : State) (f : Fld) (v : Nat) : (s.put f v).mc = s.mc := rfl
@[simp] theorem State.put_fl (s : State) (f : Fld) (v : Nat) : (s.put f v).fl = s.fl := rfl
@[simp] theorem State.put_par (s : State) (f : Fld) (v : Nat) : (s.put f v).par = s.par := rfl
@[simp] theorem State.put_acc (s : State) (f : Fld) (v : Nat) : (s.put f v).acc = s.acc := rfl
@[simp] theorem State.put_key (s : State) (f : Fld) (v : Nat) : (s.put f v).key = s.key := rfl
@[simp] theorem State.put_clk (s : State) (f : Fld) (v : Nat) : (s.put f v).clk = s.clk := rfl
@[simp] theorem State.put_cur (s : State) (f : Fld) (v : Nat) : (s.put f v).cur = s.cur := rfl
@[simp] theorem State.put_cen (s : State) (f : Fld) (v : Nat) : (s.put f v).cen = s.cen := rfl
@[simp] theorem State.put_cal (s : State) (f : Fld) (v : Nat) : (s.put f v).cal = s.cal := rfl
@[simp] theorem State.put_vit (s : State) (f : Fld) (v : Nat) : (s.put f v).vit = s.vit := rfl
@[simp] theorem State.put_smb (s : State) (f : Fld) (v : Nat) : (s.put f v).smb = s.smb := rfl

@[simp] theorem State.putb_pending (s : State) (f : Fld) (b : Bool) : (s.putb f b).pending = s.pending := rfl
@[simp] theorem State.putb_now (s : State) (f : Fld) (b : Bool) : (s.putb f b).now = s.now := rfl
@[simp] theorem State.putb_snap (s : State) (f : Fld) (b : Bool) : (s.putb f b).snap = s.snap := rfl
@[simp] theorem State.putb_out (s : State) (f : Fld) (b : Bool) : (s.putb f b).out = s.out := rfl
@[simp] theorem State.putb_free (s : State) (f : Fld) (b : Bool) : (s.putb f b).free = s.free := rfl
@[simp] theorem State.putb_ep (s : State) (f : Fld) (b : Bool) : (s.putb f b).ep = s.ep := rfl
@[simp] theorem State.putb_net (s : State) (f : Fld) (b : Bool) : (s.putb f b).net = s.net := rfl
@[simp] theorem State.putb_q (s : State) (f : Fld) (b : Bool) : (s.putb f b).q = s.q := rfl
@[simp] theorem State.putb_win (s : State) (f : Fld) (b : Bool) : (s.putb f b).win = s.win := rfl
@[simp] theorem State.putb_cm (s : State) (f : Fld) (b : Bool) : (s.putb f b).cm = s.cm := rfl
@[simp] theorem State.putb_gang (s : State) (f : Fld) (b : Bool) : (s.putb f b).gang = s.gang := rfl
@[simp] theorem State.putb_tier (s : State) (f : Fld) (b : Bool) : (s.putb f b).tier = s.tier := rfl
@[simp] theorem State.putb_mus (s : State) (f : Fld) (b : Bool) : (s.putb f b).mus = s.mus := rfl
@[simp] theorem State.putb_mem (s : State) (f : Fld) (b : Bool) : (s.putb f b).mem = s.mem := rfl
@[simp] theorem State.putb_pwr (s : State) (f : Fld) (b : Bool) : (s.putb f b).pwr = s.pwr := rfl
@[simp] theorem State.putb_mc (s : State) (f : Fld) (b : Bool) : (s.putb f b).mc = s.mc := rfl
@[simp] theorem State.putb_fl (s : State) (f : Fld) (b : Bool) : (s.putb f b).fl = s.fl := rfl
@[simp] theorem State.putb_par (s : State) (f : Fld) (b : Bool) : (s.putb f b).par = s.par := rfl
@[simp] theorem State.putb_acc (s : State) (f : Fld) (b : Bool) : (s.putb f b).acc = s.acc := rfl
@[simp] theorem State.putb_key (s : State) (f : Fld) (b : Bool) : (s.putb f b).key = s.key := rfl
@[simp] theorem State.putb_clk (s : State) (f : Fld) (b : Bool) : (s.putb f b).clk = s.clk := rfl
@[simp] theorem State.putb_cur (s : State) (f : Fld) (b : Bool) : (s.putb f b).cur = s.cur := rfl
@[simp] theorem State.putb_cen (s : State) (f : Fld) (b : Bool) : (s.putb f b).cen = s.cen := rfl
@[simp] theorem State.putb_cal (s : State) (f : Fld) (b : Bool) : (s.putb f b).cal = s.cal := rfl
@[simp] theorem State.putb_vit (s : State) (f : Fld) (b : Bool) : (s.putb f b).vit = s.vit := rfl
@[simp] theorem State.putb_smb (s : State) (f : Fld) (b : Bool) : (s.putb f b).smb = s.smb := rfl

@[simp] theorem State.setb_pending (s : State) (f : Fld) (i : Nat) (b : Bool) : (s.setb f i b).pending = s.pending := rfl
@[simp] theorem State.setb_now (s : State) (f : Fld) (i : Nat) (b : Bool) : (s.setb f i b).now = s.now := rfl
@[simp] theorem State.setb_snap (s : State) (f : Fld) (i : Nat) (b : Bool) : (s.setb f i b).snap = s.snap := rfl
@[simp] theorem State.setb_out (s : State) (f : Fld) (i : Nat) (b : Bool) : (s.setb f i b).out = s.out := rfl
@[simp] theorem State.setb_free (s : State) (f : Fld) (i : Nat) (b : Bool) : (s.setb f i b).free = s.free := rfl
@[simp] theorem State.setb_ep (s : State) (f : Fld) (i : Nat) (b : Bool) : (s.setb f i b).ep = s.ep := rfl
@[simp] theorem State.setb_net (s : State) (f : Fld) (i : Nat) (b : Bool) : (s.setb f i b).net = s.net := rfl
@[simp] theorem State.setb_q (s : State) (f : Fld) (i : Nat) (b : Bool) : (s.setb f i b).q = s.q := rfl
@[simp] theorem State.setb_win (s : State) (f : Fld) (i : Nat) (b : Bool) : (s.setb f i b).win = s.win := rfl
@[simp] theorem State.setb_cm (s : State) (f : Fld) (i : Nat) (b : Bool) : (s.setb f i b).cm = s.cm := rfl
@[simp] theorem State.setb_gang (s : State) (f : Fld) (i : Nat) (b : Bool) : (s.setb f i b).gang = s.gang := rfl
@[simp] theorem State.setb_tier (s : State) (f : Fld) (i : Nat) (b : Bool) : (s.setb f i b).tier = s.tier := rfl
@[simp] theorem State.setb_mus (s : State) (f : Fld) (i : Nat) (b : Bool) : (s.setb f i b).mus = s.mus := rfl
@[simp] theorem State.setb_mem (s : State) (f : Fld) (i : Nat) (b : Bool) : (s.setb f i b).mem = s.mem := rfl
@[simp] theorem State.setb_pwr (s : State) (f : Fld) (i : Nat) (b : Bool) : (s.setb f i b).pwr = s.pwr := rfl
@[simp] theorem State.setb_mc (s : State) (f : Fld) (i : Nat) (b : Bool) : (s.setb f i b).mc = s.mc := rfl
@[simp] theorem State.setb_fl (s : State) (f : Fld) (i : Nat) (b : Bool) : (s.setb f i b).fl = s.fl := rfl
@[simp] theorem State.setb_par (s : State) (f : Fld) (i : Nat) (b : Bool) : (s.setb f i b).par = s.par := rfl
@[simp] theorem State.setb_acc (s : State) (f : Fld) (i : Nat) (b : Bool) : (s.setb f i b).acc = s.acc := rfl
@[simp] theorem State.setb_key (s : State) (f : Fld) (i : Nat) (b : Bool) : (s.setb f i b).key = s.key := rfl
@[simp] theorem State.setb_clk (s : State) (f : Fld) (i : Nat) (b : Bool) : (s.setb f i b).clk = s.clk := rfl
@[simp] theorem State.setb_cur (s : State) (f : Fld) (i : Nat) (b : Bool) : (s.setb f i b).cur = s.cur := rfl
@[simp] theorem State.setb_cen (s : State) (f : Fld) (i : Nat) (b : Bool) : (s.setb f i b).cen = s.cen := rfl
@[simp] theorem State.setb_cal (s : State) (f : Fld) (i : Nat) (b : Bool) : (s.setb f i b).cal = s.cal := rfl
@[simp] theorem State.setb_vit (s : State) (f : Fld) (i : Nat) (b : Bool) : (s.setb f i b).vit = s.vit := rfl
@[simp] theorem State.setb_smb (s : State) (f : Fld) (i : Nat) (b : Bool) : (s.setb f i b).smb = s.smb := rfl

@[simp] theorem State.inc_pending (s : State) (f : Fld) (n : Nat) : (s.inc f n).pending = s.pending := rfl
@[simp] theorem State.inc_now (s : State) (f : Fld) (n : Nat) : (s.inc f n).now = s.now := rfl
@[simp] theorem State.inc_snap (s : State) (f : Fld) (n : Nat) : (s.inc f n).snap = s.snap := rfl
@[simp] theorem State.inc_out (s : State) (f : Fld) (n : Nat) : (s.inc f n).out = s.out := rfl
@[simp] theorem State.inc_free (s : State) (f : Fld) (n : Nat) : (s.inc f n).free = s.free := rfl
@[simp] theorem State.inc_ep (s : State) (f : Fld) (n : Nat) : (s.inc f n).ep = s.ep := rfl
@[simp] theorem State.inc_net (s : State) (f : Fld) (n : Nat) : (s.inc f n).net = s.net := rfl
@[simp] theorem State.inc_q (s : State) (f : Fld) (n : Nat) : (s.inc f n).q = s.q := rfl
@[simp] theorem State.inc_win (s : State) (f : Fld) (n : Nat) : (s.inc f n).win = s.win := rfl
@[simp] theorem State.inc_cm (s : State) (f : Fld) (n : Nat) : (s.inc f n).cm = s.cm := rfl
@[simp] theorem State.inc_gang (s : State) (f : Fld) (n : Nat) : (s.inc f n).gang = s.gang := rfl
@[simp] theorem State.inc_tier (s : State) (f : Fld) (n : Nat) : (s.inc f n).tier = s.tier := rfl
@[simp] theorem State.inc_mus (s : State) (f : Fld) (n : Nat) : (s.inc f n).mus = s.mus := rfl
@[simp] theorem State.inc_mem (s : State) (f : Fld) (n : Nat) : (s.inc f n).mem = s.mem := rfl
@[simp] theorem State.inc_pwr (s : State) (f : Fld) (n : Nat) : (s.inc f n).pwr = s.pwr := rfl
@[simp] theorem State.inc_mc (s : State) (f : Fld) (n : Nat) : (s.inc f n).mc = s.mc := rfl
@[simp] theorem State.inc_fl (s : State) (f : Fld) (n : Nat) : (s.inc f n).fl = s.fl := rfl
@[simp] theorem State.inc_par (s : State) (f : Fld) (n : Nat) : (s.inc f n).par = s.par := rfl
@[simp] theorem State.inc_acc (s : State) (f : Fld) (n : Nat) : (s.inc f n).acc = s.acc := rfl
@[simp] theorem State.inc_key (s : State) (f : Fld) (n : Nat) : (s.inc f n).key = s.key := rfl
@[simp] theorem State.inc_clk (s : State) (f : Fld) (n : Nat) : (s.inc f n).clk = s.clk := rfl
@[simp] theorem State.inc_cur (s : State) (f : Fld) (n : Nat) : (s.inc f n).cur = s.cur := rfl
@[simp] theorem State.inc_cen (s : State) (f : Fld) (n : Nat) : (s.inc f n).cen = s.cen := rfl
@[simp] theorem State.inc_cal (s : State) (f : Fld) (n : Nat) : (s.inc f n).cal = s.cal := rfl
@[simp] theorem State.inc_vit (s : State) (f : Fld) (n : Nat) : (s.inc f n).vit = s.vit := rfl
@[simp] theorem State.inc_smb (s : State) (f : Fld) (n : Nat) : (s.inc f n).smb = s.smb := rfl

@[simp] theorem State.send_pending (s : State) (o : Out) : (s.send o).pending = s.pending := rfl
@[simp] theorem State.send_now (s : State) (o : Out) : (s.send o).now = s.now := rfl
@[simp] theorem State.send_reg (s : State) (o : Out) : (s.send o).reg = s.reg := rfl
@[simp] theorem State.send_snap (s : State) (o : Out) : (s.send o).snap = s.snap := rfl
@[simp] theorem State.send_free (s : State) (o : Out) : (s.send o).free = s.free := rfl
@[simp] theorem State.send_ep (s : State) (o : Out) : (s.send o).ep = s.ep := rfl
@[simp] theorem State.send_net (s : State) (o : Out) : (s.send o).net = s.net := rfl
@[simp] theorem State.send_q (s : State) (o : Out) : (s.send o).q = s.q := rfl
@[simp] theorem State.send_win (s : State) (o : Out) : (s.send o).win = s.win := rfl
@[simp] theorem State.send_cm (s : State) (o : Out) : (s.send o).cm = s.cm := rfl
@[simp] theorem State.send_gang (s : State) (o : Out) : (s.send o).gang = s.gang := rfl
@[simp] theorem State.send_tier (s : State) (o : Out) : (s.send o).tier = s.tier := rfl
@[simp] theorem State.send_mus (s : State) (o : Out) : (s.send o).mus = s.mus := rfl
@[simp] theorem State.send_mem (s : State) (o : Out) : (s.send o).mem = s.mem := rfl
@[simp] theorem State.send_pwr (s : State) (o : Out) : (s.send o).pwr = s.pwr := rfl
@[simp] theorem State.send_mc (s : State) (o : Out) : (s.send o).mc = s.mc := rfl
@[simp] theorem State.send_fl (s : State) (o : Out) : (s.send o).fl = s.fl := rfl
@[simp] theorem State.send_par (s : State) (o : Out) : (s.send o).par = s.par := rfl
@[simp] theorem State.send_acc (s : State) (o : Out) : (s.send o).acc = s.acc := rfl
@[simp] theorem State.send_key (s : State) (o : Out) : (s.send o).key = s.key := rfl
@[simp] theorem State.send_clk (s : State) (o : Out) : (s.send o).clk = s.clk := rfl
@[simp] theorem State.send_cur (s : State) (o : Out) : (s.send o).cur = s.cur := rfl
@[simp] theorem State.send_cen (s : State) (o : Out) : (s.send o).cen = s.cen := rfl
@[simp] theorem State.send_cal (s : State) (o : Out) : (s.send o).cal = s.cal := rfl
@[simp] theorem State.send_vit (s : State) (o : Out) : (s.send o).vit = s.vit := rfl
@[simp] theorem State.send_smb (s : State) (o : Out) : (s.send o).smb = s.smb := rfl

@[simp] theorem State.at_pending (s : State) (t : Nat) : (s.at t).pending = s.pending := rfl
@[simp] theorem State.at_reg (s : State) (t : Nat) : (s.at t).reg = s.reg := rfl
@[simp] theorem State.at_snap (s : State) (t : Nat) : (s.at t).snap = s.snap := rfl
@[simp] theorem State.at_out (s : State) (t : Nat) : (s.at t).out = s.out := rfl
@[simp] theorem State.at_free (s : State) (t : Nat) : (s.at t).free = s.free := rfl
@[simp] theorem State.at_ep (s : State) (t : Nat) : (s.at t).ep = s.ep := rfl
@[simp] theorem State.at_net (s : State) (t : Nat) : (s.at t).net = s.net := rfl
@[simp] theorem State.at_q (s : State) (t : Nat) : (s.at t).q = s.q := rfl
@[simp] theorem State.at_win (s : State) (t : Nat) : (s.at t).win = s.win := rfl
@[simp] theorem State.at_cm (s : State) (t : Nat) : (s.at t).cm = s.cm := rfl
@[simp] theorem State.at_gang (s : State) (t : Nat) : (s.at t).gang = s.gang := rfl
@[simp] theorem State.at_tier (s : State) (t : Nat) : (s.at t).tier = s.tier := rfl
@[simp] theorem State.at_mus (s : State) (t : Nat) : (s.at t).mus = s.mus := rfl
@[simp] theorem State.at_mem (s : State) (t : Nat) : (s.at t).mem = s.mem := rfl
@[simp] theorem State.at_pwr (s : State) (t : Nat) : (s.at t).pwr = s.pwr := rfl
@[simp] theorem State.at_mc (s : State) (t : Nat) : (s.at t).mc = s.mc := rfl
@[simp] theorem State.at_fl (s : State) (t : Nat) : (s.at t).fl = s.fl := rfl
@[simp] theorem State.at_par (s : State) (t : Nat) : (s.at t).par = s.par := rfl
@[simp] theorem State.at_acc (s : State) (t : Nat) : (s.at t).acc = s.acc := rfl
@[simp] theorem State.at_key (s : State) (t : Nat) : (s.at t).key = s.key := rfl
@[simp] theorem State.at_clk (s : State) (t : Nat) : (s.at t).clk = s.clk := rfl
@[simp] theorem State.at_cur (s : State) (t : Nat) : (s.at t).cur = s.cur := rfl
@[simp] theorem State.at_cen (s : State) (t : Nat) : (s.at t).cen = s.cen := rfl
@[simp] theorem State.at_cal (s : State) (t : Nat) : (s.at t).cal = s.cal := rfl
@[simp] theorem State.at_vit (s : State) (t : Nat) : (s.at t).vit = s.vit := rfl
@[simp] theorem State.at_smb (s : State) (t : Nat) : (s.at t).smb = s.smb := rfl

@[simp] theorem State.setQueue_pending (s : State) (n : Nat) (x : Queue) : (s.setQueue n x).pending = s.pending := rfl
@[simp] theorem State.setQueue_now (s : State) (n : Nat) (x : Queue) : (s.setQueue n x).now = s.now := rfl
@[simp] theorem State.setQueue_reg (s : State) (n : Nat) (x : Queue) : (s.setQueue n x).reg = s.reg := rfl
@[simp] theorem State.setQueue_snap (s : State) (n : Nat) (x : Queue) : (s.setQueue n x).snap = s.snap := rfl
@[simp] theorem State.setQueue_out (s : State) (n : Nat) (x : Queue) : (s.setQueue n x).out = s.out := rfl
@[simp] theorem State.setQueue_free (s : State) (n : Nat) (x : Queue) : (s.setQueue n x).free = s.free := rfl
@[simp] theorem State.setQueue_ep (s : State) (n : Nat) (x : Queue) : (s.setQueue n x).ep = s.ep := rfl
@[simp] theorem State.setQueue_net (s : State) (n : Nat) (x : Queue) : (s.setQueue n x).net = s.net := rfl
@[simp] theorem State.setQueue_win (s : State) (n : Nat) (x : Queue) : (s.setQueue n x).win = s.win := rfl
@[simp] theorem State.setQueue_cm (s : State) (n : Nat) (x : Queue) : (s.setQueue n x).cm = s.cm := rfl
@[simp] theorem State.setQueue_gang (s : State) (n : Nat) (x : Queue) : (s.setQueue n x).gang = s.gang := rfl
@[simp] theorem State.setQueue_tier (s : State) (n : Nat) (x : Queue) : (s.setQueue n x).tier = s.tier := rfl
@[simp] theorem State.setQueue_mus (s : State) (n : Nat) (x : Queue) : (s.setQueue n x).mus = s.mus := rfl
@[simp] theorem State.setQueue_mem (s : State) (n : Nat) (x : Queue) : (s.setQueue n x).mem = s.mem := rfl
@[simp] theorem State.setQueue_pwr (s : State) (n : Nat) (x : Queue) : (s.setQueue n x).pwr = s.pwr := rfl
@[simp] theorem State.setQueue_mc (s : State) (n : Nat) (x : Queue) : (s.setQueue n x).mc = s.mc := rfl
@[simp] theorem State.setQueue_fl (s : State) (n : Nat) (x : Queue) : (s.setQueue n x).fl = s.fl := rfl
@[simp] theorem State.setQueue_par (s : State) (n : Nat) (x : Queue) : (s.setQueue n x).par = s.par := rfl
@[simp] theorem State.setQueue_acc (s : State) (n : Nat) (x : Queue) : (s.setQueue n x).acc = s.acc := rfl
@[simp] theorem State.setQueue_key (s : State) (n : Nat) (x : Queue) : (s.setQueue n x).key = s.key := rfl
@[simp] theorem State.setQueue_clk (s : State) (n : Nat) (x : Queue) : (s.setQueue n x).clk = s.clk := rfl
@[simp] theorem State.setQueue_cur (s : State) (n : Nat) (x : Queue) : (s.setQueue n x).cur = s.cur := rfl
@[simp] theorem State.setQueue_cen (s : State) (n : Nat) (x : Queue) : (s.setQueue n x).cen = s.cen := rfl
@[simp] theorem State.setQueue_cal (s : State) (n : Nat) (x : Queue) : (s.setQueue n x).cal = s.cal := rfl
@[simp] theorem State.setQueue_vit (s : State) (n : Nat) (x : Queue) : (s.setQueue n x).vit = s.vit := rfl
@[simp] theorem State.setQueue_smb (s : State) (n : Nat) (x : Queue) : (s.setQueue n x).smb = s.smb := rfl

@[simp] theorem State.setDomain_pending (s : State) (n : Nat) (x : Domain) : (s.setDomain n x).pending = s.pending := rfl
@[simp] theorem State.setDomain_now (s : State) (n : Nat) (x : Domain) : (s.setDomain n x).now = s.now := rfl
@[simp] theorem State.setDomain_reg (s : State) (n : Nat) (x : Domain) : (s.setDomain n x).reg = s.reg := rfl
@[simp] theorem State.setDomain_snap (s : State) (n : Nat) (x : Domain) : (s.setDomain n x).snap = s.snap := rfl
@[simp] theorem State.setDomain_out (s : State) (n : Nat) (x : Domain) : (s.setDomain n x).out = s.out := rfl
@[simp] theorem State.setDomain_free (s : State) (n : Nat) (x : Domain) : (s.setDomain n x).free = s.free := rfl
@[simp] theorem State.setDomain_ep (s : State) (n : Nat) (x : Domain) : (s.setDomain n x).ep = s.ep := rfl
@[simp] theorem State.setDomain_net (s : State) (n : Nat) (x : Domain) : (s.setDomain n x).net = s.net := rfl
@[simp] theorem State.setDomain_q (s : State) (n : Nat) (x : Domain) : (s.setDomain n x).q = s.q := rfl
@[simp] theorem State.setDomain_cm (s : State) (n : Nat) (x : Domain) : (s.setDomain n x).cm = s.cm := rfl
@[simp] theorem State.setDomain_gang (s : State) (n : Nat) (x : Domain) : (s.setDomain n x).gang = s.gang := rfl
@[simp] theorem State.setDomain_tier (s : State) (n : Nat) (x : Domain) : (s.setDomain n x).tier = s.tier := rfl
@[simp] theorem State.setDomain_mus (s : State) (n : Nat) (x : Domain) : (s.setDomain n x).mus = s.mus := rfl
@[simp] theorem State.setDomain_mem (s : State) (n : Nat) (x : Domain) : (s.setDomain n x).mem = s.mem := rfl
@[simp] theorem State.setDomain_pwr (s : State) (n : Nat) (x : Domain) : (s.setDomain n x).pwr = s.pwr := rfl
@[simp] theorem State.setDomain_mc (s : State) (n : Nat) (x : Domain) : (s.setDomain n x).mc = s.mc := rfl
@[simp] theorem State.setDomain_fl (s : State) (n : Nat) (x : Domain) : (s.setDomain n x).fl = s.fl := rfl
@[simp] theorem State.setDomain_par (s : State) (n : Nat) (x : Domain) : (s.setDomain n x).par = s.par := rfl
@[simp] theorem State.setDomain_acc (s : State) (n : Nat) (x : Domain) : (s.setDomain n x).acc = s.acc := rfl
@[simp] theorem State.setDomain_key (s : State) (n : Nat) (x : Domain) : (s.setDomain n x).key = s.key := rfl
@[simp] theorem State.setDomain_clk (s : State) (n : Nat) (x : Domain) : (s.setDomain n x).clk = s.clk := rfl
@[simp] theorem State.setDomain_cur (s : State) (n : Nat) (x : Domain) : (s.setDomain n x).cur = s.cur := rfl
@[simp] theorem State.setDomain_cen (s : State) (n : Nat) (x : Domain) : (s.setDomain n x).cen = s.cen := rfl
@[simp] theorem State.setDomain_cal (s : State) (n : Nat) (x : Domain) : (s.setDomain n x).cal = s.cal := rfl
@[simp] theorem State.setDomain_vit (s : State) (n : Nat) (x : Domain) : (s.setDomain n x).vit = s.vit := rfl
@[simp] theorem State.setDomain_smb (s : State) (n : Nat) (x : Domain) : (s.setDomain n x).smb = s.smb := rfl

@[simp] theorem State.setWindow_pending (s : State) (n : Nat) (x : Window) : (s.setWindow n x).pending = s.pending := rfl
@[simp] theorem State.setWindow_now (s : State) (n : Nat) (x : Window) : (s.setWindow n x).now = s.now := rfl
@[simp] theorem State.setWindow_reg (s : State) (n : Nat) (x : Window) : (s.setWindow n x).reg = s.reg := rfl
@[simp] theorem State.setWindow_snap (s : State) (n : Nat) (x : Window) : (s.setWindow n x).snap = s.snap := rfl
@[simp] theorem State.setWindow_out (s : State) (n : Nat) (x : Window) : (s.setWindow n x).out = s.out := rfl
@[simp] theorem State.setWindow_free (s : State) (n : Nat) (x : Window) : (s.setWindow n x).free = s.free := rfl
@[simp] theorem State.setWindow_ep (s : State) (n : Nat) (x : Window) : (s.setWindow n x).ep = s.ep := rfl
@[simp] theorem State.setWindow_net (s : State) (n : Nat) (x : Window) : (s.setWindow n x).net = s.net := rfl
@[simp] theorem State.setWindow_q (s : State) (n : Nat) (x : Window) : (s.setWindow n x).q = s.q := rfl
@[simp] theorem State.setWindow_cm (s : State) (n : Nat) (x : Window) : (s.setWindow n x).cm = s.cm := rfl
@[simp] theorem State.setWindow_gang (s : State) (n : Nat) (x : Window) : (s.setWindow n x).gang = s.gang := rfl
@[simp] theorem State.setWindow_tier (s : State) (n : Nat) (x : Window) : (s.setWindow n x).tier = s.tier := rfl
@[simp] theorem State.setWindow_mus (s : State) (n : Nat) (x : Window) : (s.setWindow n x).mus = s.mus := rfl
@[simp] theorem State.setWindow_mem (s : State) (n : Nat) (x : Window) : (s.setWindow n x).mem = s.mem := rfl
@[simp] theorem State.setWindow_pwr (s : State) (n : Nat) (x : Window) : (s.setWindow n x).pwr = s.pwr := rfl
@[simp] theorem State.setWindow_mc (s : State) (n : Nat) (x : Window) : (s.setWindow n x).mc = s.mc := rfl
@[simp] theorem State.setWindow_fl (s : State) (n : Nat) (x : Window) : (s.setWindow n x).fl = s.fl := rfl
@[simp] theorem State.setWindow_par (s : State) (n : Nat) (x : Window) : (s.setWindow n x).par = s.par := rfl
@[simp] theorem State.setWindow_acc (s : State) (n : Nat) (x : Window) : (s.setWindow n x).acc = s.acc := rfl
@[simp] theorem State.setWindow_key (s : State) (n : Nat) (x : Window) : (s.setWindow n x).key = s.key := rfl
@[simp] theorem State.setWindow_clk (s : State) (n : Nat) (x : Window) : (s.setWindow n x).clk = s.clk := rfl
@[simp] theorem State.setWindow_cur (s : State) (n : Nat) (x : Window) : (s.setWindow n x).cur = s.cur := rfl
@[simp] theorem State.setWindow_cen (s : State) (n : Nat) (x : Window) : (s.setWindow n x).cen = s.cen := rfl
@[simp] theorem State.setWindow_cal (s : State) (n : Nat) (x : Window) : (s.setWindow n x).cal = s.cal := rfl
@[simp] theorem State.setWindow_vit (s : State) (n : Nat) (x : Window) : (s.setWindow n x).vit = s.vit := rfl
@[simp] theorem State.setWindow_smb (s : State) (n : Nat) (x : Window) : (s.setWindow n x).smb = s.smb := rfl

@[simp] theorem State.setExtent_pending (s : State) (e : Nat) (x : Extent) : (s.setExtent e x).pending = s.pending := rfl
@[simp] theorem State.setExtent_now (s : State) (e : Nat) (x : Extent) : (s.setExtent e x).now = s.now := rfl
@[simp] theorem State.setExtent_reg (s : State) (e : Nat) (x : Extent) : (s.setExtent e x).reg = s.reg := rfl
@[simp] theorem State.setExtent_snap (s : State) (e : Nat) (x : Extent) : (s.setExtent e x).snap = s.snap := rfl
@[simp] theorem State.setExtent_out (s : State) (e : Nat) (x : Extent) : (s.setExtent e x).out = s.out := rfl
@[simp] theorem State.setExtent_free (s : State) (e : Nat) (x : Extent) : (s.setExtent e x).free = s.free := rfl
@[simp] theorem State.setExtent_ep (s : State) (e : Nat) (x : Extent) : (s.setExtent e x).ep = s.ep := rfl
@[simp] theorem State.setExtent_net (s : State) (e : Nat) (x : Extent) : (s.setExtent e x).net = s.net := rfl
@[simp] theorem State.setExtent_q (s : State) (e : Nat) (x : Extent) : (s.setExtent e x).q = s.q := rfl
@[simp] theorem State.setExtent_win (s : State) (e : Nat) (x : Extent) : (s.setExtent e x).win = s.win := rfl
@[simp] theorem State.setExtent_cm (s : State) (e : Nat) (x : Extent) : (s.setExtent e x).cm = s.cm := rfl
@[simp] theorem State.setExtent_gang (s : State) (e : Nat) (x : Extent) : (s.setExtent e x).gang = s.gang := rfl
@[simp] theorem State.setExtent_mus (s : State) (e : Nat) (x : Extent) : (s.setExtent e x).mus = s.mus := rfl
@[simp] theorem State.setExtent_mem (s : State) (e : Nat) (x : Extent) : (s.setExtent e x).mem = s.mem := rfl
@[simp] theorem State.setExtent_pwr (s : State) (e : Nat) (x : Extent) : (s.setExtent e x).pwr = s.pwr := rfl
@[simp] theorem State.setExtent_mc (s : State) (e : Nat) (x : Extent) : (s.setExtent e x).mc = s.mc := rfl
@[simp] theorem State.setExtent_fl (s : State) (e : Nat) (x : Extent) : (s.setExtent e x).fl = s.fl := rfl
@[simp] theorem State.setExtent_par (s : State) (e : Nat) (x : Extent) : (s.setExtent e x).par = s.par := rfl
@[simp] theorem State.setExtent_acc (s : State) (e : Nat) (x : Extent) : (s.setExtent e x).acc = s.acc := rfl
@[simp] theorem State.setExtent_key (s : State) (e : Nat) (x : Extent) : (s.setExtent e x).key = s.key := rfl
@[simp] theorem State.setExtent_clk (s : State) (e : Nat) (x : Extent) : (s.setExtent e x).clk = s.clk := rfl
@[simp] theorem State.setExtent_cur (s : State) (e : Nat) (x : Extent) : (s.setExtent e x).cur = s.cur := rfl
@[simp] theorem State.setExtent_cen (s : State) (e : Nat) (x : Extent) : (s.setExtent e x).cen = s.cen := rfl
@[simp] theorem State.setExtent_cal (s : State) (e : Nat) (x : Extent) : (s.setExtent e x).cal = s.cal := rfl
@[simp] theorem State.setExtent_vit (s : State) (e : Nat) (x : Extent) : (s.setExtent e x).vit = s.vit := rfl
@[simp] theorem State.setExtent_smb (s : State) (e : Nat) (x : Extent) : (s.setExtent e x).smb = s.smb := rfl

@[simp] theorem State.setMember_pending (s : State) (m : Nat) (x : MemberSt) : (s.setMember m x).pending = s.pending := rfl
@[simp] theorem State.setMember_now (s : State) (m : Nat) (x : MemberSt) : (s.setMember m x).now = s.now := rfl
@[simp] theorem State.setMember_reg (s : State) (m : Nat) (x : MemberSt) : (s.setMember m x).reg = s.reg := rfl
@[simp] theorem State.setMember_snap (s : State) (m : Nat) (x : MemberSt) : (s.setMember m x).snap = s.snap := rfl
@[simp] theorem State.setMember_out (s : State) (m : Nat) (x : MemberSt) : (s.setMember m x).out = s.out := rfl
@[simp] theorem State.setMember_free (s : State) (m : Nat) (x : MemberSt) : (s.setMember m x).free = s.free := rfl
@[simp] theorem State.setMember_ep (s : State) (m : Nat) (x : MemberSt) : (s.setMember m x).ep = s.ep := rfl
@[simp] theorem State.setMember_net (s : State) (m : Nat) (x : MemberSt) : (s.setMember m x).net = s.net := rfl
@[simp] theorem State.setMember_q (s : State) (m : Nat) (x : MemberSt) : (s.setMember m x).q = s.q := rfl
@[simp] theorem State.setMember_win (s : State) (m : Nat) (x : MemberSt) : (s.setMember m x).win = s.win := rfl
@[simp] theorem State.setMember_cm (s : State) (m : Nat) (x : MemberSt) : (s.setMember m x).cm = s.cm := rfl
@[simp] theorem State.setMember_gang (s : State) (m : Nat) (x : MemberSt) : (s.setMember m x).gang = s.gang := rfl
@[simp] theorem State.setMember_tier (s : State) (m : Nat) (x : MemberSt) : (s.setMember m x).tier = s.tier := rfl
@[simp] theorem State.setMember_mus (s : State) (m : Nat) (x : MemberSt) : (s.setMember m x).mus = s.mus := rfl
@[simp] theorem State.setMember_mem (s : State) (m : Nat) (x : MemberSt) : (s.setMember m x).mem = s.mem := rfl
@[simp] theorem State.setMember_pwr (s : State) (m : Nat) (x : MemberSt) : (s.setMember m x).pwr = s.pwr := rfl
@[simp] theorem State.setMember_fl (s : State) (m : Nat) (x : MemberSt) : (s.setMember m x).fl = s.fl := rfl
@[simp] theorem State.setMember_par (s : State) (m : Nat) (x : MemberSt) : (s.setMember m x).par = s.par := rfl
@[simp] theorem State.setMember_acc (s : State) (m : Nat) (x : MemberSt) : (s.setMember m x).acc = s.acc := rfl
@[simp] theorem State.setMember_key (s : State) (m : Nat) (x : MemberSt) : (s.setMember m x).key = s.key := rfl
@[simp] theorem State.setMember_clk (s : State) (m : Nat) (x : MemberSt) : (s.setMember m x).clk = s.clk := rfl
@[simp] theorem State.setMember_cur (s : State) (m : Nat) (x : MemberSt) : (s.setMember m x).cur = s.cur := rfl
@[simp] theorem State.setMember_cen (s : State) (m : Nat) (x : MemberSt) : (s.setMember m x).cen = s.cen := rfl
@[simp] theorem State.setMember_cal (s : State) (m : Nat) (x : MemberSt) : (s.setMember m x).cal = s.cal := rfl
@[simp] theorem State.setMember_vit (s : State) (m : Nat) (x : MemberSt) : (s.setMember m x).vit = s.vit := rfl
@[simp] theorem State.setMember_smb (s : State) (m : Nat) (x : MemberSt) : (s.setMember m x).smb = s.smb := rfl

@[simp] theorem State.writeMem_pending (s : State) (a : Nat) (bs : List Byte) : (s.writeMem a bs).pending = s.pending := rfl
@[simp] theorem State.writeMem_now (s : State) (a : Nat) (bs : List Byte) : (s.writeMem a bs).now = s.now := rfl
@[simp] theorem State.writeMem_reg (s : State) (a : Nat) (bs : List Byte) : (s.writeMem a bs).reg = s.reg := rfl
@[simp] theorem State.writeMem_snap (s : State) (a : Nat) (bs : List Byte) : (s.writeMem a bs).snap = s.snap := rfl
@[simp] theorem State.writeMem_out (s : State) (a : Nat) (bs : List Byte) : (s.writeMem a bs).out = s.out := rfl
@[simp] theorem State.writeMem_free (s : State) (a : Nat) (bs : List Byte) : (s.writeMem a bs).free = s.free := rfl
@[simp] theorem State.writeMem_ep (s : State) (a : Nat) (bs : List Byte) : (s.writeMem a bs).ep = s.ep := rfl
@[simp] theorem State.writeMem_net (s : State) (a : Nat) (bs : List Byte) : (s.writeMem a bs).net = s.net := rfl
@[simp] theorem State.writeMem_q (s : State) (a : Nat) (bs : List Byte) : (s.writeMem a bs).q = s.q := rfl
@[simp] theorem State.writeMem_win (s : State) (a : Nat) (bs : List Byte) : (s.writeMem a bs).win = s.win := rfl
@[simp] theorem State.writeMem_cm (s : State) (a : Nat) (bs : List Byte) : (s.writeMem a bs).cm = s.cm := rfl
@[simp] theorem State.writeMem_gang (s : State) (a : Nat) (bs : List Byte) : (s.writeMem a bs).gang = s.gang := rfl
@[simp] theorem State.writeMem_tier (s : State) (a : Nat) (bs : List Byte) : (s.writeMem a bs).tier = s.tier := rfl
@[simp] theorem State.writeMem_mus (s : State) (a : Nat) (bs : List Byte) : (s.writeMem a bs).mus = s.mus := rfl
@[simp] theorem State.writeMem_pwr (s : State) (a : Nat) (bs : List Byte) : (s.writeMem a bs).pwr = s.pwr := rfl
@[simp] theorem State.writeMem_mc (s : State) (a : Nat) (bs : List Byte) : (s.writeMem a bs).mc = s.mc := rfl
@[simp] theorem State.writeMem_fl (s : State) (a : Nat) (bs : List Byte) : (s.writeMem a bs).fl = s.fl := rfl
@[simp] theorem State.writeMem_par (s : State) (a : Nat) (bs : List Byte) : (s.writeMem a bs).par = s.par := rfl
@[simp] theorem State.writeMem_acc (s : State) (a : Nat) (bs : List Byte) : (s.writeMem a bs).acc = s.acc := rfl
@[simp] theorem State.writeMem_key (s : State) (a : Nat) (bs : List Byte) : (s.writeMem a bs).key = s.key := rfl
@[simp] theorem State.writeMem_clk (s : State) (a : Nat) (bs : List Byte) : (s.writeMem a bs).clk = s.clk := rfl
@[simp] theorem State.writeMem_cur (s : State) (a : Nat) (bs : List Byte) : (s.writeMem a bs).cur = s.cur := rfl
@[simp] theorem State.writeMem_cen (s : State) (a : Nat) (bs : List Byte) : (s.writeMem a bs).cen = s.cen := rfl
@[simp] theorem State.writeMem_cal (s : State) (a : Nat) (bs : List Byte) : (s.writeMem a bs).cal = s.cal := rfl
@[simp] theorem State.writeMem_vit (s : State) (a : Nat) (bs : List Byte) : (s.writeMem a bs).vit = s.vit := rfl
@[simp] theorem State.writeMem_smb (s : State) (a : Nat) (bs : List Byte) : (s.writeMem a bs).smb = s.smb := rfl

@[simp] theorem State.setEntry_pending (s : State) (e : RrtEntry) : (s.setEntry e).pending = s.pending := rfl
@[simp] theorem State.setEntry_now (s : State) (e : RrtEntry) : (s.setEntry e).now = s.now := rfl
@[simp] theorem State.setEntry_reg (s : State) (e : RrtEntry) : (s.setEntry e).reg = s.reg := rfl
@[simp] theorem State.setEntry_snap (s : State) (e : RrtEntry) : (s.setEntry e).snap = s.snap := rfl
@[simp] theorem State.setEntry_out (s : State) (e : RrtEntry) : (s.setEntry e).out = s.out := rfl
@[simp] theorem State.setEntry_free (s : State) (e : RrtEntry) : (s.setEntry e).free = s.free := rfl
@[simp] theorem State.setEntry_ep (s : State) (e : RrtEntry) : (s.setEntry e).ep = s.ep := rfl
@[simp] theorem State.setEntry_q (s : State) (e : RrtEntry) : (s.setEntry e).q = s.q := rfl
@[simp] theorem State.setEntry_win (s : State) (e : RrtEntry) : (s.setEntry e).win = s.win := rfl
@[simp] theorem State.setEntry_cm (s : State) (e : RrtEntry) : (s.setEntry e).cm = s.cm := rfl
@[simp] theorem State.setEntry_gang (s : State) (e : RrtEntry) : (s.setEntry e).gang = s.gang := rfl
@[simp] theorem State.setEntry_tier (s : State) (e : RrtEntry) : (s.setEntry e).tier = s.tier := rfl
@[simp] theorem State.setEntry_mus (s : State) (e : RrtEntry) : (s.setEntry e).mus = s.mus := rfl
@[simp] theorem State.setEntry_mem (s : State) (e : RrtEntry) : (s.setEntry e).mem = s.mem := rfl
@[simp] theorem State.setEntry_pwr (s : State) (e : RrtEntry) : (s.setEntry e).pwr = s.pwr := rfl
@[simp] theorem State.setEntry_mc (s : State) (e : RrtEntry) : (s.setEntry e).mc = s.mc := rfl
@[simp] theorem State.setEntry_fl (s : State) (e : RrtEntry) : (s.setEntry e).fl = s.fl := rfl
@[simp] theorem State.setEntry_par (s : State) (e : RrtEntry) : (s.setEntry e).par = s.par := rfl
@[simp] theorem State.setEntry_acc (s : State) (e : RrtEntry) : (s.setEntry e).acc = s.acc := rfl
@[simp] theorem State.setEntry_key (s : State) (e : RrtEntry) : (s.setEntry e).key = s.key := rfl
@[simp] theorem State.setEntry_clk (s : State) (e : RrtEntry) : (s.setEntry e).clk = s.clk := rfl
@[simp] theorem State.setEntry_cur (s : State) (e : RrtEntry) : (s.setEntry e).cur = s.cur := rfl
@[simp] theorem State.setEntry_cen (s : State) (e : RrtEntry) : (s.setEntry e).cen = s.cen := rfl
@[simp] theorem State.setEntry_cal (s : State) (e : RrtEntry) : (s.setEntry e).cal = s.cal := rfl
@[simp] theorem State.setEntry_vit (s : State) (e : RrtEntry) : (s.setEntry e).vit = s.vit := rfl
@[simp] theorem State.setEntry_smb (s : State) (e : RrtEntry) : (s.setEntry e).smb = s.smb := rfl

@[simp] theorem State.setEpochRec_pending (s : State) (n : Nat) (e : EpochRec) : (s.setEpochRec n e).pending = s.pending := rfl
@[simp] theorem State.setEpochRec_now (s : State) (n : Nat) (e : EpochRec) : (s.setEpochRec n e).now = s.now := rfl
@[simp] theorem State.setEpochRec_reg (s : State) (n : Nat) (e : EpochRec) : (s.setEpochRec n e).reg = s.reg := rfl
@[simp] theorem State.setEpochRec_snap (s : State) (n : Nat) (e : EpochRec) : (s.setEpochRec n e).snap = s.snap := rfl
@[simp] theorem State.setEpochRec_out (s : State) (n : Nat) (e : EpochRec) : (s.setEpochRec n e).out = s.out := rfl
@[simp] theorem State.setEpochRec_free (s : State) (n : Nat) (e : EpochRec) : (s.setEpochRec n e).free = s.free := rfl
@[simp] theorem State.setEpochRec_ep (s : State) (n : Nat) (e : EpochRec) : (s.setEpochRec n e).ep = s.ep := rfl
@[simp] theorem State.setEpochRec_net (s : State) (n : Nat) (e : EpochRec) : (s.setEpochRec n e).net = s.net := rfl
@[simp] theorem State.setEpochRec_q (s : State) (n : Nat) (e : EpochRec) : (s.setEpochRec n e).q = s.q := rfl
@[simp] theorem State.setEpochRec_win (s : State) (n : Nat) (e : EpochRec) : (s.setEpochRec n e).win = s.win := rfl
@[simp] theorem State.setEpochRec_gang (s : State) (n : Nat) (e : EpochRec) : (s.setEpochRec n e).gang = s.gang := rfl
@[simp] theorem State.setEpochRec_tier (s : State) (n : Nat) (e : EpochRec) : (s.setEpochRec n e).tier = s.tier := rfl
@[simp] theorem State.setEpochRec_mus (s : State) (n : Nat) (e : EpochRec) : (s.setEpochRec n e).mus = s.mus := rfl
@[simp] theorem State.setEpochRec_mem (s : State) (n : Nat) (e : EpochRec) : (s.setEpochRec n e).mem = s.mem := rfl
@[simp] theorem State.setEpochRec_pwr (s : State) (n : Nat) (e : EpochRec) : (s.setEpochRec n e).pwr = s.pwr := rfl
@[simp] theorem State.setEpochRec_mc (s : State) (n : Nat) (e : EpochRec) : (s.setEpochRec n e).mc = s.mc := rfl
@[simp] theorem State.setEpochRec_fl (s : State) (n : Nat) (e : EpochRec) : (s.setEpochRec n e).fl = s.fl := rfl
@[simp] theorem State.setEpochRec_par (s : State) (n : Nat) (e : EpochRec) : (s.setEpochRec n e).par = s.par := rfl
@[simp] theorem State.setEpochRec_acc (s : State) (n : Nat) (e : EpochRec) : (s.setEpochRec n e).acc = s.acc := rfl
@[simp] theorem State.setEpochRec_key (s : State) (n : Nat) (e : EpochRec) : (s.setEpochRec n e).key = s.key := rfl
@[simp] theorem State.setEpochRec_clk (s : State) (n : Nat) (e : EpochRec) : (s.setEpochRec n e).clk = s.clk := rfl
@[simp] theorem State.setEpochRec_cur (s : State) (n : Nat) (e : EpochRec) : (s.setEpochRec n e).cur = s.cur := rfl
@[simp] theorem State.setEpochRec_cen (s : State) (n : Nat) (e : EpochRec) : (s.setEpochRec n e).cen = s.cen := rfl
@[simp] theorem State.setEpochRec_cal (s : State) (n : Nat) (e : EpochRec) : (s.setEpochRec n e).cal = s.cal := rfl
@[simp] theorem State.setEpochRec_vit (s : State) (n : Nat) (e : EpochRec) : (s.setEpochRec n e).vit = s.vit := rfl
@[simp] theorem State.setEpochRec_smb (s : State) (n : Nat) (e : EpochRec) : (s.setEpochRec n e).smb = s.smb := rfl

@[simp] theorem State.postTo_pending (s : State) (a b c d : Nat) : (s.postTo a b c d).pending = s.pending := rfl
@[simp] theorem State.postTo_now (s : State) (a b c d : Nat) : (s.postTo a b c d).now = s.now := rfl
@[simp] theorem State.postTo_reg (s : State) (a b c d : Nat) : (s.postTo a b c d).reg = s.reg := rfl
@[simp] theorem State.postTo_snap (s : State) (a b c d : Nat) : (s.postTo a b c d).snap = s.snap := rfl
@[simp] theorem State.postTo_out (s : State) (a b c d : Nat) : (s.postTo a b c d).out = s.out := rfl
@[simp] theorem State.postTo_free (s : State) (a b c d : Nat) : (s.postTo a b c d).free = s.free := rfl
@[simp] theorem State.postTo_ep (s : State) (a b c d : Nat) : (s.postTo a b c d).ep = s.ep := rfl
@[simp] theorem State.postTo_net (s : State) (a b c d : Nat) : (s.postTo a b c d).net = s.net := rfl
@[simp] theorem State.postTo_win (s : State) (a b c d : Nat) : (s.postTo a b c d).win = s.win := rfl
@[simp] theorem State.postTo_cm (s : State) (a b c d : Nat) : (s.postTo a b c d).cm = s.cm := rfl
@[simp] theorem State.postTo_gang (s : State) (a b c d : Nat) : (s.postTo a b c d).gang = s.gang := rfl
@[simp] theorem State.postTo_tier (s : State) (a b c d : Nat) : (s.postTo a b c d).tier = s.tier := rfl
@[simp] theorem State.postTo_mus (s : State) (a b c d : Nat) : (s.postTo a b c d).mus = s.mus := rfl
@[simp] theorem State.postTo_mem (s : State) (a b c d : Nat) : (s.postTo a b c d).mem = s.mem := rfl
@[simp] theorem State.postTo_pwr (s : State) (a b c d : Nat) : (s.postTo a b c d).pwr = s.pwr := rfl
@[simp] theorem State.postTo_mc (s : State) (a b c d : Nat) : (s.postTo a b c d).mc = s.mc := rfl
@[simp] theorem State.postTo_fl (s : State) (a b c d : Nat) : (s.postTo a b c d).fl = s.fl := rfl
@[simp] theorem State.postTo_par (s : State) (a b c d : Nat) : (s.postTo a b c d).par = s.par := rfl
@[simp] theorem State.postTo_acc (s : State) (a b c d : Nat) : (s.postTo a b c d).acc = s.acc := rfl
@[simp] theorem State.postTo_key (s : State) (a b c d : Nat) : (s.postTo a b c d).key = s.key := rfl
@[simp] theorem State.postTo_clk (s : State) (a b c d : Nat) : (s.postTo a b c d).clk = s.clk := rfl
@[simp] theorem State.postTo_cur (s : State) (a b c d : Nat) : (s.postTo a b c d).cur = s.cur := rfl
@[simp] theorem State.postTo_cen (s : State) (a b c d : Nat) : (s.postTo a b c d).cen = s.cen := rfl
@[simp] theorem State.postTo_cal (s : State) (a b c d : Nat) : (s.postTo a b c d).cal = s.cal := rfl
@[simp] theorem State.postTo_vit (s : State) (a b c d : Nat) : (s.postTo a b c d).vit = s.vit := rfl
@[simp] theorem State.postTo_smb (s : State) (a b c d : Nat) : (s.postTo a b c d).smb = s.smb := rfl

@[simp] theorem State.msix_pending (s : State) : (s.msix).pending = s.pending := by
  unfold State.msix
  split <;> rfl
@[simp] theorem State.msix_now (s : State) : (s.msix).now = s.now := by
  unfold State.msix
  split <;> rfl
@[simp] theorem State.msix_snap (s : State) : (s.msix).snap = s.snap := by
  unfold State.msix
  split <;> rfl
@[simp] theorem State.msix_free (s : State) : (s.msix).free = s.free := by
  unfold State.msix
  split <;> rfl
@[simp] theorem State.msix_ep (s : State) : (s.msix).ep = s.ep := by
  unfold State.msix
  split <;> rfl
@[simp] theorem State.msix_net (s : State) : (s.msix).net = s.net := by
  unfold State.msix
  split <;> rfl
@[simp] theorem State.msix_q (s : State) : (s.msix).q = s.q := by
  unfold State.msix
  split <;> rfl
@[simp] theorem State.msix_win (s : State) : (s.msix).win = s.win := by
  unfold State.msix
  split <;> rfl
@[simp] theorem State.msix_cm (s : State) : (s.msix).cm = s.cm := by
  unfold State.msix
  split <;> rfl
@[simp] theorem State.msix_gang (s : State) : (s.msix).gang = s.gang := by
  unfold State.msix
  split <;> rfl
@[simp] theorem State.msix_tier (s : State) : (s.msix).tier = s.tier := by
  unfold State.msix
  split <;> rfl
@[simp] theorem State.msix_mus (s : State) : (s.msix).mus = s.mus := by
  unfold State.msix
  split <;> rfl
@[simp] theorem State.msix_mem (s : State) : (s.msix).mem = s.mem := by
  unfold State.msix
  split <;> rfl
@[simp] theorem State.msix_pwr (s : State) : (s.msix).pwr = s.pwr := by
  unfold State.msix
  split <;> rfl
@[simp] theorem State.msix_mc (s : State) : (s.msix).mc = s.mc := by
  unfold State.msix
  split <;> rfl
@[simp] theorem State.msix_fl (s : State) : (s.msix).fl = s.fl := by
  unfold State.msix
  split <;> rfl
@[simp] theorem State.msix_par (s : State) : (s.msix).par = s.par := by
  unfold State.msix
  split <;> rfl
@[simp] theorem State.msix_acc (s : State) : (s.msix).acc = s.acc := by
  unfold State.msix
  split <;> rfl
@[simp] theorem State.msix_key (s : State) : (s.msix).key = s.key := by
  unfold State.msix
  split <;> rfl
@[simp] theorem State.msix_clk (s : State) : (s.msix).clk = s.clk := by
  unfold State.msix
  split <;> rfl
@[simp] theorem State.msix_cur (s : State) : (s.msix).cur = s.cur := by
  unfold State.msix
  split <;> rfl
@[simp] theorem State.msix_cen (s : State) : (s.msix).cen = s.cen := by
  unfold State.msix
  split <;> rfl
@[simp] theorem State.msix_cal (s : State) : (s.msix).cal = s.cal := by
  unfold State.msix
  split <;> rfl
@[simp] theorem State.msix_vit (s : State) : (s.msix).vit = s.vit := by
  unfold State.msix
  split <;> rfl
@[simp] theorem State.msix_smb (s : State) : (s.msix).smb = s.smb := by
  unfold State.msix
  split <;> rfl

@[simp] theorem State.raise_pending (s : State) (p b : Nat) : (s.raise p b).pending = s.pending := by
  unfold State.raise State.irqEdge
  split <;> simp
@[simp] theorem State.raise_now (s : State) (p b : Nat) : (s.raise p b).now = s.now := by
  unfold State.raise State.irqEdge
  split <;> simp
@[simp] theorem State.raise_snap (s : State) (p b : Nat) : (s.raise p b).snap = s.snap := by
  unfold State.raise State.irqEdge
  split <;> simp
@[simp] theorem State.raise_free (s : State) (p b : Nat) : (s.raise p b).free = s.free := by
  unfold State.raise State.irqEdge
  split <;> simp
@[simp] theorem State.raise_ep (s : State) (p b : Nat) : (s.raise p b).ep = s.ep := by
  unfold State.raise State.irqEdge
  split <;> simp
@[simp] theorem State.raise_net (s : State) (p b : Nat) : (s.raise p b).net = s.net := by
  unfold State.raise State.irqEdge
  split <;> simp
@[simp] theorem State.raise_q (s : State) (p b : Nat) : (s.raise p b).q = s.q := by
  unfold State.raise State.irqEdge
  split <;> simp
@[simp] theorem State.raise_win (s : State) (p b : Nat) : (s.raise p b).win = s.win := by
  unfold State.raise State.irqEdge
  split <;> simp
@[simp] theorem State.raise_cm (s : State) (p b : Nat) : (s.raise p b).cm = s.cm := by
  unfold State.raise State.irqEdge
  split <;> simp
@[simp] theorem State.raise_gang (s : State) (p b : Nat) : (s.raise p b).gang = s.gang := by
  unfold State.raise State.irqEdge
  split <;> simp
@[simp] theorem State.raise_tier (s : State) (p b : Nat) : (s.raise p b).tier = s.tier := by
  unfold State.raise State.irqEdge
  split <;> simp
@[simp] theorem State.raise_mus (s : State) (p b : Nat) : (s.raise p b).mus = s.mus := by
  unfold State.raise State.irqEdge
  split <;> simp
@[simp] theorem State.raise_mem (s : State) (p b : Nat) : (s.raise p b).mem = s.mem := by
  unfold State.raise State.irqEdge
  split <;> simp
@[simp] theorem State.raise_pwr (s : State) (p b : Nat) : (s.raise p b).pwr = s.pwr := by
  unfold State.raise State.irqEdge
  split <;> simp
@[simp] theorem State.raise_mc (s : State) (p b : Nat) : (s.raise p b).mc = s.mc := by
  unfold State.raise State.irqEdge
  split <;> simp
@[simp] theorem State.raise_fl (s : State) (p b : Nat) : (s.raise p b).fl = s.fl := by
  unfold State.raise State.irqEdge
  split <;> simp
@[simp] theorem State.raise_par (s : State) (p b : Nat) : (s.raise p b).par = s.par := by
  unfold State.raise State.irqEdge
  split <;> simp
@[simp] theorem State.raise_acc (s : State) (p b : Nat) : (s.raise p b).acc = s.acc := by
  unfold State.raise State.irqEdge
  split <;> simp
@[simp] theorem State.raise_key (s : State) (p b : Nat) : (s.raise p b).key = s.key := by
  unfold State.raise State.irqEdge
  split <;> simp
@[simp] theorem State.raise_clk (s : State) (p b : Nat) : (s.raise p b).clk = s.clk := by
  unfold State.raise State.irqEdge
  split <;> simp
@[simp] theorem State.raise_cur (s : State) (p b : Nat) : (s.raise p b).cur = s.cur := by
  unfold State.raise State.irqEdge
  split <;> simp
@[simp] theorem State.raise_cen (s : State) (p b : Nat) : (s.raise p b).cen = s.cen := by
  unfold State.raise State.irqEdge
  split <;> simp
@[simp] theorem State.raise_cal (s : State) (p b : Nat) : (s.raise p b).cal = s.cal := by
  unfold State.raise State.irqEdge
  split <;> simp
@[simp] theorem State.raise_vit (s : State) (p b : Nat) : (s.raise p b).vit = s.vit := by
  unfold State.raise State.irqEdge
  split <;> simp
@[simp] theorem State.raise_smb (s : State) (p b : Nat) : (s.raise p b).smb = s.smb := by
  unfold State.raise State.irqEdge
  split <;> simp

@[simp] theorem State.raiseIf_pending (s : State) (c : Bool) (p b : Nat) : (s.raiseIf c p b).pending = s.pending := by
  cases c <;> simp [State.raiseIf]
@[simp] theorem State.raiseIf_now (s : State) (c : Bool) (p b : Nat) : (s.raiseIf c p b).now = s.now := by
  cases c <;> simp [State.raiseIf]
@[simp] theorem State.raiseIf_snap (s : State) (c : Bool) (p b : Nat) : (s.raiseIf c p b).snap = s.snap := by
  cases c <;> simp [State.raiseIf]
@[simp] theorem State.raiseIf_free (s : State) (c : Bool) (p b : Nat) : (s.raiseIf c p b).free = s.free := by
  cases c <;> simp [State.raiseIf]
@[simp] theorem State.raiseIf_ep (s : State) (c : Bool) (p b : Nat) : (s.raiseIf c p b).ep = s.ep := by
  cases c <;> simp [State.raiseIf]
@[simp] theorem State.raiseIf_net (s : State) (c : Bool) (p b : Nat) : (s.raiseIf c p b).net = s.net := by
  cases c <;> simp [State.raiseIf]
@[simp] theorem State.raiseIf_q (s : State) (c : Bool) (p b : Nat) : (s.raiseIf c p b).q = s.q := by
  cases c <;> simp [State.raiseIf]
@[simp] theorem State.raiseIf_win (s : State) (c : Bool) (p b : Nat) : (s.raiseIf c p b).win = s.win := by
  cases c <;> simp [State.raiseIf]
@[simp] theorem State.raiseIf_cm (s : State) (c : Bool) (p b : Nat) : (s.raiseIf c p b).cm = s.cm := by
  cases c <;> simp [State.raiseIf]
@[simp] theorem State.raiseIf_gang (s : State) (c : Bool) (p b : Nat) : (s.raiseIf c p b).gang = s.gang := by
  cases c <;> simp [State.raiseIf]
@[simp] theorem State.raiseIf_tier (s : State) (c : Bool) (p b : Nat) : (s.raiseIf c p b).tier = s.tier := by
  cases c <;> simp [State.raiseIf]
@[simp] theorem State.raiseIf_mus (s : State) (c : Bool) (p b : Nat) : (s.raiseIf c p b).mus = s.mus := by
  cases c <;> simp [State.raiseIf]
@[simp] theorem State.raiseIf_mem (s : State) (c : Bool) (p b : Nat) : (s.raiseIf c p b).mem = s.mem := by
  cases c <;> simp [State.raiseIf]
@[simp] theorem State.raiseIf_pwr (s : State) (c : Bool) (p b : Nat) : (s.raiseIf c p b).pwr = s.pwr := by
  cases c <;> simp [State.raiseIf]
@[simp] theorem State.raiseIf_mc (s : State) (c : Bool) (p b : Nat) : (s.raiseIf c p b).mc = s.mc := by
  cases c <;> simp [State.raiseIf]
@[simp] theorem State.raiseIf_fl (s : State) (c : Bool) (p b : Nat) : (s.raiseIf c p b).fl = s.fl := by
  cases c <;> simp [State.raiseIf]
@[simp] theorem State.raiseIf_par (s : State) (c : Bool) (p b : Nat) : (s.raiseIf c p b).par = s.par := by
  cases c <;> simp [State.raiseIf]
@[simp] theorem State.raiseIf_acc (s : State) (c : Bool) (p b : Nat) : (s.raiseIf c p b).acc = s.acc := by
  cases c <;> simp [State.raiseIf]
@[simp] theorem State.raiseIf_key (s : State) (c : Bool) (p b : Nat) : (s.raiseIf c p b).key = s.key := by
  cases c <;> simp [State.raiseIf]
@[simp] theorem State.raiseIf_clk (s : State) (c : Bool) (p b : Nat) : (s.raiseIf c p b).clk = s.clk := by
  cases c <;> simp [State.raiseIf]
@[simp] theorem State.raiseIf_cur (s : State) (c : Bool) (p b : Nat) : (s.raiseIf c p b).cur = s.cur := by
  cases c <;> simp [State.raiseIf]
@[simp] theorem State.raiseIf_cen (s : State) (c : Bool) (p b : Nat) : (s.raiseIf c p b).cen = s.cen := by
  cases c <;> simp [State.raiseIf]
@[simp] theorem State.raiseIf_cal (s : State) (c : Bool) (p b : Nat) : (s.raiseIf c p b).cal = s.cal := by
  cases c <;> simp [State.raiseIf]
@[simp] theorem State.raiseIf_vit (s : State) (c : Bool) (p b : Nat) : (s.raiseIf c p b).vit = s.vit := by
  cases c <;> simp [State.raiseIf]
@[simp] theorem State.raiseIf_smb (s : State) (c : Bool) (p b : Nat) : (s.raiseIf c p b).smb = s.smb := by
  cases c <;> simp [State.raiseIf]

@[simp] theorem State.checkService_pending (s : State) : s.checkService.pending = s.pending := by
  unfold State.checkService
  split <;> simp
@[simp] theorem State.checkService_now (s : State) : s.checkService.now = s.now := by
  unfold State.checkService
  split <;> simp
@[simp] theorem State.checkService_snap (s : State) : s.checkService.snap = s.snap := by
  unfold State.checkService
  split <;> simp
@[simp] theorem State.checkService_free (s : State) : s.checkService.free = s.free := by
  unfold State.checkService
  split <;> simp
@[simp] theorem State.checkService_ep (s : State) : s.checkService.ep = s.ep := by
  unfold State.checkService
  split <;> simp
@[simp] theorem State.checkService_net (s : State) : s.checkService.net = s.net := by
  unfold State.checkService
  split <;> simp
@[simp] theorem State.checkService_q (s : State) : s.checkService.q = s.q := by
  unfold State.checkService
  split <;> simp
@[simp] theorem State.checkService_win (s : State) : s.checkService.win = s.win := by
  unfold State.checkService
  split <;> simp
@[simp] theorem State.checkService_cm (s : State) : s.checkService.cm = s.cm := by
  unfold State.checkService
  split <;> simp
@[simp] theorem State.checkService_gang (s : State) : s.checkService.gang = s.gang := by
  unfold State.checkService
  split <;> simp
@[simp] theorem State.checkService_tier (s : State) : s.checkService.tier = s.tier := by
  unfold State.checkService
  split <;> simp
@[simp] theorem State.checkService_mus (s : State) : s.checkService.mus = s.mus := by
  unfold State.checkService
  split <;> simp
@[simp] theorem State.checkService_mem (s : State) : s.checkService.mem = s.mem := by
  unfold State.checkService
  split <;> simp
@[simp] theorem State.checkService_pwr (s : State) : s.checkService.pwr = s.pwr := by
  unfold State.checkService
  split <;> simp
@[simp] theorem State.checkService_mc (s : State) : s.checkService.mc = s.mc := by
  unfold State.checkService
  split <;> simp
@[simp] theorem State.checkService_fl (s : State) : s.checkService.fl = s.fl := by
  unfold State.checkService
  split <;> simp
@[simp] theorem State.checkService_par (s : State) : s.checkService.par = s.par := by
  unfold State.checkService
  split <;> simp
@[simp] theorem State.checkService_acc (s : State) : s.checkService.acc = s.acc := by
  unfold State.checkService
  split <;> simp
@[simp] theorem State.checkService_key (s : State) : s.checkService.key = s.key := by
  unfold State.checkService
  split <;> simp
@[simp] theorem State.checkService_clk (s : State) : s.checkService.clk = s.clk := by
  unfold State.checkService
  split <;> simp
@[simp] theorem State.checkService_cur (s : State) : s.checkService.cur = s.cur := by
  unfold State.checkService
  split <;> simp
@[simp] theorem State.checkService_cen (s : State) : s.checkService.cen = s.cen := by
  unfold State.checkService
  split <;> simp
@[simp] theorem State.checkService_cal (s : State) : s.checkService.cal = s.cal := by
  unfold State.checkService
  split <;> simp
@[simp] theorem State.checkService_vit (s : State) : s.checkService.vit = s.vit := by
  unfold State.checkService
  split <;> simp
@[simp] theorem State.checkService_smb (s : State) : s.checkService.smb = s.smb := by
  unfold State.checkService
  split <;> simp

/-! ## Sending what the links hold -/

/-- What is kept by all that sending the frames of the links does is kept by it: the frames' bookkeeping, the channel's, what is
sent, and counters of `linkFields` and events of channel AC_0 (R152, R170, R300). -/
theorem State.flushLinks_induct {P : State → Prop}
    (cm : ∀ u q n k, P u → P { u with cm := { u.cm with txq := q, txSeq := n, kept := k } })
    (gang : ∀ u q n, P u → P { u with gang := { u.gang with txq := q, txSeq := n } })
    (key : ∀ u c n, P u → P { u with key := { u.key with chan := c, drbgReqs := n } })
    (send : ∀ u o, P u → P (u.send o)) (inc : ∀ u f n, f ∈ linkFields → P u → P (u.inc f n))
    (raise : ∀ u b, P u → P (u.raise (CCH.page 16) b)) {s : State} (h : P s) : P s.flushLinks := by
  have chan : ∀ u n p ctx, P u → P (u.channelMsg 16 n p (ctx := ctx)) := by
    intro u n p ctx hu
    unfold State.channelMsg
    split
    · exact hu
    · rename_i c hc
      obtain rfl : c = 16 := by
        simp only [State.channelOf, chanClass, show ¬ (16 < 8) by decide, if_false, show ¬ (16 < 16) by decide,
          show (16 < 18) by decide, if_true, beq_self_eq_true] at hc
        split at hc <;> simp_all
      have start : ∀ v j, P v → P (v.chanStart 16 j) := by
        intro v j hv
        unfold State.chanStart State.raiseIf
        split
        rename_i x susp full _
        cases susp <;> cases full <;>
          simp only [if_true, Bool.false_eq_true, if_false] <;>
          repeat first | exact key _ _ _ hv | apply raise | apply inc _ _ _ (by simp [linkFields])
      simp only [Bool.false_eq_true, if_false]
      exact inc _ _ _ (by simp [linkFields]) (inc _ _ _ (by simp [linkFields]) (start _ _ (key _ _ _ hu)))
  have adit : ∀ u f, P u → P (u.txAdit f) := by
    intro u f hu
    simp only [State.txAdit]
    split
    · exact cm _ _ _ _ hu
    · rename_i x _
      refine send _ _ (inc _ _ _ (by simp [linkFields]) (cm _ _ _ _ ?_))
      cases x with
      | none => exact hu
      | some _ => exact chan _ _ _ _ hu
  have drift : ∀ u j f, j < 3 → P u → P (u.txDrift j f) := by
    intro u j f hj hu
    refine send _ _ (inc _ _ _ ?_ (gang _ _ _ hu))
    match j, hj with
    | 0, _ | 1, _ | 2, _ => simp [linkFields]
  have fold : ∀ {α : Type} (l : List α) (g : State → α → State), (∀ u a, a ∈ l → P u → P (g u a)) → ∀ u, P u → P (l.foldl g u) := by
    intro α l g
    induction l with
    | nil => exact fun _ _ h => h
    | cons a l ih =>
      exact fun hg u hu => ih (fun v b hb => hg v b (List.mem_cons_of_mem _ hb)) _ (hg u a List.mem_cons_self hu)
  have h1 : P { s with cm := { s.cm with txq := [] }, gang := { s.gang with txq := [] } } :=
    gang { s with cm := { s.cm with txq := [] } } _ _ (cm s _ _ _ h)
  simp only [State.flushLinks]
  refine fold _ _ (fun u j hj hu => ?_) _ ?_
  · split
    · exact fold _ _ (fun v f _ hv => drift v j f (List.mem_range.1 hj) hv) _ hu
    · exact hu
  · split
    · exact fold _ _ (fun v f _ hv => adit v f hv) _ h1
    · exact h1

/-- With nothing waiting for the links, there is nothing to send. -/
theorem State.flushLinks_quiet {s : State} (h1 : s.cm.txq = []) (h2 : s.gang.txq = []) : s.flushLinks = s := by
  have e : { s with cm := { s.cm with txq := [] }, gang := { s.gang with txq := [] } } = s := by
    rw [← h1, ← h2]
  have l : mgetD s.gang.txq = fun _ d => d := by
    rw [h2]; rfl
  have z : byPrio [] = [] := rfl
  simp only [State.flushLinks, e, h1, l, z, List.foldl_nil, ite_self]
  exact List.foldl_fixed _


/-- What none of that reads is the same after it. -/
theorem State.flushLinks_keeps {α : Type} (p : State → α)
    (cm : ∀ u q n k, p { u with cm := { u.cm with txq := q, txSeq := n, kept := k } } = p u)
    (gang : ∀ u q n, p { u with gang := { u.gang with txq := q, txSeq := n } } = p u)
    (key : ∀ u c n, p { u with key := { u.key with chan := c, drbgReqs := n } } = p u) (send : ∀ u o, p (u.send o) = p u)
    (inc : ∀ u f n, f ∈ linkFields → p (u.inc f n) = p u) (raise : ∀ u b, p (u.raise (CCH.page 16) b) = p u)
    (s : State) : p s.flushLinks = p s :=
  State.flushLinks_induct (P := fun u => p u = p s) (fun _ _ _ _ h => (cm _ _ _ _).trans h) (fun _ _ _ h => (gang _ _ _).trans h)
    (fun _ _ _ h => (key _ _ _).trans h) (fun _ _ h => (send _ _).trans h) (fun _ _ _ hf h => (inc _ _ _ hf).trans h)
    (fun _ _ h => (raise _ _).trans h) rfl

@[simp] theorem State.flushLinks_pending (s : State) : s.flushLinks.pending = s.pending := by
  apply State.flushLinks_keeps (fun u => u.pending) <;> intros <;> simp
@[simp] theorem State.flushLinks_now (s : State) : s.flushLinks.now = s.now := by
  apply State.flushLinks_keeps (fun u => u.now) <;> intros <;> simp
@[simp] theorem State.flushLinks_snap (s : State) : s.flushLinks.snap = s.snap := by
  apply State.flushLinks_keeps (fun u => u.snap) <;> intros <;> simp
@[simp] theorem State.flushLinks_free (s : State) : s.flushLinks.free = s.free := by
  apply State.flushLinks_keeps (fun u => u.free) <;> intros <;> simp
@[simp] theorem State.flushLinks_ep (s : State) : s.flushLinks.ep = s.ep := by
  apply State.flushLinks_keeps (fun u => u.ep) <;> intros <;> simp
@[simp] theorem State.flushLinks_net (s : State) : s.flushLinks.net = s.net := by
  apply State.flushLinks_keeps (fun u => u.net) <;> intros <;> simp
@[simp] theorem State.flushLinks_q (s : State) : s.flushLinks.q = s.q := by
  apply State.flushLinks_keeps (fun u => u.q) <;> intros <;> simp
@[simp] theorem State.flushLinks_win (s : State) : s.flushLinks.win = s.win := by
  apply State.flushLinks_keeps (fun u => u.win) <;> intros <;> simp
@[simp] theorem State.flushLinks_tier (s : State) : s.flushLinks.tier = s.tier := by
  apply State.flushLinks_keeps (fun u => u.tier) <;> intros <;> simp
@[simp] theorem State.flushLinks_mus (s : State) : s.flushLinks.mus = s.mus := by
  apply State.flushLinks_keeps (fun u => u.mus) <;> intros <;> simp
@[simp] theorem State.flushLinks_mem (s : State) : s.flushLinks.mem = s.mem := by
  apply State.flushLinks_keeps (fun u => u.mem) <;> intros <;> simp
@[simp] theorem State.flushLinks_pwr (s : State) : s.flushLinks.pwr = s.pwr := by
  apply State.flushLinks_keeps (fun u => u.pwr) <;> intros <;> simp
@[simp] theorem State.flushLinks_mc (s : State) : s.flushLinks.mc = s.mc := by
  apply State.flushLinks_keeps (fun u => u.mc) <;> intros <;> simp
@[simp] theorem State.flushLinks_fl (s : State) : s.flushLinks.fl = s.fl := by
  apply State.flushLinks_keeps (fun u => u.fl) <;> intros <;> simp
@[simp] theorem State.flushLinks_par (s : State) : s.flushLinks.par = s.par := by
  apply State.flushLinks_keeps (fun u => u.par) <;> intros <;> simp
@[simp] theorem State.flushLinks_acc (s : State) : s.flushLinks.acc = s.acc := by
  apply State.flushLinks_keeps (fun u => u.acc) <;> intros <;> simp
@[simp] theorem State.flushLinks_clk (s : State) : s.flushLinks.clk = s.clk := by
  apply State.flushLinks_keeps (fun u => u.clk) <;> intros <;> simp
@[simp] theorem State.flushLinks_cur (s : State) : s.flushLinks.cur = s.cur := by
  apply State.flushLinks_keeps (fun u => u.cur) <;> intros <;> simp
@[simp] theorem State.flushLinks_cen (s : State) : s.flushLinks.cen = s.cen := by
  apply State.flushLinks_keeps (fun u => u.cen) <;> intros <;> simp
@[simp] theorem State.flushLinks_cal (s : State) : s.flushLinks.cal = s.cal := by
  apply State.flushLinks_keeps (fun u => u.cal) <;> intros <;> simp
@[simp] theorem State.flushLinks_vit (s : State) : s.flushLinks.vit = s.vit := by
  apply State.flushLinks_keeps (fun u => u.vit) <;> intros <;> simp
@[simp] theorem State.flushLinks_smb (s : State) : s.flushLinks.smb = s.smb := by
  apply State.flushLinks_keeps (fun u => u.smb) <;> intros <;> simp

/-- The commit unit, but for the frames of the adit link. -/
@[simp] theorem State.settled_sameCommit (s t : State) : t.sameCommit (s.settled t) := by
  have h := State.flushLinks_keeps (fun u => { u.cm with txq := t.cm.txq, txSeq := t.cm.txSeq, kept := t.cm.kept })
    (fun _ _ _ _ => rfl) (fun _ _ _ => rfl) (fun _ _ _ => rfl) (fun _ _ => rfl) (fun _ _ _ _ => rfl) (fun _ _ => by simp) t
  simpa only [State.sameCommit, State.settled, State.checkService_cm] using h

/-- The key unit, but for the messages of the cipher channels. -/
@[simp] theorem State.settled_sameKeys (s t : State) : t.sameKeys (s.settled t) := by
  have h := State.flushLinks_keeps (fun u => { u.key with chan := t.key.chan, drbgReqs := t.key.drbgReqs })
    (fun _ _ _ _ => rfl) (fun _ _ _ => rfl) (fun _ _ _ => rfl) (fun _ _ => rfl) (fun _ _ _ _ => rfl) (fun _ _ => by simp) t
  simpa only [State.sameKeys, State.settled, State.checkService_key] using h

/-- The gang unit, but for the frames of the drift links. -/
theorem State.settled_gang (s t : State) :
    { (s.settled t).gang with txq := t.gang.txq, txSeq := t.gang.txSeq } = t.gang := by
  have h := State.flushLinks_keeps (fun u => { u.gang with txq := t.gang.txq, txSeq := t.gang.txSeq })
    (fun _ _ _ _ => rfl) (fun _ _ _ => rfl) (fun _ _ _ => rfl) (fun _ _ => rfl) (fun _ _ _ _ => rfl) (fun _ _ => by simp) t
  simpa only [State.settled, State.checkService_gang] using h


@[simp] theorem State.settled_pending (s t : State) : (s.settled t).pending = s.pending := by
  simp only [State.settled]
@[simp] theorem State.settled_now (s t : State) : (s.settled t).now = t.now := by
  simp only [State.settled, State.checkService_now, State.flushLinks_now]
@[simp] theorem State.settled_snap (s t : State) : (s.settled t).snap = t.snap := by
  simp only [State.settled, State.checkService_snap, State.flushLinks_snap]
@[simp] theorem State.settled_free (s t : State) : (s.settled t).free = t.free := by
  simp only [State.settled, State.checkService_free, State.flushLinks_free]
@[simp] theorem State.settled_ep (s t : State) : (s.settled t).ep = t.ep := by
  simp only [State.settled, State.checkService_ep, State.flushLinks_ep]
@[simp] theorem State.settled_net (s t : State) : (s.settled t).net = t.net := by
  simp only [State.settled, State.checkService_net, State.flushLinks_net]
@[simp] theorem State.settled_q (s t : State) : (s.settled t).q = t.q := by
  simp only [State.settled, State.checkService_q, State.flushLinks_q]
@[simp] theorem State.settled_win (s t : State) : (s.settled t).win = t.win := by
  simp only [State.settled, State.checkService_win, State.flushLinks_win]
@[simp] theorem State.settled_tier (s t : State) : (s.settled t).tier = t.tier := by
  simp only [State.settled, State.checkService_tier, State.flushLinks_tier]
@[simp] theorem State.settled_mus (s t : State) : (s.settled t).mus = t.mus := by
  simp only [State.settled, State.checkService_mus, State.flushLinks_mus]
@[simp] theorem State.settled_mem (s t : State) : (s.settled t).mem = t.mem := by
  simp only [State.settled, State.checkService_mem, State.flushLinks_mem]
@[simp] theorem State.settled_pwr (s t : State) : (s.settled t).pwr = t.pwr := by
  simp only [State.settled, State.checkService_pwr, State.flushLinks_pwr]
@[simp] theorem State.settled_mc (s t : State) : (s.settled t).mc = t.mc := by
  simp only [State.settled, State.checkService_mc, State.flushLinks_mc]
@[simp] theorem State.settled_fl (s t : State) : (s.settled t).fl = t.fl := by
  simp only [State.settled, State.checkService_fl, State.flushLinks_fl]
@[simp] theorem State.settled_par (s t : State) : (s.settled t).par = t.par := by
  simp only [State.settled, State.checkService_par, State.flushLinks_par]
@[simp] theorem State.settled_acc (s t : State) : (s.settled t).acc = t.acc := by
  simp only [State.settled, State.checkService_acc, State.flushLinks_acc]
@[simp] theorem State.settled_clk (s t : State) : (s.settled t).clk = t.clk := by
  simp only [State.settled, State.checkService_clk, State.flushLinks_clk]
@[simp] theorem State.settled_cur (s t : State) : (s.settled t).cur = t.cur := by
  simp only [State.settled, State.checkService_cur, State.flushLinks_cur]
@[simp] theorem State.settled_cen (s t : State) : (s.settled t).cen = t.cen := by
  simp only [State.settled, State.checkService_cen, State.flushLinks_cen]
@[simp] theorem State.settled_cal (s t : State) : (s.settled t).cal = t.cal := by
  simp only [State.settled, State.checkService_cal, State.flushLinks_cal]
@[simp] theorem State.settled_vit (s t : State) : (s.settled t).vit = t.vit := by
  simp only [State.settled, State.checkService_vit, State.flushLinks_vit]
@[simp] theorem State.settled_smb (s t : State) : (s.settled t).smb = t.smb := by
  simp only [State.settled, State.checkService_smb, State.flushLinks_smb]

/-- A command that gives the links nothing to send. -/
theorem State.settled_quiet (s : State) {t : State} (h1 : t.cm.txq = []) (h2 : t.gang.txq = []) :
    s.settled t = { t.checkService with pending := s.pending } := by
  rw [State.settled, State.flushLinks_quiet h1 h2]


/-! ## Registers -/

/-- A field reads as the value put into it, cut to its width. -/
@[simp] theorem State.get_put_self (s : State) (f : Fld) (v : Nat) : (s.put f v).get f = v % 2 ^ f.width := by
  simp [State.put, State.get]

/-- A put leaves every field of another key. -/
theorem State.get_put_ne (s : State) {f g : Fld} (v : Nat) (h : g.key ≠ f.key) : (s.put f v).get g = s.get g := by
  simpa [State.put, State.get] using mgetD_mset_ne f.rst g.rst s.reg _ h

/-- A state with the same registers reads the same. -/
theorem State.get_of_reg {s t : State} (h : s.reg = t.reg) (f : Fld) : s.get f = t.get f := by
  simp [State.get, h]

@[simp] theorem State.send_get (s : State) (o : Out) (f : Fld) : (s.send o).get f = s.get f := rfl
@[simp] theorem State.at_get (s : State) (t : Nat) (f : Fld) : (s.at t).get f = s.get f := rfl
@[simp] theorem State.setQueue_get (s : State) (n : Nat) (x : Queue) (f : Fld) : (s.setQueue n x).get f = s.get f := rfl
@[simp] theorem State.setDomain_get (s : State) (n : Nat) (x : Domain) (f : Fld) : (s.setDomain n x).get f = s.get f := rfl
@[simp] theorem State.setWindow_get (s : State) (n : Nat) (x : Window) (f : Fld) : (s.setWindow n x).get f = s.get f := rfl
@[simp] theorem State.setExtent_get (s : State) (e : Nat) (x : Extent) (f : Fld) : (s.setExtent e x).get f = s.get f := rfl
@[simp] theorem State.setMember_get (s : State) (m : Nat) (x : MemberSt) (f : Fld) : (s.setMember m x).get f = s.get f := rfl
@[simp] theorem State.writeMem_get (s : State) (a : Nat) (bs : List Byte) (f : Fld) : (s.writeMem a bs).get f = s.get f := rfl
@[simp] theorem State.setEntry_get (s : State) (e : RrtEntry) (f : Fld) : (s.setEntry e).get f = s.get f := rfl
@[simp] theorem State.setEpochRec_get (s : State) (n : Nat) (e : EpochRec) (f : Fld) : (s.setEpochRec n e).get f = s.get f := rfl
@[simp] theorem State.postTo_get (s : State) (a b c d : Nat) (f : Fld) : (s.postTo a b c d).get f = s.get f := rfl

/-- A count up leaves every other field. -/
theorem State.get_inc_ne (s : State) {f g : Fld} (n : Nat) (h : g.key ≠ f.key) : (s.inc f n).get g = s.get g :=
  s.get_put_ne _ h

/-- A counter after a count up: it stops at its highest value. -/
theorem State.get_inc_self (s : State) (f : Fld) (n : Nat) :
    (s.inc f n).get f = min (2 ^ f.width - 1) (s.get f + n) := by
  have := Nat.two_pow_pos f.width
  simp only [State.inc, State.get_put_self]
  exact Nat.mod_eq_of_lt (by omega)

/-- A field with one bit written reads with that bit written. -/
theorem State.get_setb_ne (s : State) {f g : Fld} (i : Nat) (b : Bool) (h : g.key ≠ f.key) :
    (s.setb f i b).get g = s.get g := s.get_put_ne _ h

/-- A one-bit field put to a truth value reads as it. -/
@[simp] theorem State.flag_put_one (s : State) (f : Fld) (h : 0 < f.width) : (s.put f 1).flag f = true := by
  have : 1 < 2 ^ f.width := Nat.one_lt_two_pow (by omega)
  simp [State.flag, Nat.mod_eq_of_lt this]

@[simp] theorem State.flag_put_zero (s : State) (f : Fld) : (s.put f 0).flag f = false := by simp [State.flag]

/-- Sending an MSI-X message changes no register but its pending bit. -/
theorem State.get_msix (s : State) {f : Fld} (h : f.key ≠ PCE.MSIX_PBA.key) : s.msix.get f = s.get f := by
  unfold State.msix
  split
  · simp
  · exact s.get_put_ne _ h

/-- Raising an event leaves every field but the page's EVT_RAW and the MSI-X pending bit. -/
theorem State.get_raise (s : State) (p b : Nat) {f : Fld} (h1 : f.key ≠ (HDR.EVT_RAW p).key)
    (h2 : f.key ≠ PCE.MSIX_PBA.key) : (s.raise p b).get f = s.get f := by
  unfold State.raise State.irqEdge
  split
  · rw [State.get_msix _ h2, State.get_put_ne _ _ h1]
  · exact s.get_put_ne _ h1

/-- EVT_RAW is not the MSI-X pending bit. -/
theorem evtRaw_ne_pba (p : Nat) : (HDR.EVT_RAW p).key ≠ PCE.MSIX_PBA.key := by
  simp only [Fld.key, HDR.EVT_RAW, PCE.MSIX_PBA]
  cases pageDom p <;> simp [Dom.code] <;> omega

/-- EVT_RAW of two pages are two registers. -/
theorem evtRaw_inj {p q : Nat} (h : (HDR.EVT_RAW p).key = (HDR.EVT_RAW q).key) : p = q := by
  simp only [Fld.key, HDR.EVT_RAW] at h
  cases hp : pageDom p <;> cases hq : pageDom q <;> simp [Dom.code, hp, hq] at h <;> omega

/-- A raised event is in EVT_RAW. -/
@[simp] theorem State.evt_raise_self (s : State) (p b : Nat) (h : b < 32) : (s.raise p b).evt p b = true := by
  have key : bitOf ((s.put (HDR.EVT_RAW p) (setBit (s.get (HDR.EVT_RAW p)) b true)).get (HDR.EVT_RAW p)) b = true := by
    rw [State.get_put_self, show (HDR.EVT_RAW p).width = 32 from rfl, bitOf_mod h]
    exact bitOf_setBit_self _ _
  unfold State.evt State.raise State.irqEdge
  split
  · rw [State.get_msix _ (evtRaw_ne_pba p)]; exact key
  · exact key

/-- A later event clears no earlier one. -/
theorem State.evt_raise {s : State} {p b : Nat} (h : s.evt p b = true) (hb : b < 32) (p' b' : Nat) :
    (s.raise p' b').evt p b = true := by
  by_cases hk : (HDR.EVT_RAW p).key = (HDR.EVT_RAW p').key
  · obtain rfl := evtRaw_inj hk
    have key : bitOf ((s.put (HDR.EVT_RAW p) (setBit (s.get (HDR.EVT_RAW p)) b' true)).get (HDR.EVT_RAW p)) b = true := by
      rw [State.get_put_self, show (HDR.EVT_RAW p).width = 32 from rfl, bitOf_mod hb]
      exact bitOf_setBit_true h
    unfold State.evt State.raise State.irqEdge
    split
    · rw [State.get_msix _ (evtRaw_ne_pba p)]; exact key
    · exact key
  · unfold State.evt
    rw [State.get_raise _ _ _ hk (evtRaw_ne_pba p)]
    exact h

/-- Judging data service changes no register but SYS.OPEN, EVT_RAW of SYS and the MSI-X pending bit. -/
theorem State.get_checkService (s : State) {f : Fld} (h1 : f.key ≠ SYS.OPEN.key)
    (h2 : f.key ≠ (HDR.EVT_RAW SYS.page).key) (h3 : f.key ≠ PCE.MSIX_PBA.key) : s.checkService.get f = s.get f := by
  unfold State.checkService
  split
  · rw [State.get_raise _ _ _ h2 h3, State.get_put_ne _ _ h1]
  · rfl

/-- Sending what the links hold changes no register but `linkFields`, the event register of channel AC_0 and the MSI-X pending
bit. -/
theorem State.get_flushLinks (s : State) {f : Fld} (h1 : ∀ g ∈ linkFields, f.key ≠ g.key)
    (h2 : f.key ≠ (HDR.EVT_RAW (CCH.page 16)).key) (h3 : f.key ≠ PCE.MSIX_PBA.key) : s.flushLinks.get f = s.get f :=
  State.flushLinks_keeps (fun u => u.get f) (fun _ _ _ _ => rfl) (fun _ _ _ => rfl) (fun _ _ _ => rfl) (fun _ _ => rfl)
    (fun u g n hg => u.get_inc_ne n (h1 g hg)) (fun u b => u.get_raise _ b h2 h3) s

/-- What a command leaves reads as its effect does, but for what sending the links' frames and judging data service may
write. -/
theorem State.get_settled (s t : State) {f : Fld}
    (h : ∀ g ∈ linkFields ++ [HDR.EVT_RAW (CCH.page 16), SYS.OPEN, HDR.EVT_RAW SYS.page, PCE.MSIX_PBA], f.key ≠ g.key) :
    (s.settled t).get f = t.get f := by
  have e : (s.settled t).get f = t.flushLinks.checkService.get f := State.get_of_reg (by simp only [State.settled]) f
  rw [e, State.get_checkService _ (h SYS.OPEN (by simp)) (h (HDR.EVT_RAW SYS.page) (by simp))
    (h PCE.MSIX_PBA (by simp)), State.get_flushLinks _ (fun g hg => h g (List.mem_append_left _ hg))
    (h (HDR.EVT_RAW (CCH.page 16)) (by simp)) (h PCE.MSIX_PBA (by simp))]

/-- No counter of the links is an event register. -/
theorem evtRaw_ne_linkFields (p : Nat) {g : Fld} (h : g ∈ linkFields) : (HDR.EVT_RAW p).key ≠ g.key := by
  simp only [linkFields, List.mem_cons, List.not_mem_nil, or_false] at h
  rcases h with rfl | rfl | rfl | rfl | rfl | rfl | rfl | rfl <;>
    simp only [Fld.key, HDR.EVT_RAW, ADT.TX_FRAMES, DFT.TX_FRAMES, CCH.BLOCKS, CCH.MESSAGES, CCH.SUSPENDS, CPH.SUSPENDS] <;>
    cases pageDom p <;> simp [Dom.code] <;> omega

/-- An event raised stays raised when the links send. -/
theorem State.evt_flushLinks {t : State} {p b : Nat} (h : t.evt p b = true) (hb : b < 32) : t.flushLinks.evt p b = true :=
  State.flushLinks_induct (P := fun u => u.evt p b = true) (fun _ _ _ _ h => h) (fun _ _ _ h => h) (fun _ _ _ h => h)
    (fun _ _ h => h)
    (fun u g n hg h => by
      unfold State.evt
      rw [u.get_inc_ne n (evtRaw_ne_linkFields p hg)]
      exact h)
    (fun u b' h => State.evt_raise h hb _ b') h

/-- An event raised stays raised when data service is judged. -/
theorem State.evt_settled {t : State} {p b : Nat} (h : t.evt p b = true) (hb : b < 32) (s : State) :
    (s.settled t).evt p b = true := by
  replace h := State.evt_flushLinks h hb
  have e : (s.settled t).evt p b = t.flushLinks.checkService.evt p b := by
    unfold State.evt
    rw [State.get_of_reg (t := t.flushLinks.checkService) (by simp only [State.settled])]
  rw [e]
  generalize t.flushLinks = t at h
  unfold State.checkService
  split
  · refine State.evt_raise ?_ hb _ _
    unfold State.evt
    rw [State.get_put_ne]
    · exact h
    · simp only [Fld.key, HDR.EVT_RAW, SYS.OPEN]
      cases pageDom p <;> simp [Dom.code] <;> omega
  · exact h

/-! ## Running and not running -/

theorem State.whenDp_up {s : State} (h : s.dpUp = true) (f : State → State) : s.whenDp f = s.settled (f s) := by
  simp [State.whenDp, h]

theorem State.whenDp_down {s : State} (h : s.dpUp = false) (f : State → State) : s.whenDp f = s := by
  simp [State.whenDp, h]

@[simp] theorem State.whenDp_pending (s : State) (f : State → State) : (s.whenDp f).pending = s.pending := by
  unfold State.whenDp
  split <;> rfl

/-! ## Tables -/

@[simp] theorem State.extent_setExtent (s : State) (e : Nat) (x : Extent) : (s.setExtent e x).extent e = some x := by
  simp [State.extent, State.setExtent]

theorem State.extent_setExtent_ne (s : State) {e e' : Nat} (x : Extent) (h : e' ≠ e) :
    (s.setExtent e x).extent e' = s.extent e' := mget_mput_ne _ _ h

@[simp] theorem State.window_setWindow (s : State) (n : Nat) (w : Window) : (s.setWindow n w).window n = w := by
  simp [State.window, State.setWindow]

@[simp] theorem State.domain_setDomain (s : State) (n : Nat) (d : Domain) : (s.setDomain n d).domain n = d := by
  simp [State.domain, State.setDomain]

@[simp] theorem State.member_setMember (s : State) (m : Nat) (x : MemberSt) : (s.setMember m x).member m = x := by
  simp [State.member, State.setMember]

theorem State.queue_setQueue (s : State) {n : Nat} (q : Queue) (h : n ≠ 0) : (s.setQueue n q).queue n = q := by
  simp [State.queue, State.setQueue, h]

@[simp] theorem State.entry_setEntry (s : State) (e : RrtEntry) : (s.setEntry e).entry e.key = some e := by
  simp [State.entry, State.setEntry]

@[simp] theorem State.epochRec_setEpochRec (s : State) (n : Nat) (e : EpochRec) : (s.setEpochRec n e).epochRec n = e := by
  simp [State.epochRec, State.setEpochRec]

end Sys2Proof.Machine
end

