-- ==== Sys2Proof/Laws/Commands.lean ====
section
/-! SUPPORT. What the shared frames of the commands do: a supervisor command, a register write, a frame of the drift links. -/

namespace Sys2Proof.Machine

theorem State.whenSup_up {s : State} (h : s.pwr.vsupOk = true) (f : State → State) : s.whenSup f = s.settled (f s) := by
  simp [State.whenSup, h]

theorem State.whenSup_down {s : State} (h : s.pwr.vsupOk = false) (f : State → State) : s.whenSup f = s := by
  simp [State.whenSup, h]

@[simp] theorem State.whenSup_pending (s : State) (f : State → State) : (s.whenSup f).pending = s.pending := by
  unfold State.whenSup
  split <;> rfl

/-- The datapath runs only while the supervisor does. -/
theorem State.vsupOk_of_dpUp {s : State} (h : s.dpUp = true) : s.pwr.vsupOk = true := by
  simp only [State.dpUp, State.mgUp, Bool.and_eq_true] at h
  exact h.1.1.1.1.2

/-- The datapath does not run in Vitrine. -/
theorem State.not_frozen_of_dpUp {s : State} (h : s.dpUp = true) : s.vit.frozen = false := by
  simp only [State.dpUp, State.mgUp, Bool.and_eq_true, Bool.not_eq_true'] at h
  exact h.1.2

theorem State.vsupOk_of_canWrite {s : State} {p : Path} {f : Fld} (h : s.canWrite p f = true) : s.pwr.vsupOk = true := by
  simp only [State.canWrite, Bool.and_eq_true] at h
  exact h.1.1.1.1

/-- A write of one field that reaches it runs its action. -/
theorem State.regRun_canWrite {s : State} {p : Path} {f : Fld} (h : s.canWrite p f = true) (act : State → State) :
    s.regRun p f act = act s := by
  simp only [State.canWrite, Bool.and_eq_true, Bool.or_eq_true, bne_iff_ne, ne_eq, Bool.not_eq_true'] at h
  obtain ⟨⟨⟨⟨-, h1⟩, h2⟩, h3⟩, h4⟩ := h
  unfold State.regRun
  rw [if_neg (by simp [h1, h2]), if_neg ?_, if_pos h4]
  rcases h3 with h3 | h3
  · simp [h3]
  · simp [h3]

/-- A write of one field, as a supervisor command, that reaches it. -/
theorem State.whenSup_regRun {s : State} {p : Path} {f : Fld} (h : s.canWrite p f = true) (act : State → State) :
    (s.whenSup fun s => s.regRun p f act) = s.settled (act s) := by
  rw [State.whenSup_up (State.vsupOk_of_canWrite h), State.regRun_canWrite h]

end Sys2Proof.Machine
end

