-- ==== Sys2Proof/WellFormed.lean ====
section
/-! DEFINITION. Which commands the world can send: the checks on operands that their types do not make. -/

namespace Sys2Proof

/-- A LENGTH-byte datagram's facts that the wire itself fixes: a frame of 64 bytes or more holds it, and a GCM tag is 16
bytes (R39, R69). -/
def Dgram.wf (d : Dgram) : Bool :=
  d.payload.length ≤ d.frame.bytes && d.frame.fillPct ≤ 100 && d.frame.tags.length ≤ 2 &&
    (match d.sealing with
      | none => true
      | some x => x.tag.length == 16)

/-- A link frame carries at most 16,384 bytes of payload, and a tag of 16 bytes or none (R152). -/
def LinkFrame.wf (f : LinkFrame) : Bool := f.body.length ≤ 16384 && (f.tag.isEmpty || f.tag.length == 16)

/-- A page that was read: the worst codeword corrected at most the code's strength, and no member is named twice. -/
def PageDone.wf (p : PageDone) : Bool := p.missing.eraseDups.length == p.missing.length

/-- Is a command well-formed? What breaks these checks no link, bus, pin or part of the board can send. -/
def Instr.wf : Instr → Bool
  | .hostFrameDrop d => d.wf
  | .read d => d.wf
  | .write d => d.wf
  | .cas8 d => d.wf
  | .cas16 d => d.wf
  | .fadd8 d => d.wf
  | .flush d => d.wf
  | .sectorRead d => d.wf
  | .sectorWrite d => d.wf
  | .discard d => d.wf
  | .append d => d.wf
  | .seal d => d.wf
  | .recordRead d => d.wf
  | .identify d => d.wf
  | .getLogPage d => d.wf
  | .getFeature d => d.wf
  | .setFeature d => d.wf
  | .firmwareDownload d => d.wf
  | .firmwareCommit d => d.wf
  | .queueCreate d => d.wf
  | .queueDelete d => d.wf
  | .queueRestart d => d.wf
  | .domainCreate d => d.wf
  | .domainDelete d => d.wf
  | .setQuota d => d.wf
  | .domainQuery d => d.wf
  | .openWindow d => d.wf
  | .revoke d => d.wf
  | .modify d => d.wf
  | .close d => d.wf
  | .windowQuery d => d.wf
  | .censusRead d => d.wf
  | .censusClear d => d.wf
  | .clockSet d => d.wf
  | .muster d => d.wf
  | .invalidOpcode d _ => d.wf
  | .load p => p.length == 128
  | .unload p => p.length == 128
  | .keyQuery p => p.length == 128
  | .adm0Doorbell _ _ b => b.length ≤ 16384
  | .tally f => f.wf
  | .repair f => f.wf
  | .unionWhole f => f.wf
  | .relay f => f.wf
  | .resume f => f.wf
  | .rehome f => f.wf
  | .depart f => f.wf
  | .yield f => f.wf
  | .resend f => f.wf
  | .fwdDgram _ f => f.wf
  | .fwdAnswer _ f => f.wf
  | .table _ f => f.wf
  | .placeEnd _ f => f.wf
  | .memRead _ r => r.frame.wf
  | .memData _ f => f.wf
  | .memPlace _ f => f.wf
  | .pageReadDone p => p.wf
  | .reconAt p => p.wf
  | .thermalRead _ r => r.length == 24
  | .pfcFrame _ _ q => q.length == 8
  | .mrTempRead _ _ l => l.length ≤ 14
  | .epochFrame .. | .epochBoundary .. | .expectedTimeBoundary .. | .relayedBoundary .. | .holdoverBoundary ..
  | .alignEn .. | .forceHoldover .. | .arpRequest .. | .neighborSolicitation .. | .pfcHeld .. | .hostLinkDown ..
  | .hostLinkUp .. | .tallyDeadline .. | .aditLinkUp .. | .aditAlignLost .. | .commitKey .. | .writePlaced ..
  | .revokeDone .. | .pairTmo .. | .moveCommit .. | .flashGroupProgrammed .. | .rowHoldExpiry .. | .mergeDone ..
  | .readTimeout .. | .stackTempRead .. | .caParity .. | .dllOut .. | .dllTimeout .. | .fillStart .. | .fillDone ..
  | .drain .. | .fsp .. | .pfail .. | .musterCommitEnd .. | .musterImageDone .. | .musterDone .. | .restoreDone ..
  | .areaReady .. | .arm .. | .declJ .. | .vhc .. | .serviceOpen .. | .seqGo .. | .conversion .. | .seqDelay ..
  | .seqUpTimeout .. | .disTimeout .. | .vsupLow .. | .powerOnReset .. | .resetNAssert .. | .resetNRelease ..
  | .swMgmt .. | .swDp .. | .clockFail .. | .synLockReturn .. | .rstoutStretch .. | .throttleOff .. | .park ..
  | .parked .. | .signalWake .. | .awake .. | .watchdog .. | .wdtKick .. | .lockup .. | .bootVerify ..
  | .norProgram .. | .norErase .. | .norOpDone .. | .commitReq .. | .commitDone .. | .markProgrammed .. | .alarm ..
  | .entFail .. | .drbgHalt .. | .reseedDone .. | .ksFormat .. | .storeKey .. | .keyInst .. | .mscanStart ..
  | .mscanDone .. | .retrainStart .. | .retrainDone .. | .clearDie .. | .reshapeAdd .. | .reshapeSpread ..
  | .driftLinkUp .. | .driftLinkDown .. | .summary .. | .censusToken .. | .censusWindowRead .. | .calendarTick ..
  | .oscFail .. | .apply .. | .vitrineN .. | .vitrine .. | .idcode .. | .samplePreload .. | .extest .. | .clamp ..
  | .highz .. | .extestPulse .. | .extestTrain .. | .scanSel .. | .scanRead .. | .chainLen .. | .dbgReset ..
  | .vitStatus .. | .bypass .. | .canaryFire .. | .enable .. | .shutdownDone .. | .blockReset ..
  | .blockResetDone .. | .expertKey .. | .evtPendingClear .. | .selectorWrite .. | .windowWord0Read ..
  | .latchingLoRead .. | .registerWrite .. | .smbusWrite .. | .smbusSetPointer .. | .smbusRead ..
  | .smbusTimeout .. | .pcieLinkUp .. | .pcieLinkDown .. | .relayMarkerMissing .. | .dllBackInWindow .. | .hiBer .. => true

end Sys2Proof
end

