-- ==== Sys2Proof/Tests/Slice0.lean ====
section
/-! SUPPORT. Tests: an ill-formed term for each check of WellFormed, states that meet the hypotheses of each statement of
Certificates/Slice0/Obligations.lean, clause by clause (wit_<statement>_<clause>), and what one command does there
(test_<statement>_<clause>). The values expected are worked out from the rules of spec/ that the statement cites. -/

set_option Elab.async false

namespace Sys2Proof.Tests

open Sys2Proof Sys2Proof.Machine

/-! ## Small states -/

/-- The block out of reset, with a curator's image verified. -/
def up : State := { State.reset with pwr := { seq := .on, rstCond := 0 }, cur := { verified := true } }

/-- The state that a command leaves (the state before it where it stops). -/
def nx (c : Instr) (s : State) : State := match exec c s with
  | .next t => t
  | _ => s

/-- Sub-link 0 of port 0. -/
def l00 : HostLink := ⟨0, 0⟩

/-- A frame of TYPE `typ` with its CRC right. -/
def lf (typ : Nat) (body : List Byte) (fseq : Nat := 0) (epoch : Nat := 0) : LinkFrame :=
  { time := 0, fseq := BitVec.ofNat 32 fseq, epoch := BitVec.ofNat 64 epoch, body := body
    crc := BitVec.ofNat 32 (crc32 (frameHdr typ 0 body.length fseq epoch ++ body)) }

/-- Registers set, one after another. -/
def regs (s : State) (l : List (Fld × Nat)) : State := l.foldl (fun s e => s.put e.1 e.2) s

/-- Service open on a twin that runs alone: curator, image, epoch, link, member, dies, gang and declaration. -/
def serving : State :=
  let s := regs up [(CUR.RUN, 1), (HP.LINK_UP 0, 1), (STK.IN_SERVICE 0, 1), (FCH.IN_SERVICE 0, 1), (FCH.DIE_PRESENT 0, 0xFFFF),
    (FCH.IN_SERVICE 1, 1), (FCH.DIE_PRESENT 1, 0xFFFF), (FCH.TRAINED 0, 1), (FCH.TRAINED 1, 1), (MUS.DECL_J, 800), (MUS.DECL_LOCKED, 1),
    (SYS.OPEN, 1), (XPT.IPV4_EN 0, 1), (MUS.PFAIL_EN, 1)]
  { s with
    ep := { state := .holdover, num := 1000, period := 8000 * 256, last256 := 100000 * 256, running := true }
    cm := { twin := .alone, claim := 1, inService := true, committed := 999, placed := 999 }
    gang := { formed := true }, mus := { state := .armed, restored := true, vhc := 400 } }

/-- A gang of two, the link to the other member up. -/
def ganged : State :=
  let s := regs up [(GNG.SIZE, 1), (DFT.LINK_UP 0, 1), (DFT.LINK_EN 0, 1)]
  { s with gang := { formed := true }, pwr := { s.pwr with gangId := 0 }, ep := { num := 50 } }

/-- The same, with a presented capacity of one logical block and its first extent in a hot frame. -/
def gangMem : State := { ganged with fl := { presLb := 1 }, tier := { ext := [(0, { home := .hot 0 })] }, mem := [(3, 9)] }

/-- A muster at step 2. -/
def mustering : State := { up with mus := { state := .mustering, step := .commit, cause := 1, stopped := true } }

/-- The device in Vitrine. -/
def frozen : State := { up with vit := { frozen := true } }

/-- VSUP below its threshold. -/
def dark : State := { State.reset with pwr := { vsupOk := false } }

/-- A sequence table of two entries, on channels 5 and 6. -/
def tabled : State :=
  regs State.reset [(PSQ.SEQ_LEN, 2), (PSQ.EN 0, 0), (PSQ.CH 0, 5), (PSQ.DELAY_MS 0, 10), (PSQ.GOOD_MIN 0, 100), (PSQ.GOOD_MAX 0, 200),
    (PSQ.EN 1, 1), (PSQ.CH 1, 6), (PSQ.GOOD_MIN 1, 100), (PSQ.GOOD_MAX 1, 200), (PSQ.DIS_TMO_MS 0, 5), (PSQ.DIS_TMO_MS 1, 5)]

/-- Its power-up at entry 0, and its shutdown at entry 1. -/
def rising : State := { tabled with pwr := { locked := true, seq := .rising, wait := .good, seqEn := 1 } }
def falling : State := { tabled with pwr := { locked := true, seq := .falling, entry := 1, wait := .discharged, seqEn := 1 } }

/-- A program in flight in bank 0. -/
def norBusyState : State := { up with cur := { verified := true, active := 1, busy := [(0, { erase := false, addr := 64, data := 0xFFFF0000 })] } }

/-- Throttled, and cool again. -/
def throttled : State :=
  { up with pwr := { up.pwr with throttled := true, tj := 90, sensors := mofList ((List.range 24).map fun i => (i, 90)) } }

/-- A park state. -/
def parkedAs (p : ParkState) : State := { up with pwr := { up.pwr with park := p, hostSerdes := false } }

/-- Canary armed, the page of CEL unlocked. -/
def armedCanary : State := regs up [(SYS.CANARY_ARM, 1), (HDR.EXPERT 0x50, 1)]

/-- MSI-X on, the link up, the events of the SMBus target enabled and unmasked. -/
def irq : State :=
  regs up [(PCE.LINK_UP, 1), (PCE.MSIX_EN, 1), (PCE.MSIX_MASKED, 0), (PCE.MSIX_CTRL, 0), (PCE.MSIX_ADDR_LO, 64), (PCE.MSIX_DATA, 5),
    (HDR.EVT_ENABLE SMB.page, 255), (SYS.PCIE_MASK (SMB.page / 32), 0xFFFFFFFF)]

/-- Aligned to EPOCH, at the boundary of epoch 1000. -/
def aligned : State := { up with
  ep := { state := .aligned, num := 1000, last256 := 100000 * 256, period := 8000 * 256, running := true, edge := some 100000
          lastGood := some (92000, 999) }
  clk := { up.clk with epochDllIn := true } }

/-- Following the leader's markers. -/
def relaying : State := { aligned with
  ep := { aligned.ep with state := .relay, markers := [⟨1000, 108400⟩] }, cm := { claim := 1, delay := 200 } }

/-- A queue in use: QID 16 carries data with 64 slots, QID 1 is a privileged ADMIN queue; window 7 gives domain 0 the first mebibyte,
whose first extent lies in a hot frame. -/
def hosted : State :=
  let q : Queue := { state := .active, cls := 1, depth := 64, srcEp := 0x55, key := 0xBB, ct := { wr := 1000, rd := 1000, fl := 1000, reqs := 10 } }
  let a : Queue := { state := .active, cls := 0, priv := true, depth := 16, srcEp := 0x55, key := 0xAA }
  let g : Grant := { gen := 0, key := 0xCC, rights := 7 }
  { serving with
    q := { serving.q with q := [(1, a), (16, q)] }
    win := { serving.win with win := [(7, { state := .open, cur := g, length := 1048576, hist := [(0, some g)] })] }
    tier := { ext := [(0, { home := .hot 0 })] }, mem := [(3, 9)], fl := { presLb := 4 } }

/-- A request header on a queue, and its datagram in clear from sub-link 0 of port 0. -/
def hq (qid key seq : Nat) : ReqHdr :=
  { srcEp := 0x55, qid := BitVec.ofNat 15 qid, qkey := BitVec.ofNat 32 key, seq := BitVec.ofNat 32 seq }
def hw (seq off len : Nat) : ReqHdr := { hq 16 0xBB seq with
  window := 7, wkey := 0xCC, offset := BitVec.ofNat 48 off, length := BitVec.ofNat 20 (len - 1) }
def dg (op : Nat) (h : ReqHdr) (p : List Byte) : Dgram :=
  { frame := { link := l00, time := 0, bytes := 100, dstPort := BitVec.ofNat 16 (State.reset.get (XPT.UDP_PORT 0)) }
    hdr := h, payload := p, icrc := BitVec.ofNat 32 (crc32 (encodeReq h op ++ p)) }

/-- A WRITE of four bytes at OFFSET 100 and a READ of eight at OFFSET 0. -/
def wr4 : Dgram := dg 0x02 (hw 1 100 4) [1, 2, 3, 4]
def rd8 : Dgram := dg 0x01 (hw 1 0 8) []

/-- The WRITE staged, its epoch ended and its key to be committed. -/
def staged : State :=
  let r := hosted.reqOf wr4 0x02
  let s := { hosted with ep := { hosted.ep with num := 1001 } }
  { s with cm := { s.cm with
    ep := [(1000, { reqs := [(wr4.hdr.key.code, { r with admitted := some 1000 })], own := [wr4.hdr.key], solo := true })], ended := [1000] }
           net := { s.net with rrt := [] } }

/-- The adit link up, the twins paired. -/
def paired : State :=
  let s := regs up [(ADT.LINK_UP, 1), (ADT.ALIGNED, 1), (ADT.SEAL_EN, 0), (EPC.RELAY_EN, 1)]
  { s with ep := { num := 1002, state := .holdover, period := 8000 * 256, last256 := 0 }
           cm := { twin := .paired, claim := 2, peerClaim := 1, committed := 1000, placed := 1000, inService := true
                   ep := [(1001, {})], ended := [1001] } }

/-- The same, in another twin state. -/
def twinIn (t : TwinState) : State := { paired with cm := { paired.cm with twin := t } }

/-- A log bound to logical block 0, its first group in flight, and a key of the storage class with marks ahead. -/
def logging : State :=
  let s := regs up [(CPH.STORE_KEY, 9), (FCH.IN_SERVICE 0, 1), (FCH.IN_SERVICE 1, 1), (FCH.DIE_PRESENT 0, 0xFFFF), (FCH.DIE_PRESENT 1, 0xFFFF)]
  { s with
    fl := { presLb := 4, logs := [(3, { lb := 0, sb := 5, slots := List.replicate 12 (some 0) })]
            lbt := [(0, { log := some 3 })], sbs := [(5, { row := 0, use := .log, blocks := List.range 18 })] }
    par := { rows := [(0, List.range 18)], journal := [{ sb := 5, group := 0, kind := 0 }] }
    key := { inst := [(9, { alg := 2, mode := 1, cls := 2, material := List.replicate 32 7, counter := 5, ready := true })]
             marks := [(9, 2 ^ 40)] } }

/-- A warm channel and a stack in service, their DLLs in their windows. -/
def channels : State :=
  let s := regs up [(STK.IN_SERVICE 0, 1), (STK.TRAINED 0, 1), (HDR.ENABLE 0x40, 1), (DCH.IN_SERVICE 0, 1), (DCH.TRAINED 0, 1), (HDR.ENABLE 0x48, 1),
    (DCH.RANK_EN 0, 3)]
  { s with tier := { ext := [(0, { home := .warm 0 }), (1, { home := .hot 0 })] }, mc := { members := [(0, { inWindow := true }), (8, { inWindow := true, codes := [(1, 77)] })] } }

/-- Extent 0 on its way from a warm frame to a hot one, its copy whole. -/
def moving : State := { up with tier := { ext := [(0, { home := .warm 0, owner := 0, move := some (.hot 4) })] }, fl := { presLb := 4 } }

/-- A merge of logical block 0 with its destination. -/
def merging : State := { logging with fl := { logging.fl with
  logs := [], lbt := [(0, { state := 2, base := some 5, dest := some 6, merging := true, kind := 1 })]
  sbs := [(5, { row := 0, use := .data, blocks := List.range 18 }), (6, { row := 0, use := .data, blocks := (List.range 18).map (· + 100) })] } }

/-- A read that waits for page 1 of extent 0. -/
def reading : State := { up with net := { reads := [{ req := { hdr := hw 1 0 8, op := 1 }, fetch := [1], len := 8 }] } }

/-- The same, with the page's slot in the base of logical block 0, and a storage key. -/
def flashRead : State := { logging with
  fl := { logging.fl with logs := [], lbt := [(0, { state := 2, base := some 5 })] }, net := reading.net }

/-- A NOR store with an erased word at byte address 64 of bank 0, and an operation of the NOR page set up there. -/
def norIdle : State := { regs up [(NOR.ADDR, 64), (NOR.DATA, 0xFFFF0000)] with cur := { verified := true, active := 1 } }

/-- A key record whose KEY_INST is named, and a mark being programmed. -/
def keyed : State := { up with key := { inst := [(9, { cls := 8 }), (10, { cls := 2 })], marking := [(9, 1000)] } }

/-- The muster record of serial 5 (R193): cause 4, a twin alone, area 0, epoch 999 committed, and its CRC-32. -/
def restRecord : List Nat := [0x4D535452, 5, 0x204, 0, 999] ++ List.replicate 57 0 ++ [0xFFFFFFFF, 345366952]

/-- The byte address of that record: the first slot of the first record area. -/
def restSlot : Nat := recordSlot (recordArea 0) 1

/-- A restore in progress with its record in area 0, and its image. -/
def restoring : State :=
  let s := { up with q := { q := [(16, { state := .active, floor := 3, high := 7, inFlight := 4 })] }, mem := [(3, 9)] }
  let ws := [(recordArea 0, 1), (recordArea 0 + 4, notWord 1)] ++ ((List.range 64).map fun i => (restSlot + 4 * i, restRecord.getD i 0))
  { (up.put CPH.STORE_KEY 9) with cur := { up.cur with words := ws }, key := { inst := [(9, { cls := 2, ready := true })] }, mus := { state := .restoring, images := [(0, { s.image 5 with blocks := [⟨.reserved 0, 5, 0⟩, ⟨.staging 1, 5, 9⟩] })] } }

/-- A date and time to apply: 2024-02-29 12:00:00. -/
def dated : State := regs up [(RTC.SET_TIME, 12 * 65536), (RTC.SET_DATE, 24 * 65536 + 2 * 256 + 29)]

/-- A forwarded READ: a return block of zeros, a UDP header to UDP_PORT, the datagram and its ICRC. -/
def fwd8 : LinkFrame :=
  let b := encodeReq rd8.hdr 1
  lf 0x16 (List.replicate 32 0 ++ bytesBE 2 777 ++ bytesBE 2 (State.reset.get (XPT.UDP_PORT 0)) ++ [0, 0, 0, 0] ++ b ++ bytesBE 4 (crc32 b))

/-! ## Outcomes compared -/

/-- Are two outcomes the same? -/
def sameOutcome : Host.Outcome State Fault Refusal → Host.Outcome State Fault Refusal → Bool
  | .next a, .next b => decide (a = b)
  | .fault a, .fault b => decide (a = b)
  | .refused a, .refused b => decide (a = b)
  | _, _ => false

theorem eq_of_sameOutcome {a b : Host.Outcome State Fault Refusal} (h : sameOutcome a b = true) : a = b := by
  cases a <;> cases b <;> simp_all [sameOutcome]

/-- Does a command answer a next state? -/
def goesOn (c : Instr) (s : State) : Bool := match exec c s with
  | .next _ => true
  | _ => false

theorem nx_eq {c : Instr} {s : State} (h : goesOn c s = true) : exec c s = .next (nx c s) := by
  cases hx : exec c s <;> simp_all [goesOn, nx]

theorem step_front (s : State) (c : Instr) : step { s with pending := [c] } = exec c { s with pending := [] } := rfl

/-! ## The CRC of a frame that `lf` builds, and of a record -/

theorem crcBit_lt (c : Nat) (b : Bool) : crcBit 32 0x04C11DB7 c b < 2 ^ 32 := by
  simp only [crcBit]
  split
  · exact Nat.xor_lt_two_pow (Nat.mod_lt _ (by decide)) (by decide)
  · exact Nat.mod_lt _ (by decide)

theorem crcBits_lt (bs : List Bool) : ∀ c < 2 ^ 32, crcBits 32 0x04C11DB7 c bs < 2 ^ 32 := by
  induction bs with
  | nil => exact fun c h => h
  | cons b bs ih => exact fun c _ => ih _ (crcBit_lt c b)

theorem crcBytes_lt (bs : List Byte) : ∀ c < 2 ^ 32, crcBytes 32 0x04C11DB7 c bs < 2 ^ 32 := by
  induction bs with
  | nil => exact fun c h => h
  | cons b bs ih => exact fun c h => ih _ (crcBits_lt _ c h)

/-- The CRC-32 of R43 has 32 bits. -/
theorem crc32_lt (bs : List Byte) : crc32 bs < 2 ^ 32 :=
  Nat.xor_lt_two_pow (crcBytes_lt bs _ (by decide)) (by decide)

/-- The CRC that `lf` puts into a frame is the one that its receiver works out. -/
theorem lf_crcOk (typ fseq epoch : Nat) (body : List Byte) (hf : fseq < 2 ^ 32) (he : epoch < 2 ^ 64) :
    (lf typ body fseq epoch).crcOk typ = true := by
  have hc := crc32_lt (frameHdr typ 0 body.length fseq epoch ++ body)
  have h2 : (lf typ body fseq epoch).hdr typ = frameHdr typ 0 body.length fseq epoch := by
    simp only [LinkFrame.hdr, lf, BitVec.toNat_ofNat, Nat.mod_eq_of_lt hf, Nat.mod_eq_of_lt he]; rfl
  have h3 : (lf typ body fseq epoch).crc.toNat = crc32 (frameHdr typ 0 body.length fseq epoch ++ body) := by
    simp only [lf, BitVec.toNat_ofNat, Nat.mod_eq_of_lt hc]
  rw [LinkFrame.crcOk, h2, h3]
  simp [lf]

/-- A CRC over two runs of bytes, one after the other. -/
theorem crcBytes_append (w p i : Nat) (a b : List Byte) : crcBytes w p i (a ++ b) = crcBytes w p (crcBytes w p i a) b :=
  List.foldl_append

theorem restBytes : restoring.norBytes restSlot 248 =
    bytesLE 4 0x4D535452 ++ bytesLE 4 5 ++ [4, 2, 0, 0, 0, 0, 0, 0] ++ bytesLE 4 999 ++ List.replicate 228 0 := by decide +kernel

theorem restCrc : crc32 (restoring.norBytes restSlot 248) = 345366952 := by
  have h0 : crcBytes 32 0x04C11DB7 0xFFFFFFFF
      (bytesLE 4 0x4D535452 ++ bytesLE 4 5 ++ [4, 2, 0, 0, 0, 0, 0, 0] ++ bytesLE 4 999) = 3314078691 := by decide +kernel
  have h1 : crcBytes 32 0x04C11DB7 3314078691 (List.replicate 57 0) = 1712436369 := by decide +kernel
  have h2 : crcBytes 32 0x04C11DB7 1712436369 (List.replicate 57 0) = 2091106733 := by decide +kernel
  have h3 : crcBytes 32 0x04C11DB7 2091106733 (List.replicate 57 0) = 2582661841 := by decide +kernel
  have h4 : crcBytes 32 0x04C11DB7 2582661841 (List.replicate 57 0) = 3949600343 := by decide +kernel
  have hr : List.replicate 228 (0 : Byte) =
      List.replicate 57 0 ++ List.replicate 57 0 ++ List.replicate 57 0 ++ List.replicate 57 0 := by decide +kernel
  rw [crc32, restBytes, hr, crcBytes_append, h0, crcBytes_append, crcBytes_append, crcBytes_append, h1, h2, h3, h4]
  decide +kernel

/-- The record of `restoring` verifies (R193), and no other slot of the two areas does. -/
theorem restOk : restoring.recordOk restSlot = true := by
  have h : (restoring.norWord restSlot == 0x4D535452) = true ∧ restoring.norWord (restSlot + 252) = 345366952 := by decide +kernel
  rw [State.recordOk, h.1, h.2, restCrc]
  decide +kernel

theorem restChosen : restoring.chosenRecord = some restSlot := by
  have hs : ([recordArea 0, recordArea 1].filter restoring.areaValid).flatMap (fun a =>
      (List.range 15).map fun k => recordSlot a (k + 1)) = restSlot :: ((List.range 14).map fun k => recordSlot (recordArea 0) (k + 2)) := by
    decide +kernel
  have hn : ((List.range 14).map fun k => recordSlot (recordArea 0) (k + 2)).filter restoring.recordOk = [] := by decide +kernel
  have hr : restoring.records = [restSlot] := by rw [State.records, hs, List.filter_cons_of_pos restOk, hn]
  rw [State.chosenRecord, hr]
  decide +kernel

/-- `restoring` before ARM. -/
def unarmed : State := { restoring with mus := { restoring.mus with state := .unready } }

/-- The record chosen does not rest on how far the restore has come. -/
theorem unarmed_chosen : unarmed.chosenRecord = some restSlot := by
  have hc : unarmed.cur = restoring.cur := rfl
  have hw : unarmed.norWord = restoring.norWord := by funext a; simp only [State.norWord, hc]
  have hb : unarmed.norBytes = restoring.norBytes := by unfold State.norBytes; rw [hw]
  have ho : unarmed.recordOk = restoring.recordOk := by unfold State.recordOk; rw [hw, hb]
  have ha : unarmed.areaValid = restoring.areaValid := by unfold State.areaValid; rw [hw]
  have hn : unarmed.newest = restoring.newest := by unfold State.newest; rw [hw]
  have hr : unarmed.records = restoring.records := by unfold State.records; rw [ha, ho]
  rw [← restChosen]
  unfold State.chosenRecord
  rw [hn, hr, hw, hb]

/-- The frame of the forwarded READ is good on the link it comes by. -/
theorem fwd8Good : driftGood (ganged.put (XPT.IPV4_EN 0) 1) 0 fwd8 0x16 = true := by
  have h : ((ganged.put (XPT.IPV4_EN 0) 1).dpUp && (ganged.put (XPT.IPV4_EN 0) 1).flag (DFT.LINK_UP 0)) = true := by decide +kernel
  have ht : fwd8.tag.isEmpty = true ∧ decide (fwd8.body.length ≤ 16384) = true := by decide +kernel
  have hc : fwd8.crcOk 0x16 = true := lf_crcOk 0x16 0 0 _ (by decide) (by decide)
  simp only [driftGood, Fin.val_zero, h, hc, ht.1, ht.2, Bool.and_self]

/-- A re-homing unit of one frame: its extent, and 8,192 bytes. -/
def rehomeFrame : LinkFrame := lf 6 (bytesBE 8 (2 ^ 56) ++ List.replicate 8192 5) 0 1000

theorem rehomeGood : (twinIn .returning).nextFrame rehomeFrame 6 = true := by
  have h : ((twinIn .returning).dpUp && (twinIn .returning).flag ADT.LINK_UP && !(twinIn .returning).flag ADT.SEAL_EN &&
      !(twinIn .returning).cm.rxAny) = true := by decide +kernel
  have hc : rehomeFrame.crcOk 6 = true := lf_crcOk 6 0 1000 _ (by decide) (by decide)
  simp only [Bool.and_eq_true] at h
  simp only [State.nextFrame, h.1.1.1, h.1.1.2, h.1.2, h.2, hc, Bool.true_and, Bool.true_or, Bool.and_true]
  rfl

/-- A merge of kind partial with one row of its destination still to be programmed (R239). -/
def mergingLast : State := { merging with fl := { merging.fl with
  logs := [(3, { lb := 0, sb := 6, programmed := 6140 })]
  lbt := [(0, { state := 2, base := some 5, dest := some 6, merging := true, kind := 0, log := some 3 })] } }

/-- The storage key of `logging` retired (R291). -/
def retiredStore : State := { logging with key := { logging.key with
  inst := [(9, { alg := 2, mode := 1, cls := 2, material := List.replicate 32 7, counter := 5, ready := true, retired := true })] } }

/-- A fill of logical block 0 under way, the copy of its first extent whole. -/
def filling : State := { logging with
  tier := { ext := [(0, { home := .hot 4, move := some .flash })] }
  fl := { logging.fl with logs := [], lbt := [(0, { slc := [5], fill := 4 })] }
  par := { logging.par with journal := [{ sb := 5, group := 0, kind := 2 }] } }

/-! ## Ill-formed operands that WellFormed refuses -/

/-- A datagram with the facts of its frame changed. -/
def dgIn (f : EthFrame → EthFrame) (d : Dgram) : Dgram := { d with frame := f d.frame }

theorem test_wf_good : (Instr.read rd8).wf = true ∧ (Instr.write wr4).wf = true := by decide +kernel

theorem test_wf_payload : (Instr.write (dgIn (fun f => { f with bytes := 3 }) wr4)).wf = false := by decide +kernel

theorem test_wf_fill : (Instr.write (dgIn (fun f => { f with fillPct := 101 }) wr4)).wf = false := by decide +kernel

theorem test_wf_tags : (Instr.write (dgIn (fun f => { f with tags := List.replicate 3 ⟨0, 0⟩ }) wr4)).wf = false := by decide +kernel

theorem test_wf_linkBody : (Instr.rehome { lf 6 [] with body := List.replicate 16385 0 }).wf = false := by
  simp only [Instr.wf, LinkFrame.wf, List.length_replicate]; rfl

theorem test_wf_linkTag : (Instr.tally { lf 2 [] with tag := [1, 2] }).wf = false := by decide +kernel

theorem test_wf_missing : (Instr.pageReadDone { extent := 0, page := 1, die := 3, missing := [2, 2] }).wf = false := by decide +kernel

theorem test_wf_keyPayload : (Instr.load [1, 2, 3]).wf = false ∧ (Instr.unload []).wf = false ∧ (Instr.keyQuery [0]).wf = false := by
  decide +kernel

theorem test_wf_thermal : (Instr.thermalRead 0 [90]).wf = false := by decide +kernel

theorem test_wf_pfc : (Instr.pfcFrame l00 0 [1, 2]).wf = false := by decide +kernel

theorem test_wf_mr : (Instr.mrTempRead 0 1 (List.replicate 15 0)).wf = false := by decide +kernel

/-! ## The package -/

/-- The worked example of R422. -/
theorem test_balls : ballAt 1 62 = some (.hp 3 5 .txP) ∧ ballAt 62 8 = some (.dch 2 (.dq 87)) ∧
    ballAt 22 81 = some (.fch 40 (.dq 3)) ∧ ballAt 22 82 = some (.fch 40 (.dq 2)) := by decide +kernel

/-- One ball of each band's mirror image, of the system field and of a rail (R418, R421, R422). -/
theorem test_ballKinds : ballAt 102 4 = some (.hp 10 0 .txP) ∧ ballAt 96 36 = some (.dl 1 0 .txP) ∧
    ballAt 81 22 = some (.sys .tdo) ∧ ballAt 1 1 = some (.rail .vbat) ∧ ballAt 103 1 = none := by decide +kernel

/-! ## Hypotheses met, and what then happens -/

/-! ### IdlesAndKeepsTheQueue -/

theorem wit_IdlesAndKeepsTheQueue_idle : State.reset.pending = [] := by decide +kernel

theorem test_IdlesAndKeepsTheQueue_idle : step State.reset = .next { State.reset with now := 1 } := eq_of_sameOutcome (by decide +kernel)

theorem wit_IdlesAndKeepsTheQueue_keeps : exec .idcode { up with pending := [.highz] } = .next (nx .idcode { up with pending := [.highz] }) :=
    eq_of_sameOutcome (by decide +kernel)

theorem test_IdlesAndKeepsTheQueue_keeps : (nx .idcode { up with pending := [.highz] }).pending = [.highz] := by decide +kernel

/-! ### OnlyAbsentAddressesFault -/

theorem wit_OnlyAbsentAddressesFault_fault : exec (.memRead 0 ⟨(lf 0x13 (bytesBE 8 0 ++ bytesBE 4 64 ++ bytesBE 4 7)), []⟩) ganged = .fault .deviceAddressAbsent :=
    eq_of_sameOutcome (by decide +kernel)

theorem test_OnlyAbsentAddressesFault_fault : ganged.dpUp = true := by decide +kernel

/-! ### ServiceOpenOnlyWhileConditionsHold -/

theorem wit_ServiceOpenOnlyWhileConditionsHold_open : serving.openHeld = true ∧ serving.serviceUp = true ∧
    step { serving with pending := [.hiBer l00] } = .next (nx (.hiBer l00) serving) := ⟨by decide +kernel, by decide +kernel,
    eq_of_sameOutcome (by decide +kernel)⟩

theorem test_ServiceOpenOnlyWhileConditionsHold_open : (nx (.hiBer l00) serving).serviceUp = true := by decide +kernel

theorem wit_ServiceOpenOnlyWhileConditionsHold_lost : serving.openHeld = true ∧
    step { serving with pending := [.pfail 0 1600] } = .next (nx (.pfail 0 1600) { serving with pending := [] }) :=
  ⟨by decide +kernel, (step_front _ _).trans (nx_eq (by decide +kernel))⟩

theorem test_ServiceOpenOnlyWhileConditionsHold_lost : (nx (.pfail 0 1600) serving).serviceUp = false ∧
    (nx (.pfail 0 1600) serving).openHeld = true := by decide +kernel

/-! ### JtagAndBoundaryScan -/

theorem wit_JtagAndBoundaryScan_up : State.reset.pwr.vsupOk = true ∧ (State.reset.vit.frozen = false) ∧ State.reset.vit.chain < 4 :=
    by and_intros <;> decide +kernel

theorem test_JtagAndBoundaryScan_up : exec .idcode State.reset = .next (State.reset.settled { State.reset with vit := { State.reset.vit with ir := 1, drive := .device, pulsing := false }, out := [.tdo 32 0x1964056B] }) :=
    eq_of_sameOutcome (by decide +kernel)

theorem wit_JtagAndBoundaryScan_id : let s := { State.reset with vit := { chain := 0xF0 } }; s.pwr.vsupOk = true ∧ 0xF0 ≤ s.vit.chain ∧
    s.vit.chain ≤ 0xF3 := by and_intros <;> decide +kernel

theorem wit_JtagAndBoundaryScan_hi : let s := { State.reset with vit := { chain := 0xF4 } }; s.pwr.vsupOk = true ∧ 0xF3 < s.vit.chain :=
    by and_intros <;> decide +kernel

theorem wit_JtagAndBoundaryScan_byp : (0x26 : Byte).toNat = 0x26 := by decide +kernel

theorem wit_JtagAndBoundaryScan_scan : let s := { up with vit := { frozen := true, chain := 0xF0 } }; s.pwr.vsupOk = true ∧
    s.vit.frozen = true := by and_intros <;> decide +kernel

theorem wit_JtagAndBoundaryScan_bnd : let s := { State.reset with pwr := { resetN := true } }; s.pwr.vsupOk = true ∧
    (s.vit.frozen = true ∨ s.pwr.resetN = true) := by and_intros <;> decide +kernel

theorem wit_JtagAndBoundaryScan_byp2 : up.pwr.vsupOk = true ∧ up.vit.frozen = false ∧ up.pwr.resetN = false := by and_intros <;> decide +kernel

/-! ### VitrineEntry -/

theorem wit_VitrineEntry_in : up.heldInReset = false ∧ up.vit.frozen = false ∧ up.mus.state ≠ .mustering ∧
    up.flag VIT.JTAG_LOCK = false := by and_intros <;> decide +kernel

theorem test_VitrineEntry_in : let t := nx (.vitrineN 3200) up; t.vit.frozen = true ∧ t.get VIT.CAUSE = 1 ∧ t.get VIT.ENTRIES = 1 ∧
    t.evt VIT.page VIT.evVITRINE_ENTERED = true ∧ t.key.rootGone = true ∧ t.get CPH.PRIV_ERASED = 1 := by decide +kernel

theorem wit_VitrineEntry_defer : mustering.heldInReset = false ∧ mustering.vit.frozen = false ∧ mustering.mus.state = .mustering :=
    by and_intros <;> decide +kernel

theorem test_VitrineEntry_defer : let t := nx .vitrine mustering; t.vit.deferred = some 2 ∧ t.vit.frozen = false ∧
    t.key = mustering.key := by decide +kernel

theorem wit_VitrineEntry_lock : (up.put VIT.JTAG_LOCK 1).flag VIT.JTAG_LOCK = true ∧ (up.put VIT.JTAG_LOCK 1).heldInReset = false :=
    by and_intros <;> decide +kernel

theorem test_VitrineEntry_lock : let t := nx .vitrine (up.put VIT.JTAG_LOCK 1); t.evt VIT.page VIT.evJTAG_REFUSED = true ∧
    t.vit.frozen = false := by decide +kernel

/-! ### DebugReset -/

theorem wit_DebugReset_mustered : let s := { up with mus := { state := .mustered } }; s.heldInReset = false ∧ s.norInFlight = false ∧
    s.mus.state = .mustered ∧ s.vit.frozen = false := by
  and_intros <;> decide +kernel

theorem wit_DebugReset_run : up.heldInReset = false ∧ up.norInFlight = false ∧ up.vit.frozen = false := by and_intros <;> decide +kernel

theorem test_DebugReset_run : let t := nx (.dbgReset 3) up; t.vit.frozen = false ∧ bitOf (t.get RST.CAUSE) 5 = true ∧
    t.mus.state = .unready ∧ (nx (.dbgReset 1) up).cur.booting = true := by decide +kernel

theorem wit_DebugReset_frozen : frozen.heldInReset = false ∧ frozen.norInFlight = false ∧ frozen.vit.frozen = true := by and_intros <;> decide +kernel

theorem test_DebugReset_frozen : let t := nx (.dbgReset 1) frozen; t.vit.frozen = true ∧ t.cur = frozen.cur ∧
    (nx (.dbgReset 3) frozen).vit.frozen = false := by decide +kernel

/-! ### PowerSequencer -/

theorem wit_PowerSequencer_locked : let s := { State.reset with pwr := { locked := true } }; s.canWrite .smbus PSQ.SEQ_GO = true ∧
    s.pwr.locked = true := by and_intros <;> decide +kernel

theorem wit_PowerSequencer_bad : State.reset.canWrite .smbus PSQ.SEQ_GO = true ∧ State.reset.pwr.locked = false ∧
    State.reset.seqLen = 0 := by and_intros <;> decide +kernel

theorem wit_PowerSequencer_two : let s := (tabled.put PSQ.SEQ_LEN 2).put (PSQ.CH 1) 31; s.seqLen = 2 ∧ s.get (PSQ.CH 1) = 31 ∧
    s.canWrite .smbus PSQ.SEQ_GO = true := by and_intros <;> decide +kernel

theorem wit_PowerSequencer_same : let s := tabled.put (PSQ.EN 1) (tabled.get (PSQ.EN 0)); s.seqLen = 2 ∧
    s.get (PSQ.EN 0) = s.get (PSQ.EN 1) := by and_intros <;> decide +kernel

theorem wit_PowerSequencer_slow : let s := tabled.put (PSQ.DIS_TMO_MS 0) 50;
    50 < ((List.range s.seqLen).map fun k => max 1 (s.get (PSQ.DIS_TMO_MS k))).sum := by decide +kernel

theorem wit_PowerSequencer_good : tabled.canWrite .smbus PSQ.SEQ_GO = true ∧ tabled.pwr.locked = false ∧ 0 < tabled.seqLen ∧
    (∀ i < tabled.seqLen, ∀ j < tabled.seqLen, i < j → tabled.get (PSQ.EN i) ≠ tabled.get (PSQ.EN j)) ∧
    (∀ i < tabled.seqLen, tabled.get (PSQ.CH i) ≠ 31) ∧
    ((List.range tabled.seqLen).map fun k => max 1 (tabled.get (PSQ.DIS_TMO_MS k))).sum ≤ 50 := by and_intros <;> decide +kernel

theorem wit_PowerSequencer_pcie : (up.put PCE.LINK_UP 1).canWrite .pcie PSQ.SEQ_GO = true := by decide +kernel

theorem wit_PowerSequencer_curator : up.canWrite (.curator 2) PSQ.SEQ_GO = true := by decide +kernel

theorem wit_PowerSequencer_conv : rising.pwr.vsupOk = true ∧ rising.pwr.seq = .rising ∧ rising.pwr.wait = .good ∧
    (5 : Fin 32).val ≠ 31 ∧ rising.get (PSQ.CH rising.pwr.entry) = (5 : Fin 32).val ∧
    rising.get (PSQ.GOOD_MIN rising.pwr.entry) ≤ min 16383 (18750000 * 16384 / 2048000000) ∧
    min 16383 (18750000 * 16384 / 2048000000) ≤ rising.get (PSQ.GOOD_MAX rising.pwr.entry) ∧ rising.get (PSQ.DELAY_MS rising.pwr.entry) ≠ 0 :=
    by and_intros <;> decide +kernel

theorem test_PowerSequencer_conv : let t := nx (.conversion 100 5 { nv := 18750000 }) rising; t.pwr = { rising.pwr with wait := .delay } ∧
    t.get (SCN.CODE 5) = 150 := by decide +kernel

theorem wit_PowerSequencer_delay : let s := { rising with pwr := { rising.pwr with wait := .delay } }; s.pwr.wait = .delay ∧
    s.pwr.entry + 1 < s.seqLen := by and_intros <;> decide +kernel

theorem wit_PowerSequencer_last : let s := { rising with pwr := { rising.pwr with wait := .delay, entry := 1 } }; s.pwr.wait = .delay ∧
    s.seqLen ≤ s.pwr.entry + 1 := by and_intros <;> decide +kernel

theorem test_PowerSequencer_last : let t := nx .seqDelay { rising with pwr := { rising.pwr with wait := .delay, entry := 1 } };
    t.pwr.seq = .on ∧ t.pwr.wait = .none ∧ t.pwr.seqEn = rising.pwr.seqEn ∧ t.evt PSQ.page PSQ.evSEQ_DONE = true := by decide +kernel

theorem wit_PowerSequencer_late : rising.pwr.wait = .good ∧ rising.pwr.seq = .rising := by and_intros <;> decide +kernel

theorem test_PowerSequencer_late : let t := nx .seqUpTimeout rising; t.pwr.seq = .falling ∧ t.pwr.toFault = true ∧
    t.pwr.failEntry = rising.pwr.entry ∧ t.evt PSQ.page PSQ.evSEQ_FAULT = true := by decide +kernel

theorem wit_PowerSequencer_down : falling.pwr.vsupOk = true ∧ falling.pwr.seq = .falling ∧ falling.pwr.wait = .discharged ∧
    0 < falling.pwr.entry := by and_intros <;> decide +kernel

theorem test_PowerSequencer_down : let t := nx .disTimeout falling;
    t.pwr = { falling.pwr with disLate := setBit falling.pwr.disLate falling.pwr.entry true, entry := falling.pwr.entry - 1, seqEn := setBit falling.pwr.seqEn (falling.get (PSQ.EN (falling.pwr.entry - 1))) false } ∧
    t.evt PSQ.page PSQ.evDIS_LATE_EVT = true := by decide +kernel

theorem wit_PowerSequencer_off : let s := { falling with pwr := { falling.pwr with entry := 0 } }; s.pwr.seq = .falling ∧
    s.pwr.wait = .discharged ∧ s.pwr.entry = 0 := by and_intros <;> decide +kernel

theorem test_PowerSequencer_off : let t := nx .disTimeout { falling with pwr := { falling.pwr with entry := 0 } }; t.pwr.seq = .off ∧
    bitOf t.pwr.disLate 0 = true := by decide +kernel

/-! ### SupplyLossAndReturn -/

theorem wit_SupplyLossAndReturn_low : dark.pwr.vsupOk = false := by decide +kernel

theorem wit_SupplyLossAndReturn_ok : up.pwr.vsupOk = true := by decide +kernel

/-! ### ResetNPin -/

theorem wit_ResetNPin_long : up.pwr.vsupOk = true ∧ up.pwr.resetLow = false ∧ up.norInFlight = false := by and_intros <;> decide +kernel

theorem wit_ResetNPin_busy : norBusyState.pwr.resetLow = false ∧ norBusyState.norInFlight = true := by and_intros <;> decide +kernel

theorem wit_ResetNPin_rel : let s := { up with pwr := { up.pwr with resetLow := true, resetN := true } }; s.pwr.vsupOk = true ∧
    s.pwr.resetLow = true := by and_intros <;> decide +kernel

theorem test_ResetNPin_rel : let t := nx .resetNRelease { up with pwr := { up.pwr with resetLow := true, resetN := true } };
    t.pwr.resetLow = false ∧ t.pwr.resetN = false := by decide +kernel

/-! ### SoftwareResets -/

theorem wit_SoftwareResets_now : up.canWrite .smbus RST.SW_MGMT = true ∧ up.canWrite .smbus RST.SW_DP = true ∧ up.norInFlight = false ∧
    up.cur.fw = [] := by and_intros <;> decide +kernel

theorem test_SoftwareResets_now : let t := nx (.swMgmt .smbus) up; t.cur.booting = true ∧ t.cur.verified = false ∧
    bitOf (t.get RST.CAUSE) 4 = true ∧ t.evt RST.page RST.evMGMT_RESET = true ∧ t.q = up.q ∧ t.net = up.net ∧
    (let t := nx (.swDp .smbus) up; t.cur.booting = true ∧ bitOf (t.get RST.CAUSE) 4 = true ∧ t.q = {} ∧ t.win = {}) := by decide +kernel

theorem wit_SoftwareResets_wait : norBusyState.canWrite .smbus RST.SW_MGMT = true ∧ norBusyState.canWrite .smbus RST.SW_DP = true ∧
    norBusyState.norInFlight = true := by and_intros <;> decide +kernel

theorem wit_SoftwareResets_cur : up.canWrite (.curator 1) RST.SW_DP = true := by decide +kernel

/-! ### ClockFailure -/

theorem wit_ClockFailure_up : up.pwr.vsupOk = true ∧ up.dpUp = true ∧ up.norInFlight = false ∧ up.musterWaits = false := by and_intros <;> decide +kernel

theorem test_ClockFailure_up : let t := nx (.clockFail 5) up; t.clk.coreLock = false ∧ t.pwr.onBackup = true ∧
    t.evt RST.page RST.evCLOCK_FAIL = true ∧ t.key.rootGone = true ∧ bitOf (t.get CPH.ALARM_CAUSE) 1 = true ∧
    bitOf t.mus.causes 6 = true ∧ t.mus.state = .mustering ∧
    (let u := nx .synLockReturn t; u.clk.coreLock = true ∧ u.pwr.onBackup = false) := by decide +kernel

/-! ### JunctionTemperature -/

theorem wit_JunctionTemperature_cool : up.pwr.vsupOk = true ∧ (∀ i : Nat, i < 24 → sensorOut (List.replicate 24 60) i = false) ∧
    (∀ i : Nat, i < 24 → (List.replicate 24 (60 : Int)).getD i 0 < 105 ∧ (List.replicate 24 (60 : Int)).getD i 0 < Int.ofNat (up.get CEN.TJ_WARN)) :=
    by and_intros <;> decide +kernel

theorem test_JunctionTemperature_cool : let t := nx (.thermalRead 1 (List.replicate 24 60)) up; t.pwr.tj = 60 ∧ t.pwr.excluded = [] ∧
    t.pwr.throttled = false := by decide +kernel

theorem wit_JunctionTemperature_hot : (∀ i : Nat, i < 24 → sensorOut (List.replicate 24 105) i = false) ∧
    (∀ i : Nat, i < 24 → (List.replicate 24 (105 : Int)).getD i 0 < 120) ∧ 105 ≤ (List.replicate 24 (105 : Int)).getD 0 0 :=
    by and_intros <;> decide +kernel

theorem test_JunctionTemperature_hot : let t := nx (.thermalRead 1 (List.replicate 24 105)) up; t.pwr.throttled = true ∧
    t.pwr.tripped = false := by decide +kernel

theorem wit_JunctionTemperature_off : throttled.pwr.throttled = true ∧ throttled.pwr.tj ≤ 100 ∧ throttled.sensorLow = false :=
    by and_intros <;> decide +kernel

/-! ### Parking -/

theorem wit_Parking_rej : up.dpUp = true ∧ up.canWrite .smbus PSQ.PARK = true ∧ up.serviceUp = false := by and_intros <;> decide +kernel

theorem wit_Parking_req : serving.dpUp = true ∧ serving.canWrite .smbus PSQ.PARK = true ∧ serving.serviceUp = true ∧
    serving.mus.state = .armed ∧ serving.cm.twin ≠ .returning ∧ serving.pwr.park = .awake := by and_intros <;> decide +kernel

theorem wit_Parking_parked : (parkedAs .parked).dpUp = true ∧ (parkedAs .parked).pwr.park = .parked ∧
    (parkedAs .parked).canWrite .smbus PSQ.PARK = true ∧ ((parkedAs .parked).put PSQ.WAKE_SIG_EN 1).flag PSQ.WAKE_SIG_EN = true :=
    by and_intros <;> decide +kernel

theorem wit_Parking_parking : (parkedAs .parking).pwr.park = .parking := by decide +kernel

theorem test_Parking_parking : let t := nx .parked (parkedAs .parking); t.pwr.park = .parked ∧ t.pwr.hostSerdes = false ∧
    t.evt PSQ.page PSQ.evPARKED_EVT = true := by decide +kernel

theorem wit_Parking_waking : (parkedAs .waking).pwr.park = .waking := by decide +kernel

/-! ### ExpertUnlock -/

theorem wit_ExpertUnlock_page : up.canWritePage .smbus (0x50 : Byte).toNat = true := by decide +kernel

theorem wit_ExpertUnlock_step : let s := up.put (HDR.KEY_STEP 0x50) 1; s.canWritePage .smbus (0x50 : Byte).toNat = true ∧
    s.flag (HDR.KEY_STEP 0x50) = true := by and_intros <;> decide +kernel

/-! ### PendingEventsCleared -/

theorem wit_PendingEventsCleared_page : up.canWritePage .smbus (RTC.page : Nat) = true ∧ up.evt RTC.page RTC.evOSC_FAIL_EVT = true :=
    by and_intros <;> decide +kernel

theorem test_PendingEventsCleared_page : let t := nx (.evtPendingClear .smbus 6 255) up; t.evt RTC.page RTC.evOSC_FAIL_EVT = false :=
    by decide +kernel

/-! ### BlockEnableAndReset -/

theorem wit_BlockEnableAndReset_gng : up.canWritePage .smbus GNG.page = true ∧ up.flag (HDR.ENABLE GNG.page) = false ∧
    up.flag (HDR.PENDING_OFF GNG.page) = false ∧ fixedPage GNG.page = false := by
  and_intros <;> decide +kernel

theorem wit_BlockEnableAndReset_drained : let s := up.put (HDR.ENABLE 0x40) 1; s.flag (HDR.ENABLE 0x40) = true ∧ s.mayDisable 0 = true ∧
    s.flag (HDR.PENDING_OFF 0x40) = false := by
  and_intros <;> decide +kernel

theorem wit_BlockEnableAndReset_fixed : up.canWritePage .smbus (1 : Byte).toNat = true ∧ fixedPage 1 = true := by and_intros <;> decide +kernel

theorem wit_BlockEnableAndReset_pend : let s := up.put (HDR.PENDING_OFF 0x10) 1; s.canWritePage .smbus (0x10 : Byte).toNat = true ∧
    s.flag (HDR.PENDING_OFF 0x10) = true ∧ fixedPage 0x10 = false := by and_intros <;> decide +kernel

theorem wit_BlockEnableAndReset_on : up.canWritePage .smbus (0x10 : Byte).toNat = true ∧ up.flag (HDR.PENDING_OFF 0x10) = false ∧
    up.flag (HDR.ENABLE 0x10) = false := by and_intros <;> decide +kernel

theorem wit_BlockEnableAndReset_fch : up.canWritePage .smbus (0x60 : Byte).toNat = true ∧ up.flag (HDR.PENDING_OFF 0x60) = false ∧
    up.flag (HDR.ENABLE 0x60) = false := by and_intros <;> decide +kernel

theorem test_BlockEnableAndReset_fch : let t := nx (.enable .smbus 0x60 ⟨true, {}⟩) up; t.get (HDR.ENABLE 0x60) = 1 ∧
    t.get (FCH.IN_SERVICE 0) = 1 ∧ t.get (FCH.TRAINED 0) = 1 ∧ t.q.refigure = true := by decide +kernel

theorem wit_BlockEnableAndReset_off : let s := up.put (HDR.ENABLE 0x10) 1; s.flag (HDR.ENABLE 0x10) = true ∧
    s.flag (HDR.PENDING_OFF 0x10) = false := by and_intros <;> decide +kernel

theorem wit_BlockEnableAndReset_stk : let s := hosted.put (HDR.ENABLE 0x40) 1; s.flag (HDR.ENABLE 0x40) = true ∧ s.mayDisable 0 = false ∧
    s.canWritePage .smbus (0x40 : Byte).toNat = true := by and_intros <;> decide +kernel

theorem wit_BlockEnableAndReset_shut : up.dpUp = true ∧ up.flag (HDR.PENDING_OFF 0x10) = false := by and_intros <;> decide +kernel

theorem wit_BlockEnableAndReset_shut2 : let s := (up.put (HDR.PENDING_OFF 0x10) 1).put (HDR.REMEMBERED 0x10) 1; s.dpUp = true ∧
    s.flag (HDR.PENDING_OFF 0x10) = true := by and_intros <;> decide +kernel

theorem test_BlockEnableAndReset_shut2 : let t := nx (.shutdownDone 0x10) ((up.put (HDR.PENDING_OFF 0x10) 1).put (HDR.REMEMBERED 0x10) 1);
    t.get (HDR.PENDING_OFF 0x10) = 0 ∧ t.get (HDR.REMEMBERED 0x10) = 0 ∧ t.get (HDR.ENABLE 0x10) = 1 := by decide +kernel

theorem wit_BlockEnableAndReset_rst : up.canWritePage .smbus (0x50 : Byte).toNat = true ∧ fixedPage 0x50 = false := by and_intros <;> decide +kernel

theorem wit_BlockEnableAndReset_rstd : let s := up.put (HDR.IN_RESET 0x50) 1; s.dpUp = true ∧ s.flag (HDR.IN_RESET 0x50) = true ∧
    fixedPage 0x50 = false := by and_intros <;> decide +kernel

/-! ### CanaryInjects -/

theorem wit_CanaryInjects_ref : up.canWritePage .smbus (0x50 : Byte).toNat = true ∧ up.flag SYS.CANARY_ARM = false := by and_intros <;> decide +kernel

theorem wit_CanaryInjects_fire : armedCanary.canWritePage .smbus (0x50 : Byte).toNat = true ∧ armedCanary.flag SYS.CANARY_ARM = true ∧
    armedCanary.flag (HDR.EXPERT 0x50) = true ∧ armedCanary.vit.frozen = false ∧ bitsOf 0x102 0 5 < pageEvents 0x50 := by and_intros <;> decide +kernel

/-! ### SnapshotsAndLatches -/

theorem wit_SnapshotsAndLatches_sel : (0x020, 0x040, 16) ∈ tableWindows QMG.page ∧ up.canWritePage .smbus QMG.page = true :=
    by and_intros <;> decide +kernel

theorem test_SnapshotsAndLatches_sel : let a := BitVec.ofNat 20 (QMG.page * 4096 + 0x020); let t := nx (.selectorWrite .smbus a 5) up;
    mget t.snap (QMG.page * 4096 + 0x040) = some ((List.range 16).map fun i => t.liveWord QMG.page (0x040 + 4 * i) true) :=
    by decide +kernel

theorem wit_SnapshotsAndLatches_w0 : (BitVec.ofNat 20 (QMG.page * 4096 + 0x040)).toNat % 4096 = 0x040 := by decide +kernel

theorem test_SnapshotsAndLatches_w0 : let a := BitVec.ofNat 20 (QMG.page * 4096 + 0x040); let t := nx (.windowWord0Read .smbus a) up;
    t.out = up.out ++ [.regData .smbus a.toNat (up.liveWord QMG.page 0x040 true)] := by decide +kernel

theorem wit_SnapshotsAndLatches_off : (BitVec.ofNat 20 (QMG.page * 4096 + 0x020)).toNat % 4096 = 0x020 ∧
    (BitVec.ofNat 20 (QMG.page * 4096 + 0x020)).toNat % 4 = 0 ∧ (BitVec.ofNat 20 (EPC.page * 4096 + 0x028)).toNat % 4 = 0 := by
  and_intros <;> decide +kernel

theorem wit_SnapshotsAndLatches_lo : up.canWritePage .smbus EPC.page = true ∧ windowAt EPC.page 0x028 = none ∧
    up.hiOf EPC.page 0x028 = some 0 ∧ EPC.page ≠ RTC.page ∧ EPC.page ≠ CEN.page := by and_intros <;> decide +kernel

theorem test_SnapshotsAndLatches_lo : let s := { up with ep := { up.ep with num := 7 * 2 ^ 32 + 9 } };
    let a := BitVec.ofNat 20 (EPC.page * 4096 + 0x028); let t := nx (.latchingLoRead .smbus a) s; t.get (HDR.LATCH EPC.page 0x028) = 7 ∧
    t.out = [.regData .smbus a.toNat 9] := by decide +kernel

/-! ### RegisterWriteRules -/

theorem wit_RegisterWriteRules_bad : up.pwr.vsupOk = true ∧ up.reaches .smbus (0x50000 / 4096) = true := by and_intros <;> decide +kernel

theorem wit_RegisterWriteRules_rsv : pageBase (0xF0000 / 4096) = none ∧ up.reaches .smbus (0xF0000 / 4096) = true := by and_intros <;> decide +kernel

theorem wit_RegisterWriteRules_ro : (pageBase 0).isSome = true ∧
    (∀ f : Fld, f ∈ pageFields 0 → f.off = 0x20 → f.acc = .ro ∨ f.acc = .ros) ∧
    (∀ x : Nat × Nat × Nat, x ∈ tableWindows 0 → x.1 ≠ 0x20) := by and_intros <;> decide +kernel

theorem wit_RegisterWriteRules_two : (up.put PCE.LINK_UP 1).reaches .pcie (0x50030 / 4096) = true := by decide +kernel

/-! ### SmbusTarget -/

theorem wit_SmbusTarget_all : State.reset.pwr.vsupOk = true ∧ State.reset.pecGood none = true ∧ State.reset.pecGood (some false) = false ∧
    smbusAddr (bytesLE 3 0x2028 ++ bytesLE 4 1) % 4 = 0 ∧ smbusAddr (bytesLE 3 0x2028) % 4 = 0 := by and_intros <;> decide +kernel

/-! ### PcieLinkAndInterrupt -/

theorem wit_PcieLinkAndInterrupt_codes : (0 : BitVec 3).toNat < 1 ∧ 5 < (6 : BitVec 3).toNat ∧ (3 : BitVec 3).toNat ∉ [1, 2, 4] := by
  and_intros <;> decide +kernel

theorem wit_PcieLinkAndInterrupt_up : up.pwr.vsupOk = true ∧ (1 : Nat) ≤ (5 : BitVec 3).toNat ∧ up.flag PCE.LINK_UP = false :=
    by and_intros <;> decide +kernel

theorem wit_PcieLinkAndInterrupt_down : (up.put PCE.LINK_UP 1).flag PCE.LINK_UP = true := by decide +kernel

theorem wit_PcieLinkAndInterrupt_msix : let s := irq; s.pcieIrq = false ∧
    bitOf (s.get (HDR.EVT_ENABLE SMB.page)) SMB.evTIMEOUT_EVT = true ∧
    bitOf (s.get (SYS.PCIE_MASK (SMB.page / 32))) (SMB.page % 32) = true ∧ s.flag PCE.MSIX_EN = true ∧ s.flag PCE.MSIX_MASKED = false ∧
    bitOf (s.get PCE.MSIX_CTRL) 0 = false ∧ s.flag PCE.LINK_UP = true := by and_intros <;> decide +kernel

theorem test_PcieLinkAndInterrupt_msix : (nx .smbusTimeout irq).out = [.msix (irq.get PCE.MSIX_ADDR_LO + 2 ^ 32 * irq.get PCE.MSIX_ADDR_HI) (irq.get PCE.MSIX_DATA)] :=
    by decide +kernel

theorem wit_PcieLinkAndInterrupt_pba : let s := irq.put PCE.LINK_UP 0; s.pcieIrq = false ∧ s.flag PCE.LINK_UP = false :=
    by and_intros <;> decide +kernel

theorem test_PcieLinkAndInterrupt_pba : (nx .smbusTimeout (irq.put PCE.LINK_UP 0)).out = [] ∧
    (nx .smbusTimeout (irq.put PCE.LINK_UP 0)).get PCE.MSIX_PBA = 1 := by decide +kernel

/-! ### EpochFrameRoundTrip -/

theorem wit_EpochFrameRoundTrip_b : (0xFFFFFFFFFFFFFFFF : Nat) < 2 ^ 64 ∧ (255 : Nat) < 256 := by and_intros <;> decide +kernel

theorem test_EpochFrameRoundTrip_b : readFrame (frameBits 0xFFFFFFFFFFFFFFFF 255 ++ [true]) = .good 0xFFFFFFFFFFFFFFFF 255 ∧
    readFrame (frameBits 0x7F00FF12345 3) = .good 0x7F00FF12345 3 := by decide +kernel

/-! ### EpochFrameChecked -/

theorem wit_EpochFrameChecked_none : up.dpUp = true ∧ readFrame [] = .noSync := by and_intros <;> decide +kernel

theorem wit_EpochFrameChecked_bad : aligned.dpUp = true ∧ aligned.usesEpoch = true ∧
    readFrame (syncBits ++ List.replicate 100 true) = .bad := by and_intros <;> decide +kernel

theorem test_EpochFrameChecked_bad : let t := nx (.epochFrame 100000 (syncBits ++ List.replicate 100 true)) aligned;
    t.evt EPC.page EPC.evCRC_ERR = true ∧ t.ep.num = aligned.ep.num := by decide +kernel

theorem wit_EpochFrameChecked_good : aligned.usesEpoch = true ∧ readFrame (frameBits 1000 3) = .good 1000 3 ∧
    aligned.clk.epochDllIn = true ∧ aligned.ep.state = .aligned ∧ aligned.ep.edge = some 100000 ∧ aligned.ep.seen = false :=
    by and_intros <;> decide +kernel

theorem test_EpochFrameChecked_good : let t := nx (.epochFrame 100000 (frameBits 1000 3)) aligned; t.ep.state = .aligned ∧
    t.ep.seen = true ∧ t.ep.missRow = 0 ∧ t.ep.lastGood = some (100000, 1000) ∧ t.ep.num = 1000 ∧ t.get EPC.FLAGS_LAST = 3 :=
    by decide +kernel

theorem wit_EpochFrameChecked_mis : readFrame (frameBits 1001 3) = .good 1001 3 := by decide +kernel

theorem test_EpochFrameChecked_mis : let t := nx (.epochFrame 100000 (frameBits 1001 3)) aligned;
    t.evt EPC.page EPC.evNUM_MISMATCH = true ∧ t.ep.num = 1000 ∧ t.get EPC.MISSED = 1 := by decide +kernel

/-! ### BoundaryAdvancesTheEpoch -/

theorem wit_BoundaryAdvancesTheEpoch_awaits : let s := { aligned with ep := { aligned.ep with state := .holdover, target := some ⟨100, 1, 8000⟩ } };
    s.dpUp = true ∧ s.ep.state = .holdover ∧ s.awaitsEdge = true := by
  and_intros <;> decide +kernel

theorem wit_BoundaryAdvancesTheEpoch_ahead : let s := { relaying with ep := { relaying.ep with markers := [⟨1005, 101000⟩] } };
    s.dpUp = true ∧ s.ep.state = .relay ∧ s.ep.returning = false ∧ s.ep.markers.find? (s.ep.num ≤ ·.num) = some ⟨1005, 101000⟩ ∧
    101000 * 256 + s.ep.period - s.cm.delay * 256 ≤ s.ep.last256 + s.ep.period + s.ep.period / 2 := by
  and_intros <;> decide +kernel

theorem wit_BoundaryAdvancesTheEpoch_behind : let s := { relaying with ep := { relaying.ep with markers := [⟨999, 108400⟩] } };
    s.ep.state = .relay ∧ s.ep.returning = false ∧ (∀ m ∈ s.ep.markers, m.num < s.ep.num) := by
  and_intros <;> decide +kernel

theorem wit_BoundaryAdvancesTheEpoch_edge : let s := { aligned with ep := { aligned.ep with seen := true } }; s.usesEpoch = true ∧
    s.ep.state = .aligned ∧ s.ep.relayNext = false ∧ s.ep.seen = true ∧ s.inWin 108000 (s.ep.last256 + s.ep.period) = true :=
    by and_intros <;> decide +kernel

theorem test_BoundaryAdvancesTheEpoch_edge : let s := { aligned with ep := { aligned.ep with seen := true } };
    let t := nx (.epochBoundary 108000 {}) s; t.ep.state = .aligned ∧ t.ep.num = 1001 ∧ t.ep.last256 = 108000 * 256 ∧
    t.ep.edge = some 108000 := by decide +kernel

theorem wit_BoundaryAdvancesTheEpoch_out : aligned.inWin 90000 (aligned.ep.last256 + aligned.ep.period) = false := by decide +kernel

theorem wit_BoundaryAdvancesTheEpoch_miss : let s := { aligned with ep := { aligned.ep with seen := true } }; s.ep.missRow = 0 ∧
    s.ep.seen = true := by and_intros <;> decide +kernel

theorem test_BoundaryAdvancesTheEpoch_miss : let s := { aligned with ep := { aligned.ep with seen := true } };
    let t := nx (.expectedTimeBoundary {}) s; t.ep.state = .aligned ∧ t.ep.num = 1001 ∧ t.ep.last256 = s.ep.last256 + s.ep.period ∧
    t.ep.edge = none ∧ t.ep.missRow = 1 := by decide +kernel

theorem wit_BoundaryAdvancesTheEpoch_relay : relaying.ep.state = .relay ∧ relaying.ep.returning = false ∧
    relaying.ep.markers.find? (relaying.ep.num ≤ ·.num) = some ⟨1000, 108400⟩ ∧ relaying.ep.num = 1000 := by and_intros <;> decide +kernel

theorem test_BoundaryAdvancesTheEpoch_relay : let t := nx (.relayedBoundary {}) relaying; t.ep.state = .relay ∧ t.ep.num = 1001 ∧
    t.ep.last256 = 108400 * 256 + relaying.ep.period - relaying.cm.delay * 256 ∧ t.ep.markerMiss = 0 := by decide +kernel

theorem wit_BoundaryAdvancesTheEpoch_nomark : let s := { relaying with ep := { relaying.ep with markers := [], markerMiss := 1 } };
    s.ep.state = .relay ∧ s.ep.returning = false ∧ s.ep.markerMiss = 1 ∧ s.ep.period ≠ 0 := by and_intros <;> decide +kernel

theorem test_BoundaryAdvancesTheEpoch_nomark : let s := { relaying with ep := { relaying.ep with markers := [], markerMiss := 1 } };
    let t := nx (.relayMarkerMissing {}) s; t.ep.num = 1001 ∧ t.ep.state = .holdover ∧ t.evt EPC.page EPC.evHOLDOVER_ENTER = true ∧
    (let t := nx (.relayMarkerMissing {}) { s with ep := { s.ep with markerMiss := 0 } }; t.ep.state = .relay ∧ t.ep.markerMiss = 1) :=
    by decide +kernel

theorem wit_BoundaryAdvancesTheEpoch_hold : let s := { aligned with ep := { aligned.ep with state := .holdover } };
    s.ep.state = .holdover ∧ s.dpUp = true ∧ s.awaitsEdge = false := by and_intros <;> decide +kernel

theorem test_BoundaryAdvancesTheEpoch_hold : let s := { aligned with ep := { aligned.ep with state := .holdover } };
    let t := nx (.holdoverBoundary {}) s; t.ep.state = .holdover ∧ t.ep.num = 1001 ∧ t.ep.last256 = s.ep.last256 + s.ep.period :=
    by decide +kernel

theorem wit_BoundaryAdvancesTheEpoch_second : let s := { aligned with ep := { aligned.ep with seen := true, missRow := 1 } };
    s.usesEpoch = true ∧ s.ep.state = .aligned ∧ s.ep.relayNext = false ∧ s.ep.seen = true ∧ s.ep.missRow = 1 ∧ s.ep.period ≠ 0 :=
    by and_intros <;> decide +kernel

theorem test_BoundaryAdvancesTheEpoch_second : let s := { aligned with ep := { aligned.ep with seen := true, missRow := 1 } };
    let t := nx (.expectedTimeBoundary {}) s; t.ep.num = 1001 ∧ t.evt EPC.page EPC.evLOST = true ∧
    (t.ep.relayNext = true ∨ t.ep.state = .holdover ∧ t.evt EPC.page EPC.evHOLDOVER_ENTER = true) := by decide +kernel

/-! ### EpochInputControl -/

theorem wit_EpochInputControl_both : up.canWrite .smbus EPC.ALIGN_EN = true ∧
    (up.put (HDR.EXPERT EPC.page) 1).canWrite .smbus EPC.FORCE_HOLDOVER = true ∧ up.flag EPC.FORCE_HOLDOVER = false ∧
    up.flag EPC.ALIGN_EN = true := by and_intros <;> decide +kernel

theorem test_EpochInputControl_both : let t := nx (.alignEn .smbus false) aligned; t.flag EPC.ALIGN_EN = false ∧ t.ep.lastGood = none ∧
    (nx (.forceHoldover .smbus false) aligned).ep = aligned.ep ∧ (nx (.alignEn .smbus true) aligned).ep = aligned.ep := by decide +kernel

/-! ### HostLinksPfcAndAddresses -/

theorem wit_HostLinksPfcAndAddresses_nolink : up.dpUp = true ∧ up.linkUp l00 = false ∧ up.linkUp (dg 1 (hq 0 0 0) []).frame.link = false := by
  and_intros <;> decide +kernel

theorem wit_HostLinksPfcAndAddresses_up : let s := (regs up [(HDR.ENABLE (HP.page 0), 1)]); s.dpUp = true ∧ bitOf s.clk.srdLock (l00.port.val / 4) = true ∧
    bitOf (s.get (HP.LINK_UP l00.port.val)) l00.sub.val = false ∧ s.flag (HDR.ENABLE (HP.page l00.port.val)) = true ∧
    l00.sub.val < s.portLinks l00.port.val := by and_intros <;> decide +kernel

theorem wit_HostLinksPfcAndAddresses_srd : bitOf ({ up with clk := { up.clk with srdLock := 0 } } : State).clk.srdLock (l00.port.val / 4) = false ∧
    8 ≤ (⟨12, 0⟩ : HostLink).port.val := by and_intros <;> decide +kernel

theorem wit_HostLinksPfcAndAddresses_down : let s := (regs up [(HP.LINK_UP 0, 1), (XPT.IPV4_EN 0, 1), (XPT.IPV6_EN 0, 0), (XPT.IPV4 0 0, 77), (HP.PFC_PRIO 0, 255)]);
    s.dpUp = true ∧ bitOf (s.get (HP.LINK_UP l00.port.val)) l00.sub.val = true := by and_intros <;> decide +kernel

theorem wit_HostLinksPfcAndAddresses_pfc0 : let s := (regs up [(HP.LINK_UP 0, 1), (XPT.IPV4_EN 0, 1), (XPT.IPV6_EN 0, 0), (XPT.IPV4 0 0, 77), (HP.PFC_PRIO 0, 255)]);
    s.linkUp l00 = true ∧ s.flag (HP.PFC_EN l00.port.val) = false := by and_intros <;> decide +kernel

theorem wit_HostLinksPfcAndAddresses_pfc1 : let s := (regs up [(HP.LINK_UP 0, 1), (HP.PFC_EN 0, 1), (HP.PFC_PRIO 0, 255)]);
    s.dpUp = true ∧ s.linkUp l00 = true ∧ s.flag (HP.PFC_EN l00.port.val) = true ∧ s.net.waiting = [] ∧ s.net.relays = [] ∧
    bitOf (9 : BitVec 8).toNat 3 = true ∧ bitOf (s.get (HP.PFC_PRIO l00.port.val)) 3 = true := by and_intros <;> decide +kernel

theorem test_HostLinksPfcAndAddresses_pfc1 : let s := (regs up [(HP.LINK_UP 0, 1), (HP.PFC_EN 0, 1), (HP.PFC_PRIO 0, 255)]);
    let t := nx (.pfcFrame l00 9 [0, 0, 0, 500, 0, 0, 0, 0]) s; t.get (HP.PFC_RX 0) = 1 ∧
    mget t.net.paused (linkNo l00 * 8 + 3) = some (s.now + ceilDiv (500 * 4096) (5 * s.linkRate 0)) ∧
    mget t.net.paused (linkNo l00 * 8 + 0) = none := by decide +kernel

theorem wit_HostLinksPfcAndAddresses_fcs : let s := (regs up [(HP.LINK_UP 0, 1), (XPT.IPV4_EN 0, 1), (XPT.IPV6_EN 0, 0), (XPT.IPV4 0 0, 77), (HP.PFC_PRIO 0, 255)]);
    s.linkUp (dg 1 (hq 0 0 0) []).frame.link = true := by decide +kernel

theorem wit_HostLinksPfcAndAddresses_arp : let s := (regs up [(HP.LINK_UP 0, 1), (XPT.IPV4_EN 0, 1), (XPT.IPV6_EN 0, 0), (XPT.IPV4 0 0, 77), (HP.PFC_PRIO 0, 255)]);
    s.frameBad { (dg 1 (hq 0 0 0) []).frame with ip6 := false } = false ∧ (77 : BitVec 128).toNat = s.get (XPT.IPV4 0 0) ∧
    s.frameBad { (dg 1 (hq 0 0 0) []).frame with ip6 := true } = true := by and_intros <;> decide +kernel

theorem wit_HostLinksPfcAndAddresses_ns : let s := regs up [(HP.LINK_UP 0, 1), (XPT.IPV6_EN 0, 1)];
    s.frameBad { (dg 1 (hq 0 0 0) []).frame with ip6 := true } = false ∧ (BitVec.ofNat 128 (s.linkIp6 l00)).toNat = s.linkIp6 l00 :=
    by and_intros <;> decide +kernel

/-! ### RequestHeaderRoundTrip -/

theorem wit_RequestHeaderRoundTrip_op : (0x3F : Nat) < 64 := by decide +kernel

theorem test_RequestHeaderRoundTrip_op : (encodeReq (hw 7 5 9) 0x3F).length = 32 ∧
    parseReq (encodeReq { hw 7 5 9 with typ := 3, twinMask := 2, retx := true, dstDev := 0xABCD, gen := 0x7F } 0x3F ++ [1]) = ({ hw 7 5 9 with typ := 3, twinMask := 2, retx := true, dstDev := 0xABCD, gen := 0x7F }, 0x3F) :=
    by decide +kernel

/-! ### BadDatagramsDropped -/

theorem wit_BadDatagramsDropped_down : up.receives = true ∧ up.linkUp wr4.frame.link = false := by and_intros <;> decide +kernel

theorem wit_BadDatagramsDropped_fcs : hosted.receives = true ∧ hosted.linkUp wr4.frame.link = true := by and_intros <;> decide +kernel

theorem wit_BadDatagramsDropped_bad : hosted.frameBad { wr4.frame with fragment := true } = true := by decide +kernel

theorem wit_BadDatagramsDropped_icrc : hosted.arrives { wr4 with icrc := 0 } = true ∧ icrcOk { wr4 with icrc := 0 } 0x02 = false ∧
    hostRow (.write { wr4 with icrc := 0 }) = some ({ wr4 with icrc := 0 }, 0x02) := by and_intros <;> decide +kernel

/-! ### RequestsRefused -/

theorem wit_RequestsRefused_read : let d := dg 0x01 (hq 1 0xAA 1) []; hostRow (.read d) = some (d, 0x01) ∧
    hosted.hears d 0x01 = true ∧ (hosted.step10 (hosted.reqOf d 0x01) 0).isSome = true ∧ readOnly 0x01 d.payload = true ∧
    hosted.freezeCuts d.hdr.qid.toNat = false := by
  and_intros <;> decide +kernel

theorem wit_RequestsRefused_key : let d := dg 0x02 (hq 16 1 1) [1]; hostRow (.write d) = some (d, 0x02) ∧
    hosted.reachesChecks d 0x02 = true ∧ (hosted.queue d.hdr.qid.toNat).key ≠ d.hdr.qkey.toNat := by and_intros <;> decide +kernel

theorem test_RequestsRefused_key : let d := dg 0x02 (hq 16 1 1) [1]; let t := nx (.write d) hosted; t.net.rrt = hosted.net.rrt ∧
    t.net.held = [] ∧ t.net.count = hosted.net.count ∧ t.cm.ep = hosted.cm.ep ∧ t.q.q = hosted.q.q ∧ t.win = hosted.win ∧
    t.tier = hosted.tier := by decide +kernel

theorem wit_RequestsRefused_ten : let d := dg 0x3F (hq 16 0xBB 1) []; hostRow (.invalidOpcode d 0x3F) = some (d, 0x3F) ∧
    hosted.hears d 0x3F = true ∧ opClass 0x3F = none ∧ hosted.step10 (hosted.reqOf d 0x3F) 0 = some 0x01 := by and_intros <;> decide +kernel

theorem test_RequestsRefused_ten : let d := dg 0x3F (hq 16 0xBB 1) []; let t := nx (.invalidOpcode d 0x3F) hosted;
    ((t.entry d.hdr.key).map fun e => (e.answered, e.isNak, e.status, e.epoch)) = some (true, true, 1, 1000) ∧
    (t.queue 16).inFlight = (hosted.queue 16).inFlight ∧
    (readOnly 0x3F [] = false → (t.epochRec 1000).own = (hosted.epochRec 1000).own ++ [d.hdr.key] ∧ ((mget (t.epochRec 1000).reqs d.hdr.key.code).map (·.refusal)) = some (some 1)) ∧
    t.win.win = hosted.win.win ∧ t.tier = hosted.tier := by decide +kernel

theorem wit_RequestsRefused_ten2 : let d := dg 0x2F (hq 16 0xBB 1) [0,0,0,0,0,0,0,0]; hosted.hears d 0x2F = true ∧
    (hosted.step10 (hosted.reqOf d 0x2F) 0).isSome = true ∧ readOnly 0x2F d.payload = false := by and_intros <;> decide +kernel

theorem test_RequestsRefused_ten2 : let d := dg 0x2F (hq 16 0xBB 1) [0,0,0,0,0,0,0,0]; let t := nx (.muster d) hosted;
    ((t.entry d.hdr.key).map fun e => (e.answered, e.isNak, some e.status, e.epoch)) = some (true, true, hosted.step10 (hosted.reqOf d 0x2F) 0, 1000) ∧
    (t.epochRec 1000).own = [d.hdr.key] := by decide +kernel

/-! ### StateChangingRequestStaged -/

theorem wit_StateChangingRequestStaged_write : hostRow (.write wr4) = some (wr4, 0x02) ∧ readOnly 0x02 wr4.payload = false ∧
    hosted.hears wr4 0x02 = true ∧ hosted.judgedGood wr4 0x02 = true ∧ hosted.admitsNow wr4 0x02 = true := by and_intros <;> decide +kernel

theorem test_StateChangingRequestStaged_write : let t := nx (.write wr4) hosted; let d := wr4; (t.epochRec 1000).own = [d.hdr.key] ∧
    mget (t.epochRec 1000).reqs d.hdr.key.code = some { hosted.reqOf d 0x02 with admitted := some 1000 } ∧
    t.entry d.hdr.key = some { key := d.hdr.key, epoch := 1000, readOnly := false, mute := false, ret := some (retAddr d false none), time := d.frame.time } ∧ (t.queue 16).inFlight = 1 ∧
    (t.queue 16).high = laterSeq (hosted.queue 16).high 1 ∧ t.net.held = [] ∧ t.ep = hosted.ep ∧ t.win.win = hosted.win.win ∧
    t.win.dom = hosted.win.dom ∧ t.tier = hosted.tier ∧ t.mus = hosted.mus ∧ t.fl = hosted.fl ∧ t.mem = hosted.mem := by decide +kernel

theorem wit_StateChangingRequestStaged_muster : let d := dg 0x2F (hq 1 0xAA 1) [0,0,0,0,0,0,0,0]; hosted.hears d 0x2F = true ∧
    hosted.judgedGood d 0x2F = true ∧ hosted.admitsNow d 0x2F = true := by and_intros <;> decide +kernel

theorem test_StateChangingRequestStaged_muster : let d := dg 0x2F (hq 1 0xAA 1) [0,0,0,0,0,0,0,0]; let t := nx (.muster d) hosted;
    (t.epochRec 1000).own = [d.hdr.key] ∧ t.mus = hosted.mus ∧ (t.queue 1).inFlight = 1 := by decide +kernel

/-! ### AdminReadAnswered -/

theorem wit_AdminReadAnswered_open : hosted.frozenCut = false ∧ hosted.pausedAt (retAddr (dg 0x20 (hq 1 0xAA 1) []) false none) = false ∧
    hosted.net.waiting = [] := by
  and_intros <;> decide +kernel

theorem wit_AdminReadAnswered_identify : let d := dg 0x20 (hq 1 0xAA 1) []; hostRow (.identify d) = some (d, 0x20) ∧
    readOnly 0x20 d.payload = true ∧ isRead 0x20 = false ∧ hosted.hears d 0x20 = true ∧ hosted.judgedGood d 0x20 = true ∧
    hosted.net.held = [] := by and_intros <;> decide +kernel

theorem test_AdminReadAnswered_identify : let d := dg 0x20 (hq 1 0xAA 1) []; let t := nx (.identify d) hosted;
    ((t.entry d.hdr.key).map fun e => (e.answered, e.isNak, e.readOnly)) = some (true, false, true) ∧
    (t.queue 1).inFlight = (hosted.queue 1).inFlight ∧ t.cm.ep = hosted.cm.ep ∧ t.win.win = hosted.win.win ∧ t.tier = hosted.tier :=
    by decide +kernel

/-! ### ReadReturnsMemory -/

theorem wit_ReadReturnsMemory_read : hostRow (.read rd8) = some (rd8, 0x01) ∧ isRead 0x01 = true ∧ hosted.hears rd8 0x01 = true ∧
    hosted.judgedGood rd8 0x01 = true ∧ hosted.net.held = [] ∧
    (hosted.queue rd8.hdr.qid.toNat).allows (hosted.charges (hosted.reqOf rd8 0x01)) = true ∧
    (hosted.window rd8.hdr.window.toNat).base + rd8.hdr.offset.toNat = 0 ∧ rd8.hdr.count = 8 ∧ hosted.readableNow 0 8 = true ∧
    rd8.cells = [] ∧ hosted.frozenCut = false ∧ hosted.silent (hosted.reqOf rd8 0x01) = false ∧ hosted.pausedAt (retAddr rd8 false none) = false ∧
    hosted.net.waiting = [] := by and_intros <;> decide +kernel

theorem test_ReadReturnsMemory_read : let t := nx (.read rd8) hosted;
    (match t.out.getLast? with | some (.host d h b none _ _) => d == retAddr rd8 false none && b == [0,0,0,9,0,0,0,0] && h.typ == 1 && h.last && h.status == 0 && h.seq == 1 && !h.untrusted | _ => false) = true ∧
    ((t.entry rd8.hdr.key).map fun e => (e.answered, e.isNak, e.readOnly, e.status)) = some (true, false, true, 0) := by decide +kernel

/-! ### QueueZeroDoorbell -/

theorem wit_QueueZeroDoorbell_busy : let s := { (up.put PCE.LINK_UP 1) with q := { adm0Busy := true } }; s.dpUp = true ∧
    s.flag PCE.LINK_UP = true ∧ s.q.adm0Busy = true := by and_intros <;> decide +kernel

theorem wit_QueueZeroDoorbell_ident : let s := up.put PCE.LINK_UP 1; s.dpUp = true ∧ s.flag PCE.LINK_UP = true ∧ s.q.adm0Busy = false :=
    by and_intros <;> decide +kernel

theorem test_QueueZeroDoorbell_ident : let s := up.put PCE.LINK_UP 1; let t := nx (.adm0Doorbell .pcie 0 (encodeReq {} 0x20)) s;
    t.q.adm0Busy = false ∧ t.q.adm0Done = true ∧ t.q.adm0Segs = (segments s.identify).length ∧ t.evt QMG.page QMG.evADM0_DONE = true ∧
    t.win = s.win ∧ t.cm = s.cm ∧ t.key = s.key := by decide +kernel

/-! ### KeyCommands -/

/-- A loaded key-encryption key of 16 bytes, and a blob under it by KW: a line-class AES-128 key. -/
def kekHeld : State := { up with key := { inst := [(3, { cls := 8, mode := 3, material := List.replicate 16 1, ready := true })] } }
def loadBlob : List Byte := bytesBE 32 74626764673772546974813287984841324241218616044016054336429351926450563826812

theorem wit_KeyCommands_load : let p := bytesBE 1 0 ++ [0, 0, 0] ++ bytesBE 4 9 ++ bytesBE 4 3 ++ [0, 32, 0, 0] ++ loadBlob ++ List.replicate 80 0;
    kekHeld.dpUp = true ∧ kekHeld.q.adm0Busy = false ∧ p.length = 128 ∧ kekHeld.norBusy 2 = false ∧ fieldBE p 0 1 % 4 = 0 ∧
    keyFieldsOk p = true ∧ kekHeld.chanWaits 18 = false ∧ kekHeld.keyWaits (fieldBE p 8 4) = false ∧ fieldBE p 4 4 = 9 ∧ fieldBE p 8 4 = 3 ∧ fieldBE p 12 2 = 32 ∧
    bitOf (fieldBE p 0 1) 2 = false ∧ slice p 16 32 = loadBlob ∧ 
    (match kekHeld.loadJudge 9 3 32 false loadBlob with | (0, some _) => true | _ => false) = true := by
  and_intros <;> decide +kernel

theorem wit_KeyCommands_unload : let s := { logging with reg := up.reg };
    let p := (bytesBE 1 1 ++ [0, 0, 0] ++ bytesBE 4 9 ++ bytesBE 4 0 ++ [0, 0, 0, 0] ++ List.replicate 112 0); s.dpUp = true ∧
    s.q.adm0Busy = false ∧ p.length = 128 ∧ s.norBusy 2 = false ∧ fieldBE p 0 1 % 4 = 1 ∧ keyFieldsOk p = true ∧
    s.unloadOk (fieldBE p 4 4) = true := by and_intros <;> decide +kernel

theorem test_KeyCommands_unload : let s := { logging with reg := up.reg };
    let p := (bytesBE 1 1 ++ [0, 0, 0] ++ bytesBE 4 9 ++ bytesBE 4 0 ++ [0, 0, 0, 0] ++ List.replicate 112 0); let t := nx (.unload p) s;
    t.keyInst 9 = none ∧ t.q.adm0Done = true ∧ t.q.adm0Busy = false ∧ t.evt QMG.page QMG.evADM0_DONE = true := by decide +kernel

theorem wit_KeyCommands_query : let p := (bytesBE 1 2 ++ [0, 0, 0] ++ bytesBE 4 9 ++ bytesBE 4 0 ++ [0, 0, 0, 0] ++ List.replicate 112 0);
    fieldBE p 0 1 % 4 = 2 ∧ keyFieldsOk p = true ∧ (logging.keyInst (fieldBE p 4 4)).isSome = true ∧ p.length = 128 := by and_intros <;> decide +kernel

theorem test_KeyCommands_query : let p := (bytesBE 1 2 ++ [0, 0, 0] ++ bytesBE 4 9 ++ bytesBE 4 0 ++ [0, 0, 0, 0] ++ List.replicate 112 0);
    let t := nx (.keyQuery p) logging; t.q.adm0Done = true ∧ t.key.inst = logging.key.inst := by decide +kernel

/-! ### AditFrames -/

theorem wit_AditFrames_rehomeTable : let f := lf 6 (List.replicate 8 0) 0 1000; (twinIn .returning).nextFrame f 6 = true ∧
    (twinIn .returning).cm.twin = .returning ∧ bitsOf (fieldBE f.body 0 8) 56 2 = 0 := by
  and_intros <;> decide +kernel

theorem wit_AditFrames_down : aditRow (.tally (lf 1 [])) = some (lf 1 [], 1) ∧ up.dpUp = true ∧ up.flag ADT.LINK_UP = false :=
    by and_intros <;> decide +kernel

theorem wit_AditFrames_crc : paired.dpUp = true ∧ paired.flag ADT.LINK_UP = true ∧ paired.flag ADT.SEAL_EN = false ∧
    (lf 2 []).crcOk 1 = false := by and_intros <;> decide +kernel

theorem wit_AditFrames_halt : let s := { (paired.put ADT.SEAL_EN 1) with key := { halted := true } }; s.flag ADT.LINK_UP = true ∧
    s.flag ADT.SEAL_EN = true ∧ s.chanWaits 17 = true := by and_intros <;> decide +kernel

theorem wit_AditFrames_nokey : let s := paired.put ADT.SEAL_EN 1; s.flag ADT.SEAL_EN = true ∧ s.chanWaits 17 = false ∧
    s.aditKey false = none := by and_intros <;> decide +kernel

theorem wit_AditFrames_whole : paired.nextFrame (lf 3 [] 0 1001) 3 = true ∧ paired.cm.twin = .paired := by and_intros <;> decide +kernel

theorem wit_AditFrames_whole2 : (twinIn .alone).nextFrame (lf 3 []) 3 = true ∧ (twinIn .alone).cm.twin ≠ .paired := by and_intros <;> decide +kernel

theorem wit_AditFrames_relay : paired.nextFrame (lf 4 [] 0 1002) 4 = true ∧ paired.pwr.twinPos = 1 ∧ paired.flag EPC.RELAY_EN = true ∧
    paired.flag EPC.FORCE_HOLDOVER = false := by and_intros <;> decide +kernel

theorem wit_AditFrames_relay2 : let s := { paired with pwr := { paired.pwr with twinPos := 0 } }; s.nextFrame (lf 4 []) 4 = true ∧
    s.pwr.twinPos ≠ 1 := by and_intros <;> decide +kernel

theorem wit_AditFrames_depart : paired.nextFrame (lf 7 []) 7 = true ∧ paired.nextFrame (lf 8 []) 8 = true ∧ paired.mus.stopped = false :=
    by and_intros <;> decide +kernel

theorem test_AditFrames_depart : let t := nx (.depart (lf 7 [])) paired;
    t.cm = { (paired.tookFrame (lf 7 [])).cm with departed := true } ∧ t.evt CMT.page CMT.evDEPART_RX = true ∧
    (nx (.yield (lf 8 [])) paired).cm.departed = true := by decide +kernel

theorem wit_AditFrames_rehome : (twinIn .returning).nextFrame rehomeFrame 6 = true ∧ (twinIn .returning).cm.twin = .returning ∧
    bitsOf (fieldBE rehomeFrame.body 0 8) 56 2 = 1 := ⟨rehomeGood, by decide +kernel, by decide +kernel⟩

theorem wit_AditFrames_rehome2 : paired.nextFrame (lf 6 []) 6 = true ∧ paired.cm.twin ≠ .returning := by and_intros <;> decide +kernel

theorem wit_AditFrames_resend : let f := lf 9 (bytesBE 4 7 ++ bytesBE 2 1 ++ [0, 0]); paired.nextFrame f 9 = true ∧
    fieldBE f.body 4 2 = 1 ∧
    (paired.cm.kept.find? fun e => e.2.1.fseq % 2 ^ 32 == fieldBE f.body 0 4 % 2 ^ 32 && paired.ep.num ≤ e.1 + 1) = none :=
    by and_intros <;> decide +kernel

/-! ### TallyAndRepairTaken -/

theorem wit_TallyAndRepairTaken_over : (lf 1 [] 0 1000).epoch.toNat ≤ paired.cm.committed ∧ paired.nextFrame (lf 1 [] 0 1000) 1 = true ∧
    paired.nextFrame (lf 2 [] 0 1000) 2 = true := by
  and_intros <;> decide +kernel

theorem wit_TallyAndRepairTaken_more : let s := { paired with cm := { paired.cm with ep := [(1001, { peer := { first := true } })] } };
    s.nextFrame (lf 1 [] 0 1001) 1 = true ∧ s.tallies = true ∧ (s.epochRec 1001).peer.first = true ∧ s.cm.committed < 1001 := by
  and_intros <;> decide +kernel

theorem wit_TallyAndRepairTaken_none : let s := { paired with mus := { mustering.mus with step := .image } }; s.nextFrame (lf 1 [] 0 1001) 1 = true ∧
    s.tallies = false ∧ s.cm.twin = .paired := by
  and_intros <;> decide +kernel

theorem wit_TallyAndRepairTaken_tally : let f := (lf 1 (bytesBE 8 1001 ++ bytesBE 8 5 ++ bytesBE 8 999 ++ bytesBE 8 77 ++ bytesBE 4 1 ++ bytesBE 4 3 ++ bytesBE 4 0 ++ bytesBE 4 0) 0 1001);
    paired.cm.twin = .paired ∧ paired.cm.committed < f.epoch.toNat ∧ paired.nextFrame f 1 = true ∧ paired.tallies = true ∧
    (paired.epochRec f.epoch.toNat).peer.first = false ∧ fieldBE f.body 0 8 = f.epoch.toNat := by and_intros <;> decide +kernel

theorem test_TallyAndRepairTaken_tally : let f := (lf 1 (bytesBE 8 1001 ++ bytesBE 8 5 ++ bytesBE 8 999 ++ bytesBE 8 77 ++ bytesBE 4 1 ++ bytesBE 4 3 ++ bytesBE 4 0 ++ bytesBE 4 0) 0 1001);
    let t := nx (.tally f) paired; let p := (t.epochRec 1001).peer; p.first = true ∧ p.hashPrev = 5 ∧ p.placed = 999 ∧ p.calSec = 77 ∧
    p.claim = 1 ∧ p.runs = 3 ∧ p.keys = [] ∧ t.cm.peerClaim = 1 ∧ t.cm.peerPlaced = 999 := by decide +kernel

theorem wit_TallyAndRepairTaken_repair : let f := (lf 2 ([0, 0, 0, 0] ++ encodeReq (hq 16 0xBB 5) 2 ++ [1, 2]) 0 1001);
    paired.nextFrame f 2 = true ∧ paired.ownedBefore 1001 (parseReq (slice f.body 4 32)).1.key = false ∧
    mget (paired.epochRec 1001).reqs (parseReq (slice f.body 4 32)).1.key.code = none := by and_intros <;> decide +kernel

theorem test_TallyAndRepairTaken_repair : let f := (lf 2 ([0, 0, 0, 0] ++ encodeReq (hq 16 0xBB 5) 2 ++ [1, 2]) 0 1001);
    let t := nx (.repair f) paired; (mget (t.epochRec 1001).reqs (hq 16 0xBB 5).key.code).isSome = true := by decide +kernel

theorem wit_TallyAndRepairTaken_had : let f := (lf 2 ([0, 0, 0, 0] ++ encodeReq (hq 16 0xBB 5) 2 ++ [1, 2]) 0 1001);
    let s := { paired with cm := { paired.cm with ep := [(1001, { reqs := [((hq 16 0xBB 5).key.code, { hdr := hq 16 0xBB 5, op := 2 })] })] } };
    (mget (s.epochRec 1001).reqs (parseReq (slice f.body 4 32)).1.key.code).isSome = true ∧ s.nextFrame f 2 = true := by and_intros <;> decide +kernel

/-! ### TwinLinkAndLimits -/

theorem wit_TwinLinkAndLimits_nothing : up.dpUp = true ∧ up.mus.restoreValid = false ∧ (∀ e : Nat × EpochRec, e ∈ up.cm.ep → e.2.peer.late = true) ∧
    up.cm.twin ≠ .paired := by
  and_intros <;> decide +kernel

theorem wit_TwinLinkAndLimits_pending : let f := (lf 5 (bytesBE 4 2 ++ [0, 2, 0, 0] ++ List.replicate 16 0)); let s := twinIn .start;
    s.nextFrame f 5 = true ∧ s.restorePending = true ∧
    ¬ (twinOf (fieldBE f.body 4 1 % 8) = .returning ∧ bitOf (fieldBE f.body 5 1) 0 = true) := by and_intros <;> decide +kernel

theorem wit_TwinLinkAndLimits_fresh : let f := (lf 5 (bytesBE 4 2 ++ [0, 2, 0, 0] ++ List.replicate 16 0));
    let s := { (twinIn .start) with mus := { state := .armed, restored := true }, cm := { (twinIn .start).cm with inService := false, claim := 1 } };
    s.nextFrame f 5 = true ∧ s.restorePending = false ∧ bitOf (fieldBE f.body 5 1) 0 = false ∧ bitOf (fieldBE f.body 5 1) 1 = true ∧
    s.fresh = true ∧ s.cm.inService = false := by and_intros <;> decide +kernel

theorem test_TwinLinkAndLimits_fresh : let f := (lf 5 (bytesBE 4 2 ++ [0, 2, 0, 0] ++ List.replicate 16 0));
    let s := { (twinIn .start) with mus := { state := .armed, restored := true }, cm := { (twinIn .start).cm with inService := false, claim := 1 } };
    let t := nx (.resume f) s; t.cm.resumed = true ∧ t.cm.peerClaim = 2 ∧ t.cm.next = .newPair (s.newClaim 2) :=
    by decide +kernel

theorem wit_TwinLinkAndLimits_lock : bitOf up.clk.srdLock 0 = true ∧ up.flag (HDR.IN_RESET ADT.page) = false ∧
    (up.put (HDR.IN_RESET ADT.page) 1).flag (HDR.IN_RESET ADT.page) = true ∧
    bitOf ({ up with clk := { up.clk with srdLock := 14 } } : State).clk.srdLock 0 = false := by and_intros <;> decide +kernel

theorem wit_TwinLinkAndLimits_train : (up.put ADT.SEAL_EN 0).dpUp = true ∧ (up.put ADT.SEAL_EN 0).flag ADT.SEAL_EN = false :=
    by and_intros <;> decide +kernel

theorem test_TwinLinkAndLimits_train : let t := nx (.aditLinkUp 400 0) (up.put ADT.SEAL_EN 0); t.get ADT.ALIGNED = 1 ∧
    t.get ADT.LINK_UP = 1 ∧ t.cm.delay = 200 ∧ t.cm.rxAny = false ∧ t.evt ADT.page ADT.evLINK_UP_EVT = true ∧
    (let t := nx .aditAlignLost paired; t.get ADT.ALIGNED = 0 ∧ t.get ADT.LINK_UP = 0 ∧ t.cm.rehomeSrc = false ∧ t.cm.resumed = false ∧ t.evt ADT.page ADT.evALIGN_LOST = true ∧ t.evt ADT.page ADT.evLINK_DOWN = true) :=
    by decide +kernel

theorem wit_TwinLinkAndLimits_seal : let s := up.put ADT.SEAL_EN 1; s.flag ADT.SEAL_EN = true ∧ s.aditKey true = none :=
    by and_intros <;> decide +kernel

theorem test_TwinLinkAndLimits_seal : let t := nx (.aditLinkUp 400 0) (up.put ADT.SEAL_EN 1); t.get ADT.ALIGNED = 1 ∧
    t.get ADT.LINK_UP = 0 ∧ t.get ADT.KEY_WAIT = 1 ∧ t.cm.delay = 200 := by decide +kernel

theorem wit_TwinLinkAndLimits_late : ((paired.cm.ep.filter fun e => e.1 < paired.ep.num).getLast?).map (·.1) = some 1001 ∧
    (paired.epochRec 1001).peer.whole = false ∧ (paired.epochRec 1001).solo = false ∧ paired.cm.ended.contains 1001 = true ∧
    (paired.epochRec 1001).peer.late = false ∧ (paired.cm.ep.find? (·.1 == 1001)).isSome = true := by and_intros <;> decide +kernel

theorem test_TwinLinkAndLimits_late : let t := nx (.tallyDeadline 10) paired; (t.epochRec 1001).peer.late = true ∧
    (t.epochRec 1001).extended = true ∧ t.get CMT.TALLY_LATE = 1 ∧ t.evt CMT.page CMT.evTALLY_LATE = true := by decide +kernel

theorem wit_TwinLinkAndLimits_pair : let s := { (twinIn .start) with mus := { restoreValid := true, recordTwin := .alone } };
    s.dpUp = true ∧ s.cm.twin = .start ∧ s.mus.restoreValid = true ∧ s.mus.recordTwin = .alone ∧ s.cm.resumed = false :=
    by and_intros <;> decide +kernel

/-! ### KeyCommits -/

theorem wit_KeyCommits_early : staged.dpUp = true ∧ (staged.compareHash.commitReady 7 wr4.hdr.key) = false := by and_intros <;> decide +kernel

theorem wit_KeyCommits_commit : let k := wr4.hdr.key; staged.compareHash.commitReady 1000 k = true ∧
    (staged.compareHash.beginEpoch 1000).cm.twin ≠ .returning ∧
    ((mget ((staged.compareHash.beginEpoch 1000).epochRec 1000).reqs k.code).map fun r => r.hdr.key) = some k := by and_intros <;> decide +kernel

theorem test_KeyCommits_commit : let t := nx (.commitKey 1000 wr4.hdr.key []) staged;
    (List.range 8).map (fun i => Memory.read t.mem (98 + i)) = [0, 0, 1, 2, 3, 4, 0, 0] := by decide +kernel

theorem wit_KeyCommits_refused : (({ hdr := wr4.hdr, op := 2, refusal := some 9 } : Req)).refusal = some 9 := by decide +kernel

theorem test_KeyCommits_refused : staged.execute { hdr := wr4.hdr, op := 2, refusal := some 9 } 1000 0 [] = (ended 9, staged) :=
    by decide +kernel

/-! ### WritesAndAtomicsCommit -/

theorem wit_WritesAndAtomicsCommit_write : let r := hosted.reqOf wr4 0x02; r.op = 0x02 ∧ r.refusal = none ∧ r.authBad = false ∧
    (hosted.queue r.hdr.qid.toNat).cls = 1 ∧ hosted.judge11 r.hdr r.op (hosted.queue r.hdr.qid.toNat).domain 1000 (some 0) = none ∧
    hosted.gangN = 1 ∧
    (extentsIn ((hosted.window r.hdr.window.toNat).base + r.hdr.offset.toNat) r.payload.length).all (fun e => (hosted.extent e).any fun x => x.isVolatile && x.move.isNone) = true :=
    by and_intros <;> decide +kernel

theorem test_WritesAndAtomicsCommit_write : let r := hosted.reqOf wr4 0x02; (hosted.execute r 1000 0 []).1 = stored 100 r.payload [] ∧
    (List.range 8).map (fun i => Memory.read (hosted.execute r 1000 0 []).2.mem (98 + i)) = [0, 0, 1, 2, 3, 4, 0, 0] := by decide +kernel

theorem wit_WritesAndAtomicsCommit_fadd : let r := hosted.reqOf (dg 5 (hw 1 0 8) (bytesBE 8 7)) 5; hosted.gangN = 1 ∧
    secOf 0 = secOf (0 + 8 - 1) ∧ ((hosted.extent (extOf 0)).any fun x => x.isVolatile && x.move.isNone) = true ∧
    hosted.poisoned (secOf 0) = false ∧ (hosted.window r.hdr.window.toNat).base + r.hdr.offset.toNat = 0 := by and_intros <;> decide +kernel

theorem test_WritesAndAtomicsCommit_fadd : let r := hosted.reqOf (dg 5 (hw 1 0 8) (bytesBE 8 7)) 5;
    let x := hosted.commitAtomic 1000 r 8 []; x.1.status = 0 ∧ x.1.data = bytesBE 8 (natOfLE (hosted.readMem 0 8)) ∧
    natOfLE (x.2.readMem 0 8) = natOfLE (hosted.readMem 0 8) + 7 := by decide +kernel

theorem wit_WritesAndAtomicsCommit_cas : fieldBE (bytesBE 16 (9 * 2 ^ 24) ++ bytesBE 16 5) 0 16 = natOfLE (hosted.readMem 0 16) :=
    by decide +kernel

theorem test_WritesAndAtomicsCommit_cas : let r := hosted.reqOf (dg 4 (hw 1 0 16) (bytesBE 16 (9 * 2 ^ 24) ++ bytesBE 16 5)) 4;
    let x := hosted.commitAtomic 1000 r 16 []; natOfLE (x.2.readMem 0 16) = 5 ∧ x.1.data = bytesBE 16 (9 * 2 ^ 24) ∧
    (let r := hosted.reqOf (dg 3 (hw 1 0 8) (bytesBE 8 1 ++ bytesBE 8 5)) 3; natOfLE ((hosted.commitAtomic 1000 r 8 []).2.readMem 0 8) = 9 * 2 ^ 24) :=
    by decide +kernel

/-! ### PlacedWriteAnswered -/

theorem wit_PlacedWriteAnswered_gone : mget (hosted.epochRec 1000).reqs wr4.hdr.key.code = none := by decide +kernel

theorem wit_PlacedWriteAnswered_not : (hosted.epochRec 1000).toPlace.contains wr4.hdr.key.code = false ∧ hosted.dpUp = true :=
    by and_intros <;> decide +kernel

theorem wit_PlacedWriteAnswered_placed : let s := { staged with cm := { staged.cm with ep := [(1000, { (staged.epochRec 1000) with toPlace := [wr4.hdr.key.code], committed := true, begun := true, done := [wr4.hdr.key.code] })], unplaced := [1000], ended := [] }, net := { staged.net with rrt := [(wr4.hdr.key.code, { key := wr4.hdr.key, epoch := 1000 })] } };
    s.dpUp = true ∧
    ((mget (s.epochRec 1000).reqs wr4.hdr.key.code).map fun r => (r.hdr.key, s.sealWaits 1000 (s.epochRec 1000) r)) = some (wr4.hdr.key, false) ∧
    (s.epochRec 1000).toPlace.contains wr4.hdr.key.code = true ∧ s.homesReady (s.epochRec 1000) wr4.hdr.key.code = true :=
    by and_intros <;> decide +kernel

theorem test_PlacedWriteAnswered_placed : let s := { staged with cm := { staged.cm with ep := [(1000, { (staged.epochRec 1000) with toPlace := [wr4.hdr.key.code], committed := true, begun := true, done := [wr4.hdr.key.code] })], unplaced := [1000], ended := [] }, net := { staged.net with rrt := [(wr4.hdr.key.code, { key := wr4.hdr.key, epoch := 1000 })] } };
    let t := nx (.writePlaced 1000 wr4.hdr.key 7) s;
    ((t.entry wr4.hdr.key).map fun e => (e.answered, e.isNak, e.status)) = some (true, false, 0) := by decide +kernel

/-! ### RevocationEnds -/

theorem wit_RevocationEnds_told :
    let s := { hosted with
      win := { hosted.win with win := [(7, { (hosted.window 7) with state := .closing, fenced := true, fence := 1000, answer := some { hdr := hq 1 0xAA 5, op := 0x2A } })] }
      net := { hosted.net with rrt := [((hq 1 0xAA 5).key.code, { key := (hq 1 0xAA 5).key, epoch := 1000 })] } };
    s.dpUp = true ∧ s.fenceReady 7 = true ∧ ((s.window 7).answer.map (·.hdr.key)) = some (hq 1 0xAA 5).key ∧
    (s.entry (hq 1 0xAA 5).key).isSome = true := by
  and_intros <;> decide +kernel

theorem wit_RevocationEnds_no : hosted.dpUp = true ∧ hosted.fenceReady 7 = false := by and_intros <;> decide +kernel

theorem wit_RevocationEnds_yes : let s := { hosted with win := { hosted.win with win := [(7, { (hosted.window 7) with state := .closing, fenced := true, fence := 1000 })] } };
    s.fenceReady 7 = true := by decide +kernel

theorem test_RevocationEnds_yes : let t := nx (.revokeDone 7) ({ hosted with win := { hosted.win with win := [(7, { (hosted.window 7) with state := .closing, fenced := true, fence := 1000 })] } });
    (t.window 7).state = .free ∧ t.evt WIN.page WIN.evREVOKE_DONE = true := by decide +kernel

/-! ### MoveCommits -/

theorem wit_MoveCommits_stopped : mustering.mus.stopped = true ∧ mustering.dpUp = true := by
  and_intros <;> decide +kernel

theorem wit_MoveCommits_go : moving.mus.stopped = false ∧ moving.heldBack (65536 * (0 : BitVec 32).toNat) 65536 = false ∧ Home.hot 4 ≠ Home.flash := by
  and_intros <;> decide +kernel

theorem wit_MoveCommits_held :
    let s := { moving with tier := { ext := [(0, { home := .hot 0, move := some (.warm 4) })] }, mc := { members := [(0, { outSince := some 0 })] } };
    let s := regs s [(STK.IN_SERVICE 0, 1), (STK.TRAINED 0, 1), (HDR.ENABLE 0x40, 1)];
    s.heldBack (65536 * (0 : BitVec 32).toNat) 65536 = true := by decide +kernel

theorem wit_MoveCommits_no : up.dpUp = true ∧ up.copyWhole (5 : BitVec 32).toNat = false := by and_intros <;> decide +kernel

theorem wit_MoveCommits_yes : moving.dpUp = true ∧ (moving.extent (0 : BitVec 32).toNat).map (·.move) = some (some (.hot 4)) ∧
    moving.copyWhole (0 : BitVec 32).toNat = true := by and_intros <;> decide +kernel

theorem wit_MoveCommits_fill : let n := (0 : BitVec 32).toNat; filling.dpUp = true ∧ (filling.extent n).map (·.move) = some (some .flash) ∧
    filling.copyWhole n = true ∧ filling.mus.stopped = false ∧ filling.heldBack (65536 * n) 65536 = false ∧
    (filling.fillRows 0 0).1 = true := by
  and_intros <;> decide +kernel

theorem wit_MoveCommits_nokey : let s := { filling with key := {} }; s.copyWhole 0 = true ∧ (s.fillRows 0 0).1 = false ∧
    (s.fillRows 0 0).2.storeRetired = false := by
  and_intros <;> decide +kernel

theorem wit_MoveCommits_retired : let s := { filling with key := retiredStore.key }; s.copyWhole 0 = true ∧ (s.fillRows 0 0).1 = false ∧
    (s.fillRows 0 0).2.storeRetired = true := by
  and_intros <;> decide +kernel

theorem test_MoveCommits_yes : let t := nx (.moveCommit 0 {}) moving;
    ((t.extent 0).map fun y => (y.home, y.move, y.owner)) = some (.hot 4, none, 0) := by decide +kernel

/-! ### LogGroupsProgrammed -/

theorem wit_LogGroupsProgrammed_muster : let s := { logging with mus := mustering.mus }; s.dpUp = true ∧ s.issuedGroup 5 = some 0 ∧ s.mus.stopped = true ∧
    s.mus.cause ≠ 5 := by
  and_intros <;> decide +kernel

theorem wit_LogGroupsProgrammed_five : let s := { logging with mus := { mustering.mus with cause := 5 } }; s.dpUp = true ∧ s.issuedGroup 5 = some 0 ∧
    s.mus.cause = 5 ∧ (s.programRows 5 (3 * 0) 3).1 = true ∧ logging.mus.stopped = false := by
  and_intros <;> decide +kernel

theorem wit_LogGroupsProgrammed_none : up.dpUp = true ∧ mget up.fl.logs 3 = none := by and_intros <;> decide +kernel

theorem wit_LogGroupsProgrammed_idle : let s := { logging with par := {} }; s.dpUp = true ∧ (mget s.fl.logs 3).isSome = true ∧
    s.issuedGroup 5 = none := by and_intros <;> decide +kernel

theorem wit_LogGroupsProgrammed_pass : logging.dpUp = true ∧
    ((mget logging.fl.logs 3).map fun l => (l.sb, l.slots.length)) = some (5, 12) ∧ logging.issuedGroup 5 = some 0 ∧
    logging.mus.stopped = false ∧ (logging.programRows 5 (3 * 0) 3).1 = true := by and_intros <;> decide +kernel

theorem test_LogGroupsProgrammed_pass : let t := nx (.flashGroupProgrammed 3 {}) logging;
    ((mget t.fl.logs 3).map fun y => y.programmed) = some 12 := by decide +kernel

theorem wit_LogGroupsProgrammed_retired : retiredStore.issuedGroup 5 = some 0 ∧ (retiredStore.programRows 5 (3 * 0) 3).1 = false ∧
    (retiredStore.programRows 5 (3 * 0) 3).2.storeRetired = true := by and_intros <;> decide +kernel

theorem wit_LogGroupsProgrammed_nokey : let s := { logging with key := {} }; s.issuedGroup 5 = some 0 ∧
    (s.programRows 5 (3 * 0) 3).1 = false ∧ (s.programRows 5 (3 * 0) 3).2.storeRetired = false := by and_intros <;> decide +kernel

theorem wit_LogGroupsProgrammed_fail : logging.issuedGroup 5 = some 0 := by decide +kernel

theorem wit_LogGroupsProgrammed_hold0 : ((mget logging.fl.logs 3).map fun l => l.slots.length % 12) = some 0 := by decide +kernel

theorem wit_LogGroupsProgrammed_hold : let s := logging.setLog 3 { lb := 0, sb := 5, slots := [some 0, none] };
    ((mget s.fl.logs 3).map fun l => l.slots.length % 12) = some 2 := by decide +kernel

/-! ### MergeSwitchesTheEntry -/

theorem wit_MergeSwitchesTheEntry_muster : mustering.dpUp = true ∧ mustering.mus.stopped = true ∧ mergingLast.mus.stopped = false ∧ merging.mus.stopped = false := by
  and_intros <;> decide +kernel

theorem wit_MergeSwitchesTheEntry_none : up.dpUp = true ∧ (up.lb 0).dest = none := by and_intros <;> decide +kernel

theorem wit_MergeSwitchesTheEntry_done : let s := mergingLast; let x := s.lb (0 : BitVec 20).toNat; s.dpUp = true ∧ x.dest = some 6 ∧ x.merging = true ∧
    s.mus.stopped = false ∧ (s.mergeReads 0 6 3 {}).lostFull = false ∧
    ((s.mergeReads 0 6 3 {}).programRows 6 (s.mergeKept x / 4) (1536 - s.mergeKept x / 4) 3).1 = true := by
  and_intros <;> decide +kernel

theorem wit_MergeSwitchesTheEntry_retired : let s := { mergingLast with key := retiredStore.key }; let x := s.lb (0 : BitVec 20).toNat;
    x.dest = some 6 ∧ x.merging = true ∧ (s.mergeReads 0 6 3 {}).lostFull = false ∧
    (let p := (s.mergeReads 0 6 3 {}).programRows 6 (s.mergeKept x / 4) (1536 - s.mergeKept x / 4) 3
     p.1 = false ∧ p.2.storeRetired = true) := by
  and_intros <;> decide +kernel

theorem wit_MergeSwitchesTheEntry_nokey : let s := { mergingLast with key := {} }; let x := s.lb (0 : BitVec 20).toNat;
    x.dest = some 6 ∧ x.merging = true ∧ (s.mergeReads 0 6 3 {}).lostFull = false ∧
    (let p := (s.mergeReads 0 6 3 {}).programRows 6 (s.mergeKept x / 4) (1536 - s.mergeKept x / 4) 3
     p.1 = false ∧ p.2.storeRetired = false) := by
  and_intros <;> decide +kernel

theorem wit_MergeSwitchesTheEntry_fail : (merging.lb 0).merging = true := by decide +kernel

/-! ### FlashPagesDelivered -/

theorem wit_FlashPagesDelivered_reads : let p : PageDone := { extent := 0, page := 1, die := 3 }; flashRead.dpUp = true ∧ p.uncorr = false ∧
    p.headerOk = true ∧ flashRead.dieOut p.die.toNat = false ∧ flashRead.pageWanted p.extent p.page.val = true ∧
    logging.pageWanted p.extent p.page.val = false ∧ ((logging.at 0).pageTaken p).1 = true := by
  and_intros <;> decide +kernel

theorem wit_FlashPagesDelivered_rebuilt : let p : PageDone := { extent := 0, page := 1, die := 3, headerOk := false, missing := [7] };
    p.headerOk = false ∧ ((flashRead.at 0).pageTaken p).1 = true := by
  and_intros <;> decide +kernel

theorem wit_FlashPagesDelivered_lost : let p : PageDone := { extent := 0, page := 1, die := 3, uncorr := true, missing := [2, 4] };
    p.uncorr = true ∧ logging.pageWanted p.extent p.page.val = false ∧ ((logging.at 0).pageTaken p).1 = false ∧
    flashRead.pageWanted p.extent p.page.val = true ∧ 2 ≤ flashRead.othersMissing p := by
  and_intros <;> decide +kernel

theorem wit_FlashPagesDelivered_waits : ({ flashRead with key := { halted := true } } : State).chanWaits 8 = true ∧
    ({ flashRead with key := {} } : State).storeInst = none ∧
    ({ flashRead with key := { inst := [(9, { cls := 2, ready := false })] } } : State).keyWaits (flashRead.get CPH.STORE_KEY) = true := by
  and_intros <;> decide +kernel

theorem wit_FlashPagesDelivered_auth : let p : PageDone := { extent := 0, page := 1, die := 3 }; flashRead.chanWaits 8 = false ∧
    flashRead.storeInst ≠ none ∧ flashRead.keyWaits (flashRead.get CPH.STORE_KEY) = false ∧ flashRead.pageAuth p = true ∧
    flashRead.pageAuth { p with authOk := false } = false := by
  and_intros <;> decide +kernel

theorem test_FlashPagesDelivered_auth : ((nx (.pageReadDone { extent := 0, page := 1, die := 3 }) flashRead).net.reads.all fun p => p.fetch.isEmpty) = true ∧
    (nx (.pageReadDone { extent := 0, page := 1, die := 3, authOk := false }) flashRead).evt CPH.page CPH.evSTORE_AUTH_FAIL_EVT = true := by
  decide +kernel

theorem wit_FlashPagesDelivered_recon : let p : PageDone := { extent := 0, page := 1, die := 3, missing := [2] };
    flashRead.pageWanted p.extent p.page.val = true ∧ flashRead.othersMissing p < 2 ∧ ((flashRead.at 0).rebuildPage p).1 = true := by
  and_intros <;> decide +kernel

theorem test_FlashPagesDelivered_recon : let t := nx (.reconAt { extent := 0, page := 1, die := 3, missing := [2] }) flashRead;
    t.get PAR.RECON_READS = 1 ∧ t.get PAR.Q_RECON = 1 := by decide +kernel

theorem test_FlashPagesDelivered_lost : ((reading.at 0).pageTaken { extent := 0, page := 1, die := 3, uncorr := true, missing := [2, 4] }).2.evt (FCH.page 0) FCH.evCW_UNCORR_EVT = true :=
    by decide +kernel

/-! ### DiesAndReshape -/

theorem wit_DiesAndReshape_wanted : flashRead.dpUp = true ∧ flashRead.pageWanted 0 1 = true ∧ up.pageWanted 0 1 = false ∧
    flashRead.dieFailed 3 = false := by
  and_intros <;> decide +kernel

theorem wit_DiesAndReshape_one : up.dpUp = true ∧
    ((mgetD up.par.timeouts 5 []).filter fun t => max up.now 10 ≤ t + secCycles).length < 2 := by and_intros <;> decide +kernel

theorem test_DiesAndReshape_one : let t := nx (.readTimeout 10 { extent := 0, page := 1, die := 5 }) up; t.get PAR.TIMEOUTS = 1 ∧ t.evt PAR.page PAR.evTIMEOUT_EVT = true ∧
    t.par.failed = [] := by decide +kernel

theorem wit_DiesAndReshape_three : let s := { up with par := { timeouts := [(5, [1, 2])] } }; s.dpUp = true ∧
    2 ≤ ((mgetD s.par.timeouts 5 []).filter fun t => max s.now 10 ≤ t + secCycles).length ∧ s.dieFailed 5 = false := by and_intros <;> decide +kernel

theorem test_DiesAndReshape_three : let t := nx (.readTimeout 10 { extent := 0, page := 1, die := 5 }) { up with par := { timeouts := [(5, [1, 2])] } };
    t.dieFailed 5 = true ∧ t.evt PAR.page PAR.evDIE_FAILED_EVT = true ∧ t.q.refigure = true := by decide +kernel

theorem wit_DiesAndReshape_clrno : let s := up.put (HDR.EXPERT PAR.page) 1; s.canWrite .smbus PAR.CLEAR_GO = true ∧
    s.dieFailed 5 = false := by and_intros <;> decide +kernel

theorem wit_DiesAndReshape_clr : let s := { (up.put (HDR.EXPERT PAR.page) 1) with par := { failed := [5] } };
    s.canWrite .smbus PAR.CLEAR_GO = true ∧ s.dieFailed 5 = true ∧ s.rebuilding = false ∧ s.par.reshaping = false := by and_intros <;> decide +kernel

theorem test_DiesAndReshape_clr : let t := nx (.clearDie .smbus 5 {}) { (up.put (HDR.EXPERT PAR.page) 1) with par := { failed := [5] } };
    t.dieFailed 5 = false ∧ bitOf (t.get (FCH.DIE_PRESENT 0)) 5 = true ∧ t.evt PAR.page PAR.evDIE_CLEARED = true := by decide +kernel

theorem wit_DiesAndReshape_rsno : let s := up.put (HDR.EXPERT PAR.page) 1; s.canWrite .smbus PAR.START = true ∧
    s.reshapeOk s.goodDies = false := by and_intros <;> decide +kernel

theorem wit_DiesAndReshape_rs : let s := logging.put (HDR.EXPERT PAR.page) 1; s.canWrite .smbus PAR.START = true ∧
    s.reshapeOk s.goodDies = true ∧ s.reshapeOk s.servingDies = true ∧ 8 ≤ (16 : BitVec 7).toNat ∧
    (16 : BitVec 7).toNat ≤ 64 := by and_intros <;> decide +kernel

/-! ### MemoryChannelFaults -/

theorem wit_MemoryChannelFaults_train : let s := regs up [(HDR.ENABLE 0x40, 1)]; s.dllEnabled (1 : Fin 17).val = true ∧ s.dllIn (1 : Fin 17).val = false ∧
    (6 : Nat) ≤ dllWindow (1 : Fin 17).val ∧ (1 : Fin 17).val ≠ 0 ∧ s.flag (trainedFld ((1 : Fin 17).val - 1)) = false := by
  and_intros <;> decide +kernel

theorem wit_MemoryChannelFaults_over : let s := channels.put (DCH.TEMP_OVER 0) 1; s.refTarget (8 + (0 : Fin 8).val) (1 : Fin 2).val = true ∧
    (((s.member 8).overRank.set 1 ([0, 2].any (1 < ·))).any id) = true ∧ s.flag (DCH.TEMP_OVER 0) = true ∧
    channels.flag (DCH.TEMP_OVER 0) = false := by
  and_intros <;> decide +kernel

theorem wit_MemoryChannelFaults_stk : channels.dpUp = true ∧ channels.memberUp (0 : Fin 8).val = true := by and_intros <;> decide +kernel

theorem wit_MemoryChannelFaults_mr : channels.refTarget (8 + (0 : Fin 8).val) (1 : Fin 2).val = true := by decide +kernel

theorem wit_MemoryChannelFaults_ca : channels.memberUp (8 : MemberId).val = true ∧ (channels.member (8 : MemberId).val).caRow ≠ 2 ∧
    channels.memberUp (5 : MemberId).val = false := by and_intros <;> decide +kernel

theorem wit_MemoryChannelFaults_fall : let s := channels.setMember 8 { (channels.member 8) with caRow := 2 };
    s.memberUp (8 : MemberId).val = true ∧ (s.member (8 : MemberId).val).caRow = 2 ∧ 8 ≤ (8 : MemberId).val ∧
    s.get (DCH.FSP_ACTIVE ((8 : MemberId).val - 8)) < 3 := by and_intros <;> decide +kernel

theorem test_MemoryChannelFaults_fall : let s := channels.setMember 8 { (channels.member 8) with caRow := 2 };
    let t := nx (.caParity 8 true) s; t.get (DCH.FSP_ACTIVE 0) = 1 ∧ (t.member 8).caRow = 0 ∧ t.evt (DCH.page 0) DCH.evFSP_FALL = true ∧
    t.q.refigure = true := by decide +kernel

theorem wit_MemoryChannelFaults_drop : let s := channels.setMember 0 { (channels.member 0) with caRow := 2 };
    s.memberUp (0 : MemberId).val = true ∧ (s.member (0 : MemberId).val).caRow = 2 ∧ (0 : MemberId).val < 8 := by and_intros <;> decide +kernel

theorem test_MemoryChannelFaults_drop :
    let s := { channels with tier := {}, cm := { twin := .paired } }.setMember 0 { (channels.member 0) with caRow := 2 };
    let t := nx (.caParity 0 true) s; t.get (inServiceFld 0) = 0 ∧ t.mc.damaged = true ∧ t.q.refigure = true := by decide +kernel

theorem wit_MemoryChannelFaults_out : channels.dllIn (1 : Fin 17).val = true ∧ dllWindow (1 : Fin 17).val < 7 ∧
    channels.dllIn (2 : Fin 17).val = false := by and_intros <;> decide +kernel

theorem wit_MemoryChannelFaults_epoch : let s := { up with clk := { up.clk with epochCode := some 9 } }; s.dllEnabled (0 : Fin 17).val = true ∧
    s.dllIn (0 : Fin 17).val = false ∧ (500 : Nat) ≤ dllWindow (0 : Fin 17).val ∧ s.clk.epochCode.isSome = true ∧ up.clk.epochCode = none ∧
    up.dllIn (0 : Fin 17).val = false := by and_intros <;> decide +kernel

theorem wit_MemoryChannelFaults_back : let s := channels.setMember 0 { (channels.member 0) with inWindow := false };
    s.dllEnabled (1 : Fin 17).val = true ∧ s.dllIn (1 : Fin 17).val = false ∧ (3 : Nat) ≤ dllWindow (1 : Fin 17).val ∧
    s.flag (trainedFld ((1 : Fin 17).val - 1)) = true := by and_intros <;> decide +kernel

theorem test_MemoryChannelFaults_back : let s := channels.setMember 0 { (channels.member 0) with inWindow := false };
    (nx (.dllBackInWindow 1 5 3) s).dllIn 1 = true := by decide +kernel

theorem wit_MemoryChannelFaults_tmo : let s := channels.setMember 0 { (channels.member 0) with inWindow := false, outSince := some 0 };
    s.memberUp (0 : MemberId).val = true ∧ (s.member (0 : MemberId).val).inWindow = false ∧
    (s.member (0 : MemberId).val).outSince.isSome = true := by and_intros <;> decide +kernel

/-! ### FillDrainScanRetrain -/

theorem wit_FillDrainScanRetrain_scan0 : (up.put CLK.MEMBER 0).get CLK.MEMBER = 0 ∧ 16 < (up.put CLK.MEMBER 17).get CLK.MEMBER := by
  and_intros <;> decide +kernel

theorem wit_FillDrainScanRetrain_ret3 : let s := { (regs channels [(CLK.RETRAIN_MEMBER, 9), (DCH.IN_SERVICE 0, 0)]) with clk := {} };
    s.canWrite .smbus CLK.RETRAIN_START = true ∧ s.drained (s.get CLK.RETRAIN_MEMBER - 1) = false ∧
    s.memberUp (s.get CLK.RETRAIN_MEMBER - 1) = false ∧ s.clk.retrain = none := by
  and_intros <;> decide +kernel

theorem wit_FillDrainScanRetrain_fill : up.canWrite .smbus CEL.FILL_START = true := by decide +kernel

theorem wit_FillDrainScanRetrain_filled : let s := { up with mc := { fillBusy := true } }; s.dpUp = true ∧ s.mc.fillBusy = true ∧
    s.cm.inService = false := by and_intros <;> decide +kernel

theorem wit_FillDrainScanRetrain_drain : up.canWrite .smbus (STK.DRAIN (0 : MemberId).val) = true ∧
    up.canWrite .smbus (DCH.DRAIN ((8 : MemberId).val - 8)) = true := by and_intros <;> decide +kernel

theorem wit_FillDrainScanRetrain_fsp : channels.canWrite .smbus (DCH.FSP (0 : Fin 8).val) = true ∧
    (mget (channels.member (8 + (0 : Fin 8).val)).codes (1 : BitVec 2).toNat).isSome = true ∧
    mget (channels.member (8 + (0 : Fin 8).val)).codes (2 : BitVec 2).toNat = none ∧ channels.drained (8 + (0 : Fin 8).val) = false :=
    by and_intros <;> decide +kernel

theorem wit_FillDrainScanRetrain_scan : let s := regs channels [(CLK.MEMBER, 1), (CLK.SUB, 15)]; s.canWrite .smbus CLK.START = true ∧
    s.clk.scan = none ∧ s.clk.retrain = none ∧ 1 ≤ s.get CLK.MEMBER ∧ s.get CLK.MEMBER ≤ 16 ∧ s.memberUp (s.get CLK.MEMBER - 1) = true ∧
    s.get CLK.SUB < memberSubs (s.get CLK.MEMBER - 1) := by and_intros <;> decide +kernel

theorem wit_FillDrainScanRetrain_sub : (let s := regs channels [(CLK.MEMBER, 9), (CLK.SUB, 2)]; memberSubs (s.get CLK.MEMBER - 1) ≤ s.get CLK.SUB) ∧
    (up.put CLK.MEMBER 3).memberUp ((up.put CLK.MEMBER 3).get CLK.MEMBER - 1) = false := by and_intros <;> decide +kernel

theorem wit_FillDrainScanRetrain_scand : let s := { up with clk := { scan := some 2 } }; s.dpUp = true ∧ s.clk.scan.isSome = true ∧
    ([[9, 8, 7, 6], [1, 2, 3, 4]] : List (List Nat))[1]? = some [1, 2, 3, 4] := by and_intros <;> decide +kernel

theorem wit_FillDrainScanRetrain_ret0 : let s := regs up [(CLK.RETRAIN_MEMBER, 0)]; s.canWrite .smbus CLK.RETRAIN_START = true ∧
    s.get CLK.RETRAIN_MEMBER = 0 := by and_intros <;> decide +kernel

theorem wit_FillDrainScanRetrain_ret1 : let s := regs up [(CLK.RETRAIN_MEMBER, 1)];
    s.canWrite .smbus CLK.RETRAIN_START = true ∧ s.clk.retrain = none ∧ 1 ≤ s.get CLK.RETRAIN_MEMBER ∧
    s.drained (s.get CLK.RETRAIN_MEMBER - 1) = true := by and_intros <;> decide +kernel

theorem wit_FillDrainScanRetrain_ret2 : let s := regs channels [(CLK.RETRAIN_MEMBER, 9)];
    s.drained (s.get CLK.RETRAIN_MEMBER - 1) = false ∧ s.memberUp (s.get CLK.RETRAIN_MEMBER - 1) = true ∧
    s.flag (HDR.EXPERT CLK.page) = false := by and_intros <;> decide +kernel

theorem wit_FillDrainScanRetrain_retd : let s := { channels with clk := { retrain := some (8, true) } }; s.dpUp = true ∧
    s.clk.retrain = some (8, true) ∧ s.clk.retrainFsp ≤ 3 ∧ 3 < setPoints 8 ∧ ([5, 6, 7, 8] : List Nat)[3]? = some 8 := by and_intros <;> decide +kernel

/-! ### MusterSteps -/

theorem wit_MusterSteps_commits : (mustering.at 9).commitGoesOn = false ∧
    ({ paired with mus := { mustering.mus with cause := 4, ep0 := 1002 } }.at 9).commitGoesOn = true ∧ mustering.mus.step ≠ .record := by
  and_intros <;> decide +kernel

theorem wit_MusterSteps_short : serving.dpUp = true ∧ 2 * 799 < usCycles ∧ (up.put MUS.PFAIL_EN 0).flag MUS.PFAIL_EN = false :=
    by and_intros <;> decide +kernel

theorem wit_MusterSteps_long : serving.flag MUS.PFAIL_EN = true ∧ usCycles ≤ 1600 ∧ serving.mus.state = .armed ∧
    serving.norInFlight = false ∧ serving.musterWaits = false := by and_intros <;> decide +kernel

theorem test_MusterSteps_long : let t := nx (.pfail 5 1600) serving; t.mus.state = .mustering ∧ t.mus.step = .commit ∧ t.mus.cause = 1 ∧
    bitOf t.mus.causes 1 = true ∧ t.mus.stopped = true ∧ t.net.held = [] ∧ t.evt MUS.page MUS.evMUSTER_START = true ∧
    t.serviceUp = false := by decide +kernel

theorem wit_MusterSteps_commit : mustering.dpUp = true ∧ mustering.mus.state = .mustering ∧ mustering.mus.step = .commit :=
    by and_intros <;> decide +kernel

theorem test_MusterSteps_commit : let t := nx (.musterCommitEnd ⟨9, []⟩) mustering; t.mus.step = .image ∧ t.mus.answers = [] ∧
    t.pwr.hostSerdes = false ∧ t.get (DFT.LINK_UP 0) = 0 := by decide +kernel

/-- A muster at step 4, with a key of the storage class and marks ahead. -/
def imaging : State := { logging with mus := { state := .mustering, step := .image, cause := 1, stopped := true } }

theorem wit_MusterSteps_image : imaging.dpUp = true ∧ imaging.mus.state = .mustering ∧ imaging.mus.step = .image ∧
    imaging.chanWaits 8 = false ∧ imaging.storeInst.isSome = true ∧ (imaging.useCounters (imaging.get CPH.STORE_KEY) (4 * imaging.imageBlocks)).1 = true := by
  and_intros <;> decide +kernel

theorem wit_MusterSteps_five : let s := { imaging with mus := { imaging.mus with cause := 5 } }; s.storeInst.isSome = true ∧
    (s.finishPrograms.useCounters (s.finishPrograms.get CPH.STORE_KEY) (4 * s.finishPrograms.imageBlocks)).1 = true := by
  and_intros <;> decide +kernel

theorem wit_MusterSteps_nokey : let s := { mustering with mus := { mustering.mus with step := .image } };
    s.chanWaits 8 = false ∧ (s.at 9).storeInst = none := by
  and_intros <;> decide +kernel

theorem wit_MusterSteps_waits : let s := { imaging with key := { imaging.key with marks := [] } }; s.chanWaits 8 = false ∧
    s.storeInst.isSome = true ∧ (s.useCounters (s.get CPH.STORE_KEY) (4 * s.imageBlocks)).1 = false ∧
    (s.useCounters (s.get CPH.STORE_KEY) (4 * s.imageBlocks)).2.storeRetired = false := by
  and_intros <;> decide +kernel

theorem wit_MusterSteps_retired : let s := { imaging with key := retiredStore.key }; s.chanWaits 8 = false ∧ s.storeInst.isSome = true ∧
    (s.useCounters (s.get CPH.STORE_KEY) (4 * s.imageBlocks)).1 = false ∧
    (s.useCounters (s.get CPH.STORE_KEY) (4 * s.imageBlocks)).2.storeRetired = true := by
  and_intros <;> decide +kernel

theorem test_MusterSteps_image : (nx (.musterImageDone ⟨9, []⟩) imaging).mus.step = .record ∧
    (nx (.musterImageDone ⟨9, []⟩) imaging).mus.dirty.contains 0 = true := by decide +kernel

theorem wit_MusterSteps_done : let s := { mustering with mus := { mustering.mus with step := .record } }; s.dpUp = true ∧
    s.mus.state = .mustering ∧ s.mus.step = .record ∧ s.vit.deferred = none ∧ s.mus.cause ≠ 6 := by and_intros <;> decide +kernel

theorem wit_MusterSteps_vit : let s := { mustering with mus := { mustering.mus with step := .record }, vit := { deferred := some 2 } };
    s.dpUp = true ∧ s.vit.deferred = some 2 := by and_intros <;> decide +kernel

theorem test_MusterSteps_vit : let s := { mustering with mus := { mustering.mus with step := .record }, vit := { deferred := some 2 } };
    let t := nx .musterDone s; t.mus.state = .mustered ∧ t.vit.frozen = true ∧ t.get VIT.DEFERRED = 1 ∧ t.key.rootGone = true :=
    by decide +kernel

/-! ### RestoreAndArming -/

theorem wit_RestoreAndArming_armno : serving.canWrite .smbus MUS.ARM = true ∧ serving.mus.state ≠ .unready := by and_intros <;> decide +kernel

theorem wit_RestoreAndArming_armrec : unarmed.canWrite .smbus MUS.ARM = true ∧ unarmed.mus.state = .unready ∧
    unarmed.mus.restored = false ∧ unarmed.chosenRecord.isSome = true :=
  ⟨by decide +kernel, by decide +kernel, by decide +kernel, by rw [unarmed_chosen]; rfl⟩

theorem wit_RestoreAndArming_armnew : up.canWrite .smbus MUS.ARM = true ∧ up.mus.state = .unready ∧ up.mus.restored = false ∧
    up.chosenRecord = none := by and_intros <;> decide +kernel

theorem test_RestoreAndArming_armnew : let t := nx (.arm .smbus) up; t.mus.restored = true ∧ t.mus.state = .unready := by decide +kernel

theorem wit_RestoreAndArming_bad : restoring.dpUp = true ∧ restoring.key.reload = [] ∧ restoring.mus.state = .restoring ∧ restoring.mus.restored = false :=
    by and_intros <;> decide +kernel

theorem wit_RestoreAndArming_good : restoring.storeKeyOk = true ∧ restoring.mus.state = .restoring ∧ restoring.mus.restored = false ∧
    restoring.chosenRecord = some restSlot ∧
    ((mget restoring.mus.images (fieldLE (restoring.norBytes restSlot 16) 10 1 % 2)).map fun m =>
      (decide (m.serial = restoring.norWord (restSlot + 4)), m.verifies,
        restoring.areaReadable (fieldLE (restoring.norBytes restSlot 16) 10 1 % 2) m.blocks.length)) = some (true, true, true) :=
  ⟨by decide +kernel, by decide +kernel, by decide +kernel, restChosen, by decide +kernel⟩

theorem wit_RestoreAndArming_area : let s := { up with mus := { erasing := [1], dirty := [0, 1] } }; s.dpUp = true ∧
    s.mus.erasing = 1 :: [] ∧ s.mus.stopped = false := by and_intros <;> decide +kernel

/-! ### DeclarationAndService -/

theorem wit_DeclarationAndService_smb : up.canWrite .smbus MUS.DECL_J = true ∧ up.canWrite .smbus MUS.VHC = true := by and_intros <;> decide +kernel

theorem wit_DeclarationAndService_cur : up.canWrite (.curator 1) MUS.DECL_J = true := by decide +kernel

theorem wit_DeclarationAndService_pcie : let s := up.put PCE.LINK_UP 1; s.canWrite .pcie MUS.DECL_J = true ∧
    s.flag MUS.DECL_LOCKED = false ∧ s.pwr.energyEn = true := by and_intros <;> decide +kernel

theorem wit_DeclarationAndService_vhc : serving.canWrite .smbus MUS.VHC = true ∧ (1 : BitVec 16).toNat < serving.vhc ∧
    serving.vhc < (0xFFFF : BitVec 16).toNat := by and_intros <;> decide +kernel

theorem wit_DeclarationAndService_open : let s := { (serving.put SYS.OPEN 0) with clk := { lock := true }, mc := { fillDone := true } };
    s.dpUp = true ∧ s.serviceUp = false ∧ s.mayOpen = true := by and_intros <;> decide +kernel

/-! ### CuratorsResetAndBoot -/

theorem wit_CuratorsResetAndBoot_off : up.mgUp = true ∧ up.flag (CUR.WDT_EN (1 : Fin 4).val) = false ∧ up.cur.booting = false :=
    by and_intros <;> decide +kernel

theorem wit_CuratorsResetAndBoot_wdt : let s := up.put (CUR.WDT_EN 1) 1; s.flag (CUR.WDT_EN (1 : Fin 4).val) = true ∧
    s.norInFlight = false ∧ s.cur.fw = [] := by and_intros <;> decide +kernel

theorem test_CuratorsResetAndBoot_wdt : let t := nx (.watchdog 1) (up.put (CUR.WDT_EN 1) 1); t.get CUR.LAST_WDT = 2 ∧
    bitOf (t.get RST.CAUSE) 3 = true ∧ t.evt CUR.page CUR.evWDT_RESET = true ∧ t.cur.booting = true ∧ t.cur.verified = false ∧
    (let t := nx (.lockup 3) up; t.get CUR.LAST_LOCKUP = 8 ∧ bitOf (t.get RST.CAUSE) 7 = true ∧ t.evt CUR.page CUR.evLOCKUP_RESET = true) :=
    by decide +kernel

theorem wit_CuratorsResetAndBoot_wait : norBusyState.mgUp = true ∧ norBusyState.norInFlight = true := by and_intros <;> decide +kernel

theorem test_CuratorsResetAndBoot_wait : let t := nx (.lockup 3) norBusyState;
    t.cur = { norBusyState.cur with dead := [3], waits := norBusyState.cur.waits ++ [.reset 7 false] } := by decide +kernel

theorem wit_CuratorsResetAndBoot_kick : up.canWrite .smbus (CUR.WDT_KICK (2 : Fin 4).val) = true := by decide +kernel

theorem wit_CuratorsResetAndBoot_boot : let s := { up with cur := { booting := true } }; s.mgUp = true ∧ s.cur.booting = true ∧
    s.imageOk 0 = false ∧ s.imageOk 1 = false := by and_intros <;> decide +kernel

theorem test_CuratorsResetAndBoot_boot : let t := nx (.bootVerify 7) { up with cur := { booting := true } }; t.cur.booting = false ∧
    t.get CUR.BOOT_MS = 7 ∧ t.cur.verified = false ∧ t.cur.recovery = true := by decide +kernel

/-! ### NorOperations -/

theorem wit_NorOperations_fence : let s := regs up [(NOR.ADDR, 64)]; s.pwr.vsupOk = true ∧ s.canWrite .smbus NOR.OP = true ∧
    s.canWrite (.curator 2) NOR.OP = true ∧ s.norFenced (s.get NOR.ADDR) = true := by and_intros <;> decide +kernel

theorem wit_NorOperations_busy : let s := norBusyState.put NOR.ADDR 64; s.canWrite .smbus NOR.OP = true ∧ s.norFenced 64 = false ∧
    s.norBusy (norBank 64) = true := by and_intros <;> decide +kernel

theorem wit_NorOperations_free : norIdle.canWrite .smbus NOR.OP = true ∧ norIdle.norFenced (norIdle.get NOR.ADDR) = false ∧
    norIdle.norBusy (norBank (norIdle.get NOR.ADDR)) = false ∧ norIdle.norWord (norIdle.get NOR.ADDR) = 0xFFFFFFFF := by and_intros <;> decide +kernel

theorem test_NorOperations_free : (nx (.norProgram .smbus) norIdle).cur.busy = [(0, { erase := false, addr := 64, data := 0xFFFF0000 })] ∧
    (nx (.norErase .smbus) norIdle).cur.busy = [(0, { erase := true, addr := 64, data := 0xFFFF0000 })] := by decide +kernel

theorem wit_NorOperations_not : let s := norIdle.norSet 64 5; s.norFenced (s.get NOR.ADDR) = false ∧
    s.norWord (s.get NOR.ADDR) ≠ 0xFFFFFFFF := by and_intros <;> decide +kernel

theorem wit_NorOperations_done : norBusyState.cur.busy = [((0 : Fin 4).val, { erase := false, addr := 64, data := 0xFFFF0000 })] ∧
    norBusyState.cur.todo = [] ∧ norBusyState.cur.devWait = [] ∧ norBusyState.cur.waits = [] ∧ norBusyState.cur.fw = [] ∧ norBusyState.mus.consuming = none ∧
    norBusyState.key.heldRec = none ∧ norBusyState.key.heldFormat = false ∧ norBusyState.key.heldAns = none ∧ norBusyState.cur.selecting = false := by and_intros <;> decide +kernel

theorem test_NorOperations_done : let t := nx (.norOpDone 0) norBusyState; t.cur.busy = [] ∧ t.get NOR.RESULT = 0 ∧
    t.evt NOR.page NOR.evOP_DONE = true ∧ t.norWord 64 = 0xFFFF0000 ∧ t.norWord 66 = 0xFFFF0000 ∧ t.norWord 68 = 0xFFFFFFFF :=
    by decide +kernel

theorem wit_NorOperations_erased : let s := { up with cur := { words := [(64, 5), (4096, 7)], busy := [(0, { erase := true, addr := 100 })] } };
    s.cur.busy = [((0 : Fin 4).val, { erase := true, addr := 100 })] := by decide +kernel

theorem test_NorOperations_erased : let s := { up with cur := { words := [(64, 5), (4096, 7)], busy := [(0, { erase := true, addr := 100 })] } };
    let t := nx (.norOpDone 0) s; t.norWord 64 = 0xFFFFFFFF ∧ t.norWord 4096 = 7 := by decide +kernel

theorem wit_NorOperations_req : up.canWrite .smbus NOR.COMMIT_REQ = true ∧ up.cur.verifying = none := by and_intros <;> decide +kernel

theorem wit_NorOperations_com : let s := { up with cur := { verifying := some (1, false) } }; s.mgUp = true ∧ s.cur.fw = [] ∧ s.cur.selecting = false ∧
    s.bankEmpty 1 = true := by and_intros <;> decide +kernel

theorem wit_NorOperations_com2 : let s := { up with cur := { verifying := some (1, false), words := [(2 ^ 24, 5)] } };
    s.bankEmpty 1 = false ∧ s.imageOk 1 = false := by and_intros <;> decide +kernel

theorem test_NorOperations_com2 : let s := { up with cur := { verifying := some (1, false), words := [(2 ^ 24, 5)] } };
    let t := nx .commitDone s; t.get NOR.COMMIT_RESULT = 0x10 ∧ t.evt NOR.page NOR.evCOMMIT_FAIL = true := by decide +kernel

/-! ### MarksAlarmsEntropy -/

theorem wit_MarksAlarmsEntropy_none : up.dpUp = true ∧ up.key.marking = [] := by and_intros <;> decide +kernel

theorem wit_MarksAlarmsEntropy_mark : keyed.key.marking = (9, 1000) :: [] ∧ keyed.norBusy 2 = false ∧ keyed.flag ADT.ALIGNED = false ∧
    keyed.net.waiting = [] ∧ keyed.net.relays = [] ∧ keyed.key.reload = [] ∧ keyed.key.haltAdit = [] ∧ keyed.key.haltRx = [] ∧
    keyed.key.haltPages = [] ∧ keyed.key.haltLoad = none ∧ (keyed.keyInst 9).isSome = true := by and_intros <;> decide +kernel

theorem test_MarksAlarmsEntropy_mark : let t := nx .markProgrammed keyed; t.key.marking = [] ∧ mget t.key.marks 9 = some 1000 ∧
    ((t.keyInst 9).map (·.ready)) = some true := by decide +kernel

theorem wit_MarksAlarmsEntropy_alarm : keyed.dpUp = true ∧ keyed.flag ADT.ALIGNED = false := by and_intros <;> decide +kernel

theorem test_MarksAlarmsEntropy_alarm : let t := nx (.alarm 2) keyed; t.key.rootGone = true ∧ t.key.inst.length = 1 ∧
    bitOf (t.get CPH.ALARM_CAUSE) 2 = true ∧ t.get CPH.PRIV_ERASED = 1 ∧ t.evt CPH.page CPH.evALARM = true ∧
    (nx (.alarm 4) keyed).key.inst = [] := by decide +kernel

theorem wit_MarksAlarmsEntropy_reseed : up.key.haltAdit = [] ∧ up.key.haltRx = [] ∧ up.key.haltPages = [] ∧
    up.key.haltLoad = none ∧ up.net.waiting = [] ∧ up.net.relays = [] ∧ up.flag ADT.ALIGNED = false :=
    by and_intros <;> decide +kernel

theorem test_MarksAlarmsEntropy_reseed : let t := nx .reseedDone up; t.key.halted = false ∧ t.key.seeded = true ∧ t.key.entOk = true ∧
    t.get CPH.DRBG_RESEEDS = 1 := by decide +kernel

/-! ### KeyRegisters -/

theorem wit_KeyRegisters_use : let s := { (regs up [(CPH.STORE_KEY, 10), (HDR.EXPERT KST.page, 1)]) with key := keyed.key };
    s.canWrite .smbus KST.KS_FORMAT = true ∧ s.keyInUse 10 = true := by and_intros <;> decide +kernel

theorem wit_KeyRegisters_fmt : (keyed.put (HDR.EXPERT KST.page) 1).canWrite .smbus KST.KS_FORMAT = true ∧
    (∀ e : Nat × KeyInst, e ∈ (keyed.put (HDR.EXPERT KST.page) 1).key.inst → (keyed.put (HDR.EXPERT KST.page) 1).keyInUse e.1 = false) ∧
    (keyed.put (HDR.EXPERT KST.page) 1).norBusy 2 = false := by and_intros <;> decide +kernel

theorem test_KeyRegisters_fmt : let t := nx (.ksFormat .smbus) (keyed.put (HDR.EXPERT KST.page) 1); t.key.records = [] ∧
    t.key.marks = [] ∧ t.key.inst = [] := by decide +kernel

theorem wit_KeyRegisters_fmtb : let s := { (keyed.put (HDR.EXPERT KST.page) 1) with cur := { busy := [(2, { erase := true, addr := 0x2FFF000 })] } };
    s.norBusy 2 = true ∧ (∀ e : Nat × KeyInst, e ∈ s.key.inst → s.keyInUse e.1 = false) := by and_intros <;> decide +kernel

theorem wit_KeyRegisters_store : up.canWrite .smbus CPH.STORE_KEY = true ∧ up.mus.state = .unready ∧ serving.mus.state ≠ .unready ∧
    serving.canWrite .smbus CPH.STORE_KEY = true := by and_intros <;> decide +kernel

theorem wit_KeyRegisters_kino : let s := { up with acc := { jrn := [(0, { window := some 7 })] } };
    s.canWrite .smbus ACC.KEY_INST = true ∧ (s.jrn (s.get ACC.JRN_SEL)).window.isSome = true := by and_intros <;> decide +kernel

theorem wit_KeyRegisters_kidup : let s := { up with acc := { jrn := [(3, { keyInst := 4 })] } }; (4 : Word) ≠ 0 ∧
    ((3, { keyInst := 4 }) : Nat × Journal) ∈ s.acc.jrn ∧ 3 ≠ s.get ACC.JRN_SEL := by and_intros <;> decide +kernel

theorem wit_KeyRegisters_ki : up.canWrite .smbus ACC.KEY_INST = true ∧ (up.jrn (up.get ACC.JRN_SEL)).window = none := by and_intros <;> decide +kernel

theorem test_KeyRegisters_ki : ((nx (.keyInst .smbus 4) up).jrn 0).keyInst = 4 ∧ ((nx (.keyInst .smbus 0) up).jrn 0).keyInst = 0 :=
    by decide +kernel

/-! ### DriftLinks -/

theorem wit_DriftLinks_stopped : let s := { ganged with mus := mustering.mus }; driftGood s 0 (lf 0x16 (List.replicate 50 0)) 0x16 = true ∧
    s.mus.stopped = true ∧ ganged.mus.stopped = false := by
  and_intros <;> decide +kernel

theorem wit_DriftLinks_one : up.dpUp = true ∧ up.gangN = 1 := by and_intros <;> decide +kernel

theorem wit_DriftLinks_up : let s := { (ganged.put (DFT.LINK_UP 0) 0) with gang := {} }; s.dpUp = true ∧ s.gangN ≠ 1 ∧
    s.flag (DFT.LINK_EN (0 : Fin 3).val) = true ∧ bitOf s.clk.srdLock 1 = true ∧
    s.flag (HDR.IN_RESET (DFT.page (0 : Fin 3).val)) = false := by and_intros <;> decide +kernel

theorem test_DriftLinks_up : let s := { ((ganged.put (DFT.LINK_UP 0) 0).put (HDR.ENABLE GNG.page) 1) with gang := {} };
    let t := nx (.driftLinkUp 0 400 1 1 5 6 100) s; t.get (DFT.LINK_UP 0) = 1 ∧ t.get (DFT.DELAY 0) = 200 ∧ t.get (DFT.PEER_POS 0) = 1 ∧
    mget t.gang.peers 0 = some ⟨1, 1, 5, 6, 100⟩ ∧ t.gang.formed = t.gangComplete ∧
    (let t := nx (.driftLinkUp 0 400 2 1 5 6 100) s; t.evt (DFT.page 0) DFT.evPEER_WRONG = true ∧ t.evt GNG.page GNG.evGANG_MISMATCH = true) :=
    by decide +kernel

theorem wit_DriftLinks_down : let s := { ganged with gang := {} }; s.flag (DFT.LINK_UP (0 : Fin 3).val) = true ∧ s.gang.formed = false :=
    by and_intros <;> decide +kernel

theorem test_DriftLinks_down : let s := { ganged with gang := { peers := [(0, ⟨1, 1, 5, 6, 7⟩)] } }; let t := nx (.driftLinkDown 0) s;
    t.get (DFT.LINK_UP 0) = 0 ∧ t.gang.peers = [] ∧ t.evt (DFT.page 0) DFT.evLINK_DOWN = true := by decide +kernel

theorem wit_DriftLinks_lost : ganged.flag (DFT.LINK_UP (0 : Fin 3).val) = true ∧ ganged.gang.formed = true ∧
    ganged.linkPos (0 : Fin 3).val < ganged.gangN ∧ ganged.gang.remote = [] ∧ ganged.gang.waiting = [] ∧ ganged.net.reads = [] ∧ ganged.frozenCut = false := by
  and_intros <;> decide +kernel

theorem test_DriftLinks_lost : let t := nx (.driftLinkDown 0) ganged; t.get (DFT.LINK_UP 0) = 0 ∧ t.gang.lost = [0] ∧
    t.evt GNG.page GNG.evMEMBER_LOST = true ∧ t.q.refigure = true := by decide +kernel

theorem wit_DriftLinks_crc : (lf 0x16 []).crcOk 0x17 = false := by decide +kernel

theorem wit_DriftLinks_table : driftGood ganged 0 (lf 0x11 (bytesBE 8 50 ++ List.replicate 40 1)) 0x11 = true := by decide +kernel

theorem wit_DriftLinks_ans : let f := lf 0x17 (List.replicate 32 0 ++ [7, 8, 9]); let s := ganged.put (HP.LINK_UP 0) 1;
    driftGood s 0 f 0x17 = true ∧ s.linkUp (parseReturn f.body none).link = true ∧ s.pausedAt (parseReturn f.body none) = false ∧
    ganged.linkUp (parseReturn f.body none).link = false := by and_intros <;> decide +kernel

theorem wit_DriftLinks_fwd : let s := ganged.put (XPT.IPV4_EN 0) 1
    let d := parseFwd 0 fwd8.body (s.get (XPT.UDP_PORT_SEALED 0))
    driftGood s 0 fwd8 0x16 = true ∧ s.frameBad d.1.frame = false ∧ d.1.cut = false ∧ d.1.sealing = none ∧
    d.1.frame.dstPort.toNat = s.get (XPT.UDP_PORT 0) ∧ icrcOk d.1 d.2 = true ∧ d.1.hdr.typ = 0 :=
  ⟨fwd8Good, by decide +kernel⟩

theorem wit_DriftLinks_cut : driftGood ganged 0 (lf 0x16 (List.replicate 50 0)) 0x16 = true ∧
    (parseFwd 0 (List.replicate 50 0) (ganged.get (XPT.UDP_PORT_SEALED 0))).1.cut = true := by and_intros <;> decide +kernel

/-! ### RemoteMemory -/

theorem wit_RemoteMemory_fault : driftGood ganged 0 (lf 0x13 (bytesBE 8 0 ++ bytesBE 4 8 ++ bytesBE 4 7)) 0x13 = true ∧
    ganged.presBytes < fieldBE ((lf 0x13 (bytesBE 8 0 ++ bytesBE 4 8 ++ bytesBE 4 7))).body 0 8 + fieldBE ((lf 0x13 (bytesBE 8 0 ++ bytesBE 4 8 ++ bytesBE 4 7))).body 8 4 :=
    by and_intros <;> decide +kernel

theorem test_RemoteMemory_fault : exec (.memRead 0 ⟨(lf 0x13 (bytesBE 8 0 ++ bytesBE 4 8 ++ bytesBE 4 7)), []⟩) ganged = .fault .deviceAddressAbsent :=
    eq_of_sameOutcome (by decide +kernel)

theorem wit_RemoteMemory_read : driftGood gangMem 0 (lf 0x13 (bytesBE 8 0 ++ bytesBE 4 8 ++ bytesBE 4 7)) 0x13 = true ∧
    fieldBE ((lf 0x13 (bytesBE 8 0 ++ bytesBE 4 8 ++ bytesBE 4 7))).body 0 8 + fieldBE ((lf 0x13 (bytesBE 8 0 ++ bytesBE 4 8 ++ bytesBE 4 7))).body 8 4 ≤ gangMem.presBytes ∧
    (∀ x : Nat, x ∈ sectorsIn 0 8 → gangMem.poisoned x = false) ∧
    (extentsIn 0 8).all (fun e => (gangMem.extent e).any fun x => x.home == .hot 0) = true ∧
    gangMem.gang.waiting = [] := by and_intros <;> decide +kernel

theorem test_RemoteMemory_read : (nx (.memRead 0 ⟨(lf 0x13 (bytesBE 8 0 ++ bytesBE 4 8 ++ bytesBE 4 7)), []⟩) gangMem).out = [.drift 0 { typ := 0x14, fseq := 0, epoch := 50, payload := bytesBE 4 7 ++ [0, 0, 0, 0] ++ [0, 0, 0, 9, 0, 0, 0, 0] }] :=
    by decide +kernel

theorem wit_RemoteMemory_place : driftGood gangMem 0 (lf 0x15 (bytesBE 8 2 ++ bytesBE 8 49 ++ bytesBE 4 0 ++ [0, 0, 0, 0] ++ [5, 6]) 0 49) 0x15 = true ∧
    fieldBE ((lf 0x15 (bytesBE 8 2 ++ bytesBE 8 49 ++ bytesBE 4 0 ++ [0, 0, 0, 0] ++ [5, 6]) 0 49)).body 0 8 + (((lf 0x15 (bytesBE 8 2 ++ bytesBE 8 49 ++ bytesBE 4 0 ++ [0, 0, 0, 0] ++ [5, 6]) 0 49)).body.length - 24) ≤ gangMem.presBytes ∧
    mget gangMem.gang.placeEnd (gangMem.linkPos 0) = none ∧
    ganged.presBytes < fieldBE ((lf 0x15 (bytesBE 8 2 ++ bytesBE 8 49 ++ bytesBE 4 0 ++ [0, 0, 0, 0] ++ [5, 6]) 0 49)).body 0 8 + (((lf 0x15 (bytesBE 8 2 ++ bytesBE 8 49 ++ bytesBE 4 0 ++ [0, 0, 0, 0] ++ [5, 6]) 0 49)).body.length - 24) :=
    by and_intros <;> decide +kernel

theorem test_RemoteMemory_place : let t := nx (.memPlace 0 (lf 0x15 (bytesBE 8 2 ++ bytesBE 8 49 ++ bytesBE 4 0 ++ [0, 0, 0, 0] ++ [5, 6]) 0 49)) gangMem;
    t.gang.placing = [(1, 49, 0, 2, [5, 6])] ∧
    (let t := nx (.placeEnd 0 (lf 0x12 [] 0 49)) t; mget t.gang.placeEnd 1 = some 49 ∧ t.gang.placing = [] ∧ (List.range 5).map (fun a => Memory.read t.mem a) = [0, 0, 5, 6, 0]) :=
    by decide +kernel

theorem wit_RemoteMemory_end : driftGood gangMem 0 (lf 0x12 [] 0 49) 0x12 = true ∧
    (∀ e : Nat × Nat × Nat × Nat × List Byte, e ∈ gangMem.gang.placing → e.1 ≠ gangMem.linkPos 0) := by and_intros <;> decide +kernel

theorem test_RemoteMemory_end : let t := nx (.placeEnd 0 (lf 0x12 [] 0 49)) gangMem; t.gang.placing = [] ∧
    mget t.gang.placeEnd 1 = some 49 := by decide +kernel

theorem wit_RemoteMemory_late : mget ({ gangMem with gang := { gangMem.gang with placeEnd := [(gangMem.linkPos 0, 49)] } } : State).gang.placeEnd
    (gangMem.linkPos 0) = some 49 ∧ fieldBE (lf 0x15 (bytesBE 8 2 ++ bytesBE 8 49) 0 49).body 8 8 ≤ 49 := by and_intros <;> decide +kernel

/-- A byte placed by the other member in epoch 49, not yet applied. -/
def placing : State := { gangMem with gang := { gangMem.gang with placing := [(gangMem.linkPos 0, 49, 0, 2, [5])] } }

theorem wit_RemoteMemory_due : driftGood placing 0 (lf 0x12 [] 0 49) 0x12 = true ∧
    (placing.gang.placing.filter fun e => e.1 == placing.linkPos 0 && e.2.1 ≤ max (lf 0x12 [] 0 49).epoch.toNat (mgetD placing.gang.placeEnd (placing.linkPos 0) 0)) =
      [(placing.linkPos 0, 49, 0, 2, [5])] ∧ placing.gang.applied = [] ∧ placing.heldBack 2 1 = false ∧
    (∀ k : Nat, k ∈ extentsIn 2 1 → k = 0) ∧ ((placing.extent 0).map fun x => (x.isVolatile, x.move)) = some (true, none) := by
  and_intros <;> decide +kernel

theorem wit_RemoteMemory_held : let s := placing.setMember 0 { (placing.member 0) with outSince := some 0 };
    (regs s [(STK.IN_SERVICE 0, 1), (STK.TRAINED 0, 1), (HDR.ENABLE 0x40, 1)]).heldBack 2 1 = true := by decide +kernel

theorem wit_RemoteMemory_data : driftGood ganged 0 (lf 0x14 [0, 0, 0, 1, 0, 0, 0, 0]) 0x14 = true ∧ ganged.gang.remote = [] ∧
    ganged.gang.waiting = [] ∧ ganged.net.reads = [] ∧ ganged.frozenCut = false := by and_intros <;> decide +kernel

/-! ### CensusAndCalendar -/

theorem wit_CensusAndCalendar_no : up.pwr.vsupOk = true ∧ up.cal.sec * 32768 ≤ up.cen.start := by and_intros <;> decide +kernel

theorem wit_CensusAndCalendar_sum : let s := { up with cal := { sec := 3600, valid := true } }; s.cal.sec % (60 * s.cen.period) = 0 ∧
    s.cen.start < s.cal.sec * 32768 ∧ s.cen.full = false ∧ s.storeBusy = false ∧ s.cen.heldSum = none ∧ s.cen.heldOoc = none := by and_intros <;> decide +kernel

theorem test_CensusAndCalendar_sum : let s := { up with cal := { sec := 3600, valid := true } }; let t := nx .summary s;
    t.cen.start = s.calTime ∧ t.cen.period = s.get CEN.PERIOD_MIN ∧ t.cen.hist = [] ∧ t.cen.counts = [] ∧ t.cen.rails = [] ∧
    t.get CEN.SAMPLES = 0 ∧ t.cen.nextSlot = 1 ∧ t.evt CEN.page CEN.evSUMMARY_DONE = true := by decide +kernel

theorem wit_CensusAndCalendar_tok : up.pwr.vsupOk = true ∧ (3 : Nat) ≠ (5 : Fin 16).val := by and_intros <;> decide +kernel

theorem test_CensusAndCalendar_tok : let s := { up with cen := { tokens := [(5, 0)] } };
    mgetD (nx (.censusToken 5) s).cen.tokens 5 4 = 1 ∧ mgetD (nx (.censusToken 5) up).cen.tokens 5 4 = 4 := by decide +kernel

theorem wit_CensusAndCalendar_win : up.reaches .smbus CEN.page = true ∧ up.flag (HDR.IN_RESET CEN.page) = false := by and_intros <;> decide +kernel

theorem test_CensusAndCalendar_win : let s := up.put CEN.CURSOR 65536; (nx (.censusWindowRead .smbus) up).get CEN.CURSOR = 1 ∧
    (nx (.censusWindowRead .smbus) s).get CEN.CURSOR = 65536 ∧
    (nx (.censusWindowRead .smbus) up).out = [.regData .smbus (CEN.page * 4096 + 0x1FC) (up.pageWord CEN.page 0x1FC)] := by decide +kernel

theorem wit_CensusAndCalendar_tick : up.cal.ended = false ∧ up.cal.sec < calLast := by and_intros <;> decide +kernel

theorem test_CensusAndCalendar_tick : (nx .calendarTick up).cal = { up.cal with sec := 1, tickAt := secCycles } := by decide +kernel

theorem wit_CensusAndCalendar_end : let s := { up with cal := { sec := calLast } }; s.cal.ended = false ∧ calLast ≤ s.cal.sec :=
    by and_intros <;> decide +kernel

theorem wit_CensusAndCalendar_osc : up.pwr.vsupOk = true ∧ dark.pwr.vsupOk = false := by and_intros <;> decide +kernel

theorem wit_CensusAndCalendar_apply : dated.canWrite .smbus RTC.APPLY = true ∧ dated.canWrite (.curator 0) RTC.APPLY = true ∧
    calSetOk (2000 + bitsOf (dated.get RTC.SET_DATE) 16 9) (bitsOf (dated.get RTC.SET_DATE) 8 4) (bitsOf (dated.get RTC.SET_DATE) 0 5) (bitsOf (dated.get RTC.SET_TIME) 16 5) (bitsOf (dated.get RTC.SET_TIME) 8 6) (bitsOf (dated.get RTC.SET_TIME) 0 6) = true :=
    by and_intros <;> decide +kernel

theorem wit_CensusAndCalendar_bad : up.canWrite .smbus RTC.APPLY = true ∧
    calSetOk (2000 + bitsOf (up.get RTC.SET_DATE) 16 9) (bitsOf (up.get RTC.SET_DATE) 8 4) (bitsOf (up.get RTC.SET_DATE) 0 5) 0 0 0 = false :=
    by and_intros <;> decide +kernel

end Sys2Proof.Tests
end

/-! PROOFS. The architecture's statements: what any command leaves of a state, that data service is open only while its
conditions hold, and what reset leaves. -/

namespace Sys2Proof.Machine

/-! ## What a command can leave -/

/-- A result that stops the block, or leaves `s` as it was, or leaves the settled effect of a command on `s`. -/
def State.leaves (s : State) (r : Result) : Prop := ∀ t, r = .next t → t = s ∨ ∃ u, t = s.settled u

theorem State.leaves_same (s : State) : s.leaves (.next s) := by
  rintro t ⟨⟩
  exact .inl rfl

theorem State.leaves_settled (s u : State) : s.leaves (.next (s.settled u)) := by
  rintro t ⟨⟩
  exact .inr ⟨u, rfl⟩

theorem State.leaves_fault (s : State) (e : Fault) : s.leaves (.fault e) := by
  rintro t ⟨⟩

/-- A command of the datapath: its settled effect, or nothing while the datapath is down. -/
theorem State.leaves_whenDp (s : State) (f : State → State) : s.leaves (.next (s.whenDp f)) := by
  unfold State.whenDp
  split
  · exact s.leaves_settled _
  · exact s.leaves_same

/-- A command of the supervisor: its settled effect, or nothing without its supply. -/
theorem State.leaves_whenSup (s : State) (f : State → State) : s.leaves (.next (s.whenSup f)) := by
  unfold State.whenSup
  split
  · exact s.leaves_settled _
  · exact s.leaves_same

/-- A datagram from a host is a command of the datapath. -/
theorem State.leaves_ingress (s : State) (d : Dgram) (op : Nat) : s.leaves (.next (s.ingress d op)) :=
  s.leaves_whenDp _

/-- A command that names device addresses: dropped with its frame, stopped at an absent address, or carried out. -/
theorem State.leaves_withDa (s : State) (j typ : Nat) (f : LinkFrame) (n : Nat) (g : State → State) :
    s.leaves (s.withDa j typ f n g) := by
  unfold State.withDa
  split
  · exact s.leaves_same
  · split
    · exact s.leaves_settled _
    · split
      · exact s.leaves_fault _
      · exact s.leaves_settled _

/-- Every command has one of five shapes of meaning, and each of them leaves the state as it was or a settled effect. -/
theorem exec_leaves (c : Instr) (s : State) : s.leaves (exec c s) := by
  cases c with
  | vsupLow | powerOnReset | calendarTick | oscFail => exact s.leaves_settled _
  | epochFrame | epochBoundary | expectedTimeBoundary | relayedBoundary | holdoverBoundary | arpRequest
  | neighborSolicitation | pfcFrame | pfcHeld | hostLinkDown | hostLinkUp | load | unload | keyQuery | adm0Doorbell
  | tally | tallyDeadline | repair | unionWhole | relay | resume | rehome | depart | yield | resend | aditLinkUp
  | aditAlignLost | commitKey | writePlaced | revokeDone | pairTmo | moveCommit | flashGroupProgrammed | rowHoldExpiry
  | mergeDone | pageReadDone | reconAt | readTimeout | stackTempRead | mrTempRead | caParity | dllOut | dllTimeout
  | fillDone | pfail | musterCommitEnd | musterImageDone | musterDone | restoreDone | areaReady | serviceOpen | parked
  | signalWake | awake | markProgrammed | entFail | drbgHalt | reseedDone | mscanDone | retrainDone | driftLinkUp
  | driftLinkDown | fwdDgram | fwdAnswer | table | placeEnd | memData | shutdownDone | blockResetDone
  | relayMarkerMissing | dllBackInWindow | hiBer =>
    exact s.leaves_whenDp _
  | memRead | memPlace => exact s.leaves_withDa _ _ _ _ _
  | alignEn | forceHoldover | fillStart | drain | fsp | arm | declJ | vhc | seqGo | conversion | seqDelay
  | seqUpTimeout | disTimeout | resetNAssert | resetNRelease | swMgmt | swDp | clockFail | synLockReturn
  | rstoutStretch | thermalRead | throttleOff | park | watchdog | wdtKick | lockup | bootVerify | norProgram
  | norErase | norOpDone | commitReq | commitDone | alarm | ksFormat | storeKey | keyInst | mscanStart | retrainStart
  | clearDie | reshapeAdd | reshapeSpread | summary | censusToken | censusWindowRead | apply | vitrineN | vitrine
  | idcode | samplePreload | extest | clamp | highz | extestPulse | extestTrain | scanSel | scanRead | chainLen
  | dbgReset | vitStatus | bypass | canaryFire | enable | blockReset | expertKey | evtPendingClear | selectorWrite
  | windowWord0Read | latchingLoRead | registerWrite | smbusWrite | smbusSetPointer | smbusRead | smbusTimeout
  | pcieLinkUp | pcieLinkDown =>
    exact s.leaves_whenSup _
  | _ => exact s.leaves_ingress _ _

/-! ## Data service -/

/-- OPEN put to 0 stays 0 as the closing is reported. -/
theorem State.serviceUp_closed (s : State) :
    ((s.put SYS.OPEN 0).raise SYS.page SYS.evSERVICE_CLOSED).serviceUp = false := by
  unfold State.serviceUp State.flag
  rw [State.get_raise _ _ _ (by decide) (by decide)]
  exact s.flag_put_zero SYS.OPEN

/-- Judging data service establishes its invariant: a lost condition closes it. -/
theorem State.openHeld_checkService (s : State) : s.checkService.openHeld = true := by
  unfold State.checkService
  split
  · simp [State.openHeld, State.serviceUp_closed]
  · rename_i h
    simpa [State.openHeld, ← Bool.not_eq_true, imp_iff_not_or] using h

/-- Neither the queue of commands nor the time is a condition of data service. -/
theorem State.openHeld_with_pending (s : State) (l : List Instr) : { s with pending := l }.openHeld = s.openHeld := rfl

theorem State.openHeld_with_now (s : State) (n : Nat) : { s with now := n }.openHeld = s.openHeld := rfl

theorem State.openHeld_settled (s t : State) : (s.settled t).openHeld = true := by
  rw [State.settled, State.openHeld_with_pending]
  exact State.openHeld_checkService _

/-- Every command keeps the invariant: its effect is judged, or there is none. -/
theorem exec_keeps_openHeld {c : Instr} {s t : State} (hs : s.openHeld = true) (h : exec c s = .next t) :
    t.openHeld = true := by
  obtain rfl | ⟨u, rfl⟩ := exec_leaves c s t h
  · exact hs
  · exact s.openHeld_settled u

/-- Settles O4: a command that has an effect ends with data service judged (log entry 38), and an idle cycle changes no
condition. -/
theorem serviceOpenOnlyWhileConditionsHold : Obligations.ServiceOpenOnlyWhileConditionsHold := by
  intro s t hs h
  unfold step at h
  split at h
  · cases h
    exact (s.openHeld_with_now _).trans hs
  · exact exec_keeps_openHeld ((s.openHeld_with_pending _).trans hs) h

/-! ## Reset -/

theorem State.serviceUp_reset : State.reset.serviceUp = false := by decide

/-- R334: a power-on reset is cause bit 0. -/
theorem State.get_cause_reset : State.reset.get RST.CAUSE = 1 := by decide

/-- No queue but queue 0 is listed after reset, so each reads as FREE (R77). -/
theorem State.queue_reset {n : Nat} (h : n ≠ 0) : State.reset.queue n = {} := by
  rw [State.queue, if_neg h]
  rfl

/-- Settles O5: service is closed, every table is empty, so each entry reads as its default, and RST.CAUSE is listed. The values
of a device from the factory are those of log entries 52 and 53. -/
theorem resetState : Obligations.ResetState := by
  unfold Obligations.ResetState
  refine ⟨?closed, State.serviceUp_reset, rfl, rfl, ?queues, rfl, fun _ => rfl, fun _ => rfl, fun _ => rfl, rfl, rfl, rfl,
    State.get_cause_reset, fun _ => rfl⟩
  case closed => simp [State.openHeld, State.serviceUp_reset]
  case queues =>
    intro n hn
    rw [State.queue_reset hn]

end Sys2Proof.Machine

/-! PROOFS. The epoch frame: what a source sends is what the receiver reads, whatever follows it (R16 to R20). -/

namespace Sys2Proof.Machine

/-! ## Stuffed zeros (R18) -/

/-- The stuffed zeros are taken out again, whatever run of ones stands before the bits and whatever follows them. -/
theorem unstuff_stuff (tail bs : List Bool) (ones : Nat) :
    unstuff bs.length ones (stuff ones bs ++ tail) = some bs := by
  induction bs generalizing ones with
  | nil => by_cases h : ones = 7 <;> simp [stuff, unstuff, h]
  | cons b bs ih => by_cases h : ones = 7 <;> simp [stuff, unstuff, h, ih]

/-! ## Numbers as bits, most significant first (R16) -/

@[simp] theorem msbBits_length (n v : Nat) : (msbBits n v).length = n := by simp [msbBits]

/-- The most significant bit stands first. -/
theorem msbBits_succ (n v : Nat) : msbBits (n + 1) v = bitOf v n :: msbBits n v := by
  simp [msbBits, List.range_succ_eq_map, Function.comp_def, Nat.sub_sub, Nat.add_comm]

theorem b2n_bitOf (v i : Nat) : b2n (bitOf v i) = v / 2 ^ i % 2 := by
  obtain h | h := Nat.mod_two_eq_zero_or_one (v / 2 ^ i) <;> simp [b2n, bitOf, h]

/-- Bits read behind a number `a` that has been read already. -/
theorem foldl_msbBits (n v a : Nat) :
    (msbBits n v).foldl (fun a b => 2 * a + b2n b) a = a * 2 ^ n + v % 2 ^ n := by
  induction n generalizing a with
  | zero => simp [msbBits, Nat.mod_one]
  | succ n ih =>
    rw [msbBits_succ, List.foldl_cons, ih, b2n_bitOf, Nat.mod_pow_succ, Nat.pow_succ]
    ring

/-- A number is read back from its bits. -/
theorem natOfBits_msbBits {n v : Nat} (h : v < 2 ^ n) : natOfBits (msbBits n v) = v := by
  rw [natOfBits, foldl_msbBits, Nat.mod_eq_of_lt h, Nat.zero_mul, Nat.zero_add]

/-! ## The CRC (R17) -/

/-- A CRC register keeps its width. -/
theorem crcBits_lt_two_pow {w poly crc : Nat} (hp : poly < 2 ^ w) (hc : crc < 2 ^ w) (bs : List Bool) :
    crcBits w poly crc bs < 2 ^ w := by
  induction bs generalizing crc with
  | nil => exact hc
  | cons b bs ih =>
    have hs : crc * 2 % 2 ^ w < 2 ^ w := Nat.mod_lt _ (Nat.two_pow_pos w)
    refine ih ?_
    simp only [crcBit]
    split
    · exact Nat.xor_lt_two_pow hs hp
    · exact hs

theorem crc16_lt (bs : List Bool) : crc16 bs < 2 ^ 16 := crcBits_lt_two_pow (by decide) (by decide) bs

/-! ## The whole frame -/

/-- What a frame carries behind SYNC: number, FLAGS and the CRC of both. -/
def frameBody (num flags : Nat) : List Bool :=
  let content := msbBits 64 num ++ msbBits 8 flags
  content ++ msbBits 16 (crc16 content)

@[simp] theorem frameBody_length (num flags : Nat) : (frameBody num flags).length = 88 := by simp [frameBody]

theorem frameBits_eq (num flags : Nat) : frameBits num flags = syncBits ++ stuff 0 (frameBody num flags) := rfl

/-- Bits behind SYNC are a good frame where, freed of stuffed zeros, they are a number, FLAGS and the CRC of both. -/
theorem readFrame_of_unstuff {bits : List Bool} {num flags : Nat} (hn : num < 2 ^ 64) (hf : flags < 2 ^ 8)
    (h : unstuff 88 0 bits = some (frameBody num flags)) : readFrame (syncBits ++ bits) = .good num flags := by
  have hsync : (syncBits ++ bits).take 11 = syncBits := rfl
  have hrest : (syncBits ++ bits).drop 11 = bits := rfl
  simp [readFrame, hsync, hrest, h, frameBody, List.take_append, List.drop_append, natOfBits_msbBits hn,
    natOfBits_msbBits hf, natOfBits_msbBits (crc16_lt _), List.take_of_length_le, List.drop_of_length_le]

/-- Settles O24: SYNC stands before the stuffed bits, and unstuffed they are what the frame carries. -/
theorem epochFrameRoundTrip : Obligations.EpochFrameRoundTrip := by
  intro num flags tail hn hf
  rw [frameBits_eq, List.append_assoc]
  exact readFrame_of_unstuff hn hf (by simpa using unstuff_stuff tail (frameBody num flags) 0)

end Sys2Proof.Machine

/-! PROOFS. The epoch receiver: what a missed frame, a loss and holdover do, what a frame of the EPOCH input does (R21 to R26),
and what ALIGN_EN and FORCE_HOLDOVER do (R427). -/

namespace Sys2Proof.Machine

/-! ## Registers and events beside the epoch receiver -/

/-- An event raised under a condition leaves every field but the page's EVT_RAW and the MSI-X pending bit. -/
theorem State.get_raiseIf (s : State) (c : Bool) (p b : Nat) {f : Fld} (h1 : f.key ≠ (HDR.EVT_RAW p).key)
    (h2 : f.key ≠ PCE.MSIX_PBA.key) : (s.raiseIf c p b).get f = s.get f := by
  cases c
  · rfl
  · exact s.get_raise p b h1 h2

/-- Counting up a field that is not an event register clears no event. -/
theorem State.evt_inc (s : State) {f : Fld} {p : Nat} (b n : Nat) (h : (HDR.EVT_RAW p).key ≠ f.key) :
    (s.inc f n).evt p b = s.evt p b := by
  rw [State.evt, s.get_inc_ne n h, State.evt]

/-- A command of the datapath, while it runs, gives its effect. -/
theorem State.gives_whenDp {s : State} {c : Instr} (f : State → State) (h : s.dpUp = true)
    (hc : exec c s = .next (s.whenDp f)) : s.gives c (f s) := by
  rw [State.gives, hc, State.whenDp_up h]

/-- What a command gives, settled, is what it is answered with. -/
theorem State.gives.answers {s t : State} {c : Instr} (h : s.gives c t) {P : State → Prop} (hp : P (s.settled t)) :
    s.answers c P := ⟨_, h, hp⟩

/-- The current epoch's number and the time of its boundary. -/
def EpochSt.place (e : EpochSt) : Nat × Nat := (e.num, e.last256)

theorem EpochSt.place_eq_iff {e e' : EpochSt} : e.place = e'.place ↔ e.num = e'.num ∧ e.last256 = e'.last256 := by
  simp [EpochSt.place]

/-! ## Holdover (R31) -/

/-- Holdover is entered with a measured period, and HOLDOVER_ENTER raised. -/
theorem State.holdOver_enters {s : State} (hp : s.ep.period ≠ 0) (hs : s.ep.state ≠ .holdover) :
    s.holdOver.ep.state = .holdover ∧ s.holdOver.evt EPC.page EPC.evHOLDOVER_ENTER = true := by
  have h : ¬ (s.ep.period = 0 || s.ep.state == .holdover) = true := by simp [hp, hs]
  rw [State.holdOver, if_neg h]
  exact ⟨by rw [State.raise_ep], State.evt_raise_self _ _ _ (by decide)⟩

@[simp] theorem State.holdOver_place (s : State) : s.holdOver.ep.place = s.ep.place := by
  unfold State.holdOver
  split <;> simp [EpochSt.place]

@[simp] theorem State.holdOver_seen (s : State) : s.holdOver.ep.seen = s.ep.seen := by
  unfold State.holdOver
  split <;> simp

@[simp] theorem State.get_holdOver_missed (s : State) : s.holdOver.get EPC.MISSED = s.get EPC.MISSED := by
  unfold State.holdOver
  split
  · rfl
  · exact State.get_raise _ _ _ (by decide) (by decide)

theorem State.evt_holdOver {s : State} {p b : Nat} (h : s.evt p b = true) (hb : b < 32) : s.holdOver.evt p b = true := by
  unfold State.holdOver
  split
  · exact h
  · exact State.evt_raise (by exact h) hb _ _

/-! ## EPOCH lost (R26, R30) -/

@[simp] theorem State.loseEpoch_place (s : State) : s.loseEpoch.ep.place = s.ep.place := by
  simp only [State.loseEpoch]
  split
  · simp [EpochSt.place]
  · simp

@[simp] theorem State.loseEpoch_seen (s : State) : s.loseEpoch.ep.seen = s.ep.seen := by
  simp only [State.loseEpoch]
  split <;> simp

@[simp] theorem State.get_loseEpoch_missed (s : State) : s.loseEpoch.get EPC.MISSED = s.get EPC.MISSED := by
  have h : (s.raise EPC.page EPC.evLOST).get EPC.MISSED = s.get EPC.MISSED := State.get_raise _ _ _ (by decide) (by decide)
  simp only [State.loseEpoch]
  split
  · exact h
  · rw [State.get_holdOver_missed, h]

theorem State.evt_loseEpoch_of_raise {s : State} {p b : Nat} (h : (s.raise EPC.page EPC.evLOST).evt p b = true)
    (hb : b < 32) : s.loseEpoch.evt p b = true := by
  simp only [State.loseEpoch]
  split
  · exact h
  · exact State.evt_holdOver h hb

/-- An event raised stays raised when EPOCH is lost. -/
theorem State.evt_loseEpoch {s : State} {p b : Nat} (h : s.evt p b = true) (hb : b < 32) : s.loseEpoch.evt p b = true :=
  State.evt_loseEpoch_of_raise (State.evt_raise h hb _ _) hb

theorem State.loseEpoch_lost (s : State) : s.loseEpoch.evt EPC.page EPC.evLOST = true :=
  State.evt_loseEpoch_of_raise (State.evt_raise_self _ _ _ (by decide)) (by decide)

/-- The device then follows the leader's markers from the next boundary or, with a measured period, holds over. -/
theorem State.loseEpoch_follows {s : State} (hp : s.ep.period ≠ 0) (hs : s.ep.state ≠ .holdover) :
    s.loseEpoch.ep.relayNext = true ∨
      s.loseEpoch.ep.state = .holdover ∧ s.loseEpoch.evt EPC.page EPC.evHOLDOVER_ENTER = true := by
  simp only [State.loseEpoch]
  split
  · exact .inl rfl
  · exact .inr (State.holdOver_enters (by simpa using hp) (by simpa using hs))

/-! ## A missed frame (R25, R26) -/

/-- The frame counted, in MISSED and in the row. -/
def State.countMiss (s : State) : State :=
  { s.inc EPC.MISSED with ep := { s.ep with missRow := s.ep.missRow + 1 } }

theorem State.countMiss_ep (s : State) : s.countMiss.ep = { s.ep with missRow := s.ep.missRow + 1 } := rfl

theorem State.get_countMiss_missed (s : State) :
    s.countMiss.get EPC.MISSED = min (2 ^ 32 - 1) (s.get EPC.MISSED + 1) :=
  s.get_inc_self EPC.MISSED 1

theorem State.evt_countMiss (s : State) (b : Nat) : s.countMiss.evt EPC.page b = s.evt EPC.page b :=
  s.evt_inc b 1 (by decide)

/-- A missed frame is counted; the second in a row loses EPOCH. -/
theorem State.missFrame_eq (s : State) :
    s.missFrame = if s.ep.missRow = 1 then s.countMiss.loseEpoch else s.countMiss := by
  change (if s.countMiss.ep.missRow == 2 then s.countMiss.loseEpoch else s.countMiss) = _
  simp [State.countMiss_ep]

theorem State.missFrame_first {s : State} (h : s.ep.missRow ≠ 1) : s.missFrame = s.countMiss := by
  rw [State.missFrame_eq, if_neg h]

theorem State.missFrame_second {s : State} (h : s.ep.missRow = 1) : s.missFrame = s.countMiss.loseEpoch := by
  rw [State.missFrame_eq, if_pos h]

@[simp] theorem State.missFrame_place (s : State) : s.missFrame.ep.place = s.ep.place := by
  rw [State.missFrame_eq]
  split
  · exact State.loseEpoch_place _
  · rfl

@[simp] theorem State.missFrame_seen (s : State) : s.missFrame.ep.seen = s.ep.seen := by
  rw [State.missFrame_eq]
  split
  · exact State.loseEpoch_seen _
  · rfl

theorem State.get_missFrame_missed (s : State) :
    s.missFrame.get EPC.MISSED = min (2 ^ 32 - 1) (s.get EPC.MISSED + 1) := by
  rw [State.missFrame_eq]
  split
  · rw [State.get_loseEpoch_missed, State.get_countMiss_missed]
  · exact s.get_countMiss_missed

/-- An event raised stays raised when a frame is missed. -/
theorem State.evt_missFrame {s : State} {b : Nat} (h : s.evt EPC.page b = true) (hb : b < 32) :
    s.missFrame.evt EPC.page b = true := by
  have hc := (s.evt_countMiss b).trans h
  rw [State.missFrame_eq]
  split
  · exact State.evt_loseEpoch hc hb
  · exact hc

/-! ## Measurement and search (R22, R23) -/

/-- A measurement writes the spacings and the period. -/
theorem State.measure_ep (s : State) (d : Nat) :
    ∃ l p, (s.measure d).ep = { s.ep with spacings := l, period := p } := by
  refine ⟨(d :: s.ep.spacings).take 256, meanSpacing ((d :: s.ep.spacings).take 256), ?_⟩
  simp only [State.measure]
  split <;> rfl

@[simp] theorem State.measure_get (s : State) (d : Nat) (f : Fld) : (s.measure d).get f = s.get f := by
  simp only [State.measure]
  split <;> rfl

/-- A frame of a search moves no boundary. -/
@[simp] theorem State.searchFrame_place (s : State) (edge num : Nat) : (s.searchFrame edge num).ep.place = s.ep.place := by
  simp only [State.searchFrame]
  split
  case h_1 => rfl
  case h_2 =>
    split
    · rfl
    · split
      · simp [EpochSt.place]
      · split
        · simp [EpochSt.place]
        · rfl

@[simp] theorem State.relayFrame_place (s : State) (edge num : Nat) : (s.relayFrame edge num).ep.place = s.ep.place := by
  refine Eq.trans ?_ (s.searchFrame_place edge num)
  simp only [State.relayFrame]
  split
  · rfl
  · simp [EpochSt.place]

@[simp] theorem State.badFrame_place (s : State) (edge : Nat) : (s.badFrame edge).ep.place = s.ep.place := by
  simp only [State.badFrame]
  split
  case h_1 =>
    split
    · exact State.missFrame_place _
    · rfl
  case h_2 | h_3 => rfl

/-- The frame of the current boundary counts as missed while ALIGNED (R25). -/
theorem State.badFrame_current {s : State} {edge : Nat} (ha : s.ep.state = .aligned) (he : s.ep.edge = some edge)
    (hs : s.ep.seen = false) :
    s.badFrame edge = ({ s with ep := { s.ep with seen := true, lastGood := none } }).missFrame := by
  simp [State.badFrame, ha, he, hs]

/-- In RELAY a bad frame ends the run of agreeing ones (R32). -/
theorem State.badFrame_agree {s : State} (edge : Nat) (h : s.ep.state = .relay) : (s.badFrame edge).ep.agree = 0 := by
  simp [State.badFrame, h]

/-- An event raised stays raised at a bad frame. -/
theorem State.evt_badFrame {s : State} (edge : Nat) {b : Nat} (h : s.evt EPC.page b = true) (hb : b < 32) :
    (s.badFrame edge).evt EPC.page b = true := by
  simp only [State.badFrame]
  split
  case h_1 =>
    split
    · exact State.evt_missFrame (by exact h) hb
    · exact h
  case h_2 | h_3 => exact h

/-! ## A good frame while ALIGNED (R25) -/

/-- A frame of another boundary, or a second one of the current boundary, is ignored. -/
theorem State.alignedFrame_ignored {s : State} {edge num : Nat} (h : ¬ (s.ep.edge = some edge ∧ s.ep.seen = false)) :
    s.alignedFrame edge num = s := by
  rw [not_and_or, Bool.not_eq_false] at h
  simp [State.alignedFrame, h]

section
variable {s : State} {edge num : Nat} (he : s.ep.edge = some edge) (hs : s.ep.seen = false)
include he hs

/-- The frame of the current boundary with another number counts as missed. -/
theorem State.alignedFrame_mismatch (hn : num ≠ s.ep.num) : s.alignedFrame edge num =
    (({ s with ep := { s.ep with seen := true, lastGood := none } }).raise EPC.page EPC.evNUM_MISMATCH).missFrame := by
  simp [State.alignedFrame, he, hs, hn]

/-- With the current number it ends a run of missed frames, and may enter the measurement; no register is written. -/
theorem State.alignedFrame_good (hn : num = s.ep.num) :
    (∃ l p, (s.alignedFrame edge num).ep =
      { s.ep with seen := true, missRow := 0, lastGood := some (edge, num), spacings := l, period := p }) ∧
    ∀ f, (s.alignedFrame edge num).get f = s.get f := by
  subst hn
  simp only [State.alignedFrame, he, hs, bne_self_eq_false, Bool.false_eq_true, Bool.or_self, if_false]
  split
  · split
    · exact ⟨State.measure_ep _ _, State.measure_get _ _⟩
    · exact ⟨⟨_, _, rfl⟩, fun _ => rfl⟩
  · exact ⟨⟨_, _, rfl⟩, fun _ => rfl⟩

end

@[simp] theorem State.alignedFrame_place (s : State) (edge num : Nat) : (s.alignedFrame edge num).ep.place = s.ep.place := by
  by_cases h : s.ep.edge = some edge ∧ s.ep.seen = false
  · obtain ⟨he, hs⟩ := h
    by_cases hn : num = s.ep.num
    · obtain ⟨⟨l, p, h⟩, -⟩ := State.alignedFrame_good he hs hn
      rw [h]
      rfl
    · rw [State.alignedFrame_mismatch he hs hn, State.missFrame_place, State.raise_ep]
      rfl
  · rw [State.alignedFrame_ignored h]

/-! ## A frame of the EPOCH input (R21, R25, R37) -/

/-- The FLAGS of a good frame, noted. -/
def State.noteFlags (s : State) (flags : Nat) : State :=
  (s.put EPC.FLAGS_LAST flags).raiseIf (flags / 8 != 0) EPC.page EPC.evRSVD_FLAGS

@[simp] theorem State.noteFlags_ep (s : State) (flags : Nat) : (s.noteFlags flags).ep = s.ep := by
  simp [State.noteFlags]

@[simp] theorem State.noteFlags_clk (s : State) (flags : Nat) : (s.noteFlags flags).clk = s.clk := by
  simp [State.noteFlags]

theorem State.get_noteFlags_last (s : State) (flags : Nat) : (s.noteFlags flags).get EPC.FLAGS_LAST = flags % 256 := by
  rw [State.noteFlags, State.get_raiseIf _ _ _ _ (by decide) (by decide), State.get_put_self]
  rfl

theorem State.get_noteFlags_missed (s : State) (flags : Nat) :
    (s.noteFlags flags).get EPC.MISSED = s.get EPC.MISSED := by
  rw [State.noteFlags, State.get_raiseIf _ _ _ _ (by decide) (by decide), State.get_put_ne _ _ (by decide)]

section
variable {s : State} {bits : List Bool} (edge : Nat)

theorem State.epochFrame_idle (h : s.usesEpoch = false ∨ readFrame bits = .noSync) : s.epochFrame edge bits = s := by
  rcases h with h | h <;> simp [State.epochFrame, h]

theorem State.epochFrame_bad (hu : s.usesEpoch = true) (h : readFrame bits = .bad) :
    s.epochFrame edge bits = (s.raise EPC.page EPC.evCRC_ERR).badFrame edge := by
  simp [State.epochFrame, hu, h]

/-- A good frame is judged by the state of the receiver, and with the epoch DLL out of its window as a bad one (R308). -/
theorem State.epochFrame_good {num flags : Nat} (hu : s.usesEpoch = true) (h : readFrame bits = .good num flags) :
    s.epochFrame edge bits =
      if s.clk.epochDllIn = false then (s.noteFlags flags).badFrame edge
      else if s.ep.state = .aligned then (s.noteFlags flags).alignedFrame edge num
      else if s.ep.state = .relay then (s.noteFlags flags).relayFrame edge num
      else (s.noteFlags flags).searchFrame edge num := by
  simp only [State.epochFrame, hu, h]
  rw [← State.noteFlags]
  cases hs : s.ep.state <;> simp [hs]

/-- No frame moves the epoch or its time. -/
theorem State.epochFrame_place (s : State) (bits : List Bool) : (s.epochFrame edge bits).ep.place = s.ep.place := by
  by_cases hu : s.usesEpoch = true
  · cases h : readFrame bits with
    | noSync => rw [State.epochFrame_idle edge (.inr h)]
    | bad => simp [State.epochFrame_bad edge hu h]
    | good num flags =>
      rw [State.epochFrame_good edge hu h]
      split_ifs <;> simp
  · rw [State.epochFrame_idle edge (.inl (by simpa using hu))]

end

/-! ## EPOCH_FRAME -/

/-- The counter of missed frames is none of what settling may write. -/
@[simp] theorem State.get_settled_missed (s t : State) : (s.settled t).get EPC.MISSED = t.get EPC.MISSED :=
  s.get_settled t (by decide)

@[simp] theorem State.get_settled_flagsLast (s t : State) : (s.settled t).get EPC.FLAGS_LAST = t.get EPC.FLAGS_LAST :=
  s.get_settled t (by decide)

section
variable {s : State} {edge : Nat} {bits : List Bool} (hu : s.usesEpoch = true)
include hu

/-- A bad frame raises CRC_ERR and counts as bad in the receiver's state (R21, R25, R32). -/
theorem State.epochFrame_bad_effect (hr : readFrame bits = .bad) :
    let t := s.settled (s.epochFrame edge bits)
    t.evt EPC.page EPC.evCRC_ERR = true ∧ (s.ep.state = .relay → t.ep.agree = 0) ∧
      (s.ep.state = .aligned → s.ep.edge = some edge → s.ep.seen = false →
        t.ep.seen = true ∧ t.get EPC.MISSED = min (2 ^ 32 - 1) (s.get EPC.MISSED + 1)) := by
  have hep : (s.raise EPC.page EPC.evCRC_ERR).ep = s.ep := s.raise_ep _ _
  have hm : (s.raise EPC.page EPC.evCRC_ERR).get EPC.MISSED = s.get EPC.MISSED := s.get_raise _ _ (by decide) (by decide)
  simp only [State.epochFrame_bad edge hu hr, State.settled_ep, State.get_settled_missed]
  refine ⟨?raised, fun h => State.badFrame_agree edge (by rwa [hep]), fun ha he hs => ?missed⟩
  case raised =>
    exact State.evt_settled (State.evt_badFrame edge (State.evt_raise_self _ _ _ (by decide)) (by decide)) (by decide) s
  case missed =>
    rw [State.badFrame_current (by rwa [hep]) (by rwa [hep]) (by rwa [hep]), State.get_missFrame_missed, ← hm]
    exact ⟨State.missFrame_seen _, rfl⟩

variable {num flags : Nat} (hr : readFrame bits = .good num flags) (hd : s.clk.epochDllIn = true)
  (ha : s.ep.state = .aligned)
include hr hd ha

theorem State.epochFrame_aligned : s.epochFrame edge bits = (s.noteFlags flags).alignedFrame edge num := by
  simp [State.epochFrame_good edge hu hr, hd, ha]

variable (he : s.ep.edge = some edge) (hs : s.ep.seen = false)
include he hs

/-- A good frame of the current boundary with the current number (R25). -/
theorem State.epochFrame_good_effect (hn : num = s.ep.num) :
    let t := s.settled (s.epochFrame edge bits)
    t.ep.state = .aligned ∧ t.ep.seen = true ∧ t.ep.missRow = 0 ∧ t.ep.lastGood = some (edge, num) ∧
      t.ep.num = s.ep.num ∧ t.ep.last256 = s.ep.last256 ∧ t.get EPC.FLAGS_LAST = flags % 256 := by
  have hep := s.noteFlags_ep flags
  obtain ⟨⟨l, p, h⟩, hget⟩ := State.alignedFrame_good (s := s.noteFlags flags) (num := num)
    (by rwa [hep]) (by rwa [hep]) (by rwa [hep])
  simp only [State.epochFrame_aligned hu hr hd ha, State.settled_ep, State.get_settled_flagsLast, h, hget, hep, ha,
    State.get_noteFlags_last, true_and]

/-- A good frame of the current boundary with another number (R25). -/
theorem State.epochFrame_mismatch_effect (hn : num ≠ s.ep.num) :
    let t := s.settled (s.epochFrame edge bits)
    t.evt EPC.page EPC.evNUM_MISMATCH = true ∧ t.ep.num = s.ep.num ∧ t.ep.last256 = s.ep.last256 ∧
      t.get EPC.MISSED = min (2 ^ 32 - 1) (s.get EPC.MISSED + 1) := by
  have hep := s.noteFlags_ep flags
  obtain ⟨hnum, hlast⟩ := EpochSt.place_eq_iff.1 (s.epochFrame_place edge bits)
  simp only [State.settled_ep, State.get_settled_missed, hnum, hlast, true_and]
  rw [State.epochFrame_aligned hu hr hd ha,
    State.alignedFrame_mismatch (by rwa [hep]) (by rwa [hep]) (by rwa [hep]), State.get_missFrame_missed,
    State.get_raise _ _ _ (by decide) (by decide), ← s.get_noteFlags_missed flags]
  exact ⟨State.evt_settled (State.evt_missFrame (State.evt_raise_self _ _ _ (by decide)) (by decide)) (by decide) s, rfl⟩

end

/-- Settles O25: the frame is judged by what its bits are (`epochFrame_idle`, `epochFrame_bad`, `epochFrame_good`), and no case
moves the epoch. -/
theorem epochFrameChecked : Obligations.EpochFrameChecked := by
  intro s edge bits h
  have hx := State.gives_whenDp (c := .epochFrame edge bits) (·.epochFrame edge bits) h rfl
  refine ⟨hx.answers ?place, fun hi => ?idle, fun hu hr => hx.answers (State.epochFrame_bad_effect hu hr),
    fun num flags hu hr hd ha he hs => ⟨fun hn => hx.answers ?good, fun hn => hx.answers ?mismatch⟩⟩
  case place => exact EpochSt.place_eq_iff.1 (by rw [State.settled_ep, State.epochFrame_place])
  case idle => rwa [State.epochFrame_idle edge hi] at hx
  case good => exact State.epochFrame_good_effect hu hr hd ha he hs hn
  case mismatch => exact State.epochFrame_mismatch_effect hu hr hd ha he hs hn

/-! ## ALIGN_EN and FORCE_HOLDOVER (R427) -/

@[simp] theorem State.writeAlign_get (s : State) (f g : Fld) (v : Nat) : (s.writeAlign f v).get g = (s.put f v).get g := by
  simp only [State.writeAlign]
  split <;> rfl

theorem State.writeAlign_usesEpoch (s : State) (f : Fld) (v : Nat) :
    (s.writeAlign f v).usesEpoch = (s.put f v).usesEpoch := by
  simp only [State.usesEpoch, State.flag, State.writeAlign_get]

/-- The receiver after a write of either: what ran is given up where the input is now out of use. -/
theorem State.writeAlign_ep (s : State) (f : Fld) (v : Nat) : (s.writeAlign f v).ep = if (s.writeAlign f v).usesEpoch then s.ep
    else { s.ep with target := none, lastGood := none, agree := 0, returning := false } := by
  rw [State.writeAlign_usesEpoch]
  by_cases h : (s.put f v).usesEpoch = true <;> simp [State.writeAlign, h]

@[simp] theorem State.writeAlign_mem (s : State) (f : Fld) (v : Nat) : (s.writeAlign f v).mem = s.mem := by
  simp only [State.writeAlign]
  split <;> rfl

/-- A field of one bit holds the truth value written. -/
theorem State.flag_writeAlign (s : State) {f : Fld} (v : Bool) (h : f.width = 1) :
    (s.writeAlign f (b2n v)).flag f = v := by
  cases v <;> simp [State.flag, h, b2n]

theorem State.writeAlign_frame (s : State) (f : Fld) (v : Nat) :
    (∀ g : Fld, g.key ≠ f.key → (s.writeAlign f v).get g = s.get g) ∧ s.sameMemory (s.writeAlign f v) :=
  ⟨fun g h => by rw [State.writeAlign_get, State.get_put_ne _ _ h], fun a => by rw [State.writeAlign_mem]⟩

/-- Settles O27: either command is a write of its field that reaches it, with the effect of `writeAlign`. -/
theorem epochInputControl : Obligations.EpochInputControl := by
  intro s path v
  refine ⟨fun h => ⟨_, congrArg _ (State.whenSup_regRun h _), ?_⟩,
    fun h => ⟨_, congrArg _ (State.whenSup_regRun h _), ?_⟩⟩
  all_goals exact ⟨s.flag_writeAlign v rfl, s.writeAlign_ep _ _, s.writeAlign_frame _ _⟩

end Sys2Proof.Machine

/-! PROOFS. The five kinds of boundary (R24, R29 to R33): the number and the time that each gives. -/

namespace Sys2Proof.Machine

/-! ## What a boundary leaves of the receiver -/

/-- All that a boundary does besides leaves the receiver as the boundary has set it. -/
@[simp] theorem State.boundary_ep (s : State) (old : Nat) (env : BoundaryEnv) : (s.boundary old env).ep = s.ep := rfl

/-- A boundary in RELAY or HOLDOVER takes the number and the time it is given. -/
@[simp] theorem State.placedBoundary_ep (s : State) (t n : Nat) (env : BoundaryEnv) :
    (s.placedBoundary t n env).ep = { s.ep with num := n, last256 := t, edge := none, seen := false } := rfl

@[simp] theorem State.nextBoundary_ep (s : State) (t : Nat) (env : BoundaryEnv) :
    (s.nextBoundary t env).ep = { s.ep with num := s.ep.num + 1, last256 := t, edge := none, seen := false } := rfl

/-- The receiver of an aligned device behind the boundary that follows, at a time, with its edge if there was one. -/
def EpochSt.aligned (e : EpochSt) (t : Nat) (edge : Option Nat) : EpochSt :=
  { e with state := .aligned, num := e.num + 1, last256 := t, edge := edge, seen := false
           target := none, returning := false, agree := 0, markerMiss := 0 }

/-- A boundary of the own input while ALIGNED continues the count. -/
theorem State.ownBoundary_ep {s : State} (h : s.ep.state = .aligned) (t : Nat) (edge : Option Nat) (env : BoundaryEnv) :
    (s.ownBoundary t edge env).ep = s.ep.aligned t edge := by
  simp [State.ownBoundary, State.alignAt, h, EpochSt.aligned]

/-! ## The own input while ALIGNED (R24, R26) -/

/-- Only a device in HOLDOVER reacquires at an edge (R33). -/
theorem State.reacquireAt_none {s : State} (h : s.ep.state ≠ .holdover) (edge : Nat) : s.reacquireAt edge = none := by
  unfold State.reacquireAt
  split
  · contradiction
  · rfl

section
variable {s : State} (hu : s.usesEpoch = true) (ha : s.ep.state = .aligned)

include ha in
theorem State.ownExpected_aligned : s.ownExpected = s.ep.last256 + s.ep.period := by
  simp [State.ownExpected, ha, State.expected]

include hu ha in
/-- An edge outside the window is ignored. -/
theorem State.syncEdge_outside {edge : Nat} (hw : s.inWin edge (s.ep.last256 + s.ep.period) = false) (env : BoundaryEnv) :
    s.syncEdge edge env = s := by
  have hr := State.reacquireAt_none (s := s) (by simp [ha]) edge
  simp [State.syncEdge, hu, State.ownExpected_aligned ha, hw, hr]

variable (hr : s.ep.relayNext = false) (hs : s.ep.edge = none ∨ s.ep.seen = true)

include hs in
/-- Nothing is missed where the last boundary had no edge, or its frame was checked. -/
theorem State.missUnseen_checked : s.missUnseen = s := by
  rcases hs with h | h <;> simp [State.missUnseen, h]

include ha hr in
theorem State.ownInput_aligned : s.ownInput = true := by simp [State.ownInput, ha, hr]

include hu ha hr hs

/-- An edge inside the window issues the boundary. -/
theorem State.syncEdge_inside {edge : Nat} (hw : s.inWin edge (s.ep.last256 + s.ep.period) = true) (env : BoundaryEnv) :
    s.syncEdge edge env = s.ownBoundary (edge * 256) (some edge) env := by
  simp [State.syncEdge, hu, State.ownInput_aligned ha hr, State.ownExpected_aligned ha, hw, State.missUnseen_checked hs]

/-- The boundary of the expected time, before the frame that did not come is counted. -/
def State.unmarked (s : State) (env : BoundaryEnv) : State :=
  let u := s.ownBoundary (s.ep.last256 + s.ep.period) none env
  { u with ep := { u.ep with lastGood := none } }

omit hu hr hs in
theorem State.unmarked_ep (env : BoundaryEnv) :
    (s.unmarked env).ep = { s.ep.aligned (s.ep.last256 + s.ep.period) none with lastGood := none } := by
  simp only [State.unmarked, State.ownBoundary_ep ha]

/-- Without an edge the boundary falls at the expected time, and the frame is missed. -/
theorem State.expectedBoundary_aligned (env : BoundaryEnv) : s.expectedBoundary env = (s.unmarked env).missFrame := by
  simp [State.expectedBoundary, hu, ha, State.ownInput_aligned ha hr, State.ownExpected_aligned ha,
    State.missUnseen_checked hs, State.unmarked]

theorem State.expectedBoundary_place (env : BoundaryEnv) :
    (s.expectedBoundary env).ep.num = s.ep.num + 1 ∧ (s.expectedBoundary env).ep.last256 = s.ep.last256 + s.ep.period := by
  have h : (s.expectedBoundary env).ep.place = (s.unmarked env).ep.place := by
    rw [State.expectedBoundary_aligned hu ha hr hs, State.missFrame_place]
  rw [State.unmarked_ep ha] at h
  exact EpochSt.place_eq_iff.1 h

/-- The first missed frame in a row is counted. -/
theorem State.expectedBoundary_first (h0 : s.ep.missRow = 0) (env : BoundaryEnv) :
    (s.expectedBoundary env).ep.state = .aligned ∧ (s.expectedBoundary env).ep.edge = none ∧
      (s.expectedBoundary env).ep.missRow = 1 := by
  have hep := State.unmarked_ep ha env
  rw [State.expectedBoundary_aligned hu ha hr hs, State.missFrame_first (by simp [hep, EpochSt.aligned, h0]),
    State.countMiss_ep, hep]
  simp [EpochSt.aligned, h0]

/-- The second missed frame in a row loses EPOCH (R26, R30, R31). -/
theorem State.expectedBoundary_second (h1 : s.ep.missRow = 1) (hp : s.ep.period ≠ 0) (env : BoundaryEnv) :
    let t := s.expectedBoundary env
    t.evt EPC.page EPC.evLOST = true ∧
      (t.ep.relayNext = true ∨ t.ep.state = .holdover ∧ t.evt EPC.page EPC.evHOLDOVER_ENTER = true) := by
  have hep := State.unmarked_ep ha env
  simp only [State.expectedBoundary_aligned hu ha hr hs]
  rw [State.missFrame_second (by simp [hep, EpochSt.aligned, h1])]
  refine ⟨State.loseEpoch_lost _, State.loseEpoch_follows ?_ ?_⟩
  · simpa [State.countMiss_ep, hep, EpochSt.aligned] using hp
  · simp [State.countMiss_ep, hep, EpochSt.aligned]

end

/-! ## RELAY (R29, R30, R33) -/

@[simp] theorem State.skipTo_ep (s : State) (n : Nat) : (s.skipTo n).ep = s.ep := by simp [State.skipTo]

/-- RELAY kept: at most the search of the own input begins again. -/
theorem State.keepRelay_ep {s : State} (h : s.ep.state = .relay) :
    ∃ a g, s.keepRelay.ep = { s.ep with agree := a, lastGood := g } := by
  by_cases hs : s.ep.seen = true
  · have hk : s.keepRelay = s := by simp [State.keepRelay, h, hs]
    exact ⟨s.ep.agree, s.ep.lastGood, by rw [hk]⟩
  · exact ⟨0, none, by simp [State.keepRelay, h, hs]⟩

section
variable {s : State} (hs : s.ep.state = .relay) (hr : s.ep.returning = false)
include hs hr

theorem State.relays_relay : s.relays = true := by simp [State.relays, hs, hr]

/-- The boundary of a marker that is not behind the current epoch and not of an epoch still to come. -/
theorem State.relayedBoundary_marker {m : Marker} (hm : s.ep.markers.find? (s.ep.num ≤ ·.num) = some m)
    (ht : m.num = s.ep.num ∨ s.markerTime m ≤ s.expected + s.ep.period / 2) (env : BoundaryEnv) :
    (s.relayedBoundary env).ep.state = .relay ∧ (s.relayedBoundary env).ep.num = m.num + 1 ∧
      (s.relayedBoundary env).ep.last256 = s.markerTime m ∧ (s.relayedBoundary env).ep.markerMiss = 0 := by
  have hrt : s.relayTime = some (s.markerTime m, m.num + 1) := by simp [State.relayTime, hm, ht]
  obtain ⟨a, g, hk⟩ := State.keepRelay_ep hs
  simp [State.relayedBoundary, State.relays_relay hs hr, hrt, hk, hs]

/-- The boundary without a marker, before a second one in a row ends RELAY. -/
def State.markerless (s : State) (env : BoundaryEnv) : State :=
  ({ s.keepRelay with ep := { s.keepRelay.ep with markerMiss := s.keepRelay.ep.markerMiss + 1 } }).nextBoundary
    s.keepRelay.expected env

omit hr in
theorem State.markerless_ep (env : BoundaryEnv) : ∃ a g, (s.markerless env).ep =
    { s.ep with num := s.ep.num + 1, last256 := s.ep.last256 + s.ep.period, edge := none, seen := false
                markerMiss := s.ep.markerMiss + 1, agree := a, lastGood := g } := by
  obtain ⟨a, g, hk⟩ := State.keepRelay_ep hs
  exact ⟨a, g, by simp [State.markerless, State.expected, hk]⟩

theorem State.markerMissing_eq (hm : ∀ m ∈ s.ep.markers, m.num < s.ep.num) (env : BoundaryEnv) :
    s.markerMissing env = if 2 ≤ (s.markerless env).ep.markerMiss then
      ({ s.markerless env with ep := { (s.markerless env).ep with markerMiss := 0 } }).holdOver else s.markerless env := by
  have hf : s.ep.markers.find? (s.ep.num ≤ ·.num) = none := by simpa using hm
  have hrt : s.relayTime = none := by simp [State.relayTime, hf]
  rw [State.markerMissing, State.relays_relay hs hr, hrt]
  rfl

variable (hm : ∀ m ∈ s.ep.markers, m.num < s.ep.num) (env : BoundaryEnv)
include hm

/-- The number goes on, at the expected time. -/
theorem State.markerMissing_place : (s.markerMissing env).ep.num = s.ep.num + 1 ∧
    (s.markerMissing env).ep.last256 = s.ep.last256 + s.ep.period := by
  obtain ⟨a, g, he⟩ := State.markerless_ep hs env
  have h : (s.markerMissing env).ep.place = (s.markerless env).ep.place := by
    rw [State.markerMissing_eq hs hr hm]
    split
    · exact State.holdOver_place _
    · rfl
  rw [he] at h
  exact EpochSt.place_eq_iff.1 h

/-- The first marker missing keeps RELAY. -/
theorem State.markerMissing_first (h0 : s.ep.markerMiss = 0) :
    (s.markerMissing env).ep.state = .relay ∧ (s.markerMissing env).ep.markerMiss = 1 := by
  obtain ⟨a, g, he⟩ := State.markerless_ep hs env
  simp [State.markerMissing_eq hs hr hm, he, h0, hs]

/-- The second in a row ends it in HOLDOVER. -/
theorem State.markerMissing_second (h1 : s.ep.markerMiss = 1) (hp : s.ep.period ≠ 0) :
    (s.markerMissing env).ep.state = .holdover ∧
      (s.markerMissing env).evt EPC.page EPC.evHOLDOVER_ENTER = true := by
  obtain ⟨a, g, he⟩ := State.markerless_ep hs env
  rw [State.markerMissing_eq hs hr hm, if_pos (by simp [he, h1])]
  exact State.holdOver_enters (by simpa [he] using hp) (by simp [he, hs])

end

/-! ## HOLDOVER (R31, R33) -/

theorem State.holdoverBoundary_waits {s : State} (h : s.awaitsEdge = true) (env : BoundaryEnv) :
    s.holdoverBoundary env = s := by simp [State.holdoverBoundary, h]

theorem State.holdoverBoundary_counts {s : State} (hs : s.ep.state = .holdover) (h : s.awaitsEdge = false)
    (env : BoundaryEnv) : (s.holdoverBoundary env).ep.state = .holdover ∧
      (s.holdoverBoundary env).ep.num = s.ep.num + 1 ∧
      (s.holdoverBoundary env).ep.last256 = s.ep.last256 + s.ep.period := by
  simp [State.holdoverBoundary, hs, h, State.expected]

/-! ## The commands -/

/-- Settles O26: each kind of boundary by the lemma of its branch. Which marker a relayed boundary takes, and how far ahead, is
the model's choice of log entry 60. -/
theorem boundaryAdvancesTheEpoch : Obligations.BoundaryAdvancesTheEpoch := by
  refine ⟨fun s env h => ?kinds, fun s env h hu ha hr hs h1 hp => ?lost⟩
  case kinds =>
    have onEdge (edge : Nat) := State.gives_whenDp (c := .epochBoundary edge env) (·.syncEdge edge env) h rfl
    have onTime := State.gives_whenDp (c := .expectedTimeBoundary env) (·.expectedBoundary env) h rfl
    have onMarker := State.gives_whenDp (c := .relayedBoundary env) (·.relayedBoundary env) h rfl
    have noMarker := State.gives_whenDp (c := .relayMarkerMissing env) (·.markerMissing env) h rfl
    have held := State.gives_whenDp (c := .holdoverBoundary env) (·.holdoverBoundary env) h rfl
    refine ⟨fun edge hu ha hr hs hw => (onEdge edge).answers ?inside, fun edge hu ha hw => ?outside,
      fun hu ha hr hs h0 => onTime.answers ?expected, fun m hs hr hm ht => onMarker.answers ?marker,
      fun hs hr hm => noMarker.answers ?markerless, fun _ hw => ?waits, fun hs hw => held.answers ?holdover⟩
    case inside =>
      rw [State.settled_ep, State.syncEdge_inside hu ha hr hs hw, State.ownBoundary_ep ha]
      exact ⟨rfl, rfl, rfl, rfl⟩
    case outside => simpa only [State.syncEdge_outside hu ha hw env] using onEdge edge
    case expected =>
      rw [State.settled_ep]
      obtain ⟨hnum, hlast⟩ := State.expectedBoundary_place hu ha hr hs env
      obtain ⟨hst, hedge, hrow⟩ := State.expectedBoundary_first hu ha hr hs h0 env
      exact ⟨hst, hnum, hlast, hedge, hrow⟩
    case marker =>
      rw [State.settled_ep]
      exact State.relayedBoundary_marker hs hr hm ht env
    case markerless =>
      obtain ⟨hnum, hlast⟩ := State.markerMissing_place hs hr hm env
      rw [State.settled_ep]
      refine ⟨hnum, hlast, State.markerMissing_first hs hr hm env, fun h1 hp => ?_⟩
      obtain ⟨hst, hev⟩ := State.markerMissing_second hs hr hm env h1 hp
      exact ⟨hst, State.evt_settled hev (by decide) s⟩
    case waits => simpa only [State.holdoverBoundary_waits hw env] using held
    case holdover =>
      rw [State.settled_ep]
      exact State.holdoverBoundary_counts hs hw env
  case lost =>
    have onTime := State.gives_whenDp (c := .expectedTimeBoundary env) (·.expectedBoundary env) h rfl
    obtain ⟨hnum, hlast⟩ := State.expectedBoundary_place hu ha hr hs env
    obtain ⟨hlost, hnext⟩ := State.expectedBoundary_second hu ha hr hs h1 hp env
    refine onTime.answers ?_
    rw [State.settled_ep]
    exact ⟨hnum, hlast, State.evt_settled hlost (by decide) s,
      hnext.imp_right (And.imp_right (State.evt_settled · (by decide) s))⟩

end Sys2Proof.Machine

/-! PROOFS. Request headers on the wire (R46): what encodes a header is read back from it. -/

namespace Sys2Proof.Machine

/-! ## Big-endian fields (R8) -/

@[simp] theorem bytesBE_length (n v : Nat) : (bytesBE n v).length = n := by
  induction n generalizing v with
  | zero => rfl
  | succ n ih => simp [bytesBE, ih]

/-- Bytes read behind a number `a` that has been read already. -/
theorem foldl_bytesBE (n v a : Nat) :
    (bytesBE n v).foldl (fun a b => a * 256 + b.toNat) a = a * 256 ^ n + v % 256 ^ n := by
  induction n generalizing a with
  | zero => simp [bytesBE, Nat.mod_one]
  | succ n ih =>
    have hv : v % 256 ^ (n + 1) = v % 256 ^ n + 256 ^ n * (v / 256 ^ n % 256) := Nat.mod_pow_succ
    rw [bytesBE, List.foldl_cons, ih, BitVec.toNat_ofNat, hv, Nat.pow_succ 256 n]
    ring

/-- The bytes from an offset on that lies behind those of a first part are bytes of the rest. -/
theorem slice_append_right (a b : List Byte) (i n : Nat) : slice (a ++ b) (a.length + i) n = slice b i n := by
  simp [slice, Nat.add_assoc, List.getElem?_append_right]

/-- The first bytes of a list are those of its first part. -/
theorem slice_append_left (a b : List Byte) : slice (a ++ b) 0 a.length = a := by
  refine List.ext_getElem (by simp [slice]) fun i _ hi => ?_
  simp [slice, List.getElem?_append_left hi, hi]

/-- A field is read back from its bytes. -/
theorem fieldBE_bytesBE (n v : Nat) (rest : List Byte) : fieldBE (bytesBE n v ++ rest) 0 n = v % 256 ^ n := by
  have h := slice_append_left (bytesBE n v) rest
  rw [bytesBE_length] at h
  rw [fieldBE, h, natOfBE, foldl_bytesBE, Nat.zero_mul, Nat.zero_add]

/-- A field behind the bytes of another. -/
theorem fieldBE_skip {k off : Nat} (v n : Nat) (rest : List Byte) (h : k ≤ off) :
    fieldBE (bytesBE k v ++ rest) off n = fieldBE rest (off - k) n := by
  have e := slice_append_right (bytesBE k v) rest (off - k) n
  rw [bytesBE_length, Nat.add_sub_cancel' h] at e
  rw [fieldBE, e, fieldBE]

/-! ## The header -/

/-- The 32 bytes of a header as a chain of fields. -/
theorem encodeReq_eq (h : ReqHdr) (op : Nat) (rest : List Byte) : encodeReq h op ++ rest =
    bytesBE 1 (h.typ.toNat * 64 + h.twinMask.toNat * 16 + h.length.toNat / 65536) ++ (bytesBE 3 h.srcEp.toNat ++
      (bytesBE 2 h.dstDev.toNat ++ (bytesBE 2 (b2n h.retx * 32768 + h.qid.toNat) ++ (bytesBE 4 h.qkey.toNat ++
      (bytesBE 4 h.seq.toNat ++ (bytesBE 4 (h.window.toNat * 2 ^ 14 + h.gen.toNat * 64 + op % 64) ++
      (bytesBE 4 h.wkey.toNat ++ (bytesBE 6 h.offset.toNat ++ (bytesBE 2 (h.length.toNat % 65536) ++ rest))))))))) := by
  simp only [encodeReq, List.append_assoc, bytesBE, Nat.pow_zero, Nat.div_one]

@[simp] theorem encodeReq_length (h : ReqHdr) (op : Nat) : (encodeReq h op).length = 32 := by
  simp [encodeReq]

/-- Bits below a shifted number: RETX over QUEUE_ID. -/
theorem bitOf_b2n_shift (b : Bool) {w v : Nat} (h : v < 2 ^ w) : bitOf (b2n b * 2 ^ w + v) w = b := by
  cases b <;> simp [bitOf, b2n, Nat.div_eq_of_lt h]

theorem parseReq_encodeReq (h : ReqHdr) {op : Nat} (rest : List Byte) (ho : op < 64) :
    parseReq (encodeReq h op ++ rest) = (h, op) := by
  obtain ⟨typ, twinMask, length, srcEp, dstDev, retx, qid, qkey, seq, window, gen, wkey, offset⟩ := h
  have hretx := bitOf_b2n_shift retx qid.isLt
  have hb : b2n retx ≤ 1 := by cases retx <;> decide
  simp (disch := omega) only [encodeReq_eq, parseReq, fieldBE_skip, fieldBE_bytesBE, Nat.reduceSub]
  rw [Nat.mod_eq_of_lt (b := 256 ^ 2) (a := b2n retx * 32768 + qid.toNat) (by omega)]
  simp only [Prod.mk.injEq, ReqHdr.mk.injEq]
  refine ⟨⟨?typ, ?mask, ?length, ?srcEp, ?dstDev, hretx, ?qid, ?qkey, ?seq, ?window, ?gen, ?wkey, ?offset⟩, ?op⟩
  case op => omega
  all_goals bv_omega

/-- Settles O29: each field is read from the bytes that spell it, past those before it. -/
theorem requestHeaderRoundTrip : Obligations.RequestHeaderRoundTrip := fun h op rest ho =>
  ⟨encodeReq_length h op, parseReq_encodeReq h rest ho⟩

end Sys2Proof.Machine

/-! PROOFS. What frames and datagrams leave of a state as they pass: counters, events, what is sent and what waits to be
sent, and nothing that a request is judged by (R39, R44, R72). -/

namespace Sys2Proof.Machine

/-! ## Registers: settings and status, counters and events (R400, R405) -/

/-- A setting or a status: its words lie between the header and the counters, or, in a page below PCE, above them. -/
def Fld.standing (f : Fld) : Bool :=
  decide (f.lsb < 64 ∧ (0x020 ≤ f.off ∧ f.off < 0x040 ∨ f.page < 0xE0 ∧ 0x100 ≤ f.off ∧ f.off < 4096))

/-- A counter of a page, an event register, or the MSI-X pending bit. -/
def Fld.tells (f : Fld) : Bool :=
  decide (f.lsb < 64 ∧ (f.off = 0x00C ∨ 0x040 ≤ f.off ∧ f.off < 0x100 ∨ 0xE0 ≤ f.page ∧ 0x100 ≤ f.off ∧ f.off < 4096))

theorem Fld.standing_iff {f : Fld} : f.standing = true ↔
    f.lsb < 64 ∧ (0x020 ≤ f.off ∧ f.off < 0x040 ∨ f.page < 0xE0 ∧ 0x100 ≤ f.off ∧ f.off < 4096) :=
  decide_eq_true_iff

theorem Fld.key_ne_of_tells {f g : Fld} (hf : f.standing = true) (hg : g.tells = true) : f.key ≠ g.key := by
  simp only [Fld.standing_iff, Fld.tells, decide_eq_true_eq] at hf hg
  have hc : ∀ d : Dom, d.code ≤ 4 := by intro d; cases d <;> decide
  have h1 := hc f.dom
  have h2 := hc g.dom
  unfold Fld.key
  split <;> split <;> omega

/-! ## The state but for what is told -/

/-- A state without its time, registers, what it has sent and has waiting to send, and the bookkeeping of both. -/
def State.core (s : State) : State :=
  { s with now := 0, reg := [], out := [], free := 0, cen := {}, key := {}
           net := { s.net with waiting := [], xoff := [], naks := [] }
           q := { s.q with alLine := [], pages := [] }
           gang := { s.gang with txq := [] } }

/-- What a request is judged by: the core without the contexts of queues, the entries and their count, the lookaside buffers,
and what the memory ports have been charged. -/
def State.asked (s : State) : State :=
  { s.core with
    q := {}, net := { s.core.net with rrt := [], count := 0 }
    win := { s.win with wlb := [], hits := [], misses := [], pfUsed := [] }
    mc := { s.mc with tokens := [], charged := [] } }

/-- A request is judged in `t` as in `s`, an earlier state. -/
structure State.Alike (s t : State) : Prop where
  asked : t.asked = s.asked
  regs : ∀ f : Fld, f.standing = true → t.get f = s.get f
  now : s.now ≤ t.now

/-- `t` is `s` but for what has been counted, raised and sent since. -/
structure State.Told (s t : State) : Prop extends s.Alike t where
  core : t.core = s.core

namespace State.Alike

variable {s t u : State}

theorem refl (s : State) : s.Alike s := ⟨rfl, fun _ _ => rfl, le_rfl⟩

theorem trans (h : s.Alike t) (h' : t.Alike u) : s.Alike u :=
  ⟨h'.asked.trans h.asked, fun f hf => (h'.regs f hf).trans (h.regs f hf), h.now.trans h'.now⟩

/-- A change of what a request is not judged by, apart from registers. -/
theorem aside (h : s.Alike t) (hc : u.asked = t.asked := by rfl) (hr : u.reg = t.reg := by rfl)
    (hn : t.now ≤ u.now := by exact le_rfl) : s.Alike u :=
  h.trans ⟨hc, fun f _ => State.get_of_reg hr f, hn⟩

section
variable (h : s.Alike t)
include h

/-- What reads nothing but what is asked is the same. -/
theorem asks {α : Type} (p : State → α) (hp : ∀ u : State, p u.asked = p u) : p t = p s := by rw [← hp t, h.asked, hp]

theorem ep : t.ep = s.ep := h.asks State.ep fun _ => rfl
theorem cm : t.cm = s.cm := h.asks State.cm fun _ => rfl
theorem tier : t.tier = s.tier := h.asks State.tier fun _ => rfl
theorem mus : t.mus = s.mus := h.asks State.mus fun _ => rfl
theorem fl : t.fl = s.fl := h.asks State.fl fun _ => rfl
theorem pwr : t.pwr = s.pwr := h.asks State.pwr fun _ => rfl
theorem acc : t.acc = s.acc := h.asks State.acc fun _ => rfl
theorem mem : t.mem = s.mem := h.asks State.mem fun _ => rfl
theorem windows : t.win.win = s.win.win := h.asks (fun u : State => u.win.win) fun _ => rfl
theorem domains : t.win.dom = s.win.dom := h.asks (fun u : State => u.win.dom) fun _ => rfl
theorem held : t.net.held = s.net.held := h.asks (fun u : State => u.net.held) fun _ => rfl
theorem reads : t.net.reads = s.net.reads := h.asks (fun u : State => u.net.reads) fun _ => rfl
theorem excess : t.net.excess = s.net.excess := h.asks (fun u : State => u.net.excess) fun _ => rfl
theorem paused : t.net.paused = s.net.paused := h.asks (fun u : State => u.net.paused) fun _ => rfl
theorem gangOk : t.gangOk = s.gangOk := h.asks (fun u : State => u.gangOk) fun _ => rfl
theorem inMask (r : ReqHdr) : t.inMask r = s.inMask r := h.asks (fun u : State => u.inMask r) fun _ => rfl
theorem silent (r : Req) : t.silent r = s.silent r := h.asks (fun u : State => u.silent r) fun _ => rfl
theorem window (n : Nat) : t.window n = s.window n := h.asks (fun u : State => u.window n) fun _ => rfl
theorem extent (e : Nat) : t.extent e = s.extent e := h.asks (fun u : State => u.extent e) fun _ => rfl
theorem epochRec (n : Nat) : t.epochRec n = s.epochRec n := h.asks (fun u : State => u.epochRec n) fun _ => rfl
theorem flag {f : Fld} (hf : f.standing = true) : t.flag f = s.flag f := by rw [State.flag, h.regs f hf, State.flag]
theorem serviceUp : t.serviceUp = s.serviceUp := h.flag (by decide)
theorem sameMemory : s.sameMemory t := fun _ => by rw [h.mem]

/-- A priority not paused before is not paused later. -/
theorem pausedAt {d : RetAddr} (hp : s.pausedAt d = false) : t.pausedAt d = false := by
  simp only [State.pausedAt, decide_eq_false_iff_not, Nat.not_lt, h.paused] at hp ⊢
  exact hp.trans h.now

end

end State.Alike

namespace State.Told

variable {s t u : State}

/-- The core and the registers are all there is to it. -/
theorem of_core (hc : t.core = s.core) (hr : ∀ f : Fld, f.standing = true → t.get f = s.get f) (hn : s.now ≤ t.now) :
    s.Told t := by
  refine ⟨⟨?_, hr, hn⟩, hc⟩
  change t.core.asked = s.core.asked
  rw [hc]

theorem refl (s : State) : s.Told s := of_core rfl (fun _ _ => rfl) le_rfl

theorem trans (h : s.Told t) (h' : t.Told u) : s.Told u :=
  ⟨h.toAlike.trans h'.toAlike, h'.core.trans h.core⟩

/-- A change of what is told, apart from registers. -/
theorem aside (h : s.Told t) (hc : u.core = t.core := by rfl) (hr : u.reg = t.reg := by rfl)
    (hn : t.now ≤ u.now := by exact le_rfl) : s.Told u :=
  h.trans (of_core hc (fun f _ => State.get_of_reg hr f) hn)

theorem atTime (h : s.Told t) (time : Nat) : s.Told (t.at time) := h.aside (hn := Nat.le_max_left _ _)

theorem send (h : s.Told t) (o : Out) : s.Told (t.send o) := h.aside

theorem put (h : s.Told t) {g : Fld} (v : Nat) (hg : g.tells = true := by rfl) : s.Told (t.put g v) :=
  h.trans (of_core rfl (fun _ hf => t.get_put_ne v (Fld.key_ne_of_tells hf hg)) le_rfl)

theorem inc (h : s.Told t) {g : Fld} (n : Nat) (hg : g.tells = true := by rfl) : s.Told (t.inc g n) := h.put _ hg

theorem msix (h : s.Told t) : s.Told t.msix := by
  unfold State.msix
  split
  · exact h.send _
  · exact h.put _

theorem raise (h : s.Told t) (p b : Nat) : s.Told (t.raise p b) := by
  have hp := h.put (g := HDR.EVT_RAW p) (setBit (t.get (HDR.EVT_RAW p)) b true)
  unfold State.raise State.irqEdge
  split
  · exact hp.msix
  · exact hp

theorem raiseIf (h : s.Told t) (c : Bool) (p b : Nat) : s.Told (t.raiseIf c p b) := by
  cases c
  · exact h
  · exact h.raise p b

/-- What each step of a fold tells, the fold tells. -/
theorem foldl {α : Type} {g : State → α → State} (hg : ∀ t a, s.Told t → s.Told (g t a)) (l : List α) (h : s.Told t) :
    s.Told (l.foldl g t) := by
  induction l generalizing t with
  | nil => exact h
  | cons a l ih => exact ih (hg _ _ h)

/-! ### What stands -/

section
variable (h : s.Told t)
include h

/-- What reads nothing of what is told is the same. -/
theorem asksCore {α : Type} (p : State → α) (hp : ∀ u : State, p u.core = p u) : p t = p s := by
  rw [← hp t, h.core, hp]

theorem win : t.win = s.win := h.asksCore State.win fun _ => rfl
theorem queues : t.q.q = s.q.q := h.asksCore (fun u : State => u.q.q) fun _ => rfl
theorem rrt : t.net.rrt = s.net.rrt := h.asksCore (fun u : State => u.net.rrt) fun _ => rfl
theorem count : t.net.count = s.net.count := h.asksCore (fun u : State => u.net.count) fun _ => rfl
theorem queue (n : Nat) : t.queue n = s.queue n := h.asksCore (fun u : State => u.queue n) fun _ => rfl
theorem entry (k : ReqKey) : t.entry k = s.entry k := h.asksCore (fun u : State => u.entry k) fun _ => rfl
theorem credit (n : Nat) : t.credit n = s.credit n := h.asksCore (fun u : State => u.credit n) fun _ => rfl

end

/-! ### Frames received (R39, R41, R72) -/

section
variable (h : s.Told t)
include h

theorem pfcFill (l : HostLink) (prio pct : Nat) : s.Told (t.pfcFill l prio pct) := by
  unfold State.pfcFill
  simp only
  split
  · exact h
  · split
    · exact (h.aside.inc _).send _
    · split
      · exact (h.aside.inc _).send _
      · exact h

theorem frameIn (f : EthFrame) : s.Told (t.frameIn f) :=
  (((h.inc _).inc _).raiseIf _ _ _).pfcFill _ _ _

theorem capEvent : s.Told t.capEvent := by
  unfold State.capEvent
  split
  · exact h
  · exact foldl (fun _ _ h => h.raise _ _) _ h

/-! ### Events posted (R105) -/

theorem post (d : Option Nat) (typ qid detail : Nat) : s.Told (t.post d typ qid detail) :=
  foldl (g := fun u n => u.postTo typ qid detail n) (fun _ _ h => h.aside) _ h

/-! ### Keys and cipher channels (R290, R291, R300) -/

theorem keys (k : KeySt) : s.Told { t with key := k } := h.aside

theorem chanStart (c : Nat) (j : ChanJob) : s.Told (t.chanStart c j) := by
  unfold State.chanStart
  split
  rename_i x susp full _
  refine raiseIf ?_ _ _ _
  have hk := h.keys { t.key with chan := mput t.key.chan c x }
  cases susp
  · exact hk
  · exact (hk.inc _).inc _

theorem channelMsg (i bytes prio : Nat) (bad legacy : Bool) (count : Nat) (ctx : MsgCtx) :
    s.Told (t.channelMsg i bytes prio bad legacy count ctx) := by
  have hm := fun c j b => (((h.keys { t.key with drbgReqs := t.key.drbgReqs + b }).chanStart c j).inc
    (g := CCH.BLOCKS c) b).inc (g := CCH.MESSAGES c) count
  unfold State.channelMsg
  split
  · exact h
  · cases legacy <;> cases bad
    · exact hm _ _ _
    · exact ((hm _ _ _).inc _).raise _ _
    · exact (hm _ _ _).inc _
    · exact (((hm _ _ _).inc _).inc _).raise _ _

theorem chargeLine (ch bytes : Nat) : s.Told (t.chargeLine ch bytes) := by
  unfold State.chargeLine
  split
  · exact h
  · exact h.aside

theorem useCounter (n : Nat) : s.Told (t.useCounter n).2 := by
  have hc : s.Told (t.useCounters n 1).2 := by
    unfold State.useCounters
    split
    · exact h
    · split
      · exact h
      · split
        · exact (h.keys _).raise _ _
        · dsimp only
          split <;> exact h.aside
  unfold State.useCounter
  split <;> rename_i e <;> rwa [e] at hc

/-! ### Datagrams sent (R44, R60, R165) -/

theorem sendDrift (j typ epoch : Nat) (payload : List Byte) (last : Bool) :
    s.Told (t.sendDrift j typ epoch payload last) := by
  unfold State.sendDrift
  simp only
  split
  · exact h.aside
  · exact h

theorem countLatency (lat : Option (Nat × Nat)) :
    s.Told (match lat with
      | some (c, a) => t.countLatency c a
      | none => t) := by
  cases lat
  · exact h
  · exact h.aside

theorem emit (w : Waiting) (x : Option (Nat × Nat × List Byte)) : s.Told (t.emit w x) := by
  have hl := h.countLatency w.lat
  unfold State.emit
  simp only
  split
  · exact (hl.aside.inc _).sendDrift _ _ _ _ _
  · refine ((hl.inc _ ?_).inc _).send _
    unfold txCounter
    split
    · rfl
    · split <;> rfl

theorem trySend (w : Waiting) : s.Told (t.trySend w).1 := by
  unfold State.trySend
  dsimp only
  split
  · exact h.inc _
  · split
    · exact h
    · split
      · split
        · exact h
        · split
          · exact h
          · have hu := h.useCounter (t.get (XPT.SEAL_TX_KEY w.dst.link.port.val))
            split <;> rename_i e <;> rw [e] at hu
            · exact ((hu.channelMsg _ _ _ _ _ _ _).chargeLine _ _).emit _ _
            · exact hu
      · exact h.emit _ _

/-- A datagram that holds no slot. -/
theorem sendDgram (dst : RetAddr) (hdr : AnsHdr) (data : List Byte) (lat : Option (Nat × Nat)) :
    s.Told (t.sendDgram dst hdr data none lat) := by
  have ht := h.trySend ⟨dst, hdr, data, none, lat⟩
  unfold State.sendDgram
  dsimp only
  split
  · exact h.aside
  · split <;> rename_i e <;> rw [e] at ht
    · exact ht
    · exact ht.aside

theorem sendNak (dst : RetAddr) (r : ReqHdr) (op status : Nat) (retry dup : Bool) (epoch : Nat)
    (lat : Option (Nat × Nat)) : s.Told (t.sendNak dst r op status retry dup epoch lat) := h.sendDgram _ _ _ _

theorem sendSeg (r : Req) (epoch status k : Nat) (last untrusted : Bool) (data : List Byte) (lat : Option (Nat × Nat)) :
    s.Told (t.sendSeg r epoch status k last untrusted data none lat) := by
  unfold State.sendSeg
  split
  · exact h
  · exact h.sendDgram _ _ _ _

/-- An answer whose slot has returned before. -/
theorem respondAt (r : Req) (epoch status : Nat) (data : List Byte) : s.Told (t.respondAt r epoch status data) := by
  unfold State.respondAt
  dsimp only [State.slotBack]
  split
  · exact h
  · refine foldl (fun _ _ h => ?_) _ h
    rw [ite_self]
    exact h.sendSeg _ _ _ _ _ _ _ _

/-- A refusal before an entry. -/
theorem nak (r : Req) (status : Nat) (retry : Bool) : s.Told (t.nak r status retry) := by
  unfold State.nak
  split
  · exact h.sendNak _ _ _ _ _ _ _ _
  · exact h

theorem finalNak (r : Req) (port status : Nat) : s.Told (t.finalNak r port status) := by
  unfold State.finalNak
  dsimp only
  split
  · exact h.raise _ _
  · exact nak h.aside _ _ _

end

end State.Told

end Sys2Proof.Machine

/-! PROOFS. What a host's datagram meets on its way to the checks of R52: its row, step 1 (R39, R43, R428), steps 2 and 3
(R69), and whether it is for this device (R165). -/

namespace Sys2Proof.Machine

/-! ## Rows -/

/-- A request's row is the reception of its datagram. -/
theorem exec_hostRow {c : Instr} {d : Dgram} {op : Nat} (h : hostRow c = some (d, op)) (s : State) :
    exec c s = .next (s.ingress d op) := by
  unfold hostRow at h
  split at h <;> cases h <;> rfl

theorem State.dpUp_of_receives {s : State} (h : s.receives = true) : s.dpUp = true := by
  simp only [State.receives, Bool.and_eq_true] at h
  exact h.1.1.1

/-- While the device receives, a datagram goes through step 1. -/
theorem State.ingress_dropped {s u : State} {d : Dgram} {op : Nat} (h : s.receives = true)
    (h1 : s.step1 d op = (.dropped, u)) : s.ingress d op = s.settled u := by
  rw [State.ingress, State.whenDp_up (State.dpUp_of_receives h)]
  simp only [State.receives, Bool.and_eq_true, Bool.not_eq_true', bne_iff_ne, ne_eq] at h
  simp [h, h1]

/-- Where it passes step 1 it goes on to the pipeline. -/
theorem State.ingress_passed {s u : State} {d : Dgram} {op : Nat} {sealed : Bool} (h : s.receives = true)
    (h1 : s.step1 d op = (.pass sealed, u)) : s.ingress d op = s.settled (u.pipeline d op sealed none) := by
  rw [State.ingress, State.whenDp_up (State.dpUp_of_receives h)]
  simp only [State.receives, Bool.and_eq_true, Bool.not_eq_true', bne_iff_ne, ne_eq] at h
  simp [h, h1]

/-! ## Settings of a port -/

section
variable {s t : State} (h : s.Alike t)
include h

theorem State.Alike.linkUp (l : HostLink) : t.linkUp l = s.linkUp l := by
  have hl : (HP.LINK_UP l.port.val).standing = true := by
    simp only [Fld.standing_iff, HP.LINK_UP]
    omega
  rw [State.linkUp, h.pwr, h.regs _ hl, State.linkUp]

theorem State.Alike.frameBad (f : EthFrame) : t.frameBad f = s.frameBad f := by
  have hp := f.link.port.isLt
  have hk := f.link.sub.isLt
  unfold State.frameBad
  simp only
  rw [h.flag (f := HP.VLAN_EN _ _), h.regs (HP.VID _ _), h.flag (f := XPT.IPV6_EN _), h.flag (f := XPT.IPV4_EN _)] <;>
    simp only [Fld.standing_iff, HP.VLAN_EN, HP.VID, XPT.IPV6_EN, XPT.IPV4_EN] <;> omega

theorem State.Alike.udpPort (l : HostLink) : t.get (XPT.UDP_PORT l.port.val) = s.get (XPT.UDP_PORT l.port.val) :=
  h.regs _ (by simp only [Fld.standing_iff, XPT.UDP_PORT]; omega)

theorem State.Alike.udpPortSealed (l : HostLink) :
    t.get (XPT.UDP_PORT_SEALED l.port.val) = s.get (XPT.UDP_PORT_SEALED l.port.val) :=
  h.regs _ (by simp only [Fld.standing_iff, XPT.UDP_PORT_SEALED]; omega)

theorem State.Alike.sealRequired (l : HostLink) :
    t.flag (XPT.SEAL_REQUIRED l.port.val) = s.flag (XPT.SEAL_REQUIRED l.port.val) :=
  h.flag (by simp only [Fld.standing_iff, XPT.SEAL_REQUIRED]; omega)

end

/-! ## Step 1 (R39, R43, R428) -/

/-- What a frame whose FCS is right leaves as it is counted. -/
def State.frameCounted (s : State) (f : EthFrame) : State :=
  ((s.at f.time).frameIn f).inc (HP.RX_FRAMES f.link.port.val)

theorem State.told_frameCounted (s : State) (f : EthFrame) : s.Told (s.frameCounted f) :=
  (((State.Told.refl s).atTime _).frameIn f).inc _

section
variable {s : State} {d : Dgram} (op : Nat)

theorem State.step1_down (h : s.linkUp d.frame.link = false) : s.step1 d op = (.dropped, s.at d.frame.time) := by
  have hl := ((State.Told.refl s).atTime d.frame.time).linkUp d.frame.link
  simp [State.step1, hl, h]

theorem State.step1_fcs (h : s.linkUp d.frame.link = true) (hf : d.frame.fcsOk = false) :
    s.step1 d op = (.dropped, ((s.at d.frame.time).frameIn d.frame).inc (HP.RX_FCS_ERR d.frame.link.port.val)) := by
  have hl := ((State.Told.refl s).atTime d.frame.time).linkUp d.frame.link
  simp [State.step1, hl, h, hf]

theorem State.step1_bad (h : s.linkUp d.frame.link = true) (hf : d.frame.fcsOk = true) (hb : s.frameBad d.frame = true) :
    s.step1 d op = (.dropped, (s.frameCounted d.frame).inc (XPT.RX_DROP d.frame.link.port.val)) := by
  have hl := ((State.Told.refl s).atTime d.frame.time).linkUp d.frame.link
  have hc : (s.frameCounted d.frame).frameBad d.frame = true := ((s.told_frameCounted d.frame).frameBad _).trans hb
  unfold State.frameCounted at hc ⊢
  simp [State.step1, hl, h, hf, hc]

/-- A good frame in clear to UDP_PORT: its ICRC, then its TYPE decide. -/
theorem State.step1_arrives (h : s.arrives d = true) : s.step1 d op =
    if icrcOk d op = false then (Step1.dropped, ((s.frameCounted d.frame).inc (XPT.RX_DROP d.frame.link.port.val)).raise
      (XPT.page d.frame.link.port.val) XPT.evICRC_ERR)
    else if d.hdr.typ ≠ 0 then (Step1.dropped, (s.frameCounted d.frame).inc (XPT.RX_DROP d.frame.link.port.val))
    else (Step1.pass false, s.frameCounted d.frame) := by
  simp only [State.arrives, Bool.and_eq_true, Bool.not_eq_true', beq_iff_eq, bne_iff_ne, ne_eq, Option.isNone_iff_eq_none] at h
  obtain ⟨⟨⟨⟨⟨⟨⟨-, hup⟩, hf⟩, hb⟩, hp⟩, hs⟩, hcut⟩, hseal⟩ := h
  have hl := ((State.Told.refl s).atTime d.frame.time).linkUp d.frame.link
  have ht := s.told_frameCounted d.frame
  have hcb := (ht.frameBad d.frame).trans hb
  have hcp := ht.udpPort d.frame.link
  have hcs := ht.udpPortSealed d.frame.link
  unfold State.frameCounted at hcb hcp hcs ⊢
  rw [hp] at hs
  simp [State.step1, hl, hup, hf, hcb, hcp, hcs, hp, hcut, hseal, beq_false_of_ne hs]

end

/-- Settles O30: each frame by the branch of step 1 that drops it. -/
theorem badDatagramsDropped : Obligations.BadDatagramsDropped := by
  intro s hs d
  have hx : ∀ u, s.step1 d 0 = (.dropped, u) → s.gives (.hostFrameDrop d) u := fun u h => by
    rw [State.gives, ← State.ingress_dropped hs h]
    rfl
  refine ⟨fun h => hx _ (State.step1_down _ h), fun h hf => hx _ (State.step1_fcs _ h hf),
    fun h hf hb => hx _ (State.step1_bad _ h hf hb), fun c op hc ha hi => ?_⟩
  rw [State.gives, exec_hostRow hc, State.ingress_dropped hs ((State.step1_arrives _ ha).trans (if_pos hi))]
  rfl

/-! ## Steps 2 and 3, and the device that it names (R52, R69, R165) -/

/-- The state in which a request in clear comes to steps 4 to 12: its frame and the request counted. -/
def State.received (s : State) (d : Dgram) : State :=
  let u := (s.frameCounted d.frame).inc (XPT.RX_REQ d.frame.link.port.val)
  if d.hdr.retx then u.inc (XPT.RX_RETX d.frame.link.port.val) else u

theorem State.told_received (s : State) (d : Dgram) : s.Told (s.received d) := by
  have h := (s.told_frameCounted d.frame).inc (g := XPT.RX_REQ d.frame.link.port.val) 1
  unfold State.received
  dsimp only
  split
  · exact h.inc _
  · exact h

/-- A frame that comes in leaves what waits to be sent. -/
theorem State.received_waiting (s : State) (d : Dgram) : (s.received d).net.waiting = s.net.waiting := by
  have hp : ∀ (u : State) (l : HostLink) prio pct, (u.pfcFill l prio pct).net.waiting = u.net.waiting := by
    intro u l prio pct
    unfold State.pfcFill
    dsimp only
    split
    · rfl
    · split
      · rfl
      · split <;> rfl
  have hf : (s.frameCounted d.frame).net.waiting = s.net.waiting := by
    rw [State.frameCounted, State.inc_net, State.frameIn, hp]
    simp [State.hostFec]
  unfold State.received
  dsimp only
  split <;> simp [hf]

theorem State.arrives_of_reachesChecks {s : State} {d : Dgram} {op : Nat} (h : s.reachesChecks d op = true) :
    s.arrives d = true := by
  simp only [State.reachesChecks, Bool.and_eq_true] at h
  exact h.1.1.1.1.1

theorem State.receives_of_arrives {s : State} {d : Dgram} (h : s.arrives d = true) : s.receives = true := by
  simp only [State.arrives, Bool.and_eq_true] at h
  exact h.1.1.1.1.1.1.1

theorem State.inMask_of_reachesChecks {s : State} {d : Dgram} {op : Nat} (h : s.reachesChecks d op = true) :
    s.inMask d.hdr = true := by
  simp only [State.reachesChecks, Bool.and_eq_true] at h
  exact h.2

/-- A request in clear for this device comes to steps 4 to 12. -/
theorem State.ingress_reachesChecks {s : State} {d : Dgram} {op : Nat} (h : s.reachesChecks d op = true) :
    s.ingress d op = s.settled ((s.received d).checks (s.reqOf d op) d.frame.link.port.val 0) := by
  have ha := State.arrives_of_reachesChecks h
  have hseal : d.sealing = none := by
    simp only [State.arrives, Bool.and_eq_true, Option.isNone_iff_eq_none] at ha
    exact ha.2
  simp only [State.reachesChecks, Bool.and_eq_true, Bool.or_eq_true, beq_iff_eq, Bool.not_eq_true'] at h
  obtain ⟨⟨⟨⟨⟨-, hi⟩, htyp⟩, hreq⟩, hdst⟩, -⟩ := h
  have h1 : s.step1 d op = (.pass false, s.frameCounted d.frame) := by simp [State.step1_arrives _ ha, hi, htyp]
  have hreq' := (s.told_frameCounted d.frame).sealRequired d.frame.link
  have ht := s.told_received d
  have hdev := ht.regs GNG.DEV_ID (by decide)
  have htwin := ht.regs GNG.TWIN_DEV_ID (by decide)
  have hep := ht.ep
  rw [State.ingress_passed (State.receives_of_arrives ha) h1]
  unfold State.received at hdev htwin hep ⊢
  dsimp only at hdev htwin hep
  simp [State.pipeline, State.step2, hseal, hreq', hreq, hdev, htwin, hdst, hep, State.reqOf]

/-- What the row of such a request gives. -/
theorem State.gives_of_reachesChecks {s : State} {c : Instr} {d : Dgram} {op : Nat} (hc : hostRow c = some (d, op))
    (h : s.reachesChecks d op = true) :
    s.gives c ((s.received d).checks (s.reqOf d op) d.frame.link.port.val 0) := by
  rw [State.gives, exec_hostRow hc, State.ingress_reachesChecks h]

end Sys2Proof.Machine

/-! PROOFS. Requests turned away before they have an entry (R52, R53), and the entry that the others get (R56, R60, R77). -/

namespace Sys2Proof.Machine

/-! ## Settled tables -/

@[simp] theorem State.settled_epochs (s t : State) : (s.settled t).cm.ep = t.cm.ep := by
  have h := State.settled_sameCommit s t
  unfold State.sameCommit at h
  rw [← h]

@[simp] theorem State.settled_epochRec (s t : State) (n : Nat) : (s.settled t).epochRec n = t.epochRec n := by
  simp [State.epochRec]

@[simp] theorem State.settled_queue (s t : State) (n : Nat) : (s.settled t).queue n = t.queue n := by
  simp [State.queue]

@[simp] theorem State.settled_entry (s t : State) (k : ReqKey) : (s.settled t).entry k = t.entry k := by
  simp [State.entry]

/-- Memory that stands reads as before once settled. -/
theorem State.sameMemory_settled {s t : State} (h : t.mem = s.mem) (u : State) : s.sameMemory (u.settled t) := fun a => by
  rw [State.settled_mem, h]

/-! ## Turned away (R52, R53) -/

/-- Is a request turned away between steps 5 and 8: no service for its queue, a queue that does not take it, or a new sequence
that is stale or beyond the credit? -/
def State.turnsAway (s : State) (h : ReqHdr) : Prop :=
  let n := h.qid.toNat
  let q := s.queue n
  (n ≠ 0 ∧ ¬ (s.cm.twin = .paired ∨ s.cm.twin = .alone)) ∨ (16 ≤ n ∧ (s.serviceUp = false ∨ s.gangOk = false)) ∨ n = 0 ∨
    q.state ≠ .active ∨ q.key ≠ h.qkey.toNat ∨ q.srcEp ≠ h.srcEp.toNat ∨
    ((s.entry h.key).isNone ∧ (precedes q.floor h.seq.toNat = false ∨ precedes (s.credit n) h.seq.toNat = true))

/-- A request turned away leaves nothing but its refusal, counted and sent. -/
theorem State.Told.checks_turnsAway {s u : State} (ht : s.Told u) {r : Req} (hm : s.inMask r.hdr = true)
    (h : s.turnsAway r.hdr) (port rsvd : Nat) : s.Told (u.checks r port rsvd) := by
  unfold State.checks
  simp only [ht.inMask, hm, ht.queue, ht.cm, ht.serviceUp, ht.gangOk, ht.entry, ht.credit, Bool.not_true,
    Bool.false_eq_true, if_false]
  split
  · exact ht.nak _ _ _
  rename_i hserve
  split
  · exact ht.finalNak _ _ _
  rename_i hqueue
  split
  · exact ht.finalNak _ _ _
  rename_i hfrozen
  have hnew : (s.entry r.hdr.key).isNone ∧ (precedes (s.queue r.hdr.qid.toNat).floor r.hdr.seq.toNat = false ∨
      precedes (s.credit r.hdr.qid.toNat) r.hdr.seq.toNat = true) := by
    simp only [Bool.or_eq_true, Bool.and_eq_true, Bool.not_eq_true', beq_iff_eq, bne_iff_ne, decide_eq_true_eq,
      not_or, not_and, ne_eq, Bool.or_eq_false_iff, beq_eq_false_iff_ne, Decidable.not_not] at hserve hqueue hfrozen
    obtain ⟨⟨⟨⟨hzero, hfree⟩, hdel⟩, hkey⟩, hsrc⟩ := hqueue
    have hactive : (s.queue r.hdr.qid.toNat).state = .active := by
      cases hst : (s.queue r.hdr.qid.toNat).state <;> first | rfl | contradiction
    obtain ⟨h0, h⟩ | ⟨h16, h⟩ | h | h | h | h | h := h
    · exact absurd (or_iff_not_imp_left.2 (hserve.2 h0)) h
    · exact (h.elim (hserve.1 h16).1 (hserve.1 h16).2).elim
    · exact absurd h hzero
    · exact absurd hactive h
    · exact absurd hkey h
    · exact absurd hsrc h
    · exact h
  obtain ⟨hnone, hseq⟩ := hnew
  rw [Option.isNone_iff_eq_none.1 hnone]
  dsimp only
  split
  · exact ((ht.inc _).raise _ _).nak _ _ _
  rename_i hstale
  split
  · exact ht.nak _ _ _
  rename_i hcredit
  simp_all

end Sys2Proof.Machine

/-! PROOFS. The entry that a request gets as it passes steps 4 to 9 (R56, R60, R77), and steps 10 and 11 as they judge it there
(R83, R120, R121, R166). -/

namespace Sys2Proof.Machine

/-! ## The gang address space (R158, R163) -/

section
variable {s t : State} (h : s.Alike t)
include h

theorem State.Alike.gangN : t.gangN = s.gangN := by rw [State.gangN, h.regs GNG.SIZE (by decide), State.gangN]

theorem State.Alike.gangPos : t.gangPos = s.gangPos := by rw [State.gangPos, h.gangN, h.pwr, State.gangPos]

theorem State.Alike.homeOf (ga : Nat) : t.homeOf ga = s.homeOf ga := by rw [State.homeOf, h.gangN, State.homeOf]

theorem State.Alike.daOf (ga : Nat) : t.daOf ga = s.daOf ga := by rw [State.daOf, h.gangN, State.daOf]

theorem State.Alike.localPieces (ga n : Nat) : t.localPieces ga n = s.localPieces ga n := by
  simp only [State.localPieces, h.homeOf, h.daOf, h.gangPos]

theorem State.Alike.remotePieces (ga n : Nat) : t.remotePieces ga n = s.remotePieces ga n := by
  simp only [State.remotePieces, h.homeOf, h.daOf, h.gangPos]

/-! ## Step 11 at ingress (R121, R166, R168) -/

theorem State.Alike.judge11 (r : ReqHdr) (op dom n : Nat) : t.judge11 r op dom n none = s.judge11 r op dom n none :=
  h.asks (fun u => u.judge11 r op dom n none) fun _ => rfl

theorem State.Alike.needsLost (r : ReqHdr) : t.needsLost r = s.needsLost r := by
  have hl : t.gang.lost = s.gang.lost := h.asks (fun u => u.gang.lost) fun _ => rfl
  simp only [State.needsLost, h.remotePieces, h.window, hl, State.linkTo, h.gangPos]

theorem State.Alike.judgeHome (r : ReqHdr) (op : Nat) : t.judgeHome r op = s.judgeHome r op := by
  simp only [State.judgeHome, h.remotePieces, h.window, h.flag (f := GNG.FWD_EN) (by decide), h.needsLost]

theorem State.Alike.ingress11 (r : ReqHdr) (op dom : Nat) : (t.ingress11 r op dom).1 = (s.ingress11 r op dom).1 := by
  have hv : ∀ (u : State) v, (u.verdict11 r op dom v).1 = v.map (·.1) := by
    intro u v
    cases v <;> rfl
  simp only [State.ingress11, h.judge11, h.judgeHome, h.ep]
  split
  · split <;> rfl
  · split
    · split <;> rfl
    · rw [hv, hv]

end

/-- A request that step 11 lets pass leaves nothing there. -/
theorem State.ingress11_of_none {s : State} {r : ReqHdr} {op dom : Nat} (h : (s.ingress11 r op dom).1 = none) :
    s.ingress11 r op dom = (none, s) := by
  unfold State.ingress11 at h ⊢
  dsimp only at h ⊢
  split at h
  · split at h
    · cases h
    · simp_all
  · split at h
    · split at h
      · cases h
      · simp_all
    · cases h

/-! ## Step 10 -/

/-- Step 10 reads nothing of a state but a queue's class, privilege and contract. -/
theorem State.step10_congr {s t : State} {r : Req} (hc : (t.queue r.hdr.qid.toNat).cls = (s.queue r.hdr.qid.toNat).cls)
    (hp : (t.queue r.hdr.qid.toNat).priv = (s.queue r.hdr.qid.toNat).priv)
    (ht : (t.queue r.hdr.qid.toNat).ct = (s.queue r.hdr.qid.toNat).ct) (rsvd : Nat) : t.step10 r rsvd = s.step10 r rsvd := by
  unfold State.step10 zeroContract
  dsimp only
  rw [hc, hp, ht]

/-! ## The entry (R56, R60, R77) -/

/-- The entry of a request received. -/
def State.entryOf (s : State) (r : Req) : RrtEntry :=
  { key := r.hdr.key, epoch := s.ep.num, readOnly := readOnly r.op r.payload, mute := !s.inMask r.hdr, ret := r.ret, time := r.time }

/-- The context of its queue: a slot more is in flight. -/
def State.queueOf (s : State) (r : Req) : Queue :=
  let q := s.queue r.hdr.qid.toNat
  { q with
    inFlight := q.inFlight + 1, high := laterSeq q.high r.hdr.seq.toNat
    addrs := match r.ret with
      | some a => (s.ep.num, a) :: q.addrs.filter fun e => e.1 != s.ep.num && s.ep.num < e.1 + 32
      | none => q.addrs }

theorem State.queueOf_cls (s : State) (r : Req) : (s.queueOf r).cls = (s.queue r.hdr.qid.toNat).cls := by
  rw [State.queueOf]

theorem State.queueOf_state (s : State) (r : Req) : (s.queueOf r).state = (s.queue r.hdr.qid.toNat).state := by
  rw [State.queueOf]

theorem State.queueOf_inFlight (s : State) (r : Req) :
    (s.queueOf r).inFlight = (s.queue r.hdr.qid.toNat).inFlight + 1 := by
  rw [State.queueOf]

theorem State.queueOf_high (s : State) (r : Req) :
    (s.queueOf r).high = laterSeq (s.queue r.hdr.qid.toNat).high r.hdr.seq.toNat := by
  rw [State.queueOf]

/-- The state with both. -/
def State.withEntry (s : State) (r : Req) : State :=
  let u := (s.setQueue r.hdr.qid.toNat (s.queueOf r)).setEntry (s.entryOf r)
  { u with net := { u.net with count := u.net.count + 1 } }

theorem State.told_receiveEntry (s : State) (r : Req) : (s.withEntry r).Told (s.receiveEntry r) :=
  (State.Told.refl (s.withEntry r)).capEvent

theorem State.setQueue_asked (s : State) (n : Nat) (q : Queue) : (s.setQueue n q).asked = s.asked := rfl

theorem State.setEntry_asked (s : State) (e : RrtEntry) : (s.setEntry e).asked = s.asked := rfl

theorem State.setCount_asked (s : State) (n : Nat) :
    ({ s with net := { s.net with count := n } } : State).asked = s.asked := rfl

theorem State.alike_withEntry (s : State) (r : Req) : s.Alike (s.withEntry r) :=
  (((State.Alike.refl s).aside (s.setQueue_asked _ _)).aside (State.setEntry_asked _ (s.entryOf r))).aside
    (State.setCount_asked _ _)

theorem State.alike_receiveEntry (s : State) (r : Req) : s.Alike (s.receiveEntry r) :=
  (s.alike_withEntry r).trans (s.told_receiveEntry r).toAlike

theorem State.receiveEntry_entry (s : State) (r : Req) : (s.receiveEntry r).entry r.hdr.key = some (s.entryOf r) :=
  ((s.told_receiveEntry r).entry _).trans (State.entry_setEntry _ (s.entryOf r))

theorem State.receiveEntry_queue (s : State) {r : Req} (h : r.hdr.qid.toNat ≠ 0) :
    (s.receiveEntry r).queue r.hdr.qid.toNat = s.queueOf r :=
  ((s.told_receiveEntry r).queue _).trans (s.queue_setQueue (s.queueOf r) h)

/-- A queue's context written leaves every other queue. -/
theorem State.queue_setQueue_ne (s : State) {m n : Nat} (q : Queue) (h : m ≠ n) :
    (s.setQueue n q).queue m = s.queue m := by
  simp only [State.queue, State.setQueue, mgetD_mset_ne _ _ _ _ h]

theorem State.receiveEntry_queue_ne (s : State) {r : Req} {m : Nat} (h : m ≠ r.hdr.qid.toNat) :
    (s.receiveEntry r).queue m = s.queue m :=
  ((s.told_receiveEntry r).queue m).trans (s.queue_setQueue_ne (s.queueOf r) h)

/-- A fold keeps what each of its steps keeps. -/
theorem foldl_keeps {α β γ : Type} (p : β → γ) {g : β → α → β} (hg : ∀ b a, p (g b a) = p b) (l : List α) (b : β) :
    p (l.foldl g b) = p b := by
  induction l generalizing b with
  | nil => rfl
  | cons a l ih => exact (ih _).trans (hg b a)

theorem State.capEvent_net (s : State) : s.capEvent.net = s.net := by
  unfold State.capEvent
  split
  · rfl
  · exact foldl_keeps State.net (fun _ _ => by simp) _ s

theorem State.receiveEntry_waiting (s : State) (r : Req) : (s.receiveEntry r).net.waiting = s.net.waiting := by
  change (s.withEntry r).capEvent.net.waiting = _
  rw [State.capEvent_net]
  rfl

end Sys2Proof.Machine

/-! PROOFS. Requests that fail at step 10: the final NAK in the entry, the slot that returns, and what a freeze ends (R52, R58,
R60, R83, R96). -/

namespace Sys2Proof.Machine

/-! ## The contexts of the other queues -/

/-- A request is judged in `t` as in `s`, and of the contexts of queues only that of queue `n` may have changed, not its
class. -/
structure State.AlikeBut (s t : State) (n : Nat) : Prop extends s.Alike t where
  others : ∀ m, m ≠ n → t.queue m = s.queue m
  cls : (t.queue n).cls = (s.queue n).cls

namespace State.AlikeBut

variable {s t u : State} {n : Nat}

theorem trans (h : s.AlikeBut t n) (h' : t.AlikeBut u n) : s.AlikeBut u n :=
  ⟨h.toAlike.trans h'.toAlike, fun m hm => (h'.others m hm).trans (h.others m hm), h'.cls.trans h.cls⟩

theorem of_told (h : s.Told t) (n : Nat) : s.AlikeBut t n := ⟨h.toAlike, fun m _ => h.queue m, by rw [h.queue]⟩

theorem setEntry (s : State) (e : RrtEntry) (n : Nat) : s.AlikeBut (s.setEntry e) n :=
  ⟨(State.Alike.refl s).aside (s.setEntry_asked e), fun _ _ => rfl, rfl⟩

theorem setQueue (s : State) {n : Nat} {q : Queue} (hn : n ≠ 0) (hq : q.cls = (s.queue n).cls) :
    s.AlikeBut (s.setQueue n q) n :=
  ⟨(State.Alike.refl s).aside (s.setQueue_asked n q), fun _ hm => s.queue_setQueue_ne q hm, by rw [s.queue_setQueue q hn, hq]⟩

theorem receiveEntry (s : State) {r : Req} (hn : r.hdr.qid.toNat ≠ 0) :
    s.AlikeBut (s.receiveEntry r) r.hdr.qid.toNat :=
  ⟨s.alike_receiveEntry r, fun _ hm => s.receiveEntry_queue_ne hm, by
    rw [s.receiveEntry_queue hn, s.queueOf_cls]⟩

end State.AlikeBut

/-! ## What a freeze ends (R96) -/

theorem State.frozenCut_eq_false {s : State} : s.frozenCut = false ↔
    (∀ r ∈ s.net.held, s.frozenAfter r = false) ∧ ∀ p ∈ s.net.reads, s.frozenAfter p.req = false := by
  simp [State.frozenCut]

/-- Where a freeze ends nothing, nothing is cut. -/
theorem State.cutFrozen_of_not {s : State} (h : s.frozenCut = false) : s.cutFrozen = s := by
  obtain ⟨hh, hr⟩ := State.frozenCut_eq_false.1 h
  have hheld : s.net.held.filter s.frozenAfter = [] := by simpa using hh
  have hkeep : s.net.held.filter (fun r => !s.frozenAfter r) = s.net.held := by simpa using hh
  have hreads : s.net.reads.filter (fun p => s.frozenAfter p.req) = [] := by simpa using hr
  have hstay : s.net.reads.filter (fun p => !s.frozenAfter p.req) = s.net.reads := by simpa using hr
  simp only [State.cutFrozen, State.cutReads, hheld, hkeep, List.foldl_nil, hreads, hstay]

/-- Requests of other queues freeze as before, and an ACCESSION queue of which nothing is held or waits ends nothing. -/
theorem State.AlikeBut.frozenCut_eq_false {s t : State} {n : Nat} (h : s.AlikeBut t n) (hs : s.freezeCuts n = false) :
    t.frozenCut = false := by
  simp only [State.freezeCuts, Bool.or_eq_false_iff, State.frozenCut_eq_false, Bool.and_eq_false_imp, beq_iff_eq,
    List.any_eq_false] at hs
  obtain ⟨⟨hheld, hreads⟩, hcls⟩ := hs
  have hr : ∀ r, s.frozenAfter r = false → ((s.queue n).cls = 2 → r.hdr.qid.toNat ≠ n) → t.frozenAfter r = false := by
    intro r hr hn
    by_cases hq : r.hdr.qid.toNat = n
    · have hc : (t.queue n).cls ≠ 2 := fun hc => hn (h.cls.symm.trans hc) hq
      simp [State.frozenAfter, hq, hc]
    · simpa only [State.frozenAfter, h.others _ hq] using hr
  rw [State.frozenCut_eq_false, h.held, h.reads]
  exact ⟨fun r hm => hr r (hheld r hm) fun hc => (hcls hc).1 r hm,
    fun p hm => hr _ (hreads p hm) fun hc => (hcls hc).2 p hm⟩

/-! ## A slot returns (R60) -/

theorem State.returnSlot_active {s : State} {n : Nat} (hn : n ≠ 0) (ha : (s.queue n).state = .active) (seq : Nat) :
    s.returnSlot n seq = s.setQueue n ({ s.queue n with
      inFlight := (s.queue n).inFlight - 1, returned := seq :: (s.queue n).returned } : Queue).settle := by
  unfold State.returnSlot
  simp only [hn, ha]
  rw [State.checkFree, State.queue_setQueue _ _ hn]
  simp [Queue.settle]

theorem State.alike_returnSlot {s : State} {n : Nat} (hn : n ≠ 0) (ha : (s.queue n).state = .active) (seq : Nat) :
    s.AlikeBut (s.returnSlot n seq) n := by
  rw [State.returnSlot_active hn ha]
  exact .setQueue s hn rfl

theorem State.returnSlot_inFlight {s : State} {n : Nat} (hn : n ≠ 0) (ha : (s.queue n).state = .active) (seq : Nat) :
    ((s.returnSlot n seq).queue n).inFlight = (s.queue n).inFlight - 1 := by
  rw [State.returnSlot_active hn ha, State.queue_setQueue _ _ hn]
  rfl

/-! ## Frozen at a failing request (R96) -/

theorem State.freezeAt_leaves {s : State} {r : Req} (hn : r.hdr.qid.toNat ≠ 0) (n status : Nat) :
    s.AlikeBut (s.freezeAt r n status) r.hdr.qid.toNat ∧ (s.freezeAt r n status).net.rrt = s.net.rrt ∧
      ((s.freezeAt r n status).queue r.hdr.qid.toNat).inFlight = (s.queue r.hdr.qid.toNat).inFlight := by
  unfold State.freezeAt
  dsimp only
  split
  · exact ⟨.of_told (.refl s) _, rfl, rfl⟩
  · have h := fun (u : State) d typ qid detail p b => ((State.Told.refl u).post d typ qid detail).raise p b
    refine ⟨(State.AlikeBut.setQueue s hn ?_).trans (.of_told (h _ _ _ _ _ _ _) _), (h _ _ _ _ _ _ _).rrt, ?_⟩
    · rfl
    · rw [(h _ _ _ _ _ _ _).queue, State.queue_setQueue _ _ hn]

/-! ## A final NAK recorded (R52, R58) -/

/-- A final NAK recorded in an entry. -/
def RrtEntry.refused (e : RrtEntry) (r : Req) (status epoch : Nat) : RrtEntry :=
  { e with
    answered := true, isNak := true, readOnly := Sys2Proof.Machine.readOnly r.op r.payload, status := status, data := []
    told := epoch, quiet := false }

/-- The slot of a request that is refused returns, and its NAK is sent. -/
def State.refusing (s : State) (r : Req) (dst : RetAddr) (status : Nat) : State :=
  let u := s.returnSlot r.hdr.qid.toNat r.hdr.seq.toNat
  u.sendNak dst r.hdr r.op status false false u.ep.num (u.latOf r.hdr r.time)

theorem State.told_refusing (s : State) (r : Req) (dst : RetAddr) (status : Nat) :
    (s.returnSlot r.hdr.qid.toNat r.hdr.seq.toNat).Told (s.refusing r dst status) :=
  (State.Told.refl _).sendNak _ _ _ _ _ _ _ _

/-- A refusal sent is then recorded. -/
theorem State.refuse_eq {s : State} {r : Req} (hd : r.dup = false) {dst : RetAddr} (hr : r.ret = some dst) (status : Nat) :
    s.refuse r status true =
      let u := (s.refusing r dst status).recordAnswer r.hdr.key true (readOnly r.op r.payload) status []
      if readOnly r.op r.payload then u.freezeAt r u.ep.num status else u := by
  have hret : ∀ u : State, u.retOf r = some dst := fun u => by rw [State.retOf, hr]
  unfold State.refuse State.refusing
  rw [hd]
  simp -zeta only [Bool.false_eq_true, if_false, hret]
  rfl

theorem State.recordAnswer_of_entry {s : State} {k : ReqKey} {e : RrtEntry} (h : s.entry k = some e)
    (isNak reads : Bool) (status : Nat) (data : List Byte) (epoch : Nat) :
    s.recordAnswer k isNak reads status data epoch = s.setEntry { e with
      answered := true, isNak := isNak, readOnly := reads, status := status, data := data.take 16, told := epoch
      quiet := false } := by
  rw [State.recordAnswer, h]

theorem State.refuse_leaves {s : State} {r : Req} {e : RrtEntry} (hn : r.hdr.qid.toNat ≠ 0)
    (ha : (s.queue r.hdr.qid.toNat).state = .active) (hd : r.dup = false) {dst : RetAddr} (hr : r.ret = some dst)
    (he : s.entry r.hdr.key = some e)
    (hk : e.key = r.hdr.key) (status : Nat) :
    s.AlikeBut (s.refuse r status true) r.hdr.qid.toNat ∧
      (s.refuse r status true).entry r.hdr.key = some (e.refused r status s.ep.num) ∧
      ((s.refuse r status true).queue r.hdr.qid.toNat).inFlight = (s.queue r.hdr.qid.toNat).inFlight - 1 := by
  have hu := s.told_refusing r dst status
  have heq := State.refuse_eq (s := s) hd hr status
  generalize s.refusing r dst status = u at hu heq
  have hslot := State.alike_returnSlot hn ha r.hdr.seq.toNat
  have hue : u.entry r.hdr.key = some e := by
    rw [hu.entry, State.returnSlot_active hn ha]
    exact he
  have hrec := State.recordAnswer_of_entry hue true (readOnly r.op r.payload) status [] u.ep.num
  have hsu := hslot.trans (.of_told hu _)
  have hsv := hsu.trans (.setEntry u (e.refused r status u.ep.num) _)
  have hin : (u.queue r.hdr.qid.toNat).inFlight = (s.queue r.hdr.qid.toNat).inFlight - 1 := by
    rw [hu.queue, State.returnSlot_inFlight hn ha]
  have hev : (u.setEntry (e.refused r status u.ep.num)).entry r.hdr.key = some (e.refused r status s.ep.num) := by
    rw [← hk, ← hsu.ep]
    exact u.entry_setEntry _
  rw [heq, hrec]
  change s.AlikeBut (if _ then State.freezeAt (u.setEntry (e.refused r status u.ep.num)) _ _ _ else
    u.setEntry (e.refused r status u.ep.num)) _ ∧ _
  split
  · obtain ⟨hf, hrrt, hq⟩ := State.freezeAt_leaves (s := u.setEntry (e.refused r status u.ep.num)) hn u.ep.num status
    exact ⟨hsv.trans hf, (congrArg (mget · r.hdr.key.code) hrrt).trans hev, hq.trans hin⟩
  · exact ⟨hsv, hev, hin⟩

end Sys2Proof.Machine

/-! PROOFS. A request heard: it comes to step 10 with an entry (R52, R56), and fails there or goes on (R58, R83, R130). -/

namespace Sys2Proof.Machine

/-! ## Heard -/

/-- What `State.hears` says. -/
structure State.Heard (s : State) (d : Dgram) (op : Nat) : Prop where
  reaches : s.reachesChecks d op = true
  twin : s.cm.twin = .paired ∨ s.cm.twin = .alone
  serves : d.hdr.qid.toNat < 16 ∨ s.serviceUp = true ∧ s.gangOk = true
  ne : d.hdr.qid.toNat ≠ 0
  active : (s.queue d.hdr.qid.toNat).state = .active
  key : (s.queue d.hdr.qid.toNat).key = d.hdr.qkey.toNat
  src : (s.queue d.hdr.qid.toNat).srcEp = d.hdr.srcEp.toNat
  new : s.entry d.hdr.key = none
  ahead : precedes (s.queue d.hdr.qid.toNat).floor d.hdr.seq.toNat = true
  credit : precedes (s.credit d.hdr.qid.toNat) d.hdr.seq.toNat = false
  room : s.net.count + 1 ≤ 131072 - s.net.excess

theorem State.heard_of_hears {s : State} {d : Dgram} {op : Nat} (h : s.hears d op = true) : s.Heard d op := by
  simp only [State.hears, Bool.and_eq_true, Bool.or_eq_true, beq_iff_eq, decide_eq_true_eq, bne_iff_ne, ne_eq,
    Option.isNone_iff_eq_none, Bool.not_eq_true'] at h
  obtain ⟨⟨⟨⟨⟨⟨⟨⟨⟨⟨h1, h2⟩, h3⟩, h4⟩, h5⟩, h6⟩, h7⟩, h8⟩, h9⟩, h10⟩, h11⟩ := h
  exact ⟨h1, h2, h3, h4, h5, h6, h7, h8, h9, h10, h11⟩

/-- The state in which a request heard comes to step 10. -/
def State.heard (s : State) (d : Dgram) (op : Nat) : State := (s.received d).receiveEntry (s.reqOf d op)

section
variable {s t : State} (h : s.Told t)
include h

theorem State.Told.queueOf (r : Req) : t.queueOf r = s.queueOf r := by
  simp only [State.queueOf, h.queue, h.ep]

theorem State.Told.entryOf (r : Req) : t.entryOf r = s.entryOf r := by
  simp only [State.entryOf, h.inMask, h.ep]

end

section
variable {s : State} {d : Dgram} {op : Nat}

theorem State.alike_heard (h : s.Heard d op) : s.AlikeBut (s.heard d op) d.hdr.qid.toNat :=
  (State.AlikeBut.of_told (s.told_received d) _).trans (.receiveEntry _ h.ne)

theorem State.heard_entry : (s.heard d op).entry d.hdr.key = some (s.entryOf (s.reqOf d op)) :=
  ((s.received d).receiveEntry_entry _).trans (congrArg some ((s.told_received d).entryOf _))

theorem State.heard_queue (h : s.Heard d op) : (s.heard d op).queue d.hdr.qid.toNat = s.queueOf (s.reqOf d op) :=
  ((s.received d).receiveEntry_queue (r := s.reqOf d op) h.ne).trans ((s.told_received d).queueOf _)

theorem State.heard_step10 (h : s.Heard d op) : (s.heard d op).step10 (s.reqOf d op) 0 = s.step10 (s.reqOf d op) 0 := by
  have hq := State.heard_queue h
  apply State.step10_congr <;> simp only [State.reqOf] at hq ⊢ <;> rw [hq, State.queueOf]

/-- Steps 10 to 12 (R52). -/
def State.fromStep10 (s : State) (r : Req) (port dom : Nat) : State :=
  match s.step10 r 0 with
  | some st =>
    let s := s.refuse r st true
    if readOnly r.op r.payload then s.cutFrozen else s.enter { r with refusal := some st }
  | none =>
    if !windowed r.op then s.step12 r
    else
      let s := s.lookup port r.hdr.window.toNat
      match s.ingress11 r.hdr r.op dom with
      | (some st, s) =>
        let s := s.refuse r st (!s.silent r)
        if readOnly r.op r.payload then s.cutFrozen else s.enter { r with refusal := some st }
      | (none, s) => s.step12 r

/-- Steps 4 to 9 pass a request heard. -/
theorem State.checks_heard (h : s.Heard d op) (port : Nat) : (s.received d).checks (s.reqOf d op) port 0 =
    (s.heard d op).fromStep10 (s.reqOf d op) port (s.queue d.hdr.qid.toNat).domain := by
  have ht := s.told_received d
  have hm := State.inMask_of_reachesChecks h.reaches
  have hserve : (decide (16 ≤ d.hdr.qid.toNat) && (!s.serviceUp || !s.gangOk)) = false := by
    rcases h.serves with hn | ⟨hup, hok⟩
    · simp [hn]
    · simp [hup, hok]
  have htwin : (s.cm.twin == .paired || s.cm.twin == .alone) = true := by simpa using h.twin
  have hrec : (s.reqOf d op).hdr = d.hdr := rfl
  unfold State.checks
  rw [hrec]
  dsimp only
  rw [if_neg (by simp [ht.inMask, hm]), if_neg, if_neg, if_neg, ht.entry, h.new]
  · dsimp only
    rw [if_neg, if_neg, if_neg, ht.queue]
    · rfl
    · simpa only [ht.count, ht.excess, not_lt] using h.room
    · simp [ht.credit, h.credit]
    · simp [ht.queue, h.ahead]
  · simp [ht.queue, h.active]
  · simp [ht.queue, h.ne, h.active, h.key, h.src]
  · rw [ht.serviceUp, ht.gangOk, ht.cm, hserve, htwin]
    simp

/-- Step 10 refuses a request heard. -/
theorem State.heard_fromStep10 (h : s.Heard d op) {st : Nat} (h10 : s.step10 (s.reqOf d op) 0 = some st) (port dom : Nat) :
    (s.heard d op).fromStep10 (s.reqOf d op) port dom =
      if readOnly op d.payload then ((s.heard d op).refuse (s.reqOf d op) st true).cutFrozen
      else ((s.heard d op).refuse (s.reqOf d op) st true).enter { s.reqOf d op with refusal := some st } := by
  rw [State.fromStep10, State.heard_step10 h, h10]
  rfl

/-- A request heard that step 10 refuses has a final NAK in its entry, and its slot has returned. -/
theorem State.heard_refused (h : s.Heard d op) (st : Nat) :
    let u := (s.heard d op).refuse (s.reqOf d op) st true
    s.AlikeBut u d.hdr.qid.toNat ∧
      u.entry d.hdr.key = some ((s.entryOf (s.reqOf d op)).refused (s.reqOf d op) st s.ep.num) ∧
      (u.queue d.hdr.qid.toNat).inFlight = (s.queue d.hdr.qid.toNat).inFlight := by
  have hq := State.heard_queue h
  have ha : ((s.heard d op).queue d.hdr.qid.toNat).state = .active := by rw [hq, State.queueOf]; exact h.active
  have hs := State.alike_heard h
  obtain ⟨hu, he, hin⟩ := State.refuse_leaves (s := s.heard d op) (r := s.reqOf d op) h.ne ha rfl rfl
    State.heard_entry rfl st
  refine ⟨hs.trans hu, by rw [← hs.ep]; exact he, hin.trans ?_⟩
  change ((s.heard d op).queue d.hdr.qid.toNat).inFlight - 1 = _
  rw [hq, State.queueOf, Nat.add_sub_cancel]
  rfl

end

/-! ## Entered in the twin protocol (R130) -/

/-- What enters the twin protocol is in the record of the epoch under way (R130). -/
theorem State.enter_epochRec (u : State) (r : Req) : (u.enter r).epochRec u.ep.num = { u.epochRec u.ep.num with
    reqs := mput (u.epochRec u.ep.num).reqs r.hdr.key.code { r with epoch := u.ep.num }
    own := (u.epochRec u.ep.num).own ++ [r.hdr.key] } := by
  unfold State.enter
  dsimp only
  split
  · exact u.epochRec_setEpochRec _ _
  · exact u.epochRec_setEpochRec _ _

/-- It changes nothing outside the commit unit. -/
theorem State.enter_keeps {α : Type} (p : State → α) (hp : ∀ (s : State) cm, p { s with cm := cm } = p s) (u : State)
    (r : Req) : p (u.enter r) = p u := by
  unfold State.enter
  dsimp only
  split
  · exact hp _ _
  · exact (hp (u.setEpochRec _ _) _).trans (hp _ _)

/-! ## Refused -/

/-- Step 10 refuses an OPCODE that no row assigns. -/
theorem State.step10_unassigned {s : State} {r : Req} (h : opClass r.op = none) (rsvd : Nat) :
    s.step10 r rsvd = some 0x01 := by
  rw [State.step10, h]
  rfl

/-- Settles O31: what steps 5 to 8 turn away, what step 10 refuses, and an OPCODE that no row assigns. -/
theorem requestsRefused : Obligations.RequestsRefused := by
  refine ⟨fun s c d op hc hr hturn => ?_, fun s c d op hc hh => ⟨fun st h10 hcut => ?_, fun hop => ?_⟩⟩
  · have ht := (s.told_received d).checks_turnsAway (r := s.reqOf d op) (State.inMask_of_reachesChecks hr) hturn
      d.frame.link.port.val 0
    refine (State.gives_of_reachesChecks hc hr).answers ?_
    simp only [State.settled_net, State.settled_q, State.settled_win, State.settled_tier, State.settled_epochs]
    exact ⟨ht.rrt, ht.held, ht.count, by rw [ht.cm], ht.queues, ht.win, ht.tier, State.sameMemory_settled ht.mem _⟩
  · have h := State.heard_of_hears hh
    obtain ⟨hu, he, hin⟩ := State.heard_refused h st
    refine (State.gives_of_reachesChecks hc h.reaches).answers ?_
    rw [State.checks_heard h, State.heard_fromStep10 h h10]
    generalize (s.heard d op).refuse (s.reqOf d op) st true = u at hu he hin ⊢
    simp only [State.settled_entry, State.settled_queue, State.settled_epochRec, State.settled_win, State.settled_tier]
    by_cases hro : readOnly op d.payload = true
    · rw [if_pos hro, State.cutFrozen_of_not (hu.frozenCut_eq_false (hcut.resolve_left (by simp [hro])))]
      exact ⟨⟨_, he, rfl, rfl, rfl, rfl⟩, hin, by simp [hro], hu.windows, hu.tier, State.sameMemory_settled hu.mem _⟩
    · rw [if_neg hro]
      have hrec := u.enter_epochRec { s.reqOf d op with refusal := some st }
      have hkeeps := fun {α : Type} (p : State → α) hp => u.enter_keeps p hp { s.reqOf d op with refusal := some st }
      have hnet := hkeeps State.net fun _ _ => rfl
      have hq := hkeeps (fun u => u.queue d.hdr.qid.toNat) fun _ _ => rfl
      have hwin := hkeeps State.win fun _ _ => rfl
      have htier := hkeeps State.tier fun _ _ => rfl
      have hmem := hkeeps State.mem fun _ _ => rfl
      generalize u.enter _ = t at *
      rw [hu.ep, hu.epochRec] at hrec
      rw [hrec, hq, hwin, htier, State.entry, hnet]
      exact ⟨⟨_, he, rfl, rfl, rfl, rfl⟩, hin, fun _ => ⟨rfl, _, mget_mput_self _ _ _, rfl⟩, hu.windows, hu.tier,
        State.sameMemory_settled (hmem.trans hu.mem) _⟩
  · exact State.step10_unassigned hop 0

end Sys2Proof.Machine

/-! PROOFS. A request that steps 10 and 11 let pass, and step 12 as it judges it there (R98, R99, R131). -/

namespace Sys2Proof.Machine

/-! ## The lookaside buffers (R124) -/

/-- A lookup leaves nothing but the lookaside buffers and their counters. -/
theorem State.lookup_eq (s : State) (pipe w : Nat) : ∃ wlb hits misses pf,
    s.lookup pipe w = { s with win := { s.win with wlb := wlb, hits := hits, misses := misses, pfUsed := pf } } := by
  unfold State.lookup
  dsimp only
  generalize (if (s.flag SYS.OPEN && !s.flag WIN.PF_NEXT_ONLY) = true then _ else (mgetD s.win.wlb pipe {}).whole) = b
  split
  · exact ⟨_, _, _, _, rfl⟩
  · split <;> exact ⟨_, _, _, _, rfl⟩

/-- A lookup changes nothing that a request is judged by, and no table of requests or queues. -/
theorem State.lookup_leaves (s : State) (pipe w : Nat) :
    s.Alike (s.lookup pipe w) ∧ (s.lookup pipe w).q = s.q ∧ (s.lookup pipe w).net = s.net := by
  obtain ⟨_, _, _, _, h⟩ := s.lookup_eq pipe w
  rw [h]
  exact ⟨(State.Alike.refl s).aside, rfl, rfl⟩

/-! ## What a request is charged, and whether its queue allows it (R98, R99) -/

section
variable {s t : State} (h : s.Alike t)
include h

theorem State.Alike.jrn (j : Nat) : t.jrn j = s.jrn j := h.asks (fun u : State => u.jrn j) fun _ => rfl

theorem State.Alike.recordRange (j first count limit : Nat) :
    t.recordRange j first count limit = s.recordRange j first count limit := by
  simp only [State.recordRange, h.jrn]

theorem State.Alike.volatileBytes (ga n : Nat) : t.volatileBytes ga n = s.volatileBytes ga n := by
  simp only [State.volatileBytes, h.localPieces, h.extent]

theorem State.Alike.charges (r : Req) : t.charges r = s.charges r := by
  simp only [State.charges, h.window, h.recordRange, h.localPieces, h.extent, h.volatileBytes]

theorem State.Alike.stageRoom (r : Req) : t.stageRoom r = s.stageRoom r :=
  h.asks (fun u : State => u.stageRoom r) fun _ => rfl

theorem State.Alike.storeSpan (r : Req) : t.storeSpan r = s.storeSpan r :=
  h.asks (fun u : State => u.storeSpan r) fun _ => rfl

theorem State.Alike.logsFree : t.logsFree = s.logsFree := by rw [State.logsFree, h.fl, State.logsFree]

end

/-- The slots in flight have no part in the allowances. -/
theorem Queue.allows_flight (q : Queue) (c : Nat × Nat × Nat) (n high : Nat) (addrs : List (Nat × RetAddr)) :
    ({ q with inFlight := n, high := high, addrs := addrs } : Queue).allows c = q.allows c := rfl

theorem State.allows_queueOf (s : State) (r : Req) (c : Nat × Nat × Nat) :
    (s.queueOf r).allows c = (s.queue r.hdr.qid.toNat).allows c := by
  rw [State.queueOf]
  exact Queue.allows_flight _ _ _ _ _

/-! ## Past steps 10 and 11 -/

section
variable {s : State} {d : Dgram} {op : Nat}

/-- A request judged good comes to step 12: nothing has changed since, but for the lookaside buffers. -/
theorem State.checks_good (h : s.Heard d op) (hg : s.judgedGood d op = true) (port : Nat) : ∃ u,
    (s.received d).checks (s.reqOf d op) port 0 = u.step12 (s.reqOf d op) ∧ (s.heard d op).Alike u ∧
      u.q = (s.heard d op).q ∧ u.net = (s.heard d op).net := by
  simp only [State.judgedGood, Bool.and_eq_true, Bool.or_eq_true, Bool.not_eq_true', Option.isNone_iff_eq_none] at hg
  obtain ⟨h10, h11⟩ := hg
  rw [State.checks_heard h, State.fromStep10, State.heard_step10 h, h10]
  dsimp only
  split
  · exact ⟨_, rfl, .refl _, rfl, rfl⟩
  · rename_i hw
    obtain ⟨hl, hq, hn⟩ := (s.heard d op).lookup_leaves port d.hdr.window.toNat
    have hin : (((s.heard d op).lookup port d.hdr.window.toNat).ingress11 d.hdr op (s.queue d.hdr.qid.toNat).domain).1 =
        none := by
      rw [((State.alike_heard h).toAlike.trans hl).ingress11]
      exact h11.resolve_left (by simpa [State.reqOf] using hw)
    refine ⟨_, ?_, hl, hq, hn⟩
    have := State.ingress11_of_none hin
    simp only [State.reqOf] at this ⊢
    rw [this]

end

end Sys2Proof.Machine

/-! PROOFS. A state-changing request that step 12 admits is staged (R56, R77, R99, R130). -/

namespace Sys2Proof.Machine

/-! ## Step 12 (R99, R131, R278) -/

section
variable {u : State} {r : Req}

theorem State.lineOf_unsealed {a : RetAddr} (hr : r.ret = some a) (ha : a.sealed = false) : u.lineOf r = none := by
  rw [State.lineOf, hr]
  exact if_neg (by simp [ha])

/-- Where no hold applies, what the tiers say decides. -/
theorem State.mayAdmit_of_tiers {room : Bool} (hq : (u.queue r.hdr.qid.toNat).allows (u.charges r) = true)
    (hl : u.lineOf r = none) (ht : r.op ≠ 0x10 ∨ 0 ≤ u.acc.tagAl) (hm : u.mus.stopped = false)
    (hs : stagesBytes r.op = false ∨ room = true ∧ u.stageRoom r = true) :
    u.mayAdmit r room = ((u.tiersAdmit r).1, r, (u.tiersAdmit r).2) := by
  have htag : (r.op == 0x10 && decide (u.acc.tagAl < 0)) = false := by
    simpa [or_iff_not_imp_left] using ht
  have hstage : (stagesBytes r.op && (!room || !u.stageRoom r)) = false := by
    rcases hs with h | ⟨h, h'⟩ <;> simp [*]
  simp [State.mayAdmit, hq, hl, htag, hm, hstage]

/-- With nothing held, a request that may be admitted is let in. -/
theorem State.step12_admits (hh : u.net.held = []) (hm : u.mayAdmit r true = (true, r, u)) :
    u.step12 r = u.letIn r (u.charges r) := by
  simp [State.step12, hh, hm]

/-- A settled volatile extent lets every write in. -/
theorem State.tierAdmits_volatile {x : Extent} {e : Nat} (he : u.extent e = some x) (hv : x.isVolatile = true)
    (hm : x.move = none) (w : Window) (coming : List Nat) : u.tierAdmits w coming e = (true, u) := by
  unfold Extent.isVolatile at hv
  rw [State.tierAdmits, he]
  split at hv <;> simp_all

/-- A settled volatile extent. -/
def State.settledVolatile (s : State) (e : Nat) : Bool := match s.extent e with
  | some x => x.isVolatile && x.move.isNone
  | none => false

theorem State.settledVolatile_iff {s : State} {e : Nat} : s.settledVolatile e = true ↔
    ∃ x, s.extent e = some x ∧ x.isVolatile = true ∧ x.move = none := by
  unfold State.settledVolatile
  split <;> simp_all

/-- The tiers let a write to settled volatile extents in. -/
theorem State.tiersAdmit_volatile {u : State} {r : Req} (hl : r.op ≠ 0x0A ∨ 0 < u.logsFree)
    (hs : ∀ ga n, u.storeSpan r = some (ga, n) →
      ∀ e ∈ (u.localPieces ga n).flatMap fun q => extentsIn q.1 q.2.1, u.settledVolatile e = true) :
    u.tiersAdmit r = (true, u) := by
  unfold State.tiersAdmit
  split
  · rename_i hop
    simp_all
  · split
    · rfl
    · rename_i ga n hspan
      rw [Prod.mk.injEq]
      refine List.foldlRecOn (motive := fun a : Bool × List Nat × State => a.1 = true ∧ a.2.2 = u) _ _ ⟨rfl, rfl⟩ ?_
      rintro ⟨ok, coming, v⟩ ⟨hok, hv⟩ e hmem
      obtain ⟨x, he, hvol, hmove⟩ := State.settledVolatile_iff.1 (hs ga n hspan e hmem)
      dsimp only at hok hv ⊢
      rw [hv, State.tierAdmits_volatile he hvol hmove, hok]
      exact ⟨rfl, rfl⟩

end

/-! ## Let in (R98, R99, R130) -/

/-- A queue's allowances as admission leaves them. -/
def Queue.charged (q : Queue) (c : Nat × Nat × Nat) : Queue :=
  { q with alReq := q.alReq - 1, alWr := q.alWr - c.1, alRd := q.alRd - c.2.1, alFl := q.alFl - c.2.2 }

/-- Admission subtracts from the queue's allowances, and for an APPEND from the tag allowance. -/
theorem State.charge_eq (u : State) (r : Req) (c : Nat × Nat × Nat) : ∃ t a, u.charge r c = { t with acc := a } ∧
    (t = u ∨ t = u.setQueue r.hdr.qid.toNat ((u.queue r.hdr.qid.toNat).charged c)) ∧ (r.op ≠ 0x10 → a = u.acc) := by
  unfold State.charge
  dsimp only
  split <;> rename_i hop <;> rw [beq_iff_eq] at hop <;> split
  · exact ⟨u, { u.acc with tagAl := u.acc.tagAl - r.hdr.count }, rfl, .inl rfl, (absurd hop ·)⟩
  · exact ⟨_, { u.acc with tagAl := u.acc.tagAl - r.hdr.count }, by rfl, .inr rfl, (absurd hop ·)⟩
  · exact ⟨u, u.acc, rfl, .inl rfl, fun _ => rfl⟩
  · exact ⟨_, u.acc, by rfl, .inr rfl, fun _ => rfl⟩

/-- What neither the contexts of queues nor the accession unit hold stays. -/
theorem State.charge_keeps {α : Type} (p : State → α) (hq : ∀ s n q, p (State.setQueue s n q) = p s)
    (ha : ∀ (s : State) a, p { s with acc := a } = p s) (u : State) (r : Req) (c : Nat × Nat × Nat) :
    p (u.charge r c) = p u := by
  obtain ⟨t, a, h, rfl | rfl, -⟩ := u.charge_eq r c
  · rw [h, ha]
  · rw [h, ha, hq]

@[simp] theorem State.charge_ep (u : State) (r : Req) (c : Nat × Nat × Nat) : (u.charge r c).ep = u.ep :=
  u.charge_keeps State.ep (fun _ _ _ => rfl) (fun _ _ => rfl) r c

@[simp] theorem State.charge_cm (u : State) (r : Req) (c : Nat × Nat × Nat) : (u.charge r c).cm = u.cm :=
  u.charge_keeps State.cm (fun _ _ _ => rfl) (fun _ _ => rfl) r c

/-- What a queue's context holds but for its allowances stays. -/
theorem State.charge_queue {α : Type} (p : Queue → α) (hp : ∀ (q : Queue) c, p (q.charged c) = p q) (u : State) {r : Req}
    {n : Nat} (hr : r.hdr.qid.toNat = n) (hn : n ≠ 0) (c : Nat × Nat × Nat) :
    p ((u.charge r c).queue n) = p (u.queue n) := by
  subst hr
  obtain ⟨t, a, h, rfl | rfl, -⟩ := u.charge_eq r c
  · rw [h]
    rfl
  · rw [h]
    exact (congrArg p (u.queue_setQueue _ hn)).trans (hp _ _)

/-- A state-changing request of the current epoch is staged. -/
theorem State.letIn_staged {u : State} {r : Req} (hro : readOnly r.op r.payload = false) (he : u.ep.num ≤ r.arrived)
    (c : Nat × Nat × Nat) : u.letIn r c = (u.charge r c).enter { r with admitted := some u.ep.num } := by
  have hlate : ¬ r.arrived < u.ep.num := not_lt.2 he
  simp [State.letIn, hro, hlate]

/-! ## Staged (R130) -/

section
variable {s : State} {d : Dgram} {op : Nat}

/-- Where its bytes go lie settled volatile extents. -/
theorem State.volatile_of_admitsNow (h : s.admitsNow d op = true) {ga n : Nat}
    (hs : s.storeSpan (s.reqOf d op) = some (ga, n)) {e : Nat}
    (he : e ∈ (s.localPieces ga n).flatMap fun q => extentsIn q.1 q.2.1) : s.settledVolatile e = true := by
  simp only [State.admitsNow, Bool.and_eq_true] at h
  obtain ⟨-, h⟩ := h
  rw [hs] at h
  exact List.all_eq_true.1 h e he

/-- A request heard that step 12 admits is let in. -/
theorem State.checks_admitted (h : s.Heard d op) (hg : s.judgedGood d op = true) (ha : s.admitsNow d op = true)
    (port : Nat) : ∃ u, (s.received d).checks (s.reqOf d op) port 0 = u.letIn (s.reqOf d op) (u.charges (s.reqOf d op)) ∧
      s.Alike u ∧ u.q = (s.heard d op).q ∧ u.net = (s.heard d op).net := by
  obtain ⟨u, hu, hal, hq, hnet⟩ := State.checks_good h hg port
  have hsu := (State.alike_heard h).toAlike.trans hal
  have hvol := fun ga n hs e he => State.volatile_of_admitsNow ha (ga := ga) (n := n) hs (e := e) he
  simp only [State.admitsNow, Bool.and_eq_true, Bool.not_eq_true', Bool.or_eq_true, bne_iff_ne, decide_eq_true_eq,
    List.isEmpty_iff] at ha
  obtain ⟨⟨⟨⟨⟨⟨hheld, hmus⟩, hallow⟩, hroom⟩, htag⟩, hlog⟩, -⟩ := ha
  have hqueue : u.queue d.hdr.qid.toNat = s.queueOf (s.reqOf d op) := by
    rw [← State.heard_queue h, State.queue, State.queue, hq]
  have htiers : u.tiersAdmit (s.reqOf d op) = (true, u) := by
    refine State.tiersAdmit_volatile (by rwa [hsu.logsFree]) fun ga n hs e he => ?_
    rw [hsu.storeSpan] at hs
    simp only [hsu.localPieces] at he
    have := hvol ga n hs e he
    rwa [State.settledVolatile, ← hsu.extent] at this
  have hmay : u.mayAdmit (s.reqOf d op) true = (true, s.reqOf d op, u) := by
    rw [State.mayAdmit_of_tiers, htiers]
    · rw [hsu.charges]
      change (u.queue d.hdr.qid.toNat).allows _ = true
      rw [hqueue, State.allows_queueOf]
      exact hallow
    · exact State.lineOf_unsealed (a := retAddr d false none) rfl rfl
    · rwa [hsu.acc]
    · rwa [hsu.mus]
    · exact .inr ⟨rfl, by rwa [hsu.stageRoom]⟩
  exact ⟨u, hu.trans (State.step12_admits (hsu.held.trans hheld) hmay), hsu, hq, hnet⟩

end

/-- What a request let in to be staged leaves of the state in which it comes to step 12. -/
theorem State.letIn_staged_keeps {α : Type} (p : State → α) (hq : ∀ s n q, p (State.setQueue s n q) = p s)
    (ha : ∀ (s : State) a, p { s with acc := a } = p s) (hc : ∀ (s : State) cm, p { s with cm := cm } = p s) {u : State} {r : Req}
    (hro : readOnly r.op r.payload = false) (he : u.ep.num ≤ r.arrived) (c : Nat × Nat × Nat) : p (u.letIn r c) = p u := by
  rw [State.letIn_staged hro he, State.enter_keeps p hc, State.charge_keeps p hq ha]

theorem State.letIn_staged_epochRec {u : State} {r : Req} (hro : readOnly r.op r.payload = false) (he : u.ep.num ≤ r.arrived)
    (c : Nat × Nat × Nat) : (u.letIn r c).epochRec u.ep.num = { u.epochRec u.ep.num with
      reqs := mput (u.epochRec u.ep.num).reqs r.hdr.key.code { r with admitted := some u.ep.num, epoch := u.ep.num }
      own := (u.epochRec u.ep.num).own ++ [r.hdr.key] } := by
  have hcm : (u.charge r c).epochRec u.ep.num = u.epochRec u.ep.num := by
    rw [State.epochRec, State.charge_cm, State.epochRec]
  have h := State.enter_epochRec (u.charge r c) { r with admitted := some u.ep.num }
  rw [State.charge_ep, hcm] at h
  rw [State.letIn_staged hro he, h]

theorem State.letIn_staged_queue {α : Type} (p : Queue → α) (hp : ∀ (q : Queue) c, p (q.charged c) = p q) {u : State} {r : Req}
    (hro : readOnly r.op r.payload = false) (he : u.ep.num ≤ r.arrived) {n : Nat} (hr : r.hdr.qid.toNat = n) (hn : n ≠ 0)
    (c : Nat × Nat × Nat) : p ((u.letIn r c).queue n) = p (u.queue n) := by
  rw [State.letIn_staged hro he, State.enter_keeps (fun u => u.queue n) fun _ _ => rfl, u.charge_queue p hp hr hn]

/-- Settles O32: the request passes steps 4 to 11, no hold of step 12 applies, and what is let in is staged. -/
theorem stateChangingRequestStaged : Obligations.StateChangingRequestStaged := by
  intro s c d op hc hro hh hg ha
  have h := State.heard_of_hears hh
  obtain ⟨u, hu, hal, hq, hnet⟩ := State.checks_admitted h hg ha d.frame.link.port.val
  have hheld : s.net.held = [] := by
    simp only [State.admitsNow, Bool.and_eq_true, List.isEmpty_iff] at ha
    exact ha.1.1.1.1.1.1
  have harr : u.ep.num ≤ (s.reqOf d op).arrived := by
    rw [hal.ep]
    exact le_rfl
  have hqueue : u.queue d.hdr.qid.toNat = s.queueOf (s.reqOf d op) := by
    rw [← State.heard_queue h, State.queue, State.queue, hq]
  have hentry : u.entry d.hdr.key = some {
      key := d.hdr.key, epoch := s.ep.num, readOnly := false, mute := false, ret := some (retAddr d false none)
      time := d.frame.time } := by
    rw [State.entry, hnet, ← State.entry, State.heard_entry, State.entryOf]
    simp [State.reqOf, hro, State.inMask_of_reachesChecks h.reaches]
  refine (State.gives_of_reachesChecks hc h.reaches).answers ?_
  rw [hu]
  have hrec := State.letIn_staged_epochRec (r := s.reqOf d op) hro harr (u.charges (s.reqOf d op))
  have hin := State.letIn_staged_queue (r := s.reqOf d op) Queue.inFlight (fun _ _ => rfl) hro harr rfl h.ne (u.charges (s.reqOf d op))
  have hhigh := State.letIn_staged_queue (r := s.reqOf d op) Queue.high (fun _ _ => rfl) hro harr rfl h.ne (u.charges (s.reqOf d op))
  have hkeeps := fun {α : Type} (p : State → α) hq ha hc =>
    State.letIn_staged_keeps p hq ha hc (r := s.reqOf d op) hro harr (u.charges (s.reqOf d op))
  have hnet := hkeeps State.net (fun _ _ _ => rfl) (fun _ _ => rfl) fun _ _ => rfl
  have hep := hkeeps State.ep (fun _ _ _ => rfl) (fun _ _ => rfl) fun _ _ => rfl
  have hwin := hkeeps State.win (fun _ _ _ => rfl) (fun _ _ => rfl) fun _ _ => rfl
  have htier := hkeeps State.tier (fun _ _ _ => rfl) (fun _ _ => rfl) fun _ _ => rfl
  have hmus := hkeeps State.mus (fun _ _ _ => rfl) (fun _ _ => rfl) fun _ _ => rfl
  have hfl := hkeeps State.fl (fun _ _ _ => rfl) (fun _ _ => rfl) fun _ _ => rfl
  have hmem := hkeeps State.mem (fun _ _ _ => rfl) (fun _ _ => rfl) fun _ _ => rfl
  generalize u.letIn _ _ = t at *
  rw [hal.ep, hal.epochRec] at hrec
  simp only [State.settled_epochRec, State.settled_entry, State.settled_queue, State.settled_net, State.settled_ep,
    State.settled_win, State.settled_tier, State.settled_mus, State.settled_fl]
  refine ⟨by rw [hrec]; rfl, by rw [hrec]; exact mget_mput_self _ _ _, by rw [State.entry, hnet]; exact hentry,
    hin.trans ?_, hhigh.trans ?_, by rw [hnet, hal.held, hheld], hep.trans hal.ep, by rw [hwin, hal.windows],
    by rw [hwin, hal.domains], htier.trans hal.tier, hmus.trans hal.mus, hfl.trans hal.fl,
    State.sameMemory_settled (hmem.trans hal.mem) _⟩
  · exact (congrArg Queue.inFlight hqueue).trans (s.queueOf_inFlight _)
  · exact (congrArg Queue.high hqueue).trans (s.queueOf_high _)

end Sys2Proof.Machine

/-! PROOFS. What a read finds at its range (R90, R167, R175, R210, R308), as the frames that come in and the reads that touch its
extents leave it. -/

namespace Sys2Proof.Machine

/-! ## Extents and pieces of a range -/

theorem mem_extentsIn {da n e : Nat} : e ∈ extentsIn da n ↔ 0 < n ∧ da / 65536 ≤ e ∧ e ≤ (da + n - 1) / 65536 := by
  unfold extentsIn
  split
  · simp_all
  · simp only [List.mem_map, List.mem_range]
    constructor
    · rintro ⟨i, hi, rfl⟩
      omega
    · rintro ⟨hn, hl, hu⟩
      exact ⟨e - da / 65536, by omega, by omega⟩

theorem mem_sectorsIn {da n x : Nat} : x ∈ sectorsIn da n ↔ 0 < n ∧ da / 4096 ≤ x ∧ x ≤ (da + n - 1) / 4096 := by
  unfold sectorsIn
  split
  · simp_all
  · simp only [List.mem_map, List.mem_range]
    constructor
    · rintro ⟨i, hi, rfl⟩
      omega
    · rintro ⟨hn, hl, hu⟩
      exact ⟨x - da / 4096, by omega, by omega⟩

/-- A sector of a range lies in an extent of it. -/
theorem extent_of_sectorsIn {da n x : Nat} (h : x ∈ sectorsIn da n) : x / 16 ∈ extentsIn da n := by
  rw [mem_sectorsIn] at h
  rw [mem_extentsIn]
  omega

theorem gangPieces_pos {ga n : Nat} {q : Nat × Nat} (h : q ∈ gangPieces ga n) : 0 < q.2 := by
  unfold gangPieces at h
  dsimp only at h
  split at h
  · simp at h
  · split at h
    · simp only [List.mem_singleton] at h
      subst h
      omega
    · simp only [List.mem_cons, List.not_mem_nil, or_false] at h
      rcases h with rfl | rfl <;> dsimp only <;> omega

theorem State.localPieces_pos {s : State} {ga n : Nat} {q : Nat × Nat × Nat} (h : q ∈ s.localPieces ga n) : 0 < q.2.1 := by
  simp only [State.localPieces, List.mem_filterMap] at h
  obtain ⟨p, hp, hq⟩ := h
  split at hq
  · cases hq
    exact gangPieces_pos hp
  · cases hq

/-! ## Readable -/

/-- The home of an extent is a frame of hot memory. -/
def State.isHot (s : State) (e : Nat) : Prop := ∃ x f, s.extent e = some x ∧ x.home = .hot f

/-- What `State.readableNow` says. -/
structure State.Readable (s : State) (ga n : Nat) : Prop where
  here : s.remotePieces ga n = []
  unstaged : s.stagedMeets ga n = false
  awake : ∀ q ∈ s.localPieces ga n, s.heldBack q.1 q.2.1 = false
  hot : ∀ q ∈ s.localPieces ga n, ∀ e ∈ extentsIn q.1 q.2.1, s.isHot e
  sound : ∀ q ∈ s.localPieces ga n, ∀ x ∈ sectorsIn q.1 q.2.1, s.poisoned x = false

theorem State.readable_of_readableNow {s : State} {ga n : Nat} (h : s.readableNow ga n = true) : s.Readable ga n := by
  simp only [State.readableNow, Bool.and_eq_true, List.isEmpty_iff, Bool.not_eq_true', List.all_eq_true] at h
  obtain ⟨⟨hhere, hstaged⟩, hall⟩ := h
  refine ⟨hhere, hstaged, fun q hq => (hall q hq).1.1, fun q hq e he => ?_, fun q hq => (hall q hq).2⟩
  have hx := (hall q hq).1.2 e he
  unfold State.isHot
  split at hx
  · rename_i x hx'
    split at hx
    · rename_i f hf
      exact ⟨x, f, hx', hf⟩
    · cases hx
  · cases hx

/-! ## As it was -/

section
variable {s t : State} (h : s.Alike t)
include h

theorem State.Alike.memberUp (m : Nat) : t.memberUp m = s.memberUp m := by
  unfold State.memberUp
  rw [h.flag (f := STK.IN_SERVICE m) (by simp [Fld.standing_iff, STK.IN_SERVICE]),
    h.flag (f := DCH.IN_SERVICE (m - 8)) (by simp [Fld.standing_iff, DCH.IN_SERVICE])]

theorem State.Alike.memberIdle (m : Nat) : t.memberIdle m = s.memberIdle m := by
  have hm : t.member m = s.member m := h.asks (fun u => u.member m) fun _ => rfl
  rw [State.memberIdle, h.memberUp, hm, State.memberIdle]

theorem State.Alike.placeOf (warm : Bool) (frame off : Nat) : t.placeOf warm frame off = s.placeOf warm frame off := by
  simp only [State.placeOf, State.ways, State.grain, h.regs CEL.WARM_WAYS (by decide), h.regs CEL.HOT_WAYS (by decide),
    h.regs CEL.WARM_GRAIN (by decide), h.regs CEL.HOT_GRAIN (by decide)]

theorem State.Alike.placeOfDa (da : Nat) : t.placeOfDa da = s.placeOfDa da := by
  simp only [State.placeOfDa, h.extent, h.placeOf]

theorem State.Alike.heldBack (da n : Nat) : t.heldBack da n = s.heldBack da n := by
  simp only [State.heldBack, h.memberIdle, h.placeOfDa, funext h.memberIdle]

theorem State.Alike.poisoned (x : Nat) : t.poisoned x = s.poisoned x := by rw [State.poisoned, h.tier, State.poisoned]

theorem State.Alike.readable {ga n : Nat} (hr : s.Readable ga n) : t.Readable ga n := by
  obtain ⟨hhere, hstaged, hawake, hhot, hsound⟩ := hr
  refine ⟨by rwa [h.remotePieces], ?_, ?_, ?_, ?_⟩
  · rwa [h.asks (fun u => u.stagedMeets ga n) fun _ => rfl]
  · simpa only [h.localPieces, h.heldBack] using hawake
  · simpa only [h.localPieces, State.isHot, h.extent] using hhot
  · simpa only [h.localPieces, h.poisoned] using hsound

end

/-! ## Touched (R177, R181) -/

/-- `t` is `s` but for what its extents tell of beside their homes. -/
structure State.Touched (s t : State) : Prop where
  eq : t = { s with tier := { s.tier with ext := t.tier.ext } }
  home : ∀ e, (t.extent e).map Extent.home = (s.extent e).map Extent.home

namespace State.Touched

variable {s t u : State}

theorem refl (s : State) : s.Touched s := ⟨rfl, fun _ => rfl⟩

theorem trans (h : s.Touched t) (h' : t.Touched u) : s.Touched u := by
  refine ⟨?_, fun e => (h'.home e).trans (h.home e)⟩
  rw [h'.eq, h.eq]

theorem isHot (h : s.Touched t) {e : Nat} (he : s.isHot e) : t.isHot e := by
  obtain ⟨x, f, hx, hf⟩ := he
  have := h.home e
  rw [hx] at this
  obtain ⟨y, hy, hyf⟩ := Option.map_eq_some_iff.1 this
  exact ⟨y, f, hy, hyf.trans hf⟩

/-- What reads nothing of the extents is the same. -/
theorem asks (h : s.Touched t) {α : Type} (p : State → α)
    (hp : ∀ (u : State) ext, p { u with tier := { u.tier with ext := ext } } = p u) : p t = p s := by rw [h.eq, hp]

theorem touch (h : s.Touched t) (e : Nat) : s.Touched (t.touch e) := by
  refine h.trans ?_
  unfold State.touch
  split
  · rename_i x hx
    refine ⟨rfl, fun e' => ?_⟩
    by_cases he : e' = e
    · subst he
      simp [hx]
    · rw [t.extent_setExtent_ne _ he]
  · exact refl t

theorem placeOfDa (h : s.Touched t) (da : Nat) : t.placeOfDa da = s.placeOfDa da := by
  have hx := h.home (extOf da)
  have hp : ∀ warm f off, t.placeOf warm f off = s.placeOf warm f off := fun warm f off =>
    h.asks (fun u => u.placeOf warm f off) fun _ _ => rfl
  unfold State.placeOfDa
  cases ht : t.extent (extOf da) <;> cases hs : s.extent (extOf da) <;> simp_all

theorem readable (h : s.Touched t) {ga n : Nat} (hr : s.Readable ga n) : t.Readable ga n := by
  obtain ⟨hhere, hstaged, hawake, hhot, hsound⟩ := hr
  have hl : t.localPieces ga n = s.localPieces ga n := h.asks (fun u => u.localPieces ga n) fun _ _ => rfl
  have hi : t.memberIdle = s.memberIdle := h.asks (fun u => u.memberIdle) fun _ _ => rfl
  refine ⟨?_, ?_, ?_, ?_, ?_⟩
  · rwa [h.asks (fun u => u.remotePieces ga n) fun _ _ => rfl]
  · rwa [h.asks (fun u => u.stagedMeets ga n) fun _ _ => rfl]
  · simpa only [hl, State.heldBack, hi, h.placeOfDa] using hawake
  · exact fun q hq e he => h.isHot (hhot q (hl ▸ hq) e he)
  · have hp : t.poisoned = s.poisoned := h.asks (fun u => u.poisoned) fun _ _ => rfl
    simpa only [hl, hp] using hsound

end State.Touched

end Sys2Proof.Machine

/-! PROOFS. A read of up to one segment that finds everything here: how it begins, its one segment, and its end (R50, R85, R167,
R177). -/

namespace Sys2Proof.Machine

/-! ## It begins (R167, R177, R237) -/

section
variable {s : State} {ga n : Nat} (hr : s.Readable ga n)
include hr

theorem State.Readable.readWaits : s.readWaits ga n = false := by
  simp only [State.readWaits, hr.unstaged, Bool.false_or, List.any_eq_false]
  exact fun q hq => by simp [hr.awake q hq]

/-- A hot range reads no flash page. -/
theorem State.Readable.pagesOf {q : Nat × Nat × Nat} (hq : q ∈ s.localPieces ga n) : s.pagesOf q.1 q.2.1 = [] := by
  have hn := State.localPieces_pos hq
  unfold State.pagesOf
  rw [List.filterMap_eq_nil_iff]
  intro i hi
  rw [List.mem_range] at hi
  obtain ⟨x, f, hx, hf⟩ := hr.hot q hq ((q.1 / 16384 + i) / 4) (mem_extentsIn.2 (by omega))
  simp [hx, hf]

end

/-- A read of a hot extent begins no move. -/
theorem State.readMoves_hot {s : State} {e : Nat} (he : s.isHot e) (pref : Nat) :
    s.readMoves e pref = (false, s.touch e) := by
  obtain ⟨x, f, hx, hf⟩ := ((State.Touched.refl s).touch e).isHot he
  simp [State.readMoves, hx, hf]

/-- The moves of hot extents. -/
theorem State.foldl_readMoves {s : State} (l : List Nat) (hl : ∀ e ∈ l, s.isHot e) (pref : Nat) : ∃ t, s.Touched t ∧
    l.foldl (fun (a : Bool × State) e =>
      let (b, s) := a.2.readMoves e pref
      (a.1 || b, s)) (false, s) = (false, t) := by
  have h := List.foldlRecOn (motive := fun a : Bool × State => a.1 = false ∧ s.Touched a.2) l
    (fun (a : Bool × State) e =>
      let (b, s) := a.2.readMoves e pref
      (a.1 || b, s)) (b := (false, s)) ⟨rfl, .refl s⟩ fun a ha e he => by
    rw [State.readMoves_hot (ha.2.isHot (hl e he))]
    exact ⟨by simp [ha.1], ha.2.touch e⟩
  exact ⟨_, h.2, Prod.ext h.1 rfl⟩

/-- A read as it has begun. -/
def Pending.begun (r : Req) (ga n : Nat) : Pending := { req := r, ga := ga, len := n }

/-- A read whose one segment has gone out. -/
def Pending.whole (r : Req) (ga n : Nat) : Pending := { Pending.begun r ga n with sent := [(0, 0)] }

section
variable (r : Req) (ga n : Nat)

@[simp] theorem Pending.begun_req : (Pending.begun r ga n).req = r := rfl
@[simp] theorem Pending.begun_blocked : (Pending.begun r ga n).blocked = false := rfl
@[simp] theorem Pending.begun_fetch : (Pending.begun r ga n).fetch = [] := rfl
@[simp] theorem Pending.begun_asked : (Pending.begun r ga n).asked = [] := rfl
@[simp] theorem Pending.begun_remote : (Pending.begun r ga n).remote = [] := rfl
@[simp] theorem Pending.begun_sent : (Pending.begun r ga n).sent = [] := rfl

end

theorem Pending.segs_one {r : Req} {ga n : Nat} (h : n ≤ 8192) : (Pending.begun r ga n).segs = 1 := by
  simp only [Pending.segs, Pending.begun, ceilDiv]
  omega

theorem Pending.seg_zero {r : Req} {ga n : Nat} (h : n ≤ 8192) : (Pending.begun r ga n).seg 0 = (ga, n) := by
  simp only [Pending.seg, Pending.begun]
  simpa using h

theorem State.beginRead_readable {s : State} {r : Req} {ga n : Nat} (hr : s.Readable ga n) (hn : n ≤ 8192)
    (hc : r.cells = []) : ∃ t, s.Touched t ∧
      s.beginRead { req := r, ga := ga, len := n, blocked := true } = (Pending.begun r ga n, t) := by
  obtain ⟨t, ht, hfold⟩ := State.foldl_readMoves ((s.localPieces ga n).flatMap fun q => extentsIn q.1 q.2.1)
    (fun e he => by
      obtain ⟨q, hq, he⟩ := List.mem_flatMap.1 he
      exact hr.hot q hq e he) (s.window r.hdr.window.toNat).tierPref
  have hcells : (s.localPieces ga n).foldl (fun s q => s.readCells r.cells q.1 q.2.1) s = s :=
    List.foldl_fixed' (fun q => by simp [State.readCells, hc]) _
  have hfetch : ((s.localPieces ga n).flatMap fun q => s.pagesOf q.1 q.2.1) = [] :=
    List.flatMap_eq_nil_iff.2 fun q hq => hr.pagesOf hq
  have hask : t.askRemote (Pending.begun r ga n) = (Pending.begun r ga n, t) := by
    simp [State.askRemote, Pending.segs_one hn, Pending.seg_zero hn, (ht.readable hr).here]
  refine ⟨t, ht, ?_⟩
  unfold State.beginRead
  dsimp only
  rw [hcells, hfetch, hfold]
  exact hask

/-! ## Its segment (R50, R93, R94, R301) -/

section
variable {s : State} {r : Req} {ga n : Nat} (hr : s.Readable ga n)
include hr

theorem State.Readable.segReady (hn : n ≤ 8192) : s.segReady (Pending.begun r ga n) 0 = true := by
  have hawake := hr.awake
  simpa [State.segReady, Pending.seg_zero hn] using hawake

/-- Nothing ails the bytes. -/
theorem State.Readable.ails {q : Nat × Nat × Nat} (hq : q ∈ s.localPieces ga n) :
    s.ails (Pending.begun r ga n) q.1 q.2.1 = (false, false, false) := by
  have hhot : ∀ x ∈ sectorsIn q.1 q.2.1, s.isHot (x / 16) := fun x hx => hr.hot q hq _ (extent_of_sectorsIn hx)
  simp only [State.ails, Prod.mk.injEq, List.any_eq_false]
  refine ⟨fun x hx => ?_, fun x hx => ?_, fun x hx => ?_⟩ <;> obtain ⟨y, f, hy, hf⟩ := hhot x hx
  · simp [hy, hr.sound q hq x hx]
  · simp [hy, hf]
  · simp [hy, hf]

theorem State.Readable.segStatus (hn : n ≤ 8192) : s.segStatus (Pending.begun r ga n) 0 = (0, false, s) := by
  have hls : (s.localPieces ga n).map (fun q => s.ails (Pending.begun r ga n) q.1 q.2.1) =
      (s.localPieces ga n).map fun _ => (false, false, false) := List.map_congr_left fun q hq => hr.ails hq
  simp [State.segStatus, Pending.seg_zero hn, hls]

/-- All the bytes come from here. -/
theorem State.Readable.rangeBytes (p : Pending) :
    s.rangeBytes p ga n = (gangPieces ga n).flatMap fun q => s.readMem (s.daOf q.1) q.2 := by
  have hhome : ∀ q ∈ gangPieces ga n, (s.homeOf q.1 == s.gangPos) = true := by
    intro q hq
    have := List.filterMap_eq_nil_iff.1 hr.here q hq
    by_contra hne
    simp [hne] at this
  rw [State.rangeBytes, List.flatMap_def]
  exact congrArg List.flatten (List.map_congr_left fun q hq => if_pos (hhome q hq))

/-- The bytes of a range sent in the one segment of a read's answer. -/
def State.answerRead (s : State) (r : Req) (ga n : Nat) : State :=
  s.sendSeg r s.reflected 0 0 true false ((gangPieces ga n).flatMap fun q => s.readMem (s.daOf q.1) q.2) r.slot
    (s.latOf r.hdr r.time)

/-- The one segment goes out with the bytes. -/
theorem State.Readable.sendSegment (hn : n ≤ 8192) (hsil : s.silent r = false) {a : RetAddr} (hret : r.ret = some a) :
    ∃ k, s.sendSegment (Pending.begun r ga n) 0 none =
      (Pending.whole r ga n, (s.answerRead r ga n).chargePort a.link.port.val k) := by
  have hstat := hr.segStatus (r := r) hn
  have hbytes := hr.rangeBytes (Pending.begun r ga n)
  simp only [State.sendSegment, Pending.seg_zero hn, hstat, hbytes, Pending.segs_one hn, Pending.begun_req, hsil, hret,
    Pending.begun_sent]
  exact ⟨_, rfl⟩

end

/-- A read whose segments are all OK ends so. -/
theorem State.endRead_ok (s : State) {p : Pending} (hp : p.status = 0) :
    s.endRead p = s.recordAnswer p.req.hdr.key false true 0 [] s.reflected := by
  simp [State.endRead, hp, State.freezeAt]

/-- That segment ends the read. -/
theorem State.Readable.pumpRead {s : State} {r : Req} {ga n : Nat} (hr : s.Readable ga n) (hn : n ≤ 8192)
    (hsil : s.silent r = false) {a : RetAddr} (hret : r.ret = some a) : ∃ k ep, s.pumpRead (Pending.begun r ga n) =
      (none, ((s.answerRead r ga n).chargePort a.link.port.val k).recordAnswer r.hdr.key false true 0 [] ep) := by
  obtain ⟨k, hsend⟩ := hr.sendSegment hn hsil hret
  have hsegs : (Pending.whole r ga n).segs = 1 := Pending.segs_one (r := r) (ga := ga) hn
  have hlen : (Pending.whole r ga n).sent.length = 1 := rfl
  have hend := ((s.answerRead r ga n).chargePort a.link.port.val k).endRead_ok (p := Pending.whole r ga n) rfl
  refine ⟨k, ((s.answerRead r ga n).chargePort a.link.port.val k).reflected, ?_⟩
  simp [State.pumpRead, Pending.segs_one hn, hr.segReady hn, hsend, hsegs, hlen, hend]
  rfl

/-- A read that finds all its bytes here is answered at once. -/
theorem State.Readable.startRead {s : State} {r : Req} {ga n : Nat} (hr : s.Readable ga n) (hn : n ≤ 8192)
    (hc : r.cells = []) (hsil : s.silent r = false) {a : RetAddr} (hret : r.ret = some a)
    (hspan : if r.op = 0x12 then
      fieldBE r.payload 12 4 = 0 ∧ ∃ p, s.recordRange (s.window r.hdr.window.toNat).journal (fieldBE r.payload 0 8)
        (fieldBE r.payload 8 4) r.hdr.count = some p ∧ ga = (s.window r.hdr.window.toNat).base + p.1 ∧ n = p.2
      else ga = (s.window r.hdr.window.toNat).base + r.hdr.offset.toNat ∧ n = r.hdr.count) :
    ∃ t k ep, s.Touched t ∧ s.startRead r =
      ((t.answerRead r ga n).chargePort a.link.port.val k).recordAnswer r.hdr.key false true 0 [] ep := by
  obtain ⟨t, ht, hbegin⟩ := State.beginRead_readable hr hn hc
  have hsil' : t.silent r = false := (ht.asks (fun u => u.silent r) fun _ _ => rfl).trans hsil
  obtain ⟨k, ep, hpump⟩ := (ht.readable hr).pumpRead hn hsil' hret
  refine ⟨t, k, ep, ht, ?_⟩
  have hspan' : (if r.op == 0x12 then
      if fieldBE r.payload 12 4 != 0 then none
      else (s.recordRange (s.window r.hdr.window.toNat).journal (fieldBE r.payload 0 8) (fieldBE r.payload 8 4)
        r.hdr.count).map fun p => ((s.window r.hdr.window.toNat).base + p.1, p.2)
    else some ((s.window r.hdr.window.toNat).base + r.hdr.offset.toNat, r.hdr.count)) = some (ga, n) := by
    split at hspan
    · rename_i hop
      obtain ⟨hz, p, hp, rfl, rfl⟩ := hspan
      simp [hop, hz, hp]
    · rename_i hop
      simp [hop, hspan]
  unfold State.startRead
  dsimp only
  rw [hspan']
  dsimp only
  rw [hr.readWaits]
  simp only [Bool.false_eq_true, if_false, hbegin, hpump]

end Sys2Proof.Machine

/-! PROOFS. The answer of such a read as it is sent, and READ, SECTOR READ and RECORD READ (R44, R48, R50, R60, R281). -/

namespace Sys2Proof.Machine

/-! ## A datagram sent at once (R44, R60) -/

/-- The frame of a datagram in clear. -/
theorem State.emit_host (s : State) {w : Waiting} (hd : w.dst.drift = none) : ∃ sum, (s.emit w none).out.getLast? =
    some (.host w.dst w.hdr w.data none (s.answerHead w.dst)
      ⟨BitVec.ofNat 16 (s.get (XPT.UDP_PORT w.dst.link.port.val)), w.dst.port, sum⟩) := by
  have hlat : ∀ t : State, t.reg = s.reg → t.answerHead w.dst = s.answerHead w.dst ∧
      t.get (XPT.UDP_PORT w.dst.link.port.val) = s.get (XPT.UDP_PORT w.dst.link.port.val) := by
    intro t ht
    simp only [State.answerHead, State.frameHead, State.linkMac, State.linkIp6, State.get_of_reg ht, and_self]
  unfold State.emit
  dsimp only
  rw [hd]
  dsimp only [State.send]
  cases w.lat with
  | none => exact ⟨_, List.getLast?_concat⟩
  | some x =>
    obtain ⟨h1, h2⟩ := hlat (s.countLatency x.1 x.2) rfl
    rw [← h1, ← h2]
    exact ⟨_, List.getLast?_concat⟩

/-- With nothing waiting before it, the link up and its priority not paused, a datagram in clear goes out at once. -/
theorem State.sendDgram_clear {s : State} {dst : RetAddr} (hw : s.net.waiting = []) (hd : dst.drift = none)
    (hu : s.linkUp dst.link = true) (hp : s.pausedAt dst = false) (hs : dst.sealed = false) (hdr : AnsHdr) (data : List Byte)
    (slot lat : Option (Nat × Nat)) : s.sendDgram dst hdr data slot lat =
      (s.emit ⟨dst, { hdr with creditSeq := s.credit hdr.qid }, data, slot, lat⟩ none).slotBack slot := by
  simp [State.sendDgram, State.trySend, hw, hd, hu, hp, hs]

theorem State.returnSlot_state {s : State} {n : Nat} (hn : n ≠ 0) (ha : (s.queue n).state = .active) (seq : Nat) :
    ((s.returnSlot n seq).queue n).state = .active := by
  rw [State.returnSlot_active hn ha, State.queue_setQueue _ _ hn]
  exact ha

/-! ## The answer of a read (R44, R48, R50) -/

section
variable {s : State} {r : Req} {a : RetAddr} (hret : r.ret = some a) (hdup : r.dup = false) (hw : s.net.waiting = [])
  (hd : a.drift = none) (hu : s.linkUp a.link = true) (hp : s.pausedAt a = false) (hs : a.sealed = false)
include hret hdup hw hd hu hp hs

/-- The answer goes out at once, and the slot of its request returns. -/
theorem State.answerRead_eq (ga n : Nat) : ∃ w : Waiting,
    s.answerRead r ga n = (s.emit w none).returnSlot r.hdr.qid.toNat r.hdr.seq.toNat ∧ w.dst = a ∧
      w.data = ((gangPieces ga n).flatMap fun q => s.readMem (s.daOf q.1) q.2) ∧ w.hdr.typ = 1 ∧ w.hdr.last = true ∧
      w.hdr.status = 0 ∧ w.hdr.seq = r.hdr.seq.toNat ∧ w.hdr.untrusted = false := by
  have hre : s.retOf r = some a := by rw [State.retOf, hret]
  have hslot : r.slot = some (r.hdr.qid.toNat, r.hdr.seq.toNat) := by
    rw [Req.slot, hdup]
    rfl
  rw [State.answerRead, State.sendSeg, hre]
  dsimp only
  rw [State.sendDgram_clear hw hd hu hp hs, hslot]
  exact ⟨_, rfl, rfl, rfl, rfl, rfl, rfl, rfl, rfl⟩

/-- Nothing else changes, and its frame is the last sent. -/
theorem State.answerRead_leaves (hn : r.hdr.qid.toNat ≠ 0) (ha : (s.queue r.hdr.qid.toNat).state = .active) (ga n : Nat) :
    s.AlikeBut (s.answerRead r ga n) r.hdr.qid.toNat ∧ ((s.answerRead r ga n).queue r.hdr.qid.toNat).state = .active ∧
      (∀ k, (s.answerRead r ga n).entry k = s.entry k) ∧
      ∃ hdr sum, (s.answerRead r ga n).out.getLast? =
        some (.host a hdr ((gangPieces ga n).flatMap fun q => s.readMem (s.daOf q.1) q.2) none (s.answerHead a)
          ⟨BitVec.ofNat 16 (s.get (XPT.UDP_PORT a.link.port.val)), a.port, sum⟩) ∧
        hdr.typ = 1 ∧ hdr.last = true ∧ hdr.status = 0 ∧ hdr.seq = r.hdr.seq.toNat ∧ hdr.untrusted = false := by
  obtain ⟨w, heq, rfl, hdata, hhdr⟩ := State.answerRead_eq hret hdup hw hd hu hp hs ga n
  have ht := (State.Told.refl s).emit w none
  have hq : ((s.emit w none).queue r.hdr.qid.toNat).state = .active := by rw [ht.queue, ha]
  obtain ⟨sum, hout⟩ := s.emit_host (w := w) hd
  rw [heq]
  refine ⟨(State.AlikeBut.of_told ht _).trans (State.alike_returnSlot hn hq _), State.returnSlot_state hn hq _, fun k => ?_,
    w.hdr, sum, ?_, hhdr⟩
  · rw [State.returnSlot_active hn hq, ← ht.entry k]
    rfl
  · rw [State.returnSlot_active hn hq, ← hdata]
    exact hout

end

end Sys2Proof.Machine

/-! PROOFS. READ, SECTOR READ and RECORD READ of bytes that are all here (R44, R50, R85, R90, R281). -/

namespace Sys2Proof.Machine

theorem isRead_iff {op : Nat} : isRead op = true ↔ op = 0x01 ∨ op = 0x08 ∨ op = 0x12 := by
  simp [isRead, or_assoc]

theorem readOnly_of_isRead {op : Nat} (h : isRead op = true) (payload : List Byte) : readOnly op payload = true := by
  simp [readOnly, h]

/-! ## A read let in (R98, R99) -/

theorem State.AlikeBut.charge (u : State) {r : Req} (hop : r.op ≠ 0x10) (hn : r.hdr.qid.toNat ≠ 0) (c : Nat × Nat × Nat) :
    u.AlikeBut (u.charge r c) r.hdr.qid.toNat := by
  obtain ⟨t, a, h, ht, ha⟩ := u.charge_eq r c
  rw [h, ha hop]
  obtain rfl | rfl := ht
  · exact .of_told (.refl _) _
  · exact .setQueue u hn rfl

theorem State.charge_net (u : State) (r : Req) (c : Nat × Nat × Nat) : (u.charge r c).net = u.net :=
  u.charge_keeps State.net (fun _ _ _ => rfl) (fun _ _ => rfl) r c

/-- The tiers have no say in a read. -/
theorem State.tiersAdmit_read {u : State} {r : Req} (h : isRead r.op = true) (hf : r.refusal = none) :
    u.tiersAdmit r = (true, u) := by
  rcases isRead_iff.1 h with h | h | h <;> simp [State.tiersAdmit, State.storeSpan, hf, h, isWrite]

/-- A read that no hold of step 12 stops runs. -/
theorem State.step12_read {u : State} {r : Req} (h : isRead r.op = true) (hh : u.net.held = [])
    (hq : (u.queue r.hdr.qid.toNat).allows (u.charges r) = true) (hl : u.lineOf r = none) (hm : u.mus.stopped = false)
    (hf : r.refusal = none) (hb : r.authBad = false) (he : u.ep.num ≤ r.arrived) :
    u.step12 r = ((u.charge r (u.charges r)).startRead { r with admitted := some u.ep.num }).cutFrozen := by
  have hro := readOnly_of_isRead h r.payload
  have hop : r.op ≠ 0x10 := by rcases isRead_iff.1 h with h | h | h <;> simp [h]
  have hst : stagesBytes r.op = false := by rcases isRead_iff.1 h with h | h | h <;> simp [h, stagesBytes, isWrite]
  have hlate : ¬ r.arrived < u.ep.num := not_lt.2 he
  have hmay : u.mayAdmit r true = (true, r, u) := by
    rw [State.mayAdmit_of_tiers hq hl (.inl hop) hm (.inl hst), State.tiersAdmit_read h hf]
  rw [State.step12_admits hh hmay]
  simp [State.letIn, hro, hlate, hb, State.runRead, h]

/-! ## A freeze ends nothing of a queue that is active (R96) -/

theorem State.frozenCut_of_active {s t : State} {n : Nat} (ho : ∀ m, m ≠ n → t.queue m = s.queue m)
    (ha : (t.queue n).state = .active) (hh : t.net.held = s.net.held) (hr : t.net.reads = s.net.reads)
    (hs : s.frozenCut = false) : t.frozenCut = false := by
  have hf : ∀ r, s.frozenAfter r = false → t.frozenAfter r = false := by
    intro r h
    by_cases hq : r.hdr.qid.toNat = n
    · simp [State.frozenAfter, hq, ha]
    · simpa only [State.frozenAfter, ho _ hq] using h
  rw [State.frozenCut_eq_false] at hs ⊢
  rw [hh, hr]
  exact ⟨fun r hm => hf r (hs.1 r hm), fun p hm => hf _ (hs.2 p hm)⟩

/-! ## The head of an answer (R44) -/

theorem State.Alike.answerHead {s t : State} (h : s.Alike t) (d : RetAddr) : t.answerHead d = s.answerHead d := by
  have hp := d.link.port.isLt
  have hk := d.link.sub.isLt
  simp only [State.answerHead, State.frameHead, State.linkMac, State.linkIp6]
  rw [h.regs (HP.MAC_HI _ _), h.regs (HP.MAC_LO _ _), h.regs (XPT.IPV6_W0 _ _), h.regs (XPT.IPV6_W1 _ _),
    h.regs (XPT.IPV6_W2 _ _), h.regs (XPT.IPV6_W3 _ _), h.regs (XPT.IPV4 _ _), h.regs (XPT.DSCP_TX _)] <;>
    simp only [Fld.standing_iff, HP.MAC_HI, HP.MAC_LO, XPT.IPV6_W0, XPT.IPV6_W1, XPT.IPV6_W2, XPT.IPV6_W3, XPT.IPV4,
      XPT.DSCP_TX] <;> omega

/-! ## Read -/

section
variable {s : State} {d : Dgram} {op : Nat}

theorem State.heard_waiting : (s.heard d op).net.waiting = s.net.waiting :=
  ((s.received d).receiveEntry_waiting _).trans (s.received_waiting d)

/-- A read that steps 4 to 12 pass runs in a state in which everything is as it was. -/
theorem State.checks_read (h : s.Heard d op) (hg : s.judgedGood d op = true) (hop : isRead op = true)
    (hheld : s.net.held = []) (hallow : (s.queue d.hdr.qid.toNat).allows (s.charges (s.reqOf d op)) = true) (port : Nat) :
    ∃ v, (s.received d).checks (s.reqOf d op) port 0 =
        (v.startRead { s.reqOf d op with admitted := some s.ep.num }).cutFrozen ∧
      s.AlikeBut v d.hdr.qid.toNat ∧ (v.queue d.hdr.qid.toNat).state = .active ∧
      v.entry d.hdr.key = some (s.entryOf (s.reqOf d op)) ∧ v.net.waiting = s.net.waiting := by
  obtain ⟨u, hu, hal, hq, hnet⟩ := State.checks_good h hg port
  have hqueue : ∀ m, u.queue m = (s.heard d op).queue m := fun m => by rw [State.queue, hq, ← State.queue]
  have hsu : s.AlikeBut u d.hdr.qid.toNat :=
    (State.alike_heard h).trans ⟨hal, fun m _ => hqueue m, by rw [hqueue]⟩
  have hown := (hqueue _).trans (State.heard_queue h)
  have hne : (s.reqOf d op).op ≠ 0x10 := by rcases isRead_iff.1 hop with rfl | rfl | rfl <;> simp [State.reqOf]
  have hrun := State.step12_read (u := u) (r := s.reqOf d op) hop (hsu.held.trans hheld) ?_
    (State.lineOf_unsealed (a := retAddr d false none) rfl rfl) ?_ rfl rfl ?_
  · refine ⟨_, hu.trans (hrun.trans (by rw [hsu.ep])), hsu.trans (.charge u hne h.ne _), ?_, ?_, ?_⟩
    · exact (u.charge_queue Queue.state (fun _ _ => rfl) rfl h.ne _).trans
        ((congrArg Queue.state hown).trans ((s.queueOf_state _).trans h.active))
    · rw [State.entry, State.charge_net, hnet]
      exact State.heard_entry
    · rw [State.charge_net, hnet, State.heard_waiting]
  · rw [hsu.charges]
    exact (congrArg (Queue.allows · _) hown).trans ((s.allows_queueOf _ _).trans hallow)
  · rw [hsu.mus]
    have := State.receives_of_arrives (State.arrives_of_reachesChecks h.reaches)
    simp only [State.receives, Bool.and_eq_true, Bool.not_eq_true'] at this
    exact this.1.1.2
  · rw [hsu.ep]
    exact le_rfl

end

/-- The entry of a read that has been answered with OK. -/
def RrtEntry.read (e : RrtEntry) (epoch : Nat) : RrtEntry :=
  { e with answered := true, isNak := false, readOnly := true, status := 0, data := [], told := epoch, quiet := false }

/-- Settles O34: the read comes to its start as it was received, finds its bytes in hot frames, and answers with them. -/
theorem readReturnsMemory : Obligations.ReadReturnsMemory := by
  intro s c d op ga n hc hop hh hg hheld hcut hallow hspan hn hlen hrn hcells hsil hpaused hwait
  have h := State.heard_of_hears hh
  have harr := State.arrives_of_reachesChecks h.reaches
  simp only [State.arrives, Bool.and_eq_true, beq_iff_eq] at harr
  obtain ⟨⟨⟨⟨⟨⟨⟨-, hup⟩, -⟩, -⟩, hport⟩, -⟩, -⟩, -⟩ := harr
  obtain ⟨v, hv, hsv, hact, hentry, hw⟩ := State.checks_read h hg hop hheld hallow d.frame.link.port.val
  obtain ⟨t, k, ep, ht, hstart⟩ := (hsv.readable (State.readable_of_readableNow hrn)).startRead (s := v)
    (r := { s.reqOf d op with admitted := some s.ep.num }) (a := retAddr d false none) hlen hcells
    ((hsv.silent _).trans hsil) rfl (by simp only [hsv.window, hsv.recordRange]; exact hspan)
  have hqt : ∀ m, t.queue m = v.queue m := fun m => ht.asks (fun u => u.queue m) fun _ _ => rfl
  have hnt : t.net = v.net := ht.asks State.net fun _ _ => rfl
  obtain ⟨hta, hacta, henta, hdr, sum, hout, htyp, hlast, hstatus, hseq, hun⟩ := State.answerRead_leaves (s := t)
    (r := { s.reqOf d op with admitted := some s.ep.num }) (a := retAddr d false none) rfl rfl
    (by rw [hnt, hw, hwait]) rfl
    ((ht.asks (fun u => u.linkUp d.frame.link) fun _ _ => rfl).trans ((hsv.linkUp _).trans hup))
    ((ht.asks (fun u => u.pausedAt (retAddr d false none)) fun _ _ => rfl).trans (hsv.pausedAt hpaused)) rfl h.ne
    (by rw [hqt]; exact hact) ga n
  have hown : (t.answerRead { s.reqOf d op with admitted := some s.ep.num } ga n).entry d.hdr.key =
      some (s.entryOf (s.reqOf d op)) := (henta _).trans ((ht.asks (fun u => u.entry d.hdr.key) fun _ _ => rfl).trans hentry)
  generalize t.answerRead { s.reqOf d op with admitted := some s.ep.num } ga n = w at *
  have hmem : w.mem = s.mem := hta.mem.trans ((ht.asks State.mem fun _ _ => rfl).trans hsv.mem)
  have hthaw : ((w.chargePort d.frame.link.port.val k).setEntry ((s.entryOf (s.reqOf d op)).read ep)).frozenCut = false :=
    State.frozenCut_of_active (n := d.hdr.qid.toNat)
      (fun m hm => (hta.others m hm).trans ((hqt m).trans (hsv.others m hm))) hacta
      (hta.held.trans ((congrArg NetSt.held hnt).trans hsv.held)) (hta.reads.trans ((congrArg NetSt.reads hnt).trans hsv.reads)) hcut
  have hend : (s.received d).checks (s.reqOf d op) d.frame.link.port.val 0 =
      (w.chargePort d.frame.link.port.val k).setEntry ((s.entryOf (s.reqOf d op)).read ep) := by
    rw [hv, hstart]
    refine (congrArg State.cutFrozen (State.recordAnswer_of_entry
      (s := w.chargePort d.frame.link.port.val k) hown false true 0 [] ep)).trans ?_
    exact State.cutFrozen_of_not hthaw
  have hget : t.get (XPT.UDP_PORT d.frame.link.port.val) = d.frame.dstPort.toNat :=
    (ht.asks (fun u => u.get (XPT.UDP_PORT d.frame.link.port.val)) fun _ _ => rfl).trans ((hsv.udpPort _).trans hport.symm)
  have hhead : t.answerHead (retAddr d false none) = s.answerHead (retAddr d false none) :=
    (ht.asks (fun u => u.answerHead (retAddr d false none)) fun _ _ => rfl).trans (hsv.answerHead _)
  have hread : ∀ x m, t.readMem x m = s.readMem x m := fun x m =>
    (ht.asks (fun u => u.readMem x m) fun _ _ => rfl).trans (by rw [State.readMem, hsv.mem, State.readMem])
  have hda : ∀ x, t.daOf x = s.daOf x := fun x => (ht.asks (fun u => u.daOf x) fun _ _ => rfl).trans (hsv.daOf x)
  simp only [hread, hda, hhead] at hout
  have hgives := State.gives_of_reachesChecks hc h.reaches
  rw [hend] at hgives
  refine ⟨_, hdr, _, _, hgives, hout, rfl, ?_, rfl, htyp, hlast, hstatus, hseq, hun,
    ⟨_, State.entry_setEntry _ ((s.entryOf (s.reqOf d op)).read ep), rfl, rfl, rfl, rfl⟩, fun a => ?_⟩
  · exact (congrArg (BitVec.ofNat 16) hget).trans (by simp)
  · exact congrArg (Memory.read · a) hmem

end Sys2Proof.Machine

/-! PROOFS. What the tiers, the flash and its logs, the cells and the NOR do to the network: nothing (R172 to R182, R187, R210, R237 to R243). -/

namespace Sys2Proof.Machine

/-- What a fold's steps leave of the network, the fold leaves. -/
theorem foldl_net {α : Type} {g : State → α → State} (hg : ∀ s a, (g s a).net = s.net) (l : List α) (s : State) :
    (l.foldl g s).net = s.net := foldl_keeps State.net hg l s

/-! ## Superblocks and merges (R237 to R243) -/

section
variable (s : State)

@[simp] theorem State.setLb_net (n : Nat) (x : LbtEntry) : (s.setLb n x).net = s.net := rfl

@[simp] theorem State.setLog_net (n : Nat) (x : FlashLog) : (s.setLog n x).net = s.net := rfl

@[simp] theorem State.eraseBlock_net (b : Nat) : (s.eraseBlock b).net = s.net := by simp [State.eraseBlock]

@[simp] theorem State.newSb_net (use : SbUse) : (s.newSb use).2.net = s.net := by
  unfold State.newSb
  split
  · rfl
  · dsimp only
    split
    · rfl
    · simp [State.checkSpare, foldl_net]

@[simp] theorem State.issueNext_net : s.issueNext.net = s.net :=
  foldl_net (fun s e => by split <;> rfl) _ _

@[simp] theorem State.freeSb_net (n : Nat) : (s.freeSb n).net = s.net := by simp [State.freeSb, State.dropGroups]

@[simp] theorem State.freeSbs_net (l : List Nat) : (s.freeSbs l).net = s.net := foldl_net State.freeSb_net l s

@[simp] theorem State.issueGroup_net (sb group kind : Nat) : (s.issueGroup sb group kind).net = s.net := by
  unfold State.issueGroup
  split <;> simp

@[simp] theorem State.fillSlot_net (lb k : Nat) : (s.fillSlot lb k).2.net = s.net := by
  unfold State.fillSlot
  grind [State.newSb_net, State.setLb_net, State.freeSbs_net, State.issueGroup_net]

@[simp] theorem State.bindLog_net (lb : Nat) : (s.bindLog lb).2.net = s.net := by
  unfold State.bindLog
  grind [State.newSb_net, State.setLog_net, State.setLb_net, State.raiseIf_net]

@[simp] theorem State.endFill_net (lb : Nat) : (s.endFill lb).net = s.net := by
  unfold State.endFill
  grind [State.setLb_net, State.issueGroup_net]

@[simp] theorem State.switchBase_net (lb dest : Nat) : (s.switchBase lb dest).net = s.net := by
  unfold State.switchBase
  grind [State.freeSbs_net, State.setLb_net]

@[simp] theorem State.switchMerge_net (lb : Nat) : (s.switchMerge lb).net = s.net := by
  unfold State.switchMerge
  grind [State.switchBase_net, State.inc_net]

@[simp] theorem State.mergeDest_net : s.mergeDest.2.net = s.net := by
  unfold State.mergeDest
  grind [State.newSb_net, State.raiseIf_net]

@[simp] theorem State.startFull_net (lb : Nat) (fold : Bool) : (s.startFull lb fold).net = s.net := by
  unfold State.startFull
  grind [State.mergeDest_net, State.setLb_net, State.issueGroup_net]

@[simp] theorem State.startMerge_net (lb : Nat) : (s.startMerge lb).net = s.net := by
  unfold State.startMerge
  grind [State.switchMerge_net, State.startFull_net, State.setLb_net, State.issueGroup_net]

@[simp] theorem State.logPressure_net : s.logPressure.net = s.net := by
  unfold State.logPressure
  grind [State.startMerge_net]

@[simp] theorem State.appendSlot_net (n e : Nat) : (s.appendSlot n e).net = s.net := by
  unfold State.appendSlot
  grind [State.setLog_net, State.issueGroup_net]

@[simp] theorem State.flashPlace_net (e : Nat) : (s.flashPlace e).2.net = s.net := by
  unfold State.flashPlace
  grind [State.fillSlot_net, State.endFill_net, State.bindLog_net, State.logPressure_net, State.startMerge_net,
    State.appendSlot_net]

@[simp] theorem State.foldPressure_net : s.foldPressure.net = s.net := by
  unfold State.foldPressure
  grind [State.raiseIf_net, State.startFull_net]

@[simp] theorem State.holdZero_net (e : Nat) : (s.holdZero e).net = s.net := by
  unfold State.holdZero
  grind [State.inc_net, State.setLb_net, State.raise_net]

@[simp] theorem State.logZero_net (e : Nat) : (s.logZero e).net = s.net := by
  unfold State.logZero
  grind [State.bindLog_net, State.holdZero_net, State.setLog_net, State.logPressure_net]

@[simp] theorem State.retryZeros_net : s.retryZeros.net = s.net := by
  refine foldl_net (fun s x => ?_) _ s
  split
  · rfl
  · refine (foldl_net (fun s e => ?_) _ _).trans (s.setLb_net _ _)
    grind [State.logZero_net]

end

/-! ## Moves (R175 to R182) -/

/-- Moves that leave the network, set going one after another. -/
theorem startMoves_net {f : State → Nat → Bool × State} (hf : ∀ s e, (f s e).2.net = s.net) (n : Nat) (l : List Nat)
    (s : State) : (startMoves f n l s).net = s.net := by
  induction l generalizing n s with
  | nil => cases n <;> rfl
  | cons e l ih =>
    cases n with
    | zero => rfl
    | succ n =>
      have h := hf s e
      rw [startMoves]
      split <;> rename_i heq <;> rw [heq] at h <;> exact (ih _ _).trans h

section
variable (s : State)

@[simp] theorem State.takeFrame_net (warm : Bool) (f : Nat) : (s.takeFrame warm f).net = s.net := rfl

@[simp] theorem State.allocFrame_net (warm : Bool) : (s.allocFrame warm).2.net = s.net := by
  unfold State.allocFrame
  dsimp only
  split
  · rfl
  · cases List.findSome? _ _ <;> rfl

@[simp] theorem State.sayFull_net (d : Nat) (tiers : List Bool) (extra : Nat) (write : Bool) :
    (s.sayFull d tiers extra write).net = s.net := by
  unfold State.sayFull
  grind [State.raiseIf_net]

@[simp] theorem State.demote_net (e : Nat) : (s.demote e).2.net = s.net := by
  unfold State.demote
  grind [State.flashPlace_net, State.setExtent_net]

@[simp] theorem State.demoteFor_net (d : Nat) : (s.demoteFor d).net = s.net := by
  unfold State.demoteFor
  grind [startMoves_net, State.demote_net]

@[simp] theorem State.abandonMove_net (e : Nat) : (s.abandonMove e).net = s.net := by
  unfold State.abandonMove
  split
  · rfl
  · split
    · rfl
    · rw [State.raise_net, State.inc_net]
      split
      · split
        · split <;> rfl
        · rfl
      · rfl

@[simp] theorem State.promote_net (e pref : Nat) (reserve : Bool) (extra : Nat) (write : Bool) :
    (s.promote e pref reserve extra write).2.net = s.net := by
  unfold State.promote
  grind [State.sayFull_net, State.allocFrame_net, State.setExtent_net]

@[simp] theorem State.promoteDue_net (e : Nat) : (s.promoteDue e).net = s.net := by
  unfold State.promoteDue
  grind [State.promote_net, State.setExtent_net, State.raiseIf_net]

@[simp] theorem State.moveFrame_net (e : Nat) (warm : Bool) : (s.moveFrame e warm).2.net = s.net := by
  unfold State.moveFrame
  grind [State.sayFull_net, State.allocFrame_net, State.setExtent_net]

@[simp] theorem State.homeWaiting_net : s.homeWaiting.net = s.net := by
  refine (foldl_net State.promoteDue_net _ _).trans (foldl_net (fun s e => ?_) _ s)
  grind [State.allocFrame_net, State.setExtent_net]

@[simp] theorem State.demotePref3_net : s.demotePref3.net = s.net := foldl_net (fun s e => s.demote_net e) _ s

@[simp] theorem State.demoteHot_net : s.demoteHot.net = s.net := by
  unfold State.demoteHot
  grind [startMoves_net, State.moveFrame_net]

@[simp] theorem State.drainMoves_net : s.drainMoves.net = s.net := by
  refine foldl_net (fun s e => ?_) _ s
  grind [State.moveFrame_net, State.demote_net]

@[simp] theorem State.demoteVolatile_net : s.demoteVolatile.net = s.net := by
  unfold State.demoteVolatile
  grind [startMoves_net, State.demote_net]

@[simp] theorem State.checkVhc_net : s.checkVhc.net = s.net := by
  simp [State.checkVhc]

@[simp] theorem State.checkRebuild_net : s.checkRebuild.net = s.net := by
  unfold State.checkRebuild
  grind [State.raise_net]

@[simp] theorem State.stepRebuild_net : s.stepRebuild.net = s.net := by
  unfold State.stepRebuild
  grind [State.startFull_net]

end

end Sys2Proof.Machine

/-! PROOFS. What the cells, the Census, the NOR and a read's beginning do to the network: nothing (R167, R177, R210, R352, R372). -/

namespace Sys2Proof.Machine

section
variable (s : State)

/-! ## Census and NOR (R350, R372) -/

@[simp] theorem State.dropLines_net (bank : Nat) : (s.dropLines bank).net = s.net := rfl

@[simp] theorem State.norProgramWords_net (a : Nat) (vs : List Nat) : (s.norProgramWords a vs).net = s.net := by
  simp [State.norProgramWords]

@[simp] theorem State.programRecord_net (bs : List Byte) : (s.programRecord bs).net = s.net := by
  unfold State.programRecord State.programWords
  grind [State.norProgramWords_net, State.raise_net, State.raiseIf_net]

@[simp] theorem State.writeOoc_net (wait : Bool) (bs : List Byte) : (s.writeOoc wait bs).2.net = s.net := by
  unfold State.writeOoc
  grind [State.inc_net, State.programRecord_net]

@[simp] theorem State.census_net (code idx : Nat) : (s.census code idx).net = s.net := by
  unfold State.census State.outOfCycle
  grind [State.writeOoc_net, State.inc_net]

@[simp] theorem State.devNorOne_net (a : Nat) (v : Option Nat) : (s.devNorOne a v).net = s.net := by
  cases v
  · simp [State.devNorOne, State.norEraseSector]
  · simp [State.devNorOne, State.norProgramWord, State.norSet]

@[simp] theorem State.devNor_net (ops : List (Nat × Option Nat)) : (s.devNor ops).net = s.net := by
  unfold State.devNor
  split
  · rfl
  · exact foldl_net (fun s o => s.devNorOne_net _ _) _ s

@[simp] theorem State.layoutRewrite_net : s.layoutRewrite.net = s.net := by
  simp [State.layoutRewrite, State.tableErase]

@[simp] theorem State.countStall_net (bank : Nat) : (s.countStall bank).net = s.net := by
  unfold State.countStall
  grind [State.inc_net]

@[simp] theorem State.adminStalls_net (r : Req) (st : Nat) : (s.adminStalls r st).net = s.net :=
  foldl_net State.countStall_net _ s

/-! ## The tiers at work (R176 to R182) -/

@[simp] theorem State.stepReshape_net : s.stepReshape.net = s.net := by
  unfold State.stepReshape
  grind [State.startFull_net, State.layoutRewrite_net, State.raise_net]

@[simp] theorem State.manageTiers_net : s.manageTiers.net = s.net := by
  have hd : ∀ t : State, (if t.flag TIR.DEMOTE_EN then t.demoteHot.demotePref3 else t).net = t.net := by
    intro t
    split <;> simp
  simp [State.manageTiers, hd]

@[simp] theorem State.tierAdmits_net (w : Window) (coming : List Nat) (e : Nat) : (s.tierAdmits w coming e).2.net = s.net := by
  unfold State.tierAdmits State.tierAdmits.fresh
  grind [State.sayFull_net, State.demoteFor_net, State.abandonMove_net, State.promote_net]

@[simp] theorem State.tiersAdmit_net (r : Req) : (s.tiersAdmit r).2.net = s.net := by
  unfold State.tiersAdmit
  split
  · rfl
  · split
    · rfl
    · refine foldl_keeps (fun a : Bool × List Nat × State => a.2.2.net) (fun a e => ?_) _ _
      dsimp only
      exact State.tierAdmits_net _ _ _ _

@[simp] theorem State.mayAdmit_net (r : Req) (room : Bool) : (s.mayAdmit r room).2.2.net = s.net := by
  unfold State.mayAdmit
  grind [State.tiersAdmit_net, State.inc_net]

/-! ## Cells read (R210) -/

@[simp] theorem State.flipByte_net (da p : Nat) : (s.flipByte da p).net = s.net := by
  unfold State.flipByte
  split <;> rfl

@[simp] theorem State.maskedWrite_net (m : Nat) : (s.maskedWrite m).net = s.net := by
  unfold State.maskedWrite
  grind [State.inc_net]

@[simp] theorem State.countFix_net (m rank bit : Nat) : (s.countFix m rank bit).net = s.net := by
  unfold State.countFix State.censusN
  grind [State.inc_net, State.setb_net, State.raise_net]

@[simp] theorem State.poisonSector_net (m sec : Nat) : (s.poisonSector m sec).net = s.net := by
  have hd : ∀ t : State, t.damage.net = t.net := by
    intro t
    unfold State.damage
    split <;> rfl
  simp [State.poisonSector, State.poisonTold, hd]

@[simp] theorem State.uncorrectable_net (m : Nat) : (s.uncorrectable m).net = s.net := by
  unfold State.uncorrectable
  split <;> simp

@[simp] theorem State.readCell_net (c : CellFault) : (s.readCell c).net = s.net := by
  unfold State.readCell
  grind [State.flipByte_net, State.countFix_net, State.maskedWrite_net, State.uncorrectable_net, State.poisonSector_net]

@[simp] theorem State.readCells_net (cells : List CellFault) (da n : Nat) : (s.readCells cells da n).net = s.net :=
  foldl_net State.readCell_net _ s

/-! ## A read begins (R167, R177) -/

@[simp] theorem State.touch_net (e : Nat) : (s.touch e).net = s.net := by
  unfold State.touch
  split <;> rfl

@[simp] theorem State.readMoves_net (e pref : Nat) : (s.readMoves e pref).2.net = s.net := by
  unfold State.readMoves
  grind [State.touch_net, State.inc_net, State.promote_net, State.moveFrame_net]

@[simp] theorem State.sendDrift_net (j typ epoch : Nat) (payload : List Byte) (last : Bool) :
    (s.sendDrift j typ epoch payload last).net = s.net := by
  unfold State.sendDrift
  dsimp only
  split <;> rfl

@[simp] theorem State.askRemote_net (p : Pending) : (s.askRemote p).2.net = s.net := by
  refine foldl_keeps (fun a : Pending × State => a.2.net) (fun a k => ?_) _ _
  refine foldl_keeps (fun a : Pending × State => a.2.net) (fun a q => ?_) _ _
  grind [State.sendDrift_net]

@[simp] theorem State.beginRead_net (p : Pending) : (s.beginRead p).2.net = s.net := by
  unfold State.beginRead
  dsimp only
  rw [State.askRemote_net]
  refine (foldl_keeps (fun a : Bool × State => a.2.net) (fun a e => ?_) _ _).trans
    (foldl_net (fun s q => s.readCells_net _ _ _) _ s)
  exact State.readMoves_net _ _ _

@[simp] theorem State.segStatus_net (p : Pending) (k : Nat) : (s.segStatus p k).2.2.net = s.net := by
  unfold State.segStatus State.freeBit
  dsimp only
  repeat' split
  all_goals simp

end

end Sys2Proof.Machine

/-! PROOFS. What follows a placement takes no request's answer away (R56, R58, R60, R96, R99, R136). -/

namespace Sys2Proof.Machine

section
variable (s : State)

/-! ## Slots and datagrams (R44, R60) -/

@[simp] theorem State.post_net (d : Option Nat) (typ qid detail : Nat) : (s.post d typ qid detail).net = s.net :=
  foldl_net (fun s n => s.postTo_net typ qid detail n) _ s

@[simp] theorem State.returnSlot_net (n seq : Nat) : (s.returnSlot n seq).net = s.net := by
  unfold State.returnSlot State.checkFree
  grind [State.post_net, State.setQueue_net]

@[simp] theorem State.slotBack_net (slot : Option (Nat × Nat)) : (s.slotBack slot).net = s.net := by
  cases slot
  · rfl
  · exact s.returnSlot_net _ _

@[simp] theorem State.sendDgram_rrt (dst : RetAddr) (hdr : AnsHdr) (data : List Byte) (slot lat : Option (Nat × Nat)) :
    (s.sendDgram dst hdr data slot lat).net.rrt = s.net.rrt := by
  have ht := ((State.Told.refl s).trySend ⟨dst, hdr, data, slot, lat⟩).rrt
  unfold State.sendDgram
  dsimp only
  split
  · rfl
  · split <;> rename_i e <;> rw [e] at ht
    · simpa using ht
    · exact ht

@[simp] theorem State.sendSeg_rrt (r : Req) (epoch status k : Nat) (last untrusted : Bool) (data : List Byte)
    (slot lat : Option (Nat × Nat)) : (s.sendSeg r epoch status k last untrusted data slot lat).net.rrt = s.net.rrt := by
  unfold State.sendSeg
  split <;> simp

@[simp] theorem State.respondAt_rrt (r : Req) (epoch status : Nat) (data : List Byte) (slot : Option (Nat × Nat)) :
    (s.respondAt r epoch status data slot).net.rrt = s.net.rrt := by
  unfold State.respondAt
  split
  · simp
  · exact foldl_keeps (fun s => s.net.rrt) (fun s k => s.sendSeg_rrt _ _ _ _ _ _ _ _ _) _ s

@[simp] theorem State.freezeAt_net (r : Req) (n status : Nat) : (s.freezeAt r n status).net = s.net := by
  unfold State.freezeAt
  dsimp only
  split <;> simp

@[simp] theorem State.sendSegment_rrt (p : Pending) (k : Nat) (cut : Option Nat) :
    (s.sendSegment p k cut).2.net.rrt = s.net.rrt := by
  have hc : ∀ (t : State) m n, (t.chargePort m n).net = t.net := fun _ _ _ => rfl
  unfold State.sendSegment
  grind [State.segStatus_net, State.slotBack_net, State.sendSeg_rrt]

@[simp] theorem State.advancePlaced_net (k : Nat) : (State.advancePlaced k s).net = s.net := by
  induction k generalizing s with
  | zero => rfl
  | succ k ih =>
    have hend : ∀ (t : State) n, (t.sendPlaceEnd n).net = t.net := by
      intro t n
      unfold State.sendPlaceEnd
      split
      · rfl
      · exact foldl_net (fun s j => s.sendDrift_net _ _ _ _ _) _ t
    rw [State.advancePlaced]
    grind

end

/-! ## Answers kept (R56, R58) -/

/-- No request of `s` loses its answer: an entry of `t` without one stood so in `s`. -/
def State.KeepsAnswers (s t : State) : Prop :=
  ∀ c y, mget t.net.rrt c = some y → y.answered = false → mget s.net.rrt c = some y

namespace State.KeepsAnswers

variable {s t u : State}

theorem of_rrt (h : t.net.rrt = s.net.rrt) : s.KeepsAnswers t := fun _ _ hy _ => h ▸ hy

theorem refl (s : State) : s.KeepsAnswers s := of_rrt rfl

theorem trans (h : s.KeepsAnswers t) (h' : t.KeepsAnswers u) : s.KeepsAnswers u := fun c y hy ha => h c y (h' c y hy ha) ha

/-- A change that leaves the entries. -/
theorem rrt (h : s.KeepsAnswers t) (hr : u.net.rrt = t.net.rrt) : s.KeepsAnswers u := h.trans (of_rrt hr)

theorem net (h : s.KeepsAnswers t) (hn : u.net = t.net) : s.KeepsAnswers u := h.rrt (by rw [hn])

/-- A fold takes away what one of its steps does. -/
theorem foldl {α β : Type} (p : β → State) {g : β → α → β} (hg : ∀ b a, (p b).KeepsAnswers (p (g b a))) (l : List α) (b : β) :
    (p b).KeepsAnswers (p (l.foldl g b)) := by
  induction l generalizing b with
  | nil => exact refl _
  | cons a l ih => exact (hg b a).trans (ih _)

theorem recordAnswer (s : State) (k : ReqKey) (isNak reads : Bool) (status : Nat) (data : List Byte) (epoch : Nat)
    (quiet : Bool) : s.KeepsAnswers (s.recordAnswer k isNak reads status data epoch quiet) := by
  unfold State.recordAnswer
  split
  · exact refl s
  · rename_i e he
    intro c y hy ha
    simp only [State.setEntry] at hy
    by_cases hc : c = e.key.code
    · subst hc
      rw [mget_mput_self, Option.some_inj] at hy
      subst hy
      cases ha
    · exact (mget_mput_ne _ _ hc).symm.trans hy

theorem finish (s : State) (r : Req) (epoch status : Nat) (data : List Byte) :
    s.KeepsAnswers (s.finish r epoch status data) := by
  have hr := (of_rrt (s.respondAt_rrt r epoch status data none)).trans
    (recordAnswer _ r.hdr.key false false status data epoch false)
  unfold State.finish
  dsimp only
  generalize (s.respondAt r epoch status data).recordAnswer r.hdr.key false false status data epoch = t at hr ⊢
  split
  · split
    · exact refl s
    · exact hr
  · exact hr

theorem finishRead (s : State) (r : Req) (status : Nat) (data : List Byte) :
    s.KeepsAnswers (s.finishRead r status data) :=
  ((of_rrt (s.respondAt_rrt _ _ _ _ _)).trans (recordAnswer _ _ _ _ _ _ _ _)).net (State.freezeAt_net _ _ _ _)

theorem refuse (s : State) (r : Req) (status : Nat) (send : Bool) : s.KeepsAnswers (s.refuse r status send) := by
  have hslot : (if r.dup then s else s.returnSlot r.hdr.qid.toNat r.hdr.seq.toNat).net.rrt = s.net.rrt := by
    split <;> simp
  have hrec : ∀ u : State, u.net.rrt = s.net.rrt → s.KeepsAnswers
      (if readOnly r.op r.payload then
        (u.recordAnswer r.hdr.key true (readOnly r.op r.payload) status [] u.ep.num (!send)).freezeAt r
          (u.recordAnswer r.hdr.key true (readOnly r.op r.payload) status [] u.ep.num (!send)).ep.num status
      else u.recordAnswer r.hdr.key true (readOnly r.op r.payload) status [] u.ep.num (!send)) := by
    intro u hu
    have h := (of_rrt hu).trans (recordAnswer u r.hdr.key true (readOnly r.op r.payload) status [] u.ep.num (!send))
    split
    · exact h.net (State.freezeAt_net _ _ _ _)
    · exact h
  unfold State.refuse
  dsimp only
  generalize (if r.dup = true then s else s.returnSlot r.hdr.qid.toNat r.hdr.seq.toNat) = t at hslot ⊢
  cases send
  · exact hrec t hslot
  · cases t.retOf r
    · exact hrec t hslot
    · exact hrec _ ((t.sendDgram_rrt _ _ _ _ _).trans hslot)

theorem endFrozen (s : State) (r : Req) : s.KeepsAnswers (s.endFrozen r) := by
  have h := refuse s r 0x0A (!s.silent r)
  unfold State.endFrozen
  split
  · exact h
  · exact h.net (State.enter_keeps State.net (fun _ _ => rfl) _ _)

/-! ### Reads (R50, R93, R96) -/

theorem endRead (s : State) (p : Pending) : s.KeepsAnswers (s.endRead p) :=
  (recordAnswer s _ _ _ _ _ _ _).net (State.freezeAt_net _ _ _ _)

theorem cutRead (s : State) (p : Pending) (status : Nat) : s.KeepsAnswers (s.cutRead p status) := by
  refine trans ?_ (endRead _ _)
  refine foldl (fun a : Pending × State => a.2) (fun a k => ?_) _ (p, s)
  split
  · exact of_rrt (State.sendSegment_rrt _ _ _ _)
  · exact refl _

theorem cutReads (s : State) (cut : Pending → Bool) (status : Nat) : s.KeepsAnswers (s.cutReads cut status id) :=
  (of_rrt rfl).trans (foldl id (fun t p => cutRead t p status) _ _)

theorem cutFrozen (s : State) : s.KeepsAnswers s.cutFrozen :=
  ((of_rrt (t := { s with net := { s.net with held := s.net.held.filter fun r => !s.frozenAfter r } }) rfl).trans
    (foldl id endFrozen _ _)).trans (cutReads _ _ _)

theorem pumpRead (s : State) (p : Pending) : s.KeepsAnswers (s.pumpRead p).2 := by
  have hf : s.KeepsAnswers ((List.range p.segs).foldl (fun (a : Pending × State) k =>
      if (mget a.1.sent k).isNone && a.2.segReady a.1 k then a.2.sendSegment a.1 k none else a) (p, s)).2 := by
    refine foldl (fun a : Pending × State => a.2) (fun a k => ?_) _ (p, s)
    split
    · exact of_rrt (State.sendSegment_rrt _ _ _ _)
    · exact refl _
  unfold State.pumpRead
  dsimp only
  split
  · exact hf.trans (endRead _ _)
  · exact hf

theorem startRead (s : State) (r : Req) : s.KeepsAnswers (s.startRead r) := by
  unfold State.startRead
  dsimp only
  split
  · exact finishRead s _ _ _
  · rename_i ga n _
    have hb : ∀ p : Pending, s.KeepsAnswers (if s.readWaits ga n then (p, s) else s.beginRead p).2 := by
      intro p
      split
      · exact refl s
      · exact (refl s).net (s.beginRead_net p)
    have h := (hb { req := r, ga := ga, len := n, blocked := true }).trans (pumpRead _
      (if s.readWaits ga n then ({ req := r, ga := ga, len := n, blocked := true }, s)
        else s.beginRead { req := r, ga := ga, len := n, blocked := true }).1)
    split <;> rename_i heq <;> rw [heq] at h
    · exact h.rrt rfl
    · exact h

theorem runRead (s : State) (r : Req) : s.KeepsAnswers (s.runRead r) := by
  unfold State.runRead
  split
  · exact startRead s r
  · exact ((refl s).net (s.adminStalls_net _ _)).trans (finishRead _ _ _ _)

theorem letIn (s : State) (r : Req) (c : Nat × Nat × Nat) : s.KeepsAnswers (s.letIn r c) := by
  unfold State.letIn
  dsimp only
  generalize hlate : (if r.arrived < (s.charge r c).ep.num then (s.charge r c).inc QMG.OVER_CONTRACT
    else s.charge r c) = u
  have hu : u.net = s.net := by
    rw [← hlate]
    split <;> simp [State.charge_net]
  generalize hseal : (if (decide (r.arrived < (s.charge r c).ep.num) && r.sealHeld) = true then u.inc QMG.SEAL_HELD
    else u) = t
  have ht : s.KeepsAnswers t := (refl s).net (by
    rw [← hseal]
    split <;> simp [hu])
  split
  · split
    · exact (ht.trans (refuse t _ _ _)).trans (cutFrozen _)
    · exact (ht.trans (runRead t _)).trans (cutFrozen _)
  · exact ht.net (State.enter_keeps State.net (fun _ _ => rfl) _ _)

/-! ### After a placement (R131, R136) -/

theorem examine (s : State) : s.KeepsAnswers s.examine := by
  refine rrt ((of_rrt rfl).trans (foldl (fun a : State × Bool => a.1) (fun a qn => ?_) _ _)) rfl
  dsimp only
  refine foldl (fun b : State × Bool × Bool => b.1) (fun b r => ?_) _ _
  split
  · exact endFrozen _ _
  · split
    · exact of_rrt rfl
    · have hm := (refl b.1).net (State.mayAdmit_net b.1 r b.2.1)
      split <;> rename_i heq <;> rw [heq] at hm
      · exact hm.trans (letIn _ _ _)
      · exact hm.rrt rfl

theorem settleFlushes (s : State) : s.KeepsAnswers s.settleFlushes := by
  refine (of_rrt rfl).trans (foldl id (fun t f => ?_) _ _)
  split
  · exact of_rrt rfl
  · exact finish t _ _ _ _

theorem afterPlaced (s : State) : s.KeepsAnswers s.afterPlaced := by
  have ha := (refl s).net (s.advancePlaced_net s.cm.unplaced.length)
  have he : ∀ t : State, t.KeepsAnswers (if t.mus.stopped then t else t.examine) := by
    intro t
    split
    · exact refl t
    · exact examine t
  exact (((ha.trans (he _)).trans (settleFlushes _)).rrt rfl).net (State.manageTiers_net _)

end State.KeepsAnswers

end Sys2Proof.Machine

/-! PROOFS. WRITE_PLACED where the entry filed under a request's key is another request's (R58, R136). -/

namespace Sys2Proof.Machine

/-! ## The counterexample -/

/-- A request of epoch 0, placed once its key is. -/
def placedReq : Req := { hdr := {}, op := 0x02 }

/-- The entry of another request, not answered. -/
def otherEntry : RrtEntry := { key := ({ seq := 1 } : ReqHdr).key, epoch := 0 }

/-- Data service runs, the write has committed and waits for nothing, and under its key stands the other request's entry. -/
def misfiled : State :=
  { State.reset with
    pwr := { seq := .on, rstCond := 0 }, cur := { verified := true }
    cm := { State.reset.cm with
      ep := [(0, { reqs := [(placedReq.hdr.key.code, placedReq)], toPlace := [placedReq.hdr.key.code]
                   done := [placedReq.hdr.key.code], begun := true, committed := true })] }
    net := { State.reset.net with rrt := [(placedReq.hdr.key.code, otherEntry)] } }

/-- Has the request filed under a key been answered after a command? -/
def State.answeredAfter (s : State) (c : Instr) (k : ReqKey) : Option Bool :=
  match exec c s with
  | .next t => (t.entry k).map RrtEntry.answered
  | _ => none

theorem State.answeredAfter_of_gives {s t : State} {c : Instr} (h : s.gives c t) (k : ReqKey) :
    s.answeredAfter c k = (t.entry k).map RrtEntry.answered := by
  rw [State.answeredAfter, h]
  exact congrArg (Option.map RrtEntry.answered) (State.settled_entry s t k)

/-- The placement answers the entry that it finds under the key, and files it under the entry's own. -/
theorem misfiled_answeredAfter : misfiled.answeredAfter (.writePlaced 0 placedReq.hdr.key 0) placedReq.hdr.key = some false := by
  decide +kernel

/-- Refutes O42: the answer is recorded in the entry found under the key of the request, but filed under the key that the entry
itself names; where the two differ (`misfiled`), the entry under the request's key stays unanswered, and nothing that follows the
placement can have taken an answer away. -/
theorem not_placedWriteAnswered : ¬ Obligations.PlacedWriteAnswered := by
  intro h
  obtain ⟨-, h⟩ := h misfiled 0 placedReq.hdr.key 0 (by decide +kernel)
  obtain ⟨u, hu, -, hz, -⟩ := h placedReq (by decide +kernel) rfl (by decide +kernel) (by decide +kernel) (by decide +kernel)
  obtain ⟨z, hz, hanswered, -⟩ := hz otherEntry (by decide +kernel)
  have hafter := (State.answeredAfter_of_gives hu placedReq.hdr.key).symm.trans misfiled_answeredAfter
  obtain ⟨y, hy, hnot⟩ := Option.map_eq_some_iff.1 hafter
  have hstood : u.entry placedReq.hdr.key = some y := State.KeepsAnswers.afterPlaced u _ y hy hnot
  rw [hz, Option.some_inj] at hstood
  rw [← hstood, hanswered] at hnot
  cases hnot

end Sys2Proof.Machine

/-! PROOFS. Read-only ADMIN commands: let in by step 12, and answered at once (R48, R50, R60, R79, R92). -/

namespace Sys2Proof.Machine

/-! ## Which commands they are (R79, R83) -/

theorem admin_of_readOnly {op : Nat} {payload : List Byte} (h : readOnly op payload = true) (hr : isRead op = false) :
    0x20 ≤ op ∧ op ≤ 0x2F := by
  simp only [readOnly, hr, Bool.false_or, Bool.or_eq_true, Bool.and_eq_true, beq_iff_eq] at h
  omega

theorem opClass_admin {op : Nat} (h : 0x20 ≤ op ∧ op ≤ 0x2F) : opClass op = some 0 := by
  obtain ⟨hl, hu⟩ := h
  have h0 : (op == 0x07 || op == 0) = false := by simp; omega
  have h2 : (decide (0x10 ≤ op) && decide (op ≤ 0x12)) = false := by simp; omega
  simp [opClass, h0, h2, hl, hu, show ¬ op ≤ 0x0A by omega]

theorem isWrite_admin {op : Nat} (h : 0x20 ≤ op) : isWrite op = false := by
  simp [isWrite]
  omega

/-- What passes step 10 is on a queue of its class. -/
theorem State.cls_of_step10 {s : State} {r : Req} {rsvd : Nat} (h : s.step10 r rsvd = none) :
    opClass r.op = some (s.queue r.hdr.qid.toNat).cls := by
  by_contra hc
  simp [State.step10, hc] at h

/-- An ADMIN command that passes step 10 is on an ADMIN queue. -/
theorem State.cls_admin {s : State} {d : Dgram} {op : Nat} (hg : s.judgedGood d op = true) (hop : 0x20 ≤ op ∧ op ≤ 0x2F) :
    (s.queue d.hdr.qid.toNat).cls = 0 := by
  simp only [State.judgedGood, Bool.and_eq_true, Option.isNone_iff_eq_none] at hg
  have h := State.cls_of_step10 hg.1
  exact (Option.some_inj.1 (h.symm.trans (opClass_admin hop)))

theorem State.not_stopped_of_receives {s : State} (h : s.receives = true) : s.mus.stopped = false := by
  simp only [State.receives, Bool.and_eq_true, Bool.not_eq_true'] at h
  exact h.1.1.2

/-- The duplex policy of a window has no say in ADMIN commands (R124). -/
theorem State.duplexMute_admin (s : State) (h : ReqHdr) {op : Nat} (ho : 0x20 ≤ op) : s.duplexMute h op = false := by
  have hd : (decide (op < 0x06) || decide (0x08 ≤ op) && decide (op ≤ 0x12)) = false := by simp; omega
  simp only [State.duplexMute, hd, Bool.false_and]

theorem State.silent_admin {s : State} {r : Req} (hm : s.inMask r.hdr = true) (ho : 0x20 ≤ r.op) : s.silent r = false := by
  rw [State.silent, hm, s.duplexMute_admin _ ho]
  rfl

/-! ## Let in (R98, R99) -/

section
variable {u : State} {r : Req} (hop : 0x20 ≤ r.op)
include hop

/-- The tiers have no say in an ADMIN command. -/
theorem State.tiersAdmit_admin : u.tiersAdmit r = (true, u) := by
  have hspan : u.storeSpan r = none := by
    have hj : (r.op == 0x10 || r.op == 0x11) = false := by simp; omega
    simp [State.storeSpan, hj, isWrite_admin hop]
  simp [State.tiersAdmit, hspan, show r.op ≠ 0x0A by omega]

/-- A queue of class ADMIN is charged nothing. -/
theorem State.charge_admin (hc : (u.queue r.hdr.qid.toNat).cls = 0) (c : Nat × Nat × Nat) : u.charge r c = u := by
  simp [State.charge, hc, show r.op ≠ 0x10 by omega]

/-- With nothing held, a read-only ADMIN command runs. -/
theorem State.step12_adminRead (hro : readOnly r.op r.payload = true) (hc : (u.queue r.hdr.qid.toNat).cls = 0)
    (hh : u.net.held = []) (hl : u.lineOf r = none) (hm : u.mus.stopped = false) (hb : r.authBad = false)
    (he : u.ep.num ≤ r.arrived) : u.step12 r = (u.runRead { r with admitted := some u.ep.num }).cutFrozen := by
  have hlate : ¬ r.arrived < u.ep.num := not_lt.2 he
  have hallow : (u.queue r.hdr.qid.toNat).allows (u.charges r) = true := by simp [Queue.allows, hc]
  have hst : stagesBytes r.op = false := by simp [stagesBytes, isWrite_admin hop]
  have hmay : u.mayAdmit r true = (true, r, u) := by
    rw [State.mayAdmit_of_tiers hallow hl (.inl (by omega)) hm (.inl hst), State.tiersAdmit_admin hop]
  rw [State.step12_admits hh hmay]
  simp [State.letIn, hro, hlate, hb, State.charge_admin hop hc]

end

/-- What a command reads of the NOR counts its stalls, and no more (R352). -/
theorem State.adminStalls_induct {P : State → Prop} (hp : ∀ t, P t → P (t.inc NOR.READ_STALLS)) {s : State} (h : P s)
    (r : Req) (st : Nat) : P (s.adminStalls r st) := by
  refine List.foldlRecOn _ _ h fun t ht bank _ => ?_
  unfold State.countStall
  split
  · exact hp t ht
  · exact ht

theorem State.told_adminStalls (s : State) (r : Req) (st : Nat) : s.Told (s.adminStalls r st) :=
  State.adminStalls_induct (fun _ h => h.inc _) (.refl s) r st

/-! ## Its answer (R48, R50, R60) -/

/-- A datagram in clear to these addresses goes out at once: nothing waits before it, its link is up, its priority not paused. -/
structure State.SendsNow (s : State) (a : RetAddr) : Prop where
  waiting : s.net.waiting = []
  direct : a.drift = none
  up : s.linkUp a.link = true
  running : s.pausedAt a = false
  clear : a.sealed = false

theorem State.Told.sendsNow {s t : State} {a : RetAddr} (h : s.Told t) (hw : t.net.waiting = s.net.waiting)
    (hs : s.SendsNow a) : t.SendsNow a :=
  ⟨hw.trans hs.waiting, hs.direct, (h.linkUp _).trans hs.up, h.pausedAt hs.running, hs.clear⟩

/-- A datagram put on the wire here is no more than counted and sent. -/
theorem State.emit_waiting (s : State) {w : Waiting} (hd : w.dst.drift = none) (x : Option (Nat × Nat × List Byte)) :
    (s.emit w x).net.waiting = s.net.waiting := by
  unfold State.emit
  dsimp only
  rw [hd]
  cases w.lat <;> rfl

/-- A datagram that holds a slot: the slot returns now, or with the datagram once that is sent. -/
theorem State.sendDgram_slot (s : State) (dst : RetAddr) (hdr : AnsHdr) (data : List Byte) (slot lat : Option (Nat × Nat)) :
    ∃ u b, s.Told u ∧ s.sendDgram dst hdr data slot lat = u.slotBack b ∧ (b = slot ∨ b = none) ∧
      (s.SendsNow dst → b = slot ∧ u.net.waiting = []) := by
  by_cases hn : s.SendsNow dst
  · have h := State.sendDgram_clear hn.waiting hn.direct hn.up hn.running hn.clear hdr data slot lat
    exact ⟨_, slot, (State.Told.refl s).emit _ _, h, .inl rfl, fun _ =>
      ⟨rfl, (s.emit_waiting hn.direct none).trans hn.waiting⟩⟩
  · have ht := (State.Told.refl s).trySend ⟨dst, hdr, data, slot, lat⟩
    unfold State.sendDgram
    dsimp only
    split
    · exact ⟨_, none, (State.Told.refl s).aside, rfl, .inr rfl, fun h => absurd h hn⟩
    · split <;> rename_i e <;> rw [e] at ht
      · exact ⟨_, slot, ht, rfl, .inl rfl, fun h => absurd h hn⟩
      · exact ⟨_, none, ht.aside, rfl, .inr rfl, fun h => absurd h hn⟩

/-- The same of a segment of an answer. -/
theorem State.sendSeg_slot (s : State) {r : Req} {a : RetAddr} (hret : r.ret = some a) (epoch status k : Nat)
    (last untrusted : Bool) (data : List Byte) (slot lat : Option (Nat × Nat)) :
    ∃ u b, s.Told u ∧ s.sendSeg r epoch status k last untrusted data slot lat = u.slotBack b ∧ (b = slot ∨ b = none) ∧
      (s.SendsNow a → b = slot ∧ u.net.waiting = []) := by
  rw [State.sendSeg, State.retOf, hret]
  exact s.sendDgram_slot a _ _ slot lat

theorem segments_length_pos (data : List Byte) : 0 < (segments data).length := by
  unfold segments
  split
  · exact Nat.one_pos
  · rename_i h
    have hpos : 0 < data.length := List.length_pos_iff.2 (by simpa using h)
    simp only [chunks, List.length_map, List.length_range, ceilDiv]
    omega

/-- An answer in segments: with the last of them the slot of its request returns, or waits to. -/
theorem State.respondAt_slot {s : State} {r : Req} {a : RetAddr} (hret : r.ret = some a) (hsil : s.silent r = false)
    (epoch status : Nat) (data : List Byte) (slot : Option (Nat × Nat)) : ∃ u b, s.Told u ∧
      s.respondAt r epoch status data slot = u.slotBack b ∧ (b = slot ∨ b = none) ∧ (s.SendsNow a → b = slot) := by
  obtain ⟨m, hm⟩ := Nat.exists_eq_add_of_lt (segments_length_pos data)
  rw [Nat.zero_add] at hm
  rw [State.respondAt, hsil]
  simp only [Bool.false_eq_true, if_false, hm, List.range_succ, List.foldl_append, List.foldl_cons, List.foldl_nil,
    beq_self_eq_true, if_true]
  generalize hmid : List.foldl _ s (List.range m) = t
  obtain ⟨ht, hnow⟩ : s.Told t ∧ (s.SendsNow a → t.SendsNow a) := by
    rw [← hmid]
    refine List.foldlRecOn (motive := fun t => s.Told t ∧ (s.SendsNow a → t.SendsNow a)) _ _ ⟨.refl s, id⟩ ?_
    intro t ⟨ht, hn⟩ k hk
    have hk : (k + 1 == m + 1) = false := by
      rw [List.mem_range] at hk
      simp only [beq_eq_false_iff_ne]
      omega
    obtain ⟨u, b, hu, heq, hb, hout⟩ := t.sendSeg_slot hret epoch status k false false ((segments data).getD k []) none none
    obtain rfl : b = none := or_self_iff.1 hb
    simp only [hk, Bool.false_eq_true, if_false]
    rw [heq]
    exact ⟨ht.trans hu, fun h => hu.sendsNow ((hout (hn h)).2.trans (hn h).waiting.symm) (hn h)⟩
  obtain ⟨u, b, hu, heq, hb, hout⟩ := t.sendSeg_slot hret epoch status m true false ((segments data).getD m []) slot
    (s.latOf r.hdr r.time)
  exact ⟨u, b, ht.trans hu, heq, hb, fun h => (hout (hnow h)).1⟩

/-- The entry of a read-only request that has been answered. -/
def RrtEntry.answer (e : RrtEntry) (status epoch : Nat) (data : List Byte) : RrtEntry :=
  { e with
    answered := true, isNak := false, readOnly := true, status := status, data := data.take 16, told := epoch, quiet := false }

/-- A queue of another class than ACCESSION does not freeze (R96). -/
theorem State.freezeAt_of_cls {s : State} {r : Req} (h : (s.queue r.hdr.qid.toNat).cls ≠ 2) (n status : Nat) :
    s.freezeAt r n status = s := by
  simp [State.freezeAt, h]

/-- A read-only request of a queue that does not freeze is answered, and its slot returns where the answer is sent. -/
theorem State.finishRead_leaves {s : State} {r : Req} {e : RrtEntry} {a : RetAddr} (hn : r.hdr.qid.toNat ≠ 0)
    (ha : (s.queue r.hdr.qid.toNat).state = .active) (hc : (s.queue r.hdr.qid.toNat).cls ≠ 2) (hd : r.dup = false)
    (hret : r.ret = some a) (hsil : s.silent r = false) (he : s.entry r.hdr.key = some e) (hk : e.key = r.hdr.key)
    (status : Nat) (data : List Byte) :
    let t := s.finishRead r status data
    s.AlikeBut t r.hdr.qid.toNat ∧ (t.queue r.hdr.qid.toNat).state = .active ∧
      (∃ ep, t.entry r.hdr.key = some (e.answer status ep data)) ∧
      (s.SendsNow a → (t.queue r.hdr.qid.toNat).inFlight = (s.queue r.hdr.qid.toNat).inFlight - 1) := by
  have hslot : r.slot = some (r.hdr.qid.toNat, r.hdr.seq.toNat) := by
    rw [Req.slot, hd]
    rfl
  obtain ⟨u, b, hu, heq, hb, hnow⟩ := State.respondAt_slot hret hsil s.reflected status data r.slot
  have hua : (u.queue r.hdr.qid.toNat).state = .active := by rw [hu.queue, ha]
  obtain ⟨hv, hva, hve, hvin⟩ : s.AlikeBut (u.slotBack b) r.hdr.qid.toNat ∧
      ((u.slotBack b).queue r.hdr.qid.toNat).state = .active ∧ (u.slotBack b).entry r.hdr.key = some e ∧
      (b = r.slot → ((u.slotBack b).queue r.hdr.qid.toNat).inFlight = (s.queue r.hdr.qid.toNat).inFlight - 1) := by
    have hsu := State.AlikeBut.of_told hu r.hdr.qid.toNat
    have hen : (u.slotBack b).entry r.hdr.key = some e := by
      rw [State.entry, State.slotBack_net, ← State.entry, hu.entry, he]
    rcases hb with rfl | rfl
    · rw [hslot] at hen ⊢
      exact ⟨hsu.trans (State.alike_returnSlot hn hua _), State.returnSlot_state hn hua _, hen,
        fun _ => (State.returnSlot_inFlight hn hua _).trans (by rw [hu.queue])⟩
    · exact ⟨hsu, hua, hen, fun h => absurd (h.trans hslot) nofun⟩
  have hrec := State.recordAnswer_of_entry hve false true status data s.reflected
  generalize u.slotBack b = v at *
  have hvc : (v.queue r.hdr.qid.toNat).cls ≠ 2 := by rwa [hv.cls]
  have hfin : s.finishRead r status data = v.setEntry (e.answer status s.reflected data) := by
    rw [State.finishRead, heq, hrec]
    exact State.freezeAt_of_cls (s := v.setEntry (e.answer status s.reflected data)) hvc _ _
  rw [hfin]
  refine ⟨hv.trans (.setEntry v _ _), hva, ⟨s.reflected, ?_⟩, fun h => hvin (hnow h)⟩
  rw [← hk]
  exact v.entry_setEntry (e.answer status s.reflected data)

/-! ## Answered (R79, R92) -/

theorem State.runRead_admin {s : State} {r : Req} (h : isRead r.op = false) :
    s.runRead r = (s.adminStalls r (s.adminRead r).1).finishRead r (s.adminRead r).1 (s.adminRead r).2 := by
  simp [State.runRead, h]

/-- A read-only ADMIN command run is answered, and its slot returns where the answer is sent. -/
theorem State.runRead_leaves {s : State} {r : Req} {e : RrtEntry} {a : RetAddr} (hr : isRead r.op = false)
    (hn : r.hdr.qid.toNat ≠ 0) (ha : (s.queue r.hdr.qid.toNat).state = .active) (hc : (s.queue r.hdr.qid.toNat).cls = 0)
    (hd : r.dup = false) (hret : r.ret = some a) (hsil : s.silent r = false) (he : s.entry r.hdr.key = some e)
    (hk : e.key = r.hdr.key) :
    let t := s.runRead r
    s.AlikeBut t r.hdr.qid.toNat ∧ (t.queue r.hdr.qid.toNat).state = .active ∧
      (∃ status ep data, t.entry r.hdr.key = some (e.answer status ep data)) ∧
      (s.SendsNow a → (t.queue r.hdr.qid.toNat).inFlight = (s.queue r.hdr.qid.toNat).inFlight - 1) := by
  have hu := s.told_adminStalls r (s.adminRead r).1
  have hw := congrArg NetSt.waiting (s.adminStalls_net r (s.adminRead r).1)
  rw [State.runRead_admin hr]
  generalize s.adminStalls r (s.adminRead r).1 = u at hu hw ⊢
  obtain ⟨ht, hact, ⟨ep, hen⟩, hin⟩ := State.finishRead_leaves (s := u) hn (by rw [hu.queue, ha])
    (by rw [hu.queue, hc]; decide) hd hret ((hu.silent r).trans hsil) ((hu.entry _).trans he) hk (s.adminRead r).1
    (s.adminRead r).2
  exact ⟨(State.AlikeBut.of_told hu _).trans ht, hact, ⟨_, ep, _, hen⟩, fun h => by
    rw [hin (hu.sendsNow hw h), hu.queue]⟩

section
variable {s : State} {d : Dgram} {op : Nat}

/-- A read-only ADMIN command that steps 4 to 11 pass runs in a state in which everything is as it was. -/
theorem State.checks_adminRead (h : s.Heard d op) (hg : s.judgedGood d op = true) (hro : readOnly op d.payload = true)
    (hr : isRead op = false) (hheld : s.net.held = []) (port : Nat) :
    ∃ v, (s.received d).checks (s.reqOf d op) port 0 = (v.runRead { s.reqOf d op with admitted := some s.ep.num }).cutFrozen ∧
      s.AlikeBut v d.hdr.qid.toNat ∧ v.queue d.hdr.qid.toNat = s.queueOf (s.reqOf d op) ∧
      v.entry d.hdr.key = some (s.entryOf (s.reqOf d op)) ∧ v.net.waiting = s.net.waiting := by
  have hop := admin_of_readOnly hro hr
  obtain ⟨v, hv, hal, hq, hnet⟩ := State.checks_good h hg port
  have hqueue : ∀ m, v.queue m = (s.heard d op).queue m := fun m => by rw [State.queue, hq, ← State.queue]
  have hsv : s.AlikeBut v d.hdr.qid.toNat :=
    (State.alike_heard h).trans ⟨hal, fun m _ => hqueue m, by rw [hqueue]⟩
  have hown := (hqueue _).trans (State.heard_queue h)
  have hrun := State.step12_adminRead (u := v) (r := s.reqOf d op) hop.1 hro ?cls (hsv.held.trans hheld)
    (State.lineOf_unsealed (a := retAddr d false none) rfl rfl) ?stopped rfl ?now
  · refine ⟨v, hv.trans (hrun.trans (by rw [hsv.ep])), hsv, hown, ?_, ?_⟩
    · rw [State.entry, hnet]
      exact State.heard_entry
    · rw [hnet, State.heard_waiting]
  case cls => exact hsv.cls.trans (State.cls_admin hg hop)
  case stopped =>
    rw [hsv.mus]
    exact State.not_stopped_of_receives (State.receives_of_arrives (State.arrives_of_reachesChecks h.reaches))
  case now =>
    rw [hsv.ep]
    exact le_rfl

end

/-- Settles O33: the command comes to its execution as it was received, and its answer is recorded and sent. -/
theorem adminReadAnswered : Obligations.AdminReadAnswered := by
  intro s c d op hc hro hr hh hg hheld hcut
  have h := State.heard_of_hears hh
  have hop := admin_of_readOnly hro hr
  obtain ⟨v, hv, hsv, hqueue, hentry, hw⟩ := State.checks_adminRead h hg hro hr hheld d.frame.link.port.val
  have hup : s.linkUp d.frame.link = true := by
    have harr := State.arrives_of_reachesChecks h.reaches
    simp only [State.arrives, Bool.and_eq_true] at harr
    exact harr.1.1.1.1.1.1.2
  obtain ⟨ht, hact, ⟨_, _, _, hen⟩, hin⟩ := State.runRead_leaves (s := v)
    (r := { s.reqOf d op with admitted := some s.ep.num }) (a := retAddr d false none) hr h.ne
    ((congrArg Queue.state hqueue).trans ((s.queueOf_state _).trans h.active)) (hsv.cls.trans (State.cls_admin hg hop)) rfl rfl
    ((hsv.silent _).trans (State.silent_admin (State.inMask_of_reachesChecks h.reaches) hop.1)) hentry rfl
  have hst := hsv.trans ht
  have hthaw := State.frozenCut_of_active hst.others hact hst.held hst.reads hcut
  have hgives := State.gives_of_reachesChecks hc h.reaches
  rw [hv, State.cutFrozen_of_not hthaw] at hgives
  refine hgives.answers ?_
  simp only [State.settled_entry, State.settled_queue, State.settled_epochs, State.settled_win, State.settled_tier]
  refine ⟨⟨_, hen, rfl, rfl, rfl⟩, fun hp hwait => (hin ?_).trans ?_, by rw [hst.cm], hst.windows, hst.domains, hst.tier,
    State.sameMemory_settled hst.mem _⟩
  · exact ⟨hw.trans hwait, rfl, (hsv.linkUp _).trans hup, hsv.pausedAt hp, rfl⟩
  · exact (congrArg (fun q : Queue => q.inFlight - 1) hqueue).trans (by rw [State.queueOf_inFlight]; rfl)

end Sys2Proof.Machine

/-! PROOFS. Bytes stored at commit, in a gang of one, in extents that are settled in DRAM (R85 to R87, R175, R180, R211). -/

namespace Sys2Proof.Machine

/-! ## Bytes of memory and their numbers (R8) -/

/-- What memory reads after bytes were written. -/
theorem Memory.read_writeN (m : Memory) (a : Nat) (bs : List Byte) (x : Nat) : Memory.read (Memory.writeN m a bs) x =
    if a ≤ x ∧ x < a + bs.length then bs.getD (x - a) 0 else Memory.read m x := by
  split
  · rename_i h
    obtain ⟨i, rfl⟩ := Nat.exists_eq_add_of_le h.1
    have hi : i < bs.length := by omega
    rw [Memory.read_writeN_in m a bs i hi, Nat.add_sub_cancel_left, List.getD_eq_getElem _ _ hi]
  · exact Memory.read_writeN_out m a bs x (by omega)

theorem Memory.writeN_append (m : Memory) (a : Nat) (xs ys : List Byte) :
    Memory.writeN m a (xs ++ ys) = Memory.writeN (Memory.writeN m a xs) (a + xs.length) ys := by
  induction xs generalizing m a with
  | nil => rfl
  | cons x xs ih =>
    rw [List.cons_append, Memory.writeN, ih, Memory.writeN, List.length_cons, Nat.add_assoc, Nat.add_comm 1]

/-- Bytes written are read back. -/
theorem Memory.readN_writeN (m : Memory) (a : Nat) (bs : List Byte) :
    Memory.readN (Memory.writeN m a bs) a bs.length = bs := by
  induction bs generalizing m a with
  | nil => rfl
  | cons b bs ih =>
    rw [List.length_cons, Memory.readN, Memory.writeN, ih, Memory.read_writeN_out _ _ _ _ (.inl (Nat.lt_succ_self a)),
      Memory.read_write_self]

@[simp] theorem bytesLE_length (n v : Nat) : (bytesLE n v).length = n := by
  induction n generalizing v with
  | zero => rfl
  | succ n ih => rw [bytesLE, List.length_cons, ih]

/-- Bytes spelled least significant first spell their number again. -/
theorem natOfLE_bytesLE (n v : Nat) : natOfLE (bytesLE n v) = v % 256 ^ n := by
  induction n generalizing v with
  | zero => rw [bytesLE, natOfLE, Nat.pow_zero, Nat.mod_one]
  | succ n ih => rw [bytesLE, natOfLE, ih, BitVec.toNat_ofNat, Nat.pow_succ' (m := 256), Nat.mod_mul]

/-- A field of `n` bytes is less than 256 to the `n`. -/
theorem natOfBE_lt (bs : List Byte) : natOfBE bs < 256 ^ bs.length := by
  induction bs using List.reverseRecOn with
  | nil => simp [natOfBE]
  | append_singleton bs b ih =>
    simp only [natOfBE, List.foldl_append, List.foldl_cons, List.foldl_nil, List.length_append, List.length_singleton,
      Nat.pow_succ] at ih ⊢
    omega

theorem fieldBE_lt (bs : List Byte) (off n : Nat) : fieldBE bs off n < 256 ^ n := by
  have h := natOfBE_lt (slice bs off n)
  rwa [slice, List.length_map, List.length_range] at h

/-! ## A gang of one (R158, R163) -/

section
variable {s : State} (h : s.gangN = 1)
include h

theorem State.homeOf_one (ga : Nat) : s.homeOf ga = s.gangPos := by
  rw [State.homeOf, State.gangPos, if_pos h, h, Nat.mod_one]

/-- Gang addresses are device addresses. -/
theorem State.daOf_one (ga : Nat) : s.daOf ga = ga := by
  rw [State.daOf, h, Nat.div_one, Nat.mul_comm]
  exact Nat.div_add_mod ga (2 ^ 30)

theorem State.localPieces_one (ga n : Nat) : s.localPieces ga n = (gangPieces ga n).map fun p => (p.1, p.2, p.1 - ga) := by
  rw [State.localPieces, ← List.filterMap_eq_map]
  refine List.filterMap_congr fun p _ => ?_
  simp [s.homeOf_one h, s.daOf_one h]

theorem State.remotePieces_one (ga n : Nat) : s.remotePieces ga n = [] := by
  rw [State.remotePieces, List.filterMap_eq_nil_iff]
  intro p _
  simp [s.homeOf_one h]

theorem State.needsLost_one (r : ReqHdr) : s.needsLost r = false := by
  rw [State.needsLost, s.remotePieces_one h]
  rfl

end

/-- The pieces of a range lie in it. -/
theorem gangPieces_within {ga n : Nat} {p : Nat × Nat} (h : p ∈ gangPieces ga n) : ga ≤ p.1 ∧ p.1 + p.2 ≤ ga + n := by
  unfold gangPieces at h
  dsimp only at h
  split at h
  · cases h
  · split at h
    · simp only [List.mem_singleton] at h
      subst h
      exact ⟨le_rfl, le_rfl⟩
    · simp only [List.mem_cons, List.not_mem_nil, or_false] at h
      rcases h with rfl | rfl <;> dsimp only <;> omega

theorem extentsIn_within {a n b m e : Nat} (ha : b ≤ a) (hn : a + n ≤ b + m) (h : e ∈ extentsIn a n) : e ∈ extentsIn b m := by
  rw [mem_extentsIn] at h ⊢
  omega

/-! ## What a store leaves (R174, R175, R180, R211) -/

theorem State.needsHome_settled {s : State} {e : Nat} (h : s.settledVolatile e = true) : s.needsHome e = false := by
  obtain ⟨x, hx, hv, -⟩ := State.settledVolatile_iff.1 h
  unfold Extent.isVolatile at hv
  rw [State.needsHome, hx]
  split at hv <;> simp_all

/-- `t` is `s` with memory `m`, and but for its tiers, in which an extent settled in DRAM stays so. -/
structure State.Stored (s t : State) (m : Memory) : Prop where
  eq : t = { s with mem := m, tier := t.tier }
  settled : ∀ e, s.settledVolatile e = true → t.settledVolatile e = true

namespace State.Stored

variable {s t : State} {m : Memory}

theorem refl (s : State) : s.Stored s s.mem := ⟨rfl, fun _ h => h⟩

theorem mem (h : s.Stored t m) : t.mem = m := by rw [h.eq]

theorem gangN (h : s.Stored t m) : t.gangN = s.gangN := by
  rw [h.eq]
  rfl

/-- A change of the tiers. -/
theorem tier (h : s.Stored t m) (x : TierSt) (hx : ∀ e, t.settledVolatile e = true →
    { t with tier := x }.settledVolatile e = true) : s.Stored { t with tier := x } m :=
  ⟨by rw [h.eq], fun e he => hx e (h.settled e he)⟩

/-- An extent that is as much settled as before. -/
theorem setExtent (h : s.Stored t m) {e : Nat} {x y : Extent} (hx : t.extent e = some x) (hh : y.home = x.home)
    (hm : y.move = x.move) : s.Stored (t.setExtent e y) m := by
  refine h.tier _ fun e' he => ?_
  change (t.setExtent e y).settledVolatile e' = true
  by_cases heq : e' = e
  · subst heq
    simpa [State.settledVolatile, hx, Extent.isVolatile, hh, hm] using he
  · rwa [State.settledVolatile, t.extent_setExtent_ne y heq]

theorem touch (h : s.Stored t m) (e : Nat) : s.Stored (t.touch e) m := by
  unfold State.touch
  split
  · rename_i x hx
    exact h.setExtent hx rfl rfl
  · exact h

theorem markWritten (h : s.Stored t m) (x : Nat) : s.Stored (t.markWritten x) m := by
  unfold State.markWritten
  split
  · rename_i x hx
    exact h.setExtent hx rfl rfl
  · exact h

theorem clearPoison (h : s.Stored t m) (x : Nat) : s.Stored (t.clearPoison x) m := h.tier _ fun _ he => he

theorem writeMem (h : s.Stored t m) (a : Nat) (bs : List Byte) : s.Stored (t.writeMem a bs) (Memory.writeN m a bs) := by
  refine ⟨?_, h.settled⟩
  rw [State.writeMem, h.mem, h.eq]

/-- What each step of a fold stores, the fold stores. -/
theorem foldl {α : Type} {g : State → α → State} (l : List α) (hg : ∀ t a, a ∈ l → s.Stored t m → s.Stored (g t a) m)
    (h : s.Stored t m) : s.Stored (l.foldl g t) m :=
  List.foldlRecOn l g h fun t ht a ha => hg t a ha ht

/-- What each step of a fold writes, the fold writes. -/
theorem foldl_writes {α : Type} {g : State → α → State} {w : Memory → α → Memory} (l : List α)
    (hg : ∀ t m a, a ∈ l → s.Stored t m → s.Stored (g t a) (w m a)) (h : s.Stored t m) :
    s.Stored (l.foldl g t) (l.foldl w m) := by
  induction l generalizing t m with
  | nil => exact h
  | cons a l ih =>
    exact ih (fun t m b hb => hg t m b (List.mem_cons_of_mem _ hb)) (hg t m a List.mem_cons_self h)

/-- A home settled in DRAM takes a write as it is. -/
theorem readyHome (h : s.Stored t m) {e : Nat} (he : s.settledVolatile e = true) : t.readyHome e = t := by
  obtain ⟨x, hx, hv, hm⟩ := State.settledVolatile_iff.1 (h.settled e he)
  unfold Extent.isVolatile at hv
  rw [State.readyHome, hx]
  split at hv <;> simp_all

/-- Bytes stored in homes settled in DRAM. -/
theorem storeDa (h : s.Stored t m) {a : Nat} {bs : List Byte} (he : ∀ e ∈ extentsIn a bs.length, s.settledVolatile e = true)
    (d pref : Nat) : s.Stored (t.storeDa d pref a bs) (Memory.writeN m a bs) := by
  unfold State.storeDa
  refine foldl _ (fun _ _ _ h => h.markWritten _) (foldl _ (fun _ _ _ h => h.clearPoison _) ?_)
  refine writeMem (foldl _ (fun u e hmem hu => ?_) h) a bs
  rw [State.needsHome_settled (hu.settled e (he e hmem)), if_neg Bool.false_ne_true, hu.readyHome (he e hmem)]
  exact hu.touch e

end State.Stored

/-! ## Stored at a gang address (R85, R167, R183) -/

section
variable {s : State} {ga : Nat} {n : Nat} (h : s.gangN = 1) (he : ∀ e ∈ extentsIn ga n, s.settledVolatile e = true)
include h he

/-- No extent needs a home. -/
theorem State.newHomes_settled : s.newHomes ga n = [] := by
  rw [State.newHomes, List.flatMap_eq_nil_iff, s.localPieces_one h]
  intro q hq
  obtain ⟨p, hp, rfl⟩ := List.mem_map.1 hq
  obtain ⟨hl, hu⟩ := gangPieces_within hp
  rw [List.filter_eq_nil_iff]
  intro e hmem
  simp [State.needsHome_settled (he e (extentsIn_within hl hu hmem))]

end

/-- The bytes of a range, piece by piece, are the bytes. -/
theorem Memory.writeN_gangPieces (m : Memory) (ga : Nat) (bs : List Byte) :
    (gangPieces ga bs.length).foldl (fun m p => Memory.writeN m p.1 ((bs.drop (p.1 - ga)).take p.2)) m =
      Memory.writeN m ga bs := by
  unfold gangPieces
  dsimp only
  generalize 2 ^ 30 - ga % 2 ^ 30 = room
  split
  · rename_i h
    rw [List.length_eq_zero_iff.1 h]
    rfl
  · split
    · simp
    · rename_i h
      have hroom : (bs.take room).length = room := List.length_take_of_le (by omega)
      rw [List.foldl_cons, List.foldl_cons, List.foldl_nil]
      dsimp only
      rw [Nat.sub_self, List.drop_zero, Nat.add_sub_cancel_left, ← List.length_drop, List.take_length]
      conv_rhs => rw [← List.take_append_drop room bs, Memory.writeN_append, hroom]

/-- Bytes stored at a gang address whose homes are settled in DRAM. -/
theorem State.stored_storeGa {s : State} (h : s.gangN = 1) {ga : Nat} {bs : List Byte}
    (he : ∀ e ∈ extentsIn ga bs.length, s.settledVolatile e = true) (n d pref : Nat) :
    s.Stored (s.storeGa n d pref ga bs) (Memory.writeN s.mem ga bs) := by
  unfold State.storeGa
  dsimp only
  rw [s.localPieces_one h, List.foldl_map]
  generalize hu : List.foldl _ s (gangPieces ga bs.length) = u
  have hs : s.Stored u (Memory.writeN s.mem ga bs) := by
    rw [← hu, ← Memory.writeN_gangPieces]
    refine State.Stored.foldl_writes _ (fun t m p hp ht => ?_) (.refl s)
    obtain ⟨hlo, hhi⟩ := gangPieces_within hp
    rw [if_pos (by rw [ht.gangN, h]; rfl)]
    refine ht.storeDa (fun e hmem => he e (extentsIn_within hlo ?_ hmem)) d pref
    rw [List.length_take, List.length_drop]
    dsimp only
    omega
  rw [State.remotePieces_one (hs.gangN.trans h)]
  exact hs

/-! ## WRITE and SECTOR WRITE (R85, R87) -/

/-- Where every extent written has its home, the quota has no say (R183). -/
theorem State.commitWrite_settled {s : State} {r : Req} (h : s.gangN = 1)
    (he : ∀ e ∈ extentsIn ((s.window r.hdr.window.toNat).base + r.hdr.offset.toNat) r.payload.length,
      s.settledVolatile e = true) (n : Nat) :
    let w := s.window r.hdr.window.toNat
    let ga := w.base + r.hdr.offset.toNat
    s.commitWrite n r = (stored ga r.payload [], s.storeGa n w.domain w.tierPref ga r.payload) := by
  simp [State.commitWrite, s.newHomes_settled h he]

/-- A request that step 11 passes again at commit is carried out, if it is a write in a gang of one (R121, R136). -/
theorem State.execute_write {s : State} {r : Req} {n cal : Nat} (hop : r.op = 0x02 ∨ r.op = 0x09) (hr : r.refusal = none)
    (hb : r.authBad = false) (hc : (s.queue r.hdr.qid.toNat).cls = 1)
    (hj : s.judge11 r.hdr r.op (s.queue r.hdr.qid.toNat).domain n (some cal) = none) (h : s.gangN = 1)
    (cells : List CellFault) : s.execute r n cal cells = s.commitWrite n r := by
  have hw : (r.op == 0x02 || r.op == 0x09) = true := by simpa using hop
  have hwin : windowed r.op = true := by rcases hop with h | h <;> rw [h] <;> rfl
  have hf : s.frozenAfter r = false := by simp [State.frozenAfter, hc]
  have hv : s.verdict11 r.hdr r.op (s.queue r.hdr.qid.toNat).domain none = (none, s) := rfl
  simp [State.execute, hr, hf, hb, hwin, hj, hv, s.needsLost_one h, hw]

/-! ## The atomics (R86) -/

/-- The value that an atomic of `k` bytes stores over another, if it stores one. -/
def Req.newValue (r : Req) (k old : Nat) : Option Nat :=
  if r.op == 5 then some ((old + fieldBE r.payload 0 k) % 2 ^ 64)
  else if old == fieldBE r.payload 0 k then some (fieldBE r.payload k k) else none

section
variable {r : Req} {k old : Nat}

theorem Req.newValue_add (h : r.op = 0x05) : r.newValue k old = some ((old + fieldBE r.payload 0 k) % 2 ^ 64) := by
  simp [Req.newValue, h]

theorem Req.newValue_swap (h : r.op ≠ 0x05) (ho : old = fieldBE r.payload 0 k) :
    r.newValue k old = some (fieldBE r.payload k k) := by
  simp [Req.newValue, h, ho]

theorem Req.newValue_keep (h : r.op ≠ 0x05) (ho : old ≠ fieldBE r.payload 0 k) : r.newValue k old = none := by
  simp [Req.newValue, h, ho]

/-- It fits in `k` bytes. -/
theorem Req.newValue_lt {v : Nat} (hk : r.op = 0x05 → k = 8) (h : r.newValue k old = some v) : v < 256 ^ k := by
  by_cases h5 : r.op = 0x05
  · obtain rfl := hk h5
    rw [Req.newValue_add h5, Option.some_inj] at h
    exact h ▸ Nat.mod_lt _ (by decide)
  · by_cases ho : old = fieldBE r.payload 0 k
    · rw [Req.newValue_swap h5 ho, Option.some_inj] at h
      exact h ▸ fieldBE_lt _ _ _
    · rw [Req.newValue_keep h5 ho] at h
      cases h

end

/-- A range within a sector lies in one extent. -/
theorem eq_extOf_of_sector {a k e : Nat} (h : secOf a = secOf (a + k - 1)) (he : e ∈ extentsIn a k) : e = extOf a := by
  rw [mem_extentsIn] at he
  unfold secOf at h
  unfold extOf
  omega

/-- An atomic reads its bytes from a home settled in DRAM, returns them, and stores there what it stores. -/
theorem State.commitAtomic_settled {s : State} {r : Req} {ga k : Nat} (h : s.gangN = 1)
    (hga : (s.window r.hdr.window.toNat).base + r.hdr.offset.toNat = ga) (hsec : secOf ga = secOf (ga + k - 1))
    (hx : s.settledVolatile (extOf ga) = true) (hp : s.poisoned (secOf ga) = false) (n : Nat) :
    let w := s.window r.hdr.window.toNat
    let old := natOfLE (s.readMem ga k)
    let u := s.chargePort r.memPort k
    s.commitAtomic n r k [] = match r.newValue k old with
      | none => ({ data := bytesBE k old, place := true }, u.touch (extOf ga))
      | some v => (stored ga (bytesLE k v) (bytesBE k old), u.storeGa n w.domain w.tierPref ga (bytesLE k v)) := by
  obtain ⟨x, hext, hv, -⟩ := State.settledVolatile_iff.1 hx
  have hflash : (x.home == .flash) = false := by
    unfold Extent.isVolatile at hv
    split at hv <;> simp_all
  have hnew : (s.chargePort r.memPort k).newHomes ga k = [] :=
    State.newHomes_settled (s := s.chargePort r.memPort k) h fun e he => by rwa [eq_extOf_of_sector hsec he]
  have hcells : s.readCells [] ga k = s := rfl
  have hext' : (s.chargePort r.memPort k).extent (extOf ga) = some x := hext
  have hp' : (s.chargePort r.memPort k).poisoned (secOf ga) = false := hp
  unfold State.commitAtomic
  dsimp only
  rw [hga, s.daOf_one h, hcells, hext]
  simp only [Option.map_some, hv, Option.getD_some, if_true, hext', hp', Option.isNone_some, hflash, Bool.and_false, hnew,
    List.isEmpty_nil, Bool.not_true, Bool.or_self, Bool.false_eq_true, if_false]
  rfl

/-- `k` bytes of `t` spell `v`, and every other byte of memory is as in `s`. -/
def State.holdsAt (s t : State) (ga k v : Nat) : Prop :=
  natOfLE (t.readMem ga k) = v ∧ ∀ a, a < ga ∨ ga + k ≤ a → Memory.read t.mem a = Memory.read s.mem a

theorem State.holdsAt_of_mem {s t : State} (h : t.mem = s.mem) (ga k : Nat) :
    s.holdsAt t ga k (natOfLE (s.readMem ga k)) := by
  rw [State.holdsAt, State.readMem, h]
  exact ⟨rfl, fun _ _ => rfl⟩

theorem State.holdsAt_of_writeN {s t : State} {ga k v : Nat} (h : t.mem = Memory.writeN s.mem ga (bytesLE k v))
    (hv : v < 256 ^ k) : s.holdsAt t ga k v := by
  have hread := Memory.readN_writeN s.mem ga (bytesLE k v)
  rw [bytesLE_length] at hread
  rw [State.holdsAt, State.readMem, h, hread, natOfLE_bytesLE, Nat.mod_eq_of_lt hv]
  exact ⟨rfl, fun a ha => Memory.read_writeN_out _ _ _ _ (by rwa [bytesLE_length])⟩

/-- An atomic in a home settled in DRAM ends with OK and the old value, and the bytes hold the new one, or still the old one where
none is stored. -/
theorem State.commitAtomic_holds {s : State} {r : Req} {ga k : Nat} (h : s.gangN = 1)
    (hga : (s.window r.hdr.window.toNat).base + r.hdr.offset.toNat = ga) (hsec : secOf ga = secOf (ga + k - 1))
    (hx : s.settledVolatile (extOf ga) = true) (hp : s.poisoned (secOf ga) = false) (hk : r.op = 0x05 → k = 8) (n : Nat) :
    let old := natOfLE (s.readMem ga k)
    let x := s.commitAtomic n r k []
    x.1.status = 0 ∧ x.1.data = bytesBE k old ∧ s.holdsAt x.2 ga k ((r.newValue k old).getD old) := by
  intro old x
  have hx' := State.commitAtomic_settled h hga hsec hx hp n
  dsimp only at hx'
  rw [show x = _ from hx']
  split
  · rename_i hv
    rw [show r.newValue k old = none from hv]
    exact ⟨rfl, rfl, State.holdsAt_of_mem ((State.Stored.refl (s.chargePort r.memPort k)).touch _).mem ga k⟩
  · rename_i v hv
    rw [show r.newValue k old = some v from hv]
    refine ⟨rfl, rfl, State.holdsAt_of_writeN (State.stored_storeGa (s := s.chargePort r.memPort k) h ?_ _ _ _).mem
      (Req.newValue_lt hk hv)⟩
    rw [bytesLE_length]
    exact fun e he => by rwa [eq_extOf_of_sector hsec he]

/-- Settles O41: a write is carried out and stores its bytes; an atomic stores its new value, if it has one. -/
theorem writesAndAtomicsCommit : Obligations.WritesAndAtomicsCommit := by
  refine ⟨?write, ?atomic⟩
  case write =>
    intro s r n cal cells hop hr hb hc hj h ga he
    have hvol : ∀ e ∈ extentsIn ga r.payload.length, s.settledVolatile e = true := fun e hmem =>
      State.settledVolatile_iff.2 (he e hmem)
    have hstore := State.stored_storeGa h hvol n (s.window r.hdr.window.toNat).domain (s.window r.hdr.window.toNat).tierPref
    rw [State.execute_write hop hr hb hc hj h, State.commitWrite_settled h hvol]
    refine ⟨rfl, fun a => ?_⟩
    rw [hstore.mem, Memory.read_writeN]
  case atomic =>
    intro s r n h ga w h16 h8 hop hsec hx hp old x holds
    obtain ⟨hstatus, hdata, hholds⟩ := State.commitAtomic_holds h rfl hsec (State.settledVolatile_iff.2 hx) hp
      (fun h5 => h8 (.inr h5)) n
    refine ⟨hstatus, hdata, fun h5 => ?_, fun h5 heq => ?_, fun h5 hne => ?_⟩
    · obtain rfl := h8 (.inr h5)
      rwa [Req.newValue_add h5] at hholds
    · rwa [Req.newValue_swap h5 heq] at hholds
    · rwa [Req.newValue_keep h5 hne] at hholds

end Sys2Proof.Machine

/-! PROOFS. The doorbell of queue 0, and IDENTIFY answered in its slots (R80, R82, R83, R104). -/

namespace Sys2Proof.Machine

/-! ## Memory region 1 (R82) -/

/-- A table after bytes were set one behind another. -/
theorem mgetD_foldl_mset (f : Nat → Byte) (off n : Nat) (m : NMap Byte) {i : Nat} (h : i < n) :
    mgetD ((List.range n).foldl (fun m i => mset 0 m (off + i) (f i)) m) (off + i) 0 = f i := by
  induction n with
  | zero => omega
  | succ n ih =>
    rw [List.range_succ, List.foldl_append, List.foldl_cons, List.foldl_nil]
    obtain rfl | hi : i = n ∨ i < n := by omega
    · exact mgetD_mset_self _ _ _ _
    · rw [mgetD_mset_ne _ _ _ _ (by omega), ih hi]

/-- Bytes written into the region are read back. -/
theorem State.getRegion1_setRegion1 (s : State) (off : Nat) (bs : List Byte) :
    (s.setRegion1 off bs).getRegion1 off bs.length = bs := by
  refine List.ext_getElem (by simp [State.getRegion1]) fun i _ hi => ?_
  simp only [State.getRegion1, State.setRegion1, List.getElem_map, List.getElem_range]
  rw [mgetD_foldl_mset (fun i => bs.getD i 0) _ _ _ hi, List.getD_eq_getElem _ _ hi]

@[simp] theorem State.setRegion1_adm0Busy (s : State) (off : Nat) (bs : List Byte) :
    (s.setRegion1 off bs).q.adm0Busy = s.q.adm0Busy := rfl

/-! ## The answer in the slots (R82) -/

/-- Queue 0's answer: BUSY clears, DONE and the event are set, and but for the region nothing else changes there. -/
theorem State.adm0Answer_leaves (s : State) (r : Req) (status : Nat) (data : List Byte) :
    let t := s.adm0Answer r status data
    (t.q.adm0Busy = false ∧ t.q.adm0Done = true ∧ t.q.adm0Segs = (segments data).length ∧
      t.evt QMG.page QMG.evADM0_DONE = true) ∧ t.win = s.win ∧ t.cm = s.cm ∧ t.key = s.key ∧ t.mem = s.mem := by
  unfold State.adm0Answer
  dsimp only
  generalize hu : List.foldl _ s _ = u
  have hkeeps : ∀ {α : Type} (p : State → α), (∀ (t : State) off bs o, p ((t.setRegion1 off bs).send o) = p t) →
      p u = p s := by
    intro α p hp
    rw [← hu]
    exact foldl_keeps p (fun _ _ => hp _ _ _ _) _ s
  refine ⟨⟨?_, ?_, ?_, State.evt_raise_self _ _ _ (by decide)⟩, ?_, ?_, ?_, ?_⟩
  · rw [State.raise_q, State.countLatency]
  · rw [State.raise_q, State.countLatency]
  · rw [State.raise_q, State.countLatency]
  · rw [State.raise_win, State.countLatency, hkeeps State.win fun _ _ _ _ => rfl]
  · rw [State.raise_cm, State.countLatency, hkeeps State.cm fun _ _ _ _ => rfl]
  · rw [State.raise_key, State.countLatency, hkeeps State.key fun _ _ _ _ => rfl]
  · rw [State.raise_mem, State.countLatency, hkeeps State.mem fun _ _ _ _ => rfl]

/-! ## IDENTIFY on queue 0 (R80, R83, R104) -/

section
variable (s : State) (q : QueueSt)

/-- What a read of a NOR bank waits for has nothing to do with the queues (R352). -/
theorem State.norStalled_queues (bank : Nat) : { s with q := q }.norStalled bank = { s.norStalled bank with q := q } := by
  unfold State.norStalled State.norApply
  dsimp only
  split
  · split <;> rfl
  · rfl

theorem State.fwVersion_queues (bank : Nat) : { s with q := q }.fwVersion bank = s.fwVersion bank := by
  rw [State.fwVersion, State.norStalled_queues, State.fwVersion]
  rfl

/-- IDENTIFY tells nothing of the queues (R104). -/
theorem State.identify_queues : { s with q := q }.identify = s.identify := by
  unfold State.identify
  simp only [State.fwVersion_queues]
  rfl

end

/-- A request for IDENTIFY on queue 0. -/
def identifyReq (h : ReqHdr) (time epoch : Nat) : Req :=
  { hdr := { h with qid := 0 }, op := 0x20, payload := [], time := time, epoch := epoch, arrived := epoch }

/-- The doorbell rung: a request is in progress, and none has ended. -/
def State.rung (s : State) : State := { s with q := { s.q with adm0Busy := true, adm0Done := false } }

/-- The doorbell with a header of an IDENTIFY in the buffer: the request is run. -/
theorem State.doorbell_identify {s : State} {h : ReqHdr} (hb : s.q.adm0Busy = false)
    (hr : s.getRegion1 0 32 = encodeReq h 0x20) :
    s.doorbell = s.rung.runQueue0 (identifyReq h s.now s.ep.num) := by
  have hread : { s with q := { s.q with adm0Busy := true, adm0Done := false } }.getRegion1 0 32 = encodeReq h 0x20 :=
    hr
  have hparse := parseReq_encodeReq h (op := 0x20) [] (by decide)
  rw [List.append_nil] at hparse
  rw [State.doorbell, if_neg (by simp [hb])]
  dsimp only
  rw [hread, hparse]
  rfl

section
variable {h : ReqHdr} (hw : h.window = 0) (hg : h.gen = 0) (hk : h.wkey = 0) (ho : h.offset = 0) (hl : h.length = 0)
include hw hg hk ho hl

/-- With its fields 0 it passes step 10. -/
theorem State.step10_identify (s : State) (time epoch : Nat) : s.step10 (identifyReq h time epoch) 0 = none := by
  have hq : s.queue 0 = queue0 := rfl
  simp [State.step10, identifyReq, hq, queue0, opClass, opQueue0, zeroContract, opPriv, fieldFault, windowed, rangeless,
    payloadLen, hw, hg, hk, ho, hl]

/-- It is answered at once. -/
theorem State.runQueue0_identify (s : State) (time epoch : Nat) : s.runQueue0 (identifyReq h time epoch) =
    (s.adminStalls (identifyReq h time epoch) 0).adm0Answer (identifyReq h time epoch) 0 s.identify := by
  rw [State.runQueue0, State.step10_identify hw hg hk ho hl]
  rfl

/-- An IDENTIFY in the buffer, its fields 0, is answered with its data. -/
theorem State.doorbell_identify_leaves {s : State} (hb : s.q.adm0Busy = false) (hr : s.getRegion1 0 32 = encodeReq h 0x20) :
    let t := s.doorbell
    (t.q.adm0Busy = false ∧ t.q.adm0Done = true ∧ t.q.adm0Segs = (segments s.identify).length ∧
      t.evt QMG.page QMG.evADM0_DONE = true) ∧ t.win = s.win ∧ t.cm = s.cm ∧ t.key = s.key ∧ t.mem = s.mem := by
  rw [State.doorbell_identify hb hr, State.runQueue0_identify hw hg hk ho hl]
  have hid : s.rung.identify = s.identify := s.identify_queues _
  have hkeeps : ∀ {α : Type} (p : State → α), (∀ (t : State) f n, p (t.inc f n) = p t) →
      p (s.rung.adminStalls (identifyReq h s.now s.ep.num) 0) = p s.rung := fun p hp =>
    State.adminStalls_induct (P := fun t => p t = p s.rung) (fun _ ht => (hp _ _ _).trans ht) rfl _ _
  obtain ⟨htold, hwin, hcm, hkey, hmem⟩ := State.adm0Answer_leaves (s.rung.adminStalls (identifyReq h s.now s.ep.num) 0)
    (identifyReq h s.now s.ep.num) 0 s.identify
  rw [hid]
  exact ⟨htold, hwin.trans (hkeeps State.win fun _ _ _ => rfl), hcm.trans (hkeeps State.cm fun _ _ _ => rfl),
    hkey.trans (hkeeps State.key fun _ _ _ => rfl), hmem.trans (hkeeps State.mem fun _ _ _ => rfl)⟩

end

/-! ## The doorbell (R80, R82) -/

theorem State.sameCommit_settled {s t : State} (h : t.cm = s.cm) (u : State) : s.sameCommit (u.settled t) := by
  have hs := State.settled_sameCommit u t
  rwa [State.sameCommit, h] at hs

theorem State.sameKeys_settled {s t : State} (h : t.key = s.key) (u : State) : s.sameKeys (u.settled t) := by
  have hs := State.settled_sameKeys u t
  rwa [State.sameKeys, h] at hs

/-- ADM0_DOORBELL through an endpoint whose link is up: the bytes go into the buffer, and the doorbell rings. -/
theorem State.gives_adm0Doorbell {s : State} (hd : s.dpUp = true) (hl : s.flag PCE.LINK_UP = true) (time : Nat)
    (request : List Byte) :
    s.gives (.adm0Doorbell .pcie time request) ((s.at time).setRegion1 0 (request.take 16384)).doorbell := by
  have hlink : (s.at time).flag PCE.LINK_UP = true := hl
  have hsubmit : (s.at time).adm0Submit .pcie request = ((s.at time).setRegion1 0 (request.take 16384)).doorbell := by
    simp [State.adm0Submit, hlink]
  rw [← hsubmit]
  exact congrArg Host.Outcome.next (State.whenDp_up hd _)

/-- Settles O35: the doorbell of a request in progress is no more than told; IDENTIFY is read from the buffer, runs, and is
answered in the slots. -/
theorem queueZeroDoorbell : Obligations.QueueZeroDoorbell := by
  intro s time hd hl
  refine ⟨fun hb request => ?busy, fun hb h hw hg hk ho hn => ?idle⟩
  case busy =>
    have hbusy := ((s.at time).setRegion1_adm0Busy 0 (request.take 16384)).trans hb
    have hgives := State.gives_adm0Doorbell hd hl time request
    rwa [State.doorbell, if_pos hbusy] at hgives
  case idle =>
    have htake : (encodeReq h 0x20).take 16384 = encodeReq h 0x20 := List.take_of_length_le (by simp)
    have hread := (s.at time).getRegion1_setRegion1 0 (encodeReq h 0x20)
    rw [encodeReq_length] at hread
    have hgives := State.gives_adm0Doorbell hd hl time (encodeReq h 0x20)
    rw [htake] at hgives
    have hidle := ((s.at time).setRegion1_adm0Busy 0 (encodeReq h 0x20)).trans hb
    obtain ⟨⟨hbusy, hdone, hsegs, hevt⟩, (hwin : _ = s.win), (hcm : _ = s.cm), (hkey : _ = s.key),
      (hmem : _ = s.mem)⟩ := State.doorbell_identify_leaves hw hg hk ho hn hidle hread
    have hid : ((s.at time).setRegion1 0 (encodeReq h 0x20)).identify = (s.at time).identify :=
      (s.at time).identify_queues _
    generalize ((s.at time).setRegion1 0 (encodeReq h 0x20)).doorbell = t at *
    refine hgives.answers ?_
    rw [State.settled_q, State.settled_win]
    exact ⟨hbusy, hdone, hid ▸ hsegs, State.evt_settled hevt (by decide) s, hwin, State.sameCommit_settled hcm s,
      State.sameKeys_settled hkey s, State.sameMemory_settled hmem s⟩

end Sys2Proof.Machine

/-! PROOFS. Frames of the adit link as they are received: dropped, kept waiting, or taken in their place of the order of frames
(R151 to R154, R294, R297). -/

namespace Sys2Proof.Machine

/-- A row of the adit link is the reception of its frame. -/
theorem exec_aditRow {c : Instr} {f : LinkFrame} {typ : Nat} (h : aditRow c = some (f, typ)) (s : State) :
    exec c s = .next (s.whenDp fun s => s.aditFrame typ f) := by
  unfold aditRow at h
  split at h <;> cases h <;> rfl

/-- A frame that brings no payload leaves what its reception does. -/
theorem State.aditFrame_of_none {s u : State} {typ : Nat} {f : LinkFrame} (h : s.recvAdit typ f = (none, u)) :
    s.aditFrame typ f = u := by
  rw [State.aditFrame, h]

theorem State.gives_of_recvAdit_none {s u : State} {c : Instr} {f : LinkFrame} {typ : Nat}
    (hc : aditRow c = some (f, typ)) (hd : s.dpUp = true) (h : s.recvAdit typ f = (none, u)) : s.gives c u := by
  rw [State.gives, exec_aditRow hc, State.whenDp_up hd, State.aditFrame_of_none h]

/-! ## Codewords counted (R151, R157) -/

theorem State.Told.aditFec {s t : State} (h : s.Told t) (corr uncorr : Nat) : s.Told (t.aditFec corr uncorr) :=
  ((h.inc _).inc _).raiseIf _ _ _

/-- A frame whose codewords have been counted. -/
def State.aditHeard (s : State) (f : LinkFrame) : State := (s.at f.time).aditFec f.fecCorr f.fecUncorr

theorem State.told_aditHeard (s : State) (f : LinkFrame) : s.Told (s.aditHeard f) :=
  ((State.Told.refl s).atTime _).aditFec _ _

@[simp] theorem State.aditHeard_key (s : State) (f : LinkFrame) : (s.aditHeard f).key = s.key := by
  simp [State.aditHeard, State.aditFec]

theorem State.aditHeard_sealEn (s : State) (f : LinkFrame) : (s.aditHeard f).flag ADT.SEAL_EN = s.flag ADT.SEAL_EN :=
  (s.told_aditHeard f).flag (by decide)

theorem State.aditHeard_chanWaits (s : State) (f : LinkFrame) (i : Nat) : (s.aditHeard f).chanWaits i = s.chanWaits i := by
  rw [State.chanWaits, State.channelOf, State.aditHeard_key, State.chanWaits, State.channelOf]

/-- The key of a direction hangs on the setting that names it and the keys loaded. -/
theorem State.aditKey_congr {s t : State} {tx : Bool} (hk : t.key = s.key)
    (hr : t.get (aditInst tx) = s.get (aditInst tx)) : t.aditKey tx = s.aditKey tx := by
  rw [State.aditKey, hr, State.keyInst, hk, State.aditKey, State.keyInst]

/-! ## Frames that are not taken (R152, R154, R297) -/

section
variable {s : State} {f : LinkFrame} (typ : Nat)

theorem State.recvAdit_down (h : s.flag ADT.LINK_UP = false) : s.recvAdit typ f = (none, s.at f.time) := by
  have hl : (s.at f.time).flag ADT.LINK_UP = false := h
  simp [State.recvAdit, hl]

section
variable (hd : s.dpUp = true) (hl : s.flag ADT.LINK_UP = true)
include hd hl

/-- With the link up a sealed frame waits for its channel; any other is counted, and goes on where its CRC is right. -/
theorem State.recvAdit_up : s.recvAdit typ f =
    if s.flag ADT.SEAL_EN && s.chanWaits 17 then
      (none, { s.aditHeard f with
        key := { s.key with haltAdit := s.key.haltAdit ++ [(typ, { f with fecCorr := 0, fecUncorr := 0 })] } })
    else if f.crcOk typ then ((s.aditHeard f).inc ADT.RX_FRAMES).openAdit typ f
    else (none, ((s.aditHeard f).inc ADT.RX_FRAMES).dropAdit) := by
  have hd' : (s.at f.time).dpUp = true := hd
  have hl' : (s.at f.time).flag ADT.LINK_UP = true := hl
  have hseal := s.aditHeard_sealEn f
  have hwait := s.aditHeard_chanWaits f 17
  have hkey := s.aditHeard_key f
  unfold State.recvAdit
  dsimp only
  rw [if_neg (by simp [hd', hl'])]
  unfold State.aditHeard at *
  rw [hseal, hwait, hkey]

theorem State.recvAdit_waits (hs : s.flag ADT.SEAL_EN = true) (hw : s.chanWaits 17 = true) : s.recvAdit typ f =
    (none, { s.aditHeard f with
      key := { s.key with haltAdit := s.key.haltAdit ++ [(typ, { f with fecCorr := 0, fecUncorr := 0 })] } }) := by
  rw [State.recvAdit_up typ hd hl, if_pos (by simp [hs, hw])]

/-- A frame in clear with a tag, or with a wrong CRC. -/
theorem State.recvAdit_clear_bad (hs : s.flag ADT.SEAL_EN = false) (hb : f.crcOk typ = false ∨ f.tag ≠ []) :
    s.recvAdit typ f = (none, ((s.aditHeard f).inc ADT.RX_FRAMES).dropAdit) := by
  have hseal : ((s.aditHeard f).inc ADT.RX_FRAMES).flag ADT.SEAL_EN = false :=
    (((s.told_aditHeard f).inc _).flag (by decide)).trans hs
  rw [State.recvAdit_up typ hd hl, if_neg (by simp [hs])]
  split
  · rename_i hc
    have htag : f.tag ≠ [] := hb.resolve_left (by simp [hc])
    simp [State.openAdit, hseal, htag]
  · rfl

/-- A sealed frame without a key, or with a wrong CRC. -/
theorem State.recvAdit_sealed_bad (hs : s.flag ADT.SEAL_EN = true) (hw : s.chanWaits 17 = false)
    (hb : f.crcOk typ = false ∨ s.aditKey false = none) :
    s.recvAdit typ f = (none, ((s.aditHeard f).inc ADT.RX_FRAMES).dropAdit) := by
  have ht := (s.told_aditHeard f).inc (g := ADT.RX_FRAMES) 1
  have hseal : ((s.aditHeard f).inc ADT.RX_FRAMES).flag ADT.SEAL_EN = true := (ht.flag (by decide)).trans hs
  have hkey : ((s.aditHeard f).inc ADT.RX_FRAMES).aditKey false = s.aditKey false :=
    State.aditKey_congr (s.aditHeard_key f) (ht.regs _ (by decide))
  rw [State.recvAdit_up typ hd hl, if_neg (by simp [hw])]
  split
  · rename_i hc
    have hnone : s.aditKey false = none := hb.resolve_left (by simp [hc])
    simp [State.openAdit, hseal, hkey, hnone]
  · rfl

end

end

/-! ## The next frame, in clear (R152, R153) -/

/-- What `State.nextFrame` says. -/
theorem State.nextFrame_iff {s : State} {f : LinkFrame} {typ : Nat} : s.nextFrame f typ = true ↔
    s.dpUp = true ∧ s.flag ADT.LINK_UP = true ∧ s.flag ADT.SEAL_EN = false ∧ f.crcOk typ = true ∧ f.tag = [] ∧
      (s.cm.rxAny = false ∨ f.fseq.toNat = s.cm.rxSeq) := by
  simp [State.nextFrame, and_assoc]

/-- Its payload is taken, and the frame after it expected. -/
theorem State.recvAdit_next {s : State} {f : LinkFrame} {typ : Nat} (h : s.nextFrame f typ = true) :
    s.recvAdit typ f = (some f.body, s.tookFrame f) := by
  obtain ⟨hd, hl, hs, hc, htag, hseq⟩ := State.nextFrame_iff.1 h
  have ht := (s.told_aditHeard f).inc (g := ADT.RX_FRAMES) 1
  have hseal : ((s.aditHeard f).inc ADT.RX_FRAMES).flag ADT.SEAL_EN = false := (ht.flag (by decide)).trans hs
  have hnext : (!s.cm.rxAny || f.fseq.toNat == s.cm.rxSeq) = true := by simpa using hseq
  rw [State.recvAdit_up typ hd hl, if_neg (by simp [hs]), if_pos hc]
  simp only [State.openAdit, hseal, htag, State.inSequence, State.sequence, ht.cm, hnext, Bool.not_false, if_true,
    List.isEmpty_nil]
  rw [← ht.cm]
  rfl

section
variable (s : State) (f : LinkFrame)

/-- What is neither told nor the link's place in the order of frames is as before. -/
theorem State.tookFrame_asks {α : Type} (p : State → α) (hcore : ∀ u : State, p u.core = p u)
    (hseq : ∀ (u : State) n b, p { u with cm := { u.cm with rxSeq := n, rxAny := b } } = p u) : p (s.tookFrame f) = p s :=
  (hseq _ _ _).trans (((s.told_aditHeard f).inc (g := ADT.RX_FRAMES) 1).asksCore p hcore)

@[simp] theorem State.tookFrame_cm :
    (s.tookFrame f).cm = { s.cm with rxSeq := (f.fseq.toNat + 1) % 2 ^ 32, rxAny := true } := by
  rw [← (s.told_aditHeard f).cm]
  rfl

@[simp] theorem State.tookFrame_twin : (s.tookFrame f).cm.twin = s.cm.twin := by rw [State.tookFrame_cm]

@[simp] theorem State.tookFrame_ep : (s.tookFrame f).ep = s.ep := s.tookFrame_asks f State.ep (fun _ => rfl) fun _ _ _ => rfl
@[simp] theorem State.tookFrame_mem : (s.tookFrame f).mem = s.mem := s.tookFrame_asks f State.mem (fun _ => rfl) fun _ _ _ => rfl
@[simp] theorem State.tookFrame_mus : (s.tookFrame f).mus = s.mus := s.tookFrame_asks f State.mus (fun _ => rfl) fun _ _ _ => rfl
@[simp] theorem State.tookFrame_pwr : (s.tookFrame f).pwr = s.pwr := s.tookFrame_asks f State.pwr (fun _ => rfl) fun _ _ _ => rfl

@[simp] theorem State.tookFrame_epochRec (n : Nat) : (s.tookFrame f).epochRec n = s.epochRec n := by
  rw [State.epochRec, State.tookFrame_cm, State.epochRec]

theorem State.tookFrame_get {g : Fld} (hg : g.standing = true) : (s.tookFrame f).get g = s.get g :=
  ((s.told_aditHeard f).inc (g := ADT.RX_FRAMES) 1).regs g hg

theorem State.tookFrame_flag {g : Fld} (hg : g.standing = true) : (s.tookFrame f).flag g = s.flag g := by
  rw [State.flag, s.tookFrame_get f hg, State.flag]

theorem State.tookFrame_daOf (ga : Nat) : (s.tookFrame f).daOf ga = s.daOf ga :=
  ((s.told_aditHeard f).inc (g := ADT.RX_FRAMES) 1).daOf ga

end

/-- What the payload of a frame does by its TYPE (R152). -/
def State.heeds (s : State) (typ : Nat) (f : LinkFrame) : State :=
  match typ with
  | 1 => s.takeTally f.epoch.toNat f.time f.body
  | 2 => s.takeRepair f.epoch.toNat f.time f.body
  | 3 => s.takeWhole f.epoch.toNat
  | 4 => s.takeMarker f.epoch.toNat f.time
  | 5 => s.takeResume f.body
  | 6 => s.takeRehome f.epoch.toNat f.body
  | 7 | 8 => s.takeDepart
  | 9 => s.takeResend f.body
  | _ => s.dropAdit

/-- The next frame does what its TYPE says. -/
theorem State.gives_of_nextFrame {s : State} {c : Instr} {f : LinkFrame} {typ : Nat} (hc : aditRow c = some (f, typ))
    (h : s.nextFrame f typ = true) : s.gives c ((s.tookFrame f).heeds typ f) := by
  rw [State.gives, exec_aditRow hc, State.whenDp_up (State.nextFrame_iff.1 h).1, State.aditFrame, State.recvAdit_next h]
  unfold aditRow at hc
  split at hc <;> cases hc <;> rfl

/-! ## What each frame does (R28, R134, R144, R149, R153) -/

theorem State.takeWhole_paired {s : State} (h : s.cm.twin = .paired) (n : Nat) :
    s.takeWhole n = (s.setEpochRec n { s.epochRec n with peerHolds := true }).settle := by
  simp [State.takeWhole, h]

theorem State.takeWhole_unpaired {s : State} (h : s.cm.twin ≠ .paired) (n : Nat) : s.takeWhole n = s := by
  simp [State.takeWhole, h]

theorem State.takeMarker_follower {s : State} (hp : s.pwr.twinPos = 1) (he : s.flag EPC.RELAY_EN = true)
    (hf : s.flag EPC.FORCE_HOLDOVER = false) (n t : Nat) : s.takeMarker n t = { s with ep := { s.ep with
      markers := s.ep.markers.filter (fun m => s.ep.num ≤ m.num + 1) ++ [⟨n, t⟩] } } := by
  simp [State.takeMarker, hp, he, hf]

theorem State.takeMarker_ignored {s : State}
    (h : s.pwr.twinPos ≠ 1 ∨ s.flag EPC.RELAY_EN = false ∨ s.flag EPC.FORCE_HOLDOVER = true) (n t : Nat) :
    s.takeMarker n t = s := by
  unfold State.takeMarker
  rcases h with h | h | h <;> simp [h]

/-- DEPART and YIELD: of a pair kept for the next boundary, but not during a muster. -/
theorem State.takeDepart_eq (s : State) : s.takeDepart =
    if (s.cm.twin = .paired ∨ s.cm.yieldNext = true) ∧ s.mus.stopped = false then
      { s.raise CMT.page CMT.evDEPART_RX with cm := { (s.raise CMT.page CMT.evDEPART_RX).cm with departed := true } }
    else s.raise CMT.page CMT.evDEPART_RX := by
  simp [State.takeDepart]

theorem State.takeRehome_other {s : State} (h : s.cm.twin ≠ .returning) (n : Nat) (p : List Byte) : s.takeRehome n p = s := by
  simp [State.takeRehome, h]

theorem State.takeRehome_record {s : State} (h : s.cm.twin = .returning) {p : List Byte}
    (hw : bitsOf (fieldBE p 0 8) 56 2 = 0) (n : Nat) : s.takeRehome n p =
      s.takeRecord (bitsOf (fieldBE p 0 8) 40 10) (bitsOf (fieldBE p 0 8) 0 40) n (p.drop 8) := by
  simp [State.takeRehome, h, hw]

theorem State.takeRehome_data {s : State} (h : s.cm.twin = .returning) {p : List Byte}
    (hw : bitsOf (fieldBE p 0 8) 56 2 ≠ 0) (n : Nat) : s.takeRehome n p =
      (s.writeMem (s.daOf (bitsOf (fieldBE p 0 8) 0 50)) (p.drop 8)).chargePort 19 (p.drop 8).length := by
  simp [State.takeRehome, h, hw]

/-- Frames sent again: which of them are kept, and the epoch by which they are, is the same for each. -/
theorem State.takeResend_eq (s : State) (p : List Byte) : s.takeResend p =
    (List.range (fieldBE p 4 2)).foldl (fun v i =>
      match s.cm.kept.find? fun e => e.2.1.fseq % 2 ^ 32 == (fieldBE p 0 4 + i) % 2 ^ 32 && s.ep.num ≤ e.1 + 1 with
      | some e => (v.inc ADT.TX_FRAMES).send (.adit e.2.1 e.2.2)
      | none => v.raise ADT.page ADT.evRESEND_FAIL) (s.inc ADT.RESEND_RX) := by
  unfold State.takeResend
  dsimp only
  generalize hv : s.inc ADT.RESEND_RX = v
  have hcm : v.cm = s.cm := by rw [← hv, State.inc_cm]
  have hep : v.ep = s.ep := by rw [← hv, State.inc_ep]
  clear hv
  induction List.range (fieldBE p 4 2) generalizing v with
  | nil => rfl
  | cons i l ih =>
    rw [List.foldl_cons, List.foldl_cons, hcm, hep]
    cases s.cm.kept.find? fun e => e.2.1.fseq % 2 ^ 32 == (fieldBE p 0 4 + i) % 2 ^ 32 && s.ep.num ≤ e.1 + 1 with
    | some e => exact ih _ hcm hep
    | none => exact ih _ ((State.raise_cm _ _ _).trans hcm) ((State.raise_ep _ _ _).trans hep)

/-- Settles O37: frames that are not taken by the branches of their reception; the next frame in clear by what its TYPE does in
the state that took it. -/
theorem aditFrames : Obligations.AditFrames := by
  refine ⟨fun s c f typ hc hd => ⟨fun hl => ?down, fun hl hs hb => ?clear, fun hl hs hw => ?waits,
    fun hl hs hw hb => ?sealed⟩, fun s f => ⟨fun h ht => ?whole, fun h ht => ?notPaired, fun h hp he hf => ?marker,
    fun h hi => ?noMarker, ⟨fun h => ?depart, fun h => ?yield⟩, fun h ht hw => ?bytes, fun h ht hw => ?record,
    fun h ht => ?notReturning, fun h => ?resend⟩⟩
  case down => exact State.gives_of_recvAdit_none hc hd (State.recvAdit_down typ hl)
  case clear => exact State.gives_of_recvAdit_none hc hd (State.recvAdit_clear_bad typ hd hl hs hb)
  case waits => exact State.gives_of_recvAdit_none hc hd (State.recvAdit_waits typ hd hl hs hw)
  case sealed => exact State.gives_of_recvAdit_none hc hd (State.recvAdit_sealed_bad typ hd hl hs hw hb)
  case whole =>
    have hg := State.gives_of_nextFrame (c := .unionWhole f) rfl h
    rwa [State.heeds, State.takeWhole_paired ((s.tookFrame_twin f).trans ht), State.tookFrame_epochRec] at hg
  case notPaired =>
    have hg := State.gives_of_nextFrame (c := .unionWhole f) rfl h
    rwa [State.heeds, State.takeWhole_unpaired ((s.tookFrame_twin f).trans_ne ht)] at hg
  case marker =>
    have hg := State.gives_of_nextFrame (c := .relay f) rfl h
    rwa [State.heeds, State.takeMarker_follower (by simpa using hp) ((s.tookFrame_flag f (by decide)).trans he)
      ((s.tookFrame_flag f (by decide)).trans hf), State.tookFrame_ep] at hg
  case noMarker =>
    have hg := State.gives_of_nextFrame (c := .relay f) rfl h
    rwa [State.heeds, State.takeMarker_ignored] at hg
    rwa [State.tookFrame_pwr, s.tookFrame_flag f (by decide), s.tookFrame_flag f (by decide)]
  case depart =>
    have hg := State.gives_of_nextFrame (c := .depart f) rfl h
    rwa [State.heeds, State.takeDepart_eq, State.tookFrame_cm, State.tookFrame_mus] at hg
  case yield =>
    have hg := State.gives_of_nextFrame (c := .yield f) rfl h
    rwa [State.heeds, State.takeDepart_eq, State.tookFrame_cm, State.tookFrame_mus] at hg
  case bytes =>
    have hg := State.gives_of_nextFrame (c := .rehome f) rfl h
    rw [State.heeds, State.takeRehome_data ((s.tookFrame_twin f).trans ht) hw, State.tookFrame_daOf] at hg
    refine ⟨_, hg, fun a => ?_⟩
    rw [← s.tookFrame_mem f]
    exact Memory.read_writeN _ _ _ a
  case record =>
    have hg := State.gives_of_nextFrame (c := .rehome f) rfl h
    rwa [State.heeds, State.takeRehome_record ((s.tookFrame_twin f).trans ht) hw] at hg
  case notReturning =>
    have hg := State.gives_of_nextFrame (c := .rehome f) rfl h
    rwa [State.heeds, State.takeRehome_other ((s.tookFrame_twin f).trans_ne ht)] at hg
  case resend =>
    have hg := State.gives_of_nextFrame (c := .resend f) rfl h
    rw [State.heeds, State.takeResend_eq, State.tookFrame_cm, State.tookFrame_ep] at hg
    exact hg

end Sys2Proof.Machine

/-! PROOFS. TALLY_DEADLINE where two records stand under the number of one epoch (R133). -/

namespace Sys2Proof.Machine

/-- A pair at epoch 2 whose epoch 1 has ended with two records: by the first the peer's tally is whole, by the second it is late. -/
def twiceRecorded : State :=
  { State.reset with
    pwr := { seq := .on, rstCond := 0 }, ep := { num := 2 }
    cm := { State.reset.cm with
      twin := .paired, ended := [1], ep := [(1, { peer := { whole := true } }), (1, { peer := { late := true } })] } }

/-- TALLY_LATE after a command. -/
def State.latesAfter (s : State) (c : Instr) : Option Nat :=
  match exec c s with
  | .next t => some (t.get CMT.TALLY_LATE)
  | _ => none

theorem State.latesAfter_of_gives {s t : State} {c : Instr} (h : s.gives c t) :
    s.latesAfter c = some (t.get CMT.TALLY_LATE) := by
  rw [State.latesAfter, h]
  exact congrArg some (State.get_settled s t (by decide))

/-- The deadline finds the second record, not whole, and counts the first as late. -/
theorem twiceRecorded_latesAfter : twiceRecorded.latesAfter (.tallyDeadline 0) = some 1 := by decide +kernel

/-- Refutes O39: that a deadline counts nothing where every record is late, whole or solo. The deadline is judged by the last
record of an epoch that has ended, and the late tally entered in the first record under that epoch's number; where the two are
not one (`twiceRecorded`), a tally that is whole is counted as late. -/
theorem not_twinLinkAndLimits : ¬ Obligations.TwinLinkAndLimits := by
  rintro ⟨-, -, h⟩
  obtain ⟨-, hnothing, -⟩ := h twiceRecorded (by decide +kernel)
  have hgives := hnothing 0 (by decide +kernel)
  exact absurd (twiceRecorded_latesAfter.symm.trans (State.latesAfter_of_gives hgives)) (by decide +kernel)

end Sys2Proof.Machine

/-! PROOFS. Tallies and repairs received (R59, R132 to R134): which keys change their epoch, what a frame of a tally adds to the
peer's figures and keys, and the request that a repair brings. -/

namespace Sys2Proof.Machine

/-! ## What the peer's tally says -/

/-- `t` is `s` but for its epochs, entries, counters, events and wake sources, and in `t` the peer's tally for epoch `n` says
what it said in `s`, late or not. -/
structure State.TallyKept (n : Nat) (s t : State) : Prop where
  mem : t.mem = s.mem
  cm : t.cm = { s.cm with ep := t.cm.ep }
  peer : { (t.epochRec n).peer with late := false } = { (s.epochRec n).peer with late := false }

namespace State.TallyKept

variable {n : Nat} {s t : State}

theorem refl (n : Nat) (s : State) : s.TallyKept n s := ⟨rfl, rfl, rfl⟩

section
variable (h : s.TallyKept n t)
include h

/-- What is read of the tally beside its lateness is the same. -/
theorem asks {α : Type} (p : PeerTally → α) (hp : ∀ (x : PeerTally) b, p { x with late := b } = p x) :
    p (t.epochRec n).peer = p (s.epochRec n).peer := by
  rw [← hp (t.epochRec n).peer false, h.peer, hp]

/-- What is read of the commit unit beside its epochs is the same. -/
theorem commits {α : Type} (p : CommitSt → α) (hp : ∀ (c : CommitSt) ep, p { c with ep := ep } = p c) : p t.cm = p s.cm := by
  rw [h.cm, hp]

/-- A change outside memory and the commit unit. -/
theorem aside {u : State} (hm : u.mem = t.mem) (hc : u.cm = t.cm) : s.TallyKept n u :=
  ⟨hm.trans h.mem, by rw [hc]; exact h.cm, by rw [State.epochRec, hc]; exact h.peer⟩

theorem setEntry (e : RrtEntry) : s.TallyKept n (t.setEntry e) := h.aside rfl rfl

theorem inc (f : Fld) (k : Nat) : s.TallyKept n (t.inc f k) := h.aside (t.inc_mem f k) (t.inc_cm f k)

theorem raise (p b : Nat) : s.TallyKept n (t.raise p b) := h.aside (t.raise_mem p b) (t.raise_cm p b)

/-- The record of another epoch written. -/
theorem setOther {m : Nat} (hm : n ≠ m) (e : EpochRec) : s.TallyKept n (t.setEpochRec m e) :=
  ⟨h.mem, by rw [State.setEpochRec, h.cm], by
    rw [State.epochRec, State.setEpochRec, mgetD_mput_ne _ _ _ hm]
    exact h.peer⟩

/-- The epoch's own record written, with the tally as it was but for its lateness. -/
theorem setOwn {e : EpochRec}
    (he : { e.peer with late := false } = { (t.epochRec n).peer with late := false } := by rfl) : s.TallyKept n (t.setEpochRec n e) :=
  ⟨h.mem, by rw [State.setEpochRec, h.cm], by
    rw [State.epochRec_setEpochRec, he]
    exact h.peer⟩

/-- A key that takes the epoch: only requests move from record to record (R59). -/
theorem retag (k : ReqKey) : s.TallyKept n (t.retag n k) := by
  unfold State.retag
  split
  · exact h
  · rename_i m e hfind
    have hm : n ≠ m := by
      have := List.find?_some hfind
      simp only [Bool.and_eq_true, decide_eq_true_eq] at this
      omega
    split
    · exact h
    · dsimp only
      split
      · exact setEntry (setOwn (setOther h hm _)) _
      · exact setOwn (setOther h hm _)

/-- Keys that take the epoch, one after another. -/
theorem retags (ks : List ReqKey) : s.TallyKept n (ks.foldl (fun s k => s.retag n k) t) := by
  induction ks generalizing t with
  | nil => exact h
  | cons k ks ih => exact ih (h.retag k)

theorem tallyLate : s.TallyKept n (t.tallyLate n) := by
  unfold State.tallyLate
  dsimp only
  split
  · exact h
  · exact raise (inc (setOwn h) _ _) _ _

theorem wakeSource (i : Nat) : s.TallyKept n (t.wakeSource i) := by
  unfold State.wakeSource
  split
  · exact h
  · exact h.aside rfl rfl

end

end State.TallyKept

/-! ## TALLY (R132, R133) -/

/-- No tally is taken of an epoch that has committed, or while none is exchanged (R191). -/
theorem State.takeTally_ignored {s : State} {n : Nat} (h : n ≤ s.cm.committed ∨ s.tallies = false) (time : Nat)
    (p : List Byte) : s.takeTally n time p = s := by
  rw [State.takeTally, if_pos (by rcases h with h | h <;> simp [h])]

/-- A frame of a tally adds the keys that it names, apart from those of earlier epochs (R59); the first that is the epoch's
gives the peer's figures. -/
theorem State.takeTally_paired {s : State} {n : Nat} (hp : s.cm.twin = .paired) (ht : s.tallies = true)
    (hn : s.cm.committed < n) (time : Nat) (p : List Byte) {first : Bool}
    (hfirst : (!(s.epochRec n).peer.first && fieldBE p 0 8 == n) = first) :
    ∃ u : State, s.takeTally n time p = u.settle ∧ u.mem = s.mem ∧
      (u.epochRec n).peer.keys = (s.epochRec n).peer.keys ++
        (((chunks 12 (if first then p.drop 48 else p)).flatMap entryKeys).filter fun k => !s.ownedBefore n k) ∧
      (first = true →
        (let q := (u.epochRec n).peer
         q.first = true ∧ q.hashPrev = fieldBE p 8 8 ∧ q.placed = fieldBE p 16 8 ∧ q.calSec = fieldBE p 24 8 % 2 ^ 40 ∧
         q.claim = fieldBE p 32 4 ∧ q.runs = fieldBE p 36 4) ∧
        u.cm.peerClaim = fieldBE p 32 4 ∧ u.cm.peerPlaced = max s.cm.peerPlaced (fieldBE p 16 8)) := by
  generalize hx : s.takeTally n time p = x
  rw [State.takeTally, if_neg (by simp [hp, ht, hn]), if_neg (by simp [hp])] at hx
  extract_lets s' e first' body named ks v e' old figures keyed q w cm z y u at hx
  obtain rfl : first' = first := hfirst
  clear_value first'
  have hv : s.TallyKept n v := (State.TallyKept.refl n s).retags ks
  have hq : (z.epochRec n).peer = q := by
    have hw : (w.epochRec n).peer = q := by rw [State.epochRec_setEpochRec]
    cases first' <;> exact hw
  have hz : z.mem = v.mem := by cases first' <;> rfl
  have hy : z.TallyKept n y := by
    simp only [y]
    split
    · exact (State.TallyKept.refl n z).tallyLate
    · exact .refl n z
  have hu : z.TallyKept n u := by
    simp only [u]
    split
    · exact hy
    · exact hy.wakeSource 1
  have hold : old.keys = (s.epochRec n).peer.keys := hv.asks PeerTally.keys fun _ _ => rfl
  have hfig : figures.keys = old.keys := by cases first' <;> rfl
  have hasks := fun {α : Type} (p : PeerTally → α) hp => (hu.asks p hp).trans (congrArg p hq)
  refine ⟨u, hx.symm, hu.mem.trans (hz.trans hv.mem), ?_, fun hf => ?_⟩
  · rw [hasks PeerTally.keys fun _ _ => rfl, ← hold, ← hfig]
  · subst hf
    refine ⟨⟨hasks PeerTally.first fun _ _ => rfl, hasks PeerTally.hashPrev fun _ _ => rfl,
      hasks PeerTally.placed fun _ _ => rfl, hasks PeerTally.calSec fun _ _ => rfl,
      hasks PeerTally.claim fun _ _ => rfl, hasks PeerTally.runs fun _ _ => rfl⟩, ?_, ?_⟩
    · exact hu.commits CommitSt.peerClaim fun _ _ => rfl
    · exact (hu.commits CommitSt.peerPlaced fun _ _ => rfl).trans
        (congrArg (max · _) (hv.commits CommitSt.peerPlaced fun _ _ => rfl))

/-! ## REPAIR (R56, R59, R134) -/

@[simp] theorem State.capEvent_mem (s : State) : s.capEvent.mem = s.mem := (State.Told.refl s).capEvent.mem

/-- A key that enters by repair is held in its epoch's record, and no byte of memory changes. -/
theorem State.enterRepair_leaves (s : State) (n : Nat) (r : Req) :
    (s.enterRepair n r).mem = s.mem ∧ (mget ((s.enterRepair n r).epochRec n).reqs r.hdr.key.code).isSome = true := by
  unfold State.enterRepair
  extract_lets h qid q fresh new net v u held r' rest x e y m cm z
  have hv : v.mem = s.mem := by
    simp only [v]
    split
    · exact State.capEvent_mem _
    · split <;> rfl
  have hu : u.mem = s.mem := by
    simp only [u]
    split <;> exact hv
  have hy : (mget (y.epochRec n).reqs h.key.code).isSome = true := by
    simp only [y, State.epochRec_setEpochRec, mget_mput_self, Option.isSome_some]
  have hz : z.mem = s.mem ∧ (mget (z.epochRec n).reqs h.key.code).isSome = true := by
    simp only [z]
    split <;> exact ⟨hu, hy⟩
  exact hz

section
variable {s : State} {n : Nat} (time : Nat) {p : List Byte}

/-- No repair is taken of an epoch that has committed. -/
theorem State.takeRepair_committed (h : n ≤ s.cm.committed) : s.takeRepair n time p = s := by
  rw [State.takeRepair, if_pos (by simp [h])]

/-- The request of a key that is here, or belongs to an earlier epoch, is not taken again. -/
theorem State.takeRepair_held (h : s.ownedBefore n (parseReq (slice p 4 32)).1.key = true ∨
    (mget (s.epochRec n).reqs (parseReq (slice p 4 32)).1.key.code).isSome = true) : s.takeRepair n time p = s := by
  unfold State.takeRepair
  split
  · rfl
  · dsimp only
    rw [if_pos (by rcases h with h | h <;> simp [h])]

/-- Any other enters the epoch's record: it moves there from a later epoch, or enters by the repair. -/
theorem State.takeRepair_new (hp : s.cm.twin = .paired) (hn : s.cm.committed < n)
    (howned : s.ownedBefore n (parseReq (slice p 4 32)).1.key = false)
    (hnew : mget (s.epochRec n).reqs (parseReq (slice p 4 32)).1.key.code = none) :
    ∃ u : State, s.takeRepair n time p = u.settle ∧ u.mem = s.mem ∧
      (mget (u.epochRec n).reqs (parseReq (slice p 4 32)).1.key.code).isSome = true := by
  unfold State.takeRepair
  rw [if_neg (by simp [hp, hn])]
  dsimp only
  rw [if_neg (by simp [howned, hnew])]
  have hmem := ((State.TallyKept.refl n s).retag (parseReq (slice p 4 32)).1.key).mem
  refine ⟨_, rfl, ?_⟩
  split
  · rename_i hmoved
    exact ⟨hmem, hmoved⟩
  · obtain ⟨hu, hr⟩ := State.enterRepair_leaves (s.retag n (parseReq (slice p 4 32)).1.key) n _
    exact ⟨hu.trans hmem, hr⟩

end

/-! ## In the state that took the frame -/

section
variable (s : State) (f : LinkFrame)

theorem State.tookFrame_tallies : (s.tookFrame f).tallies = s.tallies :=
  s.tookFrame_asks f State.tallies (fun _ => rfl) fun _ _ _ => rfl

theorem State.tookFrame_ownedBefore (n : Nat) (k : ReqKey) : (s.tookFrame f).ownedBefore n k = s.ownedBefore n k :=
  s.tookFrame_asks f (fun u => u.ownedBefore n k) (fun _ => rfl) fun _ _ _ => rfl

theorem State.tookFrame_committed : (s.tookFrame f).cm.committed = s.cm.committed := by rw [State.tookFrame_cm]

theorem State.tookFrame_peerPlaced : (s.tookFrame f).cm.peerPlaced = s.cm.peerPlaced := by rw [State.tookFrame_cm]

end

/-- Settles O38: the frame is taken as the next one, and its payload as a tally or a repair by the branches of each. -/
theorem tallyAndRepairTaken : Obligations.TallyAndRepairTaken := by
  refine ⟨fun s f hn => ⟨fun h => ?oldTally, fun h => ?oldRepair⟩, fun s f hp hn =>
    ⟨fun h ht hf => ?more, fun h ht => ?stopped, fun h ht hf hnum => ?fixed, fun h => ⟨fun hk => ?held, fun ho hk => ?new⟩⟩⟩
  case oldTally =>
    have hg := State.gives_of_nextFrame (c := .tally f) rfl h
    rwa [State.heeds, State.takeTally_ignored (.inl ((s.tookFrame_committed f).symm ▸ hn))] at hg
  case oldRepair =>
    have hg := State.gives_of_nextFrame (c := .repair f) rfl h
    rwa [State.heeds, State.takeRepair_committed _ ((s.tookFrame_committed f).symm ▸ hn)] at hg
  case stopped =>
    have hg := State.gives_of_nextFrame (c := .tally f) rfl h
    rwa [State.heeds, State.takeTally_ignored (.inr ((s.tookFrame_tallies f).trans ht))] at hg
  case more =>
    have hg := State.gives_of_nextFrame (c := .tally f) rfl h
    obtain ⟨u, hu, hmem, hkeys, -⟩ := State.takeTally_paired ((s.tookFrame_twin f).trans hp)
      ((s.tookFrame_tallies f).trans ht) ((s.tookFrame_committed f).symm ▸ hn) f.time f.body (first := false)
      (by simp [hf])
    rw [State.heeds, hu] at hg
    simp only [State.tookFrame_mem, State.tookFrame_epochRec, State.tookFrame_ownedBefore] at hmem hkeys
    exact ⟨u, hg, fun a => by rw [hmem], hkeys⟩
  case fixed =>
    have hg := State.gives_of_nextFrame (c := .tally f) rfl h
    obtain ⟨u, hu, hmem, hkeys, hfirst⟩ := State.takeTally_paired ((s.tookFrame_twin f).trans hp)
      ((s.tookFrame_tallies f).trans ht) ((s.tookFrame_committed f).symm ▸ hn) f.time f.body (first := true)
      (by simp [hf, hnum])
    rw [State.heeds, hu] at hg
    simp only [State.tookFrame_mem, State.tookFrame_epochRec, State.tookFrame_ownedBefore] at hmem hkeys
    obtain ⟨⟨h1, h2, h3, h4, h5, h6⟩, hclaim, hplaced⟩ := hfirst rfl
    rw [State.tookFrame_peerPlaced] at hplaced
    exact ⟨u, hg, ⟨h1, h2, h3, h4, h5, h6, hkeys⟩, hclaim, hplaced, fun a => by rw [hmem]⟩
  case held =>
    have hg := State.gives_of_nextFrame (c := .repair f) rfl h
    rwa [State.heeds, State.takeRepair_held] at hg
    rwa [State.tookFrame_ownedBefore, State.tookFrame_epochRec]
  case new =>
    have hg := State.gives_of_nextFrame (c := .repair f) rfl h
    obtain ⟨u, hu, hmem, hreq⟩ := State.takeRepair_new f.time ((s.tookFrame_twin f).trans hp)
      ((s.tookFrame_committed f).symm ▸ hn) ((s.tookFrame_ownedBefore f _ _).trans ho)
      ((congrArg (fun e : EpochRec => mget e.reqs _) (s.tookFrame_epochRec f _)).trans hk)
    rw [State.heeds, hu] at hg
    exact ⟨u, hg, hreq, fun a => by rw [hmem, State.tookFrame_mem]⟩

end Sys2Proof.Machine

/-! PROOFS. What answers, slots, freezes and reads leave of a state (R44, R50, R58, R60, R93, R96). -/

namespace Sys2Proof.Machine

namespace State.Alike

variable {s t u : State}

section
variable (h : s.Alike t)
include h

theorem told (ht : t.Told u) : s.Alike u := h.trans ht.toAlike

theorem setQueue (n : Nat) (q : Queue) : s.Alike (t.setQueue n q) := h.aside (t.setQueue_asked n q)

theorem setEntry (e : RrtEntry) : s.Alike (t.setEntry e) := h.aside (t.setEntry_asked e)

/-! ## Slots (R60) -/

theorem checkFree (n : Nat) : s.Alike (t.checkFree n) := by
  unfold State.checkFree
  extract_lets q due
  split
  · exact (h.setQueue n {}).told ((State.Told.refl _).post _ _ _ _)
  · exact h

theorem returnSlot (n seq : Nat) : s.Alike (t.returnSlot n seq) := by
  unfold State.returnSlot
  dsimp only
  split
  · exact h
  · exact (h.setQueue _ _).checkFree n

theorem slotBack (slot : Option (Nat × Nat)) : s.Alike (t.slotBack slot) := by
  cases slot
  · exact h
  · exact h.returnSlot _ _

/-! ## Answers (R44, R50, R58) -/

theorem recordAnswer (k : ReqKey) (isNak reads : Bool) (status : Nat) (data : List Byte) (epoch : Nat) (quiet : Bool) :
    s.Alike (t.recordAnswer k isNak reads status data epoch quiet) := by
  unfold State.recordAnswer
  split
  · exact h
  · exact h.setEntry _

theorem sendDgram (dst : RetAddr) (hdr : AnsHdr) (data : List Byte) (slot lat : Option (Nat × Nat)) :
    s.Alike (t.sendDgram dst hdr data slot lat) := by
  have ht := (State.Told.refl t).trySend ⟨dst, hdr, data, slot, lat⟩
  unfold State.sendDgram
  dsimp only
  split
  · exact h.aside
  · split <;> rename_i e <;> rw [e] at ht
    · exact (h.told ht).slotBack slot
    · exact (h.told ht).aside

theorem sendSeg (r : Req) (epoch status k : Nat) (last untrusted : Bool) (data : List Byte) (slot lat : Option (Nat × Nat)) :
    s.Alike (t.sendSeg r epoch status k last untrusted data slot lat) := by
  unfold State.sendSeg
  split
  · exact h.slotBack slot
  · exact h.sendDgram _ _ _ _ _

theorem finish (r : Req) (epoch status : Nat) (data : List Byte) : s.Alike (t.finish r epoch status data) := by
  unfold State.finish
  extract_lets k told
  split
  · exact h
  · exact (h.told ((State.Told.refl t).respondAt r epoch status data)).recordAnswer _ _ _ _ _ _ _

/-! ## Freezes and refusals (R52, R96) -/

theorem freezeAt (r : Req) (n status : Nat) : s.Alike (t.freezeAt r n status) := by
  unfold State.freezeAt
  dsimp only
  split
  · exact h
  · exact (h.setQueue _ _).told (((State.Told.refl _).post _ _ _ _).raise _ _)

theorem refuse (r : Req) (status : Nat) (send : Bool) : s.Alike (t.refuse r status send) := by
  unfold State.refuse
  extract_lets hdr slot naked answered
  have hslot : s.Alike slot := by
    simp only [slot]
    split
    · exact h
    · exact h.returnSlot _ _
  have hnaked : s.Alike naked := by
    simp only [naked]
    split
    · exact hslot.told ((State.Told.refl _).sendNak _ _ _ _ _ _ _ _)
    · exact hslot
  have hanswered : s.Alike answered := hnaked.recordAnswer _ _ _ _ _ _ _
  split
  · exact hanswered.freezeAt _ _ _
  · exact hanswered

/-! ## Segments of reads (R50, R93) -/

theorem freeBit : s.Alike t.freeBit.2 := h.aside

theorem chargePort (k n : Nat) : s.Alike (t.chargePort k n) := h.aside

theorem segStatus (p : Pending) (k : Nat) : s.Alike (t.segStatus p k).2.2 := by
  unfold State.segStatus
  dsimp only
  split
  · exact h
  split
  · exact h.freeBit
  split
  · exact h
  split
  · exact h
  split
  · split
    · exact h.told ((State.Told.refl t).inc _)
    · exact h
  · exact h

theorem sendSegment (p : Pending) (k : Nat) (cut : Option Nat) : s.Alike (t.sendSegment p k cut).2 := by
  have hsent : ∀ (v : State) ep st last un data slot lat, s.Alike v →
      s.Alike (if v.silent p.req then v.slotBack slot else v.sendSeg p.req ep st k last un data slot lat) := by
    intro v ep st last un data slot lat hv
    split
    · exact hv.slotBack slot
    · exact hv.sendSeg _ _ _ _ _ _ _ _ _
  unfold State.sendSegment
  cases cut with
  | none =>
    have hst := h.segStatus p k
    generalize t.segStatus p k = x at hst ⊢
    dsimp only
    split
    · exact (hsent _ _ _ _ _ _ _ _ hst).chargePort _ _
    · exact hsent _ _ _ _ _ _ _ _ hst
  | some st =>
    cases p.req.ret <;> exact hsent _ _ _ _ _ _ _ _ h

theorem endRead (p : Pending) : s.Alike (t.endRead p) := (h.recordAnswer _ _ _ _ _ _ _).freezeAt _ _ _

end

end State.Alike

end Sys2Proof.Machine

/-! PROOFS. The commit of a key (R130, R135 to R137): what follows its execution leaves memory, the keys done and their
records. -/

namespace Sys2Proof.Machine

/-- `t` has the memory of `s`, and in each epoch the same keys done and the same commit records. -/
structure State.CommitsKept (s t : State) : Prop where
  mem : t.mem = s.mem
  done : ∀ n, (t.epochRec n).done = (s.epochRec n).done
  records : ∀ n, (t.epochRec n).records = (s.epochRec n).records

namespace State.CommitsKept

variable {s t u : State}

theorem refl (s : State) : s.CommitsKept s := ⟨rfl, fun _ => rfl, fun _ => rfl⟩

theorem of_alike (h : s.Alike t) : s.CommitsKept t :=
  ⟨h.mem, fun n => by rw [h.epochRec], fun n => by rw [h.epochRec]⟩

theorem trans (h : s.CommitsKept t) (h' : t.CommitsKept u) : s.CommitsKept u :=
  ⟨h'.mem.trans h.mem, fun n => (h'.done n).trans (h.done n), fun n => (h'.records n).trans (h.records n)⟩

/-- What a fold's steps keep, the fold keeps. -/
theorem foldl {α β : Type} (p : β → State) {g : β → α → β} (hg : ∀ b a, (p b).CommitsKept (p (g b a))) (l : List α) (b : β)
    (hb : s.CommitsKept (p b)) : s.CommitsKept (p (l.foldl g b)) := by
  induction l generalizing b with
  | nil => exact hb
  | cons a l ih => exact ih _ (hb.trans (hg b a))

section
variable (h : s.CommitsKept t)
include h

/-- A change outside memory and the epochs' records. -/
theorem aside (hm : u.mem = t.mem := by rfl) (he : u.cm.ep = t.cm.ep := by rfl) : s.CommitsKept u :=
  h.trans ⟨hm, fun n => by rw [State.epochRec, he, State.epochRec], fun n => by rw [State.epochRec, he, State.epochRec]⟩

theorem alike (h' : t.Alike u) : s.CommitsKept u := h.trans (of_alike h')

/-- A record written with the keys done and their commit records as they were. -/
theorem setEpochRec {m : Nat} {e : EpochRec} (hd : e.done = (t.epochRec m).done := by rfl)
    (hr : e.records = (t.epochRec m).records := by rfl) : s.CommitsKept (t.setEpochRec m e) := by
  have hrec : ∀ n, (t.setEpochRec m e).epochRec n = if n = m then e else t.epochRec n := by
    intro n
    split
    · subst n
      exact t.epochRec_setEpochRec m e
    · rename_i hn
      exact mgetD_mput_ne _ _ _ hn
  refine h.trans ⟨rfl, fun n => ?_, fun n => ?_⟩ <;> rw [hrec] <;> split
  · subst n; exact hd
  · rfl
  · subst n; exact hr
  · rfl

theorem setStaged (m : NMap Nat) : s.CommitsKept { t with cm := { t.cm with staged := m } } := h.aside

theorem enter (r : Req) : s.CommitsKept (t.enter r) := by
  unfold State.enter
  dsimp only
  split
  · exact h.setEpochRec
  · exact setStaged (h.setEpochRec) _

/-! ## What a freeze ends (R96) -/

theorem endFrozen (r : Req) : s.CommitsKept (t.endFrozen r) := by
  have hr := h.alike ((State.Alike.refl t).refuse r 0x0A (!t.silent r))
  unfold State.endFrozen
  dsimp only
  split
  · exact hr
  · exact hr.enter _

theorem cutRead (p : Pending) (status : Nat) : s.CommitsKept (t.cutRead p status) := by
  unfold State.cutRead
  dsimp only
  refine alike ?_ ((State.Alike.refl _).endRead _)
  refine foldl (fun a : Pending × State => a.2) (fun a k => ?_) _ (p, t) h
  split
  · exact of_alike ((State.Alike.refl _).sendSegment _ _ _)
  · exact refl _

theorem cutReads (cut : Pending → Bool) (status : Nat) : s.CommitsKept (t.cutReads cut status id) :=
  foldl id (fun u p => (refl u).cutRead p status) _ _ h.aside

theorem cutFrozen : s.CommitsKept t.cutFrozen :=
  cutReads (foldl id (fun u r => (refl u).endFrozen r) _ _ h.aside) _ _

/-! ## What follows the execution of a key (R60, R96, R169, R301) -/

theorem freeStaged (r : Req) : s.CommitsKept (t.freeStaged r) := by
  unfold State.freeStaged
  dsimp only
  split
  · exact h.setStaged _
  · exact h

theorem returnSlot (n seq : Nat) : s.CommitsKept (t.returnSlot n seq) := h.alike ((State.Alike.refl t).returnSlot n seq)

theorem answerKey (n : Nat) (r : Req) (d : Done) : s.CommitsKept (t.answerKey n r d) := by
  unfold State.answerKey
  extract_lets c e told
  split
  · exact h
  split
  · exact h.setEpochRec
  split
  · split
    · exact h
    · exact h.alike ((State.Alike.refl t).refuse _ _ _)
  · exact h.alike ((State.Alike.refl t).finish _ _ _ _)

theorem sendTable (r : Req) : s.CommitsKept (t.sendTable r) := by
  unfold State.sendTable
  split
  · exact h
  · exact foldl id (fun u j => of_alike ((State.Told.refl u).sendDrift _ _ _ _ _).toAlike) _ _ h.aside

end

end State.CommitsKept

/-- A key that may not commit yet changes nothing but what the compare of hashes does (R138). -/
theorem State.commitKey_waits {s : State} {n : Nat} {k : ReqKey} (h : s.compareHash.commitReady n k = false)
    (cells : List CellFault) : s.commitKey n k cells = s.compareHash := by
  simp [State.commitKey, h]

/-- One that may is executed once, is done, and its commit record is kept (R135 to R137). -/
theorem State.commitKey_ready {s : State} {n : Nat} {k : ReqKey} {r : Req}
    (h : s.compareHash.commitReady n k = true) (ht : (s.compareHash.beginEpoch n).cm.twin ≠ .returning)
    (hr : mget ((s.compareHash.beginEpoch n).epochRec n).reqs k.code = some r) (cells : List CellFault) :
    let b := s.compareHash.beginEpoch n
    let x := b.execute r n (b.epochRec n).calSec cells
    ∃ u : State, s.commitKey n k cells = u.settle ∧ (u.epochRec n).done = (x.2.epochRec n).done ++ [k.code] ∧
      mget (u.epochRec n).records k.code = some (recordOf r x.1) ∧ u.mem = x.2.mem := by
  intro b x
  have hx : b.execute r n (b.epochRec n).calSec cells = x := rfl
  generalize hy : s.commitKey n k cells = y
  unfold State.commitKey at hy
  extract_lets c b' at hy
  rw [if_neg (by simp [c, h]), show mget (b'.epochRec n).reqs k.code = some r from hr] at hy
  simp -zeta only at hy
  rw [show b'.execute r n (b'.epochRec n).calSec cells = x from hx] at hy
  clear_value x
  obtain ⟨d, t⟩ := x
  simp -zeta only at hy
  extract_lets home cut freed told slot e kept answered u at hy
  have hhome : home = t := if_neg (by simpa using ht)
  clear_value home
  subst hhome
  have hcut : home.CommitsKept cut :=
    ((State.CommitsKept.refl home).alike ((State.Alike.refl home).freezeAt _ _ _)).cutFrozen
  have hfreed : home.CommitsKept freed := by
    simp only [freed]
    split
    · exact hcut.freeStaged r
    · exact hcut
  have hslot : home.CommitsKept slot := by
    simp only [slot]
    split
    · exact hfreed
    · exact hfreed.returnSlot _ _
  have hu : kept.CommitsKept u := by
    have ha := (State.CommitsKept.refl kept).answerKey n r d
    simp only [u]
    split
    · exact ha.sendTable r
    · exact ha
  refine ⟨u, hy.symm, ?_, ?_, hu.mem.trans hslot.mem⟩
  · rw [hu.done, State.epochRec_setEpochRec, ← hslot.done]
  · rw [hu.records, State.epochRec_setEpochRec, mget_mput_self]

/-- A request that was refused ends with that status and changes no state (R130, R137). -/
theorem State.execute_refused (s : State) {r : Req} {st : Nat} (h : r.refusal = some st) (n cal : Nat)
    (cells : List CellFault) : s.execute r n cal cells = (ended st, s) := by
  rw [State.execute, h]

/-- COMMIT_KEY while the datapath runs. -/
theorem State.gives_commitKey {s : State} (hd : s.dpUp = true) (epoch : BitVec 64) (k : ReqKey) (cells : List CellFault) :
    s.gives (.commitKey epoch k cells) (s.commitKey epoch.toNat k cells) :=
  congrArg Host.Outcome.next (State.whenDp_up hd _)

/-- Settles O40: a key that waits and one that is ready by the branches of the commit; nothing that follows the execution touches
memory or takes a key's record. -/
theorem keyCommits : Obligations.KeyCommits := by
  refine ⟨fun s epoch k cells hd => ⟨fun h => ?waits, fun r h ht hr _ => ?ready⟩, fun s r n cal cells st h => ?refused⟩
  case waits => exact State.commitKey_waits h cells ▸ State.gives_commitKey hd epoch k cells
  case ready =>
    obtain ⟨u, hu, hu'⟩ := State.commitKey_ready h ht hr cells
    exact ⟨u, hu ▸ State.gives_commitKey hd epoch k cells, hu'⟩
  case refused => exact s.execute_refused h n cal cells

end Sys2Proof.Machine

/-! PROOFS. Frames of the drift links as they are received (R152, R170, R172). -/

namespace Sys2Proof.Machine

/-! ## Frames received (R152, R170, R172) -/

/-- What `driftGood` says. -/
theorem driftGood_iff {s : State} {j : Fin 3} {f : LinkFrame} {typ : Nat} : driftGood s j f typ = true ↔
    s.dpUp = true ∧ s.flag (DFT.LINK_UP j.val) = true ∧ f.crcOk typ = true ∧ f.tag = [] ∧ f.body.length ≤ 16384 := by
  simp [driftGood, and_assoc]

theorem DFT.linkUp_standing (j : Fin 3) : (DFT.LINK_UP j.val).standing = true := by revert j; decide

section
variable (s : State) (j : Fin 3) (f : LinkFrame)

theorem State.told_driftTook : s.Told (driftTook s j f) :=
  (((((State.Told.refl s).atTime _).inc _).inc _).raiseIf _ _ _).inc _

@[simp] theorem State.driftTook_gang : (driftTook s j f).gang = s.gang := by simp [driftTook]

@[simp] theorem State.driftTook_net : (driftTook s j f).net = s.net := by simp [driftTook]

theorem State.Alike.linkPos {s t : State} (h : s.Alike t) (j : Nat) : t.linkPos j = s.linkPos j := by
  rw [State.linkPos, h.gangPos, State.linkPos]

@[simp] theorem State.driftTook_linkPos (i : Nat) : (driftTook s j f).linkPos i = s.linkPos i :=
  (s.told_driftTook j f).linkPos i

end

section
variable {s : State} {j : Fin 3} {f : LinkFrame} {typ : Nat}

theorem State.recvDrift_down (typ : Nat) (h : s.flag (DFT.LINK_UP j.val) = false) :
    s.recvDrift j.val typ f = (false, s.at f.time) := by
  have hl : (s.at f.time).flag (DFT.LINK_UP j.val) = false := h
  simp [State.recvDrift, hl]

/-- On a link that is up a frame is counted; its CRC decides, that it came in clear, and its length.
-/
theorem State.recvDrift_up (typ : Nat) (h : s.flag (DFT.LINK_UP j.val) = true) : s.recvDrift j.val typ f =
    if f.crcOk typ && f.tag.isEmpty && f.body.length ≤ 16384 then (true, driftTook s j f)
    else (false, ((driftTook s j f).inc (DFT.RX_DROP j.val)).raise (DFT.page j.val) DFT.evFRAME_DROP) := by
  have hl : (s.at f.time).flag (DFT.LINK_UP j.val) = true := h
  unfold State.recvDrift
  dsimp only
  rw [if_neg (by simp [hl])]
  rfl

theorem State.recvDrift_badCrc (h : s.flag (DFT.LINK_UP j.val) = true) (hc : f.crcOk typ = false) :
    s.recvDrift j.val typ f =
      (false, ((driftTook s j f).inc (DFT.RX_DROP j.val)).raise (DFT.page j.val) DFT.evFRAME_DROP) := by
  rw [State.recvDrift_up typ h, if_neg (by simp [hc])]

theorem State.recvDrift_good (h : driftGood s j f typ = true) : s.recvDrift j.val typ f = (true, driftTook s j f) := by
  obtain ⟨-, hl, hc, ht, hb⟩ := driftGood_iff.1 h
  rw [State.recvDrift_up typ hl, if_pos (by simp [hc, ht, hb])]

/-- A good frame that names device addresses of this member: one beyond the presented capacity stops
the block (log entry 51). -/
theorem State.withDa_good (h : driftGood s j f typ = true) (n : Nat) (g : State → State) : s.withDa j.val typ f n g =
    if s.presBytes < fieldBE f.body 0 8 + n then .fault .deviceAddressAbsent
    else .next (s.settled (g (driftTook s j f))) := by
  have hp : (driftTook s j f).presBytes = s.presBytes := by
    rw [State.presBytes, (s.told_driftTook j f).fl, State.presBytes]
  rw [State.withDa, if_neg (by simp [(driftGood_iff.1 h).1]), State.recvDrift_good h]
  simp only [hp]

end

/-! ## A read of the gang's that has nothing to wait for -/

/-- Where no read waits and a freeze ends nothing, the reads are as they were. -/
theorem State.runReads_quiet {s : State} (hr : s.net.reads = []) (hw : s.gang.waiting = []) (hf : s.frozenCut = false) :
    s.runReads = s := by
  have hreads : s.pumpReads = s := by
    have e : { s with net := { s.net with reads := [] } } = s := by rw [← hr]
    simp only [State.pumpReads, hr, List.foldl_nil, e]
  have hhome : s.pumpHomeReads = s := by
    have e : { s with gang := { s.gang with waiting := [] } } = s := by rw [← hw]
    simp only [State.pumpHomeReads, hw, List.foldl_nil, e]
  rw [State.runReads, hreads, hhome, State.cutFrozen_of_not hf]

/-- What a freeze ends hangs on the contexts of queues, and what is held and waits. -/
theorem State.frozenCut_congr {s t : State} (hq : t.q.q = s.q.q) (hn : t.net = s.net) : t.frozenCut = s.frozenCut := by
  have hQ : ∀ n, t.queue n = s.queue n := fun n => by rw [State.queue, hq, State.queue]
  have hf : t.frozenAfter = s.frozenAfter := funext fun r => by simp only [State.frozenAfter, hQ]
  simp only [State.frozenCut, hf, hn]

theorem State.gotRemote_none {s : State} {tag : Nat} (h : mget s.gang.remote tag = none) (status : Nat) (data : List Byte) :
    s.gotRemote tag status data = s := by
  rw [State.gotRemote, h]

end Sys2Proof.Machine

/-! PROOFS. The drift links of the gang: what training and the loss of a link leave, and what the frames of a gang member do
(R160, R165, R168, R169). -/

namespace Sys2Proof.Machine

/-! ## Registers of a link -/

theorem DFT.linkUp_ne_open (j : Fin 3) : (DFT.LINK_UP j.val).key ≠ SYS.OPEN.key := by revert j; decide
theorem DFT.delay_ne_open (j : Fin 3) : (DFT.DELAY j.val).key ≠ SYS.OPEN.key := by revert j; decide
theorem DFT.peerPos_ne_open (j : Fin 3) : (DFT.PEER_POS j.val).key ≠ SYS.OPEN.key := by revert j; decide
theorem DFT.delay_standing (j : Fin 3) : (DFT.DELAY j.val).standing = true := by revert j; decide
theorem DFT.peerPos_standing (j : Fin 3) : (DFT.PEER_POS j.val).standing = true := by revert j; decide

/-- A setting or status other than SYS.OPEN reads, settled, as the command's effect left it. -/
theorem State.get_settled_standing (s t : State) {f : Fld} (hf : f.standing = true) (ho : f.key ≠ SYS.OPEN.key) :
    (s.settled t).get f = t.get f := by
  refine s.get_settled t fun g hg => ?_
  simp only [List.mem_append, List.mem_cons, List.not_mem_nil, or_false] at hg
  rcases hg with hg | rfl | rfl | rfl | rfl
  · refine Fld.key_ne_of_tells hf ?_
    revert g
    decide
  · exact Fld.key_ne_of_tells hf rfl
  · exact ho
  · exact Fld.key_ne_of_tells hf rfl
  · exact Fld.key_ne_of_tells hf rfl

/-! ## The gang, settled -/

@[simp] theorem State.settled_peers (s t : State) : (s.settled t).gang.peers = t.gang.peers := by
  simpa only using congrArg GangSt.peers (s.settled_gang t)

@[simp] theorem State.settled_formed (s t : State) : (s.settled t).gang.formed = t.gang.formed := by
  simpa only using congrArg GangSt.formed (s.settled_gang t)

@[simp] theorem State.settled_lost (s t : State) : (s.settled t).gang.lost = t.gang.lost := by
  simpa only using congrArg GangSt.lost (s.settled_gang t)

/-! ## Training (R160, R162) -/

/-- The gang position hangs on SIZE and the straps. -/
theorem State.gangPos_congr {s t : State} (hn : t.get GNG.SIZE = s.get GNG.SIZE) (hp : t.pwr = s.pwr) :
    t.gangN = s.gangN ∧ t.gangPos = s.gangPos := by
  have hN : t.gangN = s.gangN := by rw [State.gangN, hn, State.gangN]
  exact ⟨hN, by rw [State.gangPos, hN, hp, State.gangPos]⟩

/-- Whether the exchanges agree hangs on settings and status, the peers and the straps. -/
theorem State.gangComplete_congr {s t : State}
    (hr : ∀ f : Fld, f.standing = true → f.key ≠ SYS.OPEN.key → t.get f = s.get f)
    (hg : t.gang.peers = s.gang.peers) (hp : t.pwr = s.pwr) : t.gangComplete = s.gangComplete := by
  have hsize := hr GNG.SIZE (by decide) (by decide)
  obtain ⟨hN, hpos⟩ := State.gangPos_congr hsize hp
  have hto : ∀ p, t.linkTo p = s.linkTo p := fun p => by rw [State.linkTo, hpos, State.linkTo]
  have hl : ∀ p, t.flag (DFT.LINK_UP (s.linkTo p)) = s.flag (DFT.LINK_UP (s.linkTo p)) := by
    intro p
    have h4 : s.linkTo p < 4 := Nat.mod_lt _ (by decide)
    have hi : ∀ i < 4, (DFT.LINK_UP i).standing = true ∧ (DFT.LINK_UP i).key ≠ SYS.OPEN.key := by decide
    rw [State.flag, hr _ (hi _ h4).1 (hi _ h4).2, State.flag]
  simp only [State.gangComplete, hN, hpos, hto, hl, hg, State.peerAgrees, State.gangIds, State.linkPos, hsize,
    hr GNG.DEV_ID (by decide) (by decide), hr GNG.TWIN_DEV_ID (by decide) (by decide)]

/-! ### The gang judged (R160) -/

/-- FORMED rises where the page is enabled and every exchange agrees. -/
theorem State.checkFormed_gang (s : State) : s.checkFormed.gang =
    { s.gang with formed := s.gang.formed || (s.flag (HDR.ENABLE GNG.page) && s.gangComplete) } := by
  unfold State.checkFormed
  split
  · rename_i h
    have hb : (s.gang.formed || (s.flag (HDR.ENABLE GNG.page) && s.gangComplete)) = s.gang.formed := by
      simp only [Bool.or_eq_true, Bool.not_eq_true'] at h
      rcases h with (h | h) | h <;> simp [h]
    rw [hb]
  · rename_i h
    have hb : (s.gang.formed || (s.flag (HDR.ENABLE GNG.page) && s.gangComplete)) = true := by simp_all
    rw [hb, State.raise_gang]

/-- What the judging raises is told. -/
theorem State.checkFormed_told (s : State) :
    ∃ b q, { s with gang := { s.gang with formed := b }, q := q }.Told s.checkFormed := by
  unfold State.checkFormed
  split
  · exact ⟨s.gang.formed, s.q, .refl s⟩
  · exact ⟨true, { s.q with refigure := true }, (State.Told.refl _).raise _ _⟩

theorem State.get_checkFormed (s : State) {f : Fld} (hf : f.standing = true) : s.checkFormed.get f = s.get f := by
  obtain ⟨b, q, h⟩ := s.checkFormed_told
  exact h.regs f hf

theorem State.checkFormed_pwr (s : State) : s.checkFormed.pwr = s.pwr := by
  obtain ⟨b, q, h⟩ := s.checkFormed_told
  exact h.pwr

theorem State.checkFormed_mem (s : State) : s.checkFormed.mem = s.mem := by
  obtain ⟨b, q, h⟩ := s.checkFormed_told
  exact h.mem

theorem State.evt_checkFormed {s : State} {p b : Nat} (h : s.evt p b = true) (hb : b < 32) :
    s.checkFormed.evt p b = true := by
  unfold State.checkFormed
  split
  · exact h
  · refine State.evt_raise ?_ hb _ _
    exact h

/-! ### The link and its peer -/

/-- The registers of a link that has trained. -/
def State.linkTrained (s : State) (j rt pos : Nat) : State :=
  ((((s.put (DFT.ALIGNED j) 1).put (DFT.LANE_OK j) 0xFFFF).put (DFT.LINK_UP j) 1).put (DFT.DELAY j) (rt / 2)).put
    (DFT.PEER_POS j) pos

section
variable (s : State) (j : Fin 3) (rt pos : Nat)

theorem State.linkTrained_linkUp : (s.linkTrained j.val rt pos).get (DFT.LINK_UP j.val) = 1 := by
  have h1 : (DFT.LINK_UP j.val).key ≠ (DFT.PEER_POS j.val).key := by revert j; decide
  have h2 : (DFT.LINK_UP j.val).key ≠ (DFT.DELAY j.val).key := by revert j; decide
  rw [State.linkTrained, State.get_put_ne _ _ h1, State.get_put_ne _ _ h2, State.get_put_self]
  rfl

theorem State.linkTrained_delay : (s.linkTrained j.val rt pos).get (DFT.DELAY j.val) = rt / 2 % 2 ^ 32 := by
  have h : (DFT.DELAY j.val).key ≠ (DFT.PEER_POS j.val).key := by revert j; decide
  rw [State.linkTrained, State.get_put_ne _ _ h, State.get_put_self]
  rfl

theorem State.linkTrained_peerPos : (s.linkTrained j.val rt pos).get (DFT.PEER_POS j.val) = pos % 2 ^ 2 := by
  rw [State.linkTrained, State.get_put_self]
  rfl

/-- Other registers are as before. -/
theorem State.linkTrained_other {f : Fld} (hf : ∀ i : Fin 3, f.key ≠ (DFT.ALIGNED i.val).key ∧
    f.key ≠ (DFT.LANE_OK i.val).key ∧ f.key ≠ (DFT.LINK_UP i.val).key ∧ f.key ≠ (DFT.DELAY i.val).key ∧
    f.key ≠ (DFT.PEER_POS i.val).key) : (s.linkTrained j.val rt pos).get f = s.get f := by
  obtain ⟨h1, h2, h3, h4, h5⟩ := hf j
  rw [State.linkTrained, State.get_put_ne _ _ h5, State.get_put_ne _ _ h4, State.get_put_ne _ _ h3,
    State.get_put_ne _ _ h2, State.get_put_ne _ _ h1]

end

theorem State.driftUp_ignored {s : State} {j : Nat} (h : s.gangN = 1 ∨ s.flag (DFT.LINK_EN j) = false ∨
    bitOf s.clk.srdLock 1 = false ∨ s.flag (HDR.IN_RESET (DFT.page j)) = true) (rt : Nat) (x : GangPeer) :
    s.driftUp j rt x = s := by
  rw [State.driftUp, if_pos]
  rcases h with h | h | h | h <;> simp [h]

/-- A link that has trained, with what its peer says of itself (R160, R162). -/
def State.peerTaken (s : State) (j rt : Nat) (x : GangPeer) : State :=
  let u := (s.linkTrained j rt x.pos).raiseIf (!s.flag (DFT.LINK_UP j)) (DFT.page j) DFT.evLINK_UP_EVT
  { u with
    gang := { u.gang with
      peers := mput u.gang.peers j x, txSeq := mdel u.gang.txSeq j, lost := u.gang.lost.filter (· != j) }
    q := { u.q with refigure := true } }

/-- What a peer says of itself, judged (R160). -/
def State.peerJudged (s : State) (j : Nat) (x : GangPeer) : State :=
  let u := s.raiseIf (x.pos != s.linkPos j) (DFT.page j) DFT.evPEER_WRONG
  u.raiseIf (!u.peerAgrees j x || u.gangIds.eraseDups.length != u.gangIds.length) GNG.page GNG.evGANG_MISMATCH

/-- A link of a gang, enabled, its synthesizer locked and its page not in reset, trains. -/
theorem State.driftUp_trains {s : State} {j : Nat} (hn : s.gangN ≠ 1) (he : s.flag (DFT.LINK_EN j) = true)
    (hl : bitOf s.clk.srdLock 1 = true) (hr : s.flag (HDR.IN_RESET (DFT.page j)) = false) (rt : Nat) (x : GangPeer) :
    s.driftUp j rt x = ((s.peerTaken j rt x).peerJudged j x).checkFormed := by
  unfold State.driftUp
  rw [if_neg (by simp [hn, he, hl, hr])]
  rfl

section
variable (s : State) (j : Fin 3) (rt : Nat) (x : GangPeer)

theorem State.peerTaken_reg (i : Nat) : (s.peerTaken i rt x).reg = ((s.linkTrained i rt x.pos).raiseIf
    (!s.flag (DFT.LINK_UP i)) (DFT.page i) DFT.evLINK_UP_EVT).reg := by
  simp only [State.peerTaken]

theorem State.peerTaken_get {f : Fld} (hf : f.standing = true) :
    (s.peerTaken j.val rt x).get f = (s.linkTrained j.val rt x.pos).get f := by
  rw [State.get_of_reg (s.peerTaken_reg rt x j.val)]
  exact ((State.Told.refl _).raiseIf _ _ _).regs f hf

theorem State.peerTaken_peers : (s.peerTaken j.val rt x).gang.peers = mput s.gang.peers j.val x := by
  simp only [State.peerTaken, State.raiseIf_gang, State.linkTrained, State.put_gang]

theorem State.peerTaken_formed : (s.peerTaken j.val rt x).gang.formed = s.gang.formed := by
  simp only [State.peerTaken, State.raiseIf_gang, State.linkTrained, State.put_gang]

theorem State.peerTaken_pwr : (s.peerTaken j.val rt x).pwr = s.pwr := by
  simp only [State.peerTaken, State.raiseIf_pwr, State.linkTrained, State.put_pwr]

theorem State.peerTaken_mem : (s.peerTaken j.val rt x).mem = s.mem := by
  simp only [State.peerTaken, State.raiseIf_mem, State.linkTrained, State.put_mem]

theorem State.peerTaken_linkPos (i : Nat) : (s.peerTaken j.val rt x).linkPos i = s.linkPos i := by
  have hsize : (s.peerTaken j.val rt x).get GNG.SIZE = s.get GNG.SIZE := by
    rw [s.peerTaken_get j rt x (by decide), s.linkTrained_other j rt x.pos (by decide)]
  rw [State.linkPos, (State.gangPos_congr hsize (s.peerTaken_pwr j rt x)).2, State.linkPos]

theorem State.peerJudged_told (i : Nat) : s.Told (s.peerJudged i x) :=
  ((State.Told.refl s).raiseIf _ _ _).raiseIf _ _ _

theorem State.peerJudged_gang (i : Nat) : (s.peerJudged i x).gang = s.gang := by
  simp only [State.peerJudged, State.raiseIf_gang]

/-- Events leave the enable of the GNG page. -/
theorem State.gngEnabled_raiseIf (c : Bool) {p : Nat} (hp : (HDR.ENABLE GNG.page).key ≠ (HDR.EVT_RAW p).key) (b : Nat) :
    (s.raiseIf c p b).get (HDR.ENABLE GNG.page) = s.get (HDR.ENABLE GNG.page) :=
  s.get_raiseIf c p b hp (by decide)

theorem State.peerJudged_enabled : ((s.peerTaken j.val rt x).peerJudged j.val x).flag (HDR.ENABLE GNG.page) =
    s.flag (HDR.ENABLE GNG.page) := by
  have hd : ∀ i : Fin 3, (HDR.ENABLE GNG.page).key ≠ (HDR.EVT_RAW (DFT.page i.val)).key := by decide
  have ht : (s.peerTaken j.val rt x).get (HDR.ENABLE GNG.page) = s.get (HDR.ENABLE GNG.page) := by
    rw [State.get_of_reg (s.peerTaken_reg rt x j.val), State.gngEnabled_raiseIf _ _ (hd j),
      s.linkTrained_other j rt x.pos (by decide)]
  rw [State.flag, State.peerJudged, State.gngEnabled_raiseIf _ _ (by decide), State.gngEnabled_raiseIf _ _ (hd j), ht,
    State.flag]

/-- A peer in another place is said to be (R159). -/
theorem State.peerJudged_wrong {s : State} {x : GangPeer} (h : x.pos ≠ s.linkPos j.val) :
    (s.peerJudged j.val x).evt (DFT.page j.val) DFT.evPEER_WRONG = true ∧
      (s.peerJudged j.val x).evt GNG.page GNG.evGANG_MISMATCH = true := by
  have hw : s.raiseIf (x.pos != s.linkPos j.val) (DFT.page j.val) DFT.evPEER_WRONG =
      s.raise (DFT.page j.val) DFT.evPEER_WRONG := if_pos (by simpa using h)
  have hm : (s.raise (DFT.page j.val) DFT.evPEER_WRONG).peerAgrees j.val x = false := by
    rw [State.peerAgrees, ((State.Told.refl s).raise _ _).linkPos]
    simp [h]
  rw [State.peerJudged, hw, hm, Bool.not_false, Bool.true_or, State.raiseIf, if_pos rfl]
  exact ⟨State.evt_raise (State.evt_raise_self _ _ _ (by decide)) (by decide) _ _, State.evt_raise_self _ _ _ (by decide)⟩

end

/-- A link that has trained, its peer and the gang judged, settled. -/
theorem State.driftUp_settled {s t : State} {j : Fin 3} {rt : Nat} {x : GangPeer}
    (ht : s.settled ((s.peerTaken j.val rt x).peerJudged j.val x).checkFormed = t) :
    t.get (DFT.LINK_UP j.val) = 1 ∧ t.get (DFT.DELAY j.val) = rt / 2 % 2 ^ 32 ∧ t.get (DFT.PEER_POS j.val) = x.pos % 2 ^ 2 ∧
      mget t.gang.peers j.val = some x ∧
      (x.pos ≠ s.linkPos j.val → t.evt (DFT.page j.val) DFT.evPEER_WRONG = true ∧
        t.evt GNG.page GNG.evGANG_MISMATCH = true) ∧
      t.gang.formed = (s.gang.formed || (s.flag (HDR.ENABLE GNG.page) && t.gangComplete)) ∧ s.sameMemory t := by
  have hu := (s.peerTaken j.val rt x).peerJudged_told x j.val
  have hugang := (s.peerTaken j.val rt x).peerJudged_gang x j.val
  have henabled := s.peerJudged_enabled j rt x
  have hwrong := fun h => State.peerJudged_wrong j (s := s.peerTaken j.val rt x) (x := x) h
  rw [s.peerTaken_linkPos] at hwrong
  generalize (s.peerTaken j.val rt x).peerJudged j.val x = u at ht hu hugang henabled hwrong
  have hget : ∀ f : Fld, f.standing = true → f.key ≠ SYS.OPEN.key → t.get f = u.get f := fun f hf ho => by
    rw [← ht, s.get_settled_standing _ hf ho, u.get_checkFormed hf]
  have hlink : ∀ f : Fld, f.standing = true → f.key ≠ SYS.OPEN.key →
      t.get f = (s.linkTrained j.val rt x.pos).get f := fun f hf ho => by
    rw [hget f hf ho, hu.regs f hf, s.peerTaken_get j rt x hf]
  have hpeers : t.gang.peers = u.gang.peers := by rw [← ht, State.settled_peers, State.checkFormed_gang]
  have hformed : t.gang.formed = u.checkFormed.gang.formed := by rw [← ht, State.settled_formed]
  have hpwr : t.pwr = u.pwr := by rw [← ht, State.settled_pwr, State.checkFormed_pwr]
  have hmem : t.mem = s.mem := by rw [← ht, State.settled_mem, State.checkFormed_mem, hu.mem, s.peerTaken_mem]
  have hevt : ∀ p i, i < 32 → u.evt p i = true → t.evt p i = true := fun p i hi h => by
    rw [← ht]
    exact State.evt_settled (State.evt_checkFormed h hi) hi s
  refine ⟨?_, ?_, ?_, ?_, fun hx => ?_, ?_, fun a => ?_⟩
  · rw [hlink _ (DFT.linkUp_standing j) (DFT.linkUp_ne_open j), State.linkTrained_linkUp]
  · rw [hlink _ (DFT.delay_standing j) (DFT.delay_ne_open j), State.linkTrained_delay]
  · rw [hlink _ (DFT.peerPos_standing j) (DFT.peerPos_ne_open j), State.linkTrained_peerPos]
  · rw [hpeers, hugang, s.peerTaken_peers, mget_mput_self]
  · exact (hwrong hx).imp (hevt _ _ (by decide)) (hevt _ _ (by decide))
  · rw [State.gangComplete_congr hget hpeers hpwr, hformed, State.checkFormed_gang, hugang, s.peerTaken_formed, henabled]
  · rw [hmem]

/-! ## Loss (R168) -/

/-- The registers and events of a link whose markers were missing. -/
def State.linkDowned (s : State) (j : Nat) : State :=
  (((((s.put (DFT.ALIGNED j) 0).put (DFT.LANE_OK j) 0).put (DFT.LINK_UP j) 0).inc (DFT.MARKER_MISS j) 2).raise
    (DFT.page j) DFT.evALIGN_LOST).raise (DFT.page j) DFT.evLINK_DOWN

section
variable (s : State) (j : Fin 3)

@[simp] theorem State.linkDowned_gang (i : Nat) : (s.linkDowned i).gang = s.gang := by simp [State.linkDowned]
@[simp] theorem State.linkDowned_q (i : Nat) : (s.linkDowned i).q = s.q := by simp [State.linkDowned]
@[simp] theorem State.linkDowned_net (i : Nat) : (s.linkDowned i).net = s.net := by simp [State.linkDowned]
@[simp] theorem State.linkDowned_pwr (i : Nat) : (s.linkDowned i).pwr = s.pwr := by simp [State.linkDowned]
@[simp] theorem State.linkDowned_mem (i : Nat) : (s.linkDowned i).mem = s.mem := by simp [State.linkDowned]

theorem State.linkDowned_evts : (s.linkDowned j.val).evt (DFT.page j.val) DFT.evLINK_DOWN = true ∧
    (s.linkDowned j.val).evt (DFT.page j.val) DFT.evALIGN_LOST = true :=
  ⟨State.evt_raise_self _ _ _ (by decide), State.evt_raise (State.evt_raise_self _ _ _ (by decide)) (by decide) _ _⟩

theorem State.linkDowned_get {f : Fld} (hf : f.standing = true) : (s.linkDowned j.val).get f =
    (((s.put (DFT.ALIGNED j.val) 0).put (DFT.LANE_OK j.val) 0).put (DFT.LINK_UP j.val) 0).get f :=
  (((((State.Told.refl _).inc _).raise _ _).raise _ _).regs f hf)

theorem State.linkDowned_linkUp : (s.linkDowned j.val).get (DFT.LINK_UP j.val) = 0 := by
  rw [s.linkDowned_get j (DFT.linkUp_standing j), State.get_put_self, Nat.zero_mod]

/-- The gang's size and the positions that links lead to are as before. -/
theorem State.linkDowned_place : (s.linkDowned j.val).gangN = s.gangN ∧
    ∀ i, (s.linkDowned j.val).linkPos i = s.linkPos i := by
  have hk : ∀ i : Fin 3, GNG.SIZE.key ≠ (DFT.ALIGNED i.val).key ∧ GNG.SIZE.key ≠ (DFT.LANE_OK i.val).key ∧
      GNG.SIZE.key ≠ (DFT.LINK_UP i.val).key := by decide
  obtain ⟨h1, h2, h3⟩ := hk j
  have hsize : (s.linkDowned j.val).get GNG.SIZE = s.get GNG.SIZE := by
    rw [s.linkDowned_get j (by decide), State.get_put_ne _ _ h3, State.get_put_ne _ _ h2, State.get_put_ne _ _ h1]
  obtain ⟨hN, hpos⟩ := State.gangPos_congr hsize (s.linkDowned_pwr _)
  exact ⟨hN, fun i => by rw [State.linkPos, hpos, State.linkPos]⟩

/-- What the loss of a link leaves before the gang is formed: its peer is forgotten. -/
def State.peerForgotten (j : Nat) : State :=
  let u := s.linkDowned j
  { u with gang := { u.gang with peers := mdel u.gang.peers j } }

theorem State.peerForgotten_reg (i : Nat) : (s.peerForgotten i).reg = (s.linkDowned i).reg := by
  simp only [State.peerForgotten]

theorem State.peerForgotten_linkUp : (s.peerForgotten j.val).get (DFT.LINK_UP j.val) = 0 :=
  (State.get_of_reg (s.peerForgotten_reg _) _).trans (s.linkDowned_linkUp j)

theorem State.peerForgotten_evts : (s.peerForgotten j.val).evt (DFT.page j.val) DFT.evLINK_DOWN = true ∧
    (s.peerForgotten j.val).evt (DFT.page j.val) DFT.evALIGN_LOST = true := by
  simp only [State.evt, State.get_of_reg (s.peerForgotten_reg j.val)]
  exact s.linkDowned_evts j

theorem State.peerForgotten_mem (i : Nat) : (s.peerForgotten i).mem = s.mem := by
  simp only [State.peerForgotten, State.linkDowned_mem]

/-- The gang that has lost a member is figured again (R103). -/
def State.withoutMember (j : Nat) : State :=
  let u := s.linkDowned j
  { u with gang := { u.gang with lost := addTo u.gang.lost j }, q := { u.q with refigure := true } }

/-- What the loss of a link to a member leaves (R168). -/
def State.memberLost (j : Nat) : State := (s.withoutMember j).raise GNG.page GNG.evMEMBER_LOST

theorem State.withoutMember_reg (i : Nat) : (s.withoutMember i).reg = (s.linkDowned i).reg := by
  simp only [State.withoutMember]

theorem State.memberLost_told (i : Nat) : (s.withoutMember i).Told (s.memberLost i) :=
  (State.Told.refl (s.withoutMember i)).raise _ _

theorem State.memberLost_linkUp : (s.memberLost j.val).get (DFT.LINK_UP j.val) = 0 := by
  rw [(s.memberLost_told j.val).regs _ (DFT.linkUp_standing j), State.get_of_reg (s.withoutMember_reg j.val),
    s.linkDowned_linkUp]

theorem State.memberLost_evt (i : Nat) : (s.memberLost i).evt GNG.page GNG.evMEMBER_LOST = true :=
  (s.withoutMember i).evt_raise_self _ _ (by decide)

theorem State.memberLost_gang (i : Nat) : (s.memberLost i).gang = { s.gang with lost := addTo s.gang.lost i } := by
  simp only [State.memberLost, State.raise_gang, State.withoutMember, State.linkDowned_gang]

theorem State.memberLost_q (i : Nat) : (s.memberLost i).q = { s.q with refigure := true } := by
  simp only [State.memberLost, State.raise_q, State.withoutMember, State.linkDowned_q]

theorem State.memberLost_net (i : Nat) : (s.memberLost i).net = s.net := by
  simp only [State.memberLost, State.raise_net, State.withoutMember, State.linkDowned_net]

theorem State.memberLost_mem (i : Nat) : (s.memberLost i).mem = s.mem := by
  simp only [State.memberLost, State.raise_mem, State.withoutMember, State.linkDowned_mem]

theorem State.memberLost_frozenCut (i : Nat) : (s.memberLost i).frozenCut = s.frozenCut :=
  State.frozenCut_congr (by rw [s.memberLost_q]) (s.memberLost_net i)

end

theorem mem_addTo (l : List Nat) (n : Nat) : n ∈ addTo l n := by
  unfold addTo
  split <;> simp_all

section
variable {s : State} {j : Fin 3}

theorem State.driftDown_ignored (h : s.flag (DFT.LINK_UP j.val) = false) (markers : Bool) :
    s.driftDown j.val markers = s := by
  rw [State.driftDown, if_pos (by simp [h])]

/-- The loss of a link that was up: of a peer, of a link that leads to no member, or of a member. -/
theorem State.driftDown_up (h : s.flag (DFT.LINK_UP j.val) = true) : s.driftDown j.val true =
    let u := s.linkDowned j.val
    let v := s.memberLost j.val
    if !u.gang.formed then s.peerForgotten j.val
    else if u.gangN ≤ u.linkPos j.val then u
    else (((v.gang.remote.filter fun e => v.homeOf e.2.1 == v.linkPos j.val).map (·.1)).foldl
      (fun s t => s.gotRemote t 0x0F []) v).runReads := by
  unfold State.driftDown
  rw [if_neg (by simp [h])]
  rfl

theorem State.driftDown_unformed (h : s.flag (DFT.LINK_UP j.val) = true) (hf : s.gang.formed = false) :
    s.driftDown j.val true = s.peerForgotten j.val := by
  rw [State.driftDown_up h]
  exact if_pos (by rw [s.linkDowned_gang, hf]; rfl)

/-- Of a gang that is formed a member is lost. Where no read has asked it for anything, nothing else
happens. -/
theorem State.driftDown_formed (h : s.flag (DFT.LINK_UP j.val) = true) (hf : s.gang.formed = true)
    (hn : s.linkPos j.val < s.gangN) (hr : s.gang.remote = []) (hw : s.gang.waiting = []) (hreads : s.net.reads = [])
    (hcut : s.frozenCut = false) : s.driftDown j.val true = s.memberLost j.val := by
  obtain ⟨hN, hpos⟩ := s.linkDowned_place j
  have hgang := s.memberLost_gang j.val
  have hremote : (s.memberLost j.val).gang.remote = [] := by rw [hgang, hr]
  rw [State.driftDown_up h]
  dsimp only
  rw [if_neg (by rw [s.linkDowned_gang, hf]; decide), if_neg (by rw [hN, hpos]; omega), hremote, List.filter_nil,
    List.map_nil, List.foldl_nil]
  exact State.runReads_quiet (by rw [s.memberLost_net, hreads]) (by rw [hgang, hw]) ((s.memberLost_frozenCut _).trans hcut)

end

/-! ## Frames of a gang member (R165, R169) -/

/-- Frames of a link that is down. -/
theorem State.gives_down {s : State} {j : Fin 3} {f : LinkFrame} (hd : s.dpUp = true)
    (h : s.flag (DFT.LINK_UP j.val) = false) :
    s.gives (.fwdDgram j f) (s.at f.time) ∧ s.gives (.table j f) (s.at f.time) := by
  constructor
  · have hf : s.fwdDgram j f = s.at f.time := by rw [State.fwdDgram, State.recvDrift_down 0x16 h]
    exact hf ▸ State.gives_whenDp (fun s => s.fwdDgram j f) hd rfl
  · have hf : s.takeTable j f = s.at f.time := by rw [State.takeTable, State.recvDrift_down 0x11 h]
    exact hf ▸ State.gives_whenDp (fun s => s.takeTable j f) hd rfl

section
variable {s : State} {j : Fin 3} {f : LinkFrame}

theorem State.fwdAnswer_badCrc (h : s.flag (DFT.LINK_UP j.val) = true) (hc : f.crcOk 0x17 = false) : s.fwdAnswer j f =
    ((driftTook s j f).inc (DFT.RX_DROP j.val)).raise (DFT.page j.val) DFT.evFRAME_DROP := by
  rw [State.fwdAnswer, State.recvDrift_badCrc h hc]

/-- A change of a member's tables waits for the boundary (R169). -/
theorem State.takeTable_good (h : driftGood s j f 0x11 = true) : s.takeTable j f =
    { driftTook s j f with win := { (driftTook s j f).win with
      tables := s.win.tables ++ [(s.linkPos j.val, s.nextTable, fieldBE f.body 0 8, f.body.drop 40)] } } := by
  have hwin := (s.told_driftTook j f).win
  have hnext : (driftTook s j f).nextTable = s.nextTable := by rw [State.nextTable, hwin, State.nextTable]
  rw [State.takeTable, State.recvDrift_good h]
  simp only [hwin, hnext, State.driftTook_linkPos]

/-- The state in which a forwarded datagram or answer is looked at: its bytes counted. -/
def State.driftForwarded (s : State) (j : Fin 3) (f : LinkFrame) : State :=
  (driftTook s j f).inc (DFT.FWD_BYTES_RX j.val) (f.body.length - 32)

theorem State.told_driftForwarded (s : State) (j : Fin 3) (f : LinkFrame) : s.Told (s.driftForwarded j f) :=
  (s.told_driftTook j f).inc _

theorem State.fwdAnswer_good (h : driftGood s j f 0x17 = true) : s.fwdAnswer j f =
    (s.driftForwarded j f).relayAnswer (parseReturn f.body none) (f.body.drop 32) := by
  rw [State.fwdAnswer, State.recvDrift_good h]
  rfl

theorem State.relayAnswer_down {dst : RetAddr} (h : s.linkUp dst.link = false) (bytes : List Byte) :
    s.relayAnswer dst bytes = s.inc (XPT.RX_DROP dst.link.port.val) := by
  simp [State.relayAnswer, h]

theorem State.relayAnswer_up {dst : RetAddr} (h : s.linkUp dst.link = true) (hp : s.pausedAt dst = false)
    (bytes : List Byte) : s.relayAnswer dst bytes =
      (s.inc (HP.TX_FRAMES dst.link.port.val)).send (.relayed dst.link bytes (s.answerHead dst)) := by
  simp [State.relayAnswer, h, hp]

/-- A forwarded datagram meets step 1 of its host link (R165). -/
theorem State.fwdDgram_good (h : driftGood s j f 0x16 = true) : s.fwdDgram j f =
    let w := s.driftForwarded j f
    let p := (parseReturn f.body none).link.port.val
    let d := parseFwd f.time f.body (s.get (XPT.UDP_PORT_SEALED p))
    if s.mus.stopped then w
    else if s.frameBad d.1.frame || d.1.cut then w.inc (XPT.RX_DROP p)
    else if d.1.sealing.isNone && d.1.frame.dstPort.toNat != s.get (XPT.UDP_PORT p) then w
    else if !icrcOk d.1 d.2 then (w.inc (XPT.RX_DROP p)).raise (XPT.page p) XPT.evICRC_ERR
    else if d.1.hdr.typ != 0 then w.inc (XPT.RX_DROP p)
    else w.pipeline d.1 d.2 d.1.sealing.isSome (some j) := by
  have ht := s.told_driftForwarded j f
  rw [State.fwdDgram, State.recvDrift_good h]
  dsimp only
  rw [← ht.udpPortSealed, ← ht.udpPort, ← ht.frameBad, ← ht.mus]
  rfl

end

/-- Settles O58: a link's training and its loss by their branches; a good frame by its reception, after which the settings it is
judged by stand. That the gang forms only while its page is enabled is the choice of log entry 43, that a TABLE is kept for the
boundary that of log entry 39. -/
theorem driftLinks : Obligations.DriftLinks := by
  intro s j hd
  refine ⟨fun rt pos size dev tw cap h => ?ignored, fun rt pos size dev tw cap hn he hl hr => ?trains, fun h => ?wasDown,
    fun h hf => ?unformed, fun h hf hn hr hw hreads hcut => ?lost, fun f h => State.gives_down hd h, fun f h hc => ?badCrc,
    fun f => ⟨fun h => ?table, fun h => ⟨fun hl hp => ?relayed, fun hl => ?unrelayed⟩,
      fun h => ⟨fun hm => ?stopped, fun hm hb => ?bad, fun hm hb hcut hs hp hi ht => ?checked⟩⟩⟩
  case ignored =>
    have hg := State.gives_whenDp (c := .driftLinkUp j rt pos size dev tw cap) _ hd rfl
    rwa [State.driftUp_ignored h] at hg
  case trains =>
    have hg := State.gives_whenDp (c := .driftLinkUp j rt pos size dev tw cap) _ hd rfl
    rw [State.driftUp_trains hn he hl hr] at hg
    have hx := State.driftUp_settled (s := s) (j := j) (rt := rt) (x := ⟨pos.toNat, size.toNat, dev.toNat, tw.toNat, cap⟩) rfl
    rw [Nat.mod_eq_of_lt pos.isLt] at hx
    exact hg.answers hx
  case wasDown =>
    have hg := State.gives_whenDp (c := .driftLinkDown j) _ hd rfl
    rwa [State.driftDown_ignored h] at hg
  case unformed =>
    have hg := State.gives_whenDp (c := .driftLinkDown j) _ hd rfl
    rw [State.driftDown_unformed h hf] at hg
    obtain ⟨hdown, hlost⟩ := s.peerForgotten_evts j
    refine hg.answers ⟨?_, ?_, State.evt_settled hdown (by decide) s, State.evt_settled hlost (by decide) s, fun a => ?_⟩
    · rw [s.get_settled_standing _ (DFT.linkUp_standing j) (DFT.linkUp_ne_open j), s.peerForgotten_linkUp]
    · rw [State.settled_peers, State.peerForgotten, mget_mdel_self]
    · rw [State.settled_mem, State.peerForgotten_mem]
  case lost =>
    have hg := State.gives_whenDp (c := .driftLinkDown j) _ hd rfl
    rw [State.driftDown_formed h hf hn hr hw hreads hcut] at hg
    refine hg.answers ⟨?_, ?_, State.evt_settled (s.memberLost_evt j.val) (by decide) s, ?_, fun a => ?_⟩
    · rw [s.get_settled_standing _ (DFT.linkUp_standing j) (DFT.linkUp_ne_open j), s.memberLost_linkUp]
    · rw [State.settled_lost, s.memberLost_gang]
      exact mem_addTo _ _
    · rw [State.settled_q, s.memberLost_q]
    · rw [State.settled_mem, s.memberLost_mem]
  case badCrc =>
    have hg := State.gives_whenDp (c := .fwdAnswer j f) _ hd rfl
    rwa [State.fwdAnswer_badCrc h hc] at hg
  case table =>
    have hg := State.gives_whenDp (c := .table j f) _ hd rfl
    rwa [State.takeTable_good h] at hg
  case relayed =>
    have ht := s.told_driftForwarded j f
    have hg := State.gives_whenDp (c := .fwdAnswer j f) _ hd rfl
    rwa [State.fwdAnswer_good h, State.relayAnswer_up ((ht.linkUp _).trans hl) (ht.pausedAt hp)] at hg
  case unrelayed =>
    have hg := State.gives_whenDp (c := .fwdAnswer j f) _ hd rfl
    rwa [State.fwdAnswer_good h, State.relayAnswer_down (((s.told_driftForwarded j f).linkUp _).trans hl)] at hg
  case stopped =>
    have hg := State.gives_whenDp (c := .fwdDgram j f) _ hd rfl
    rwa [State.fwdDgram_good h, if_pos hm] at hg
  case bad =>
    have hg := State.gives_whenDp (c := .fwdDgram j f) _ hd rfl
    rwa [State.fwdDgram_good h, if_neg (by simp [hm]), if_pos (by rwa [Bool.or_eq_true])] at hg
  case checked =>
    have hg := State.gives_whenDp (c := .fwdDgram j f) _ hd rfl
    rwa [State.fwdDgram_good h, if_neg (by simp [hm]), if_neg (by simp [hb, hcut]), if_neg (by simp [hp]),
      if_neg (by simp [hi]), if_neg (by simp [ht]), hs] at hg

end Sys2Proof.Machine

/-! PROOFS. What bytes stored leave of the gang: its writes held and its frames (R167, R175, R180). -/

namespace Sys2Proof.Machine

section
variable (s : State)

/-! ## Frames and moves (R175 to R180) -/

@[simp] theorem State.allocFrame_gang (warm : Bool) : (s.allocFrame warm).2.gang = s.gang := by
  unfold State.allocFrame
  dsimp only
  split
  · rfl
  · cases List.findSome? _ _ <;> rfl

@[simp] theorem State.sayFull_gang (d : Nat) (tiers : List Bool) (extra : Nat) (write : Bool) :
    (s.sayFull d tiers extra write).gang = s.gang := by
  unfold State.sayFull
  split <;> exact s.raiseIf_gang _ _ _

@[simp] theorem State.placeWait_gang : s.placeWait.gang = s.gang := by simp [State.placeWait]

@[simp] theorem State.freeSb_gang (n : Nat) : (s.freeSb n).gang = s.gang := by
  unfold State.freeSb State.dropGroups State.issueNext
  exact foldl_keeps State.gang (fun s e => by split <;> rfl) _ _

@[simp] theorem State.settleZeros_gang (lb : Nat) : (s.settleZeros lb).gang = s.gang := by
  have hfree : ∀ l, (s.freeSbs l).gang = s.gang := fun l => foldl_keeps State.gang State.freeSb_gang l s
  unfold State.settleZeros
  dsimp only
  split
  · split <;> exact hfree _
  · rfl

@[simp] theorem State.promote_gang (e pref : Nat) (reserve : Bool) (extra : Nat) (write : Bool) :
    (s.promote e pref reserve extra write).2.gang = s.gang := by
  unfold State.promote
  grind [State.sayFull_gang, State.allocFrame_gang, State.setExtent_gang]

@[simp] theorem State.promoteDue_gang (e : Nat) : (s.promoteDue e).gang = s.gang := by
  unfold State.promoteDue
  grind [State.promote_gang, State.setExtent_gang, State.raiseIf_gang]

@[simp] theorem State.abandonMove_gang (e : Nat) : (s.abandonMove e).gang = s.gang := by
  unfold State.abandonMove
  split
  · rfl
  · split
    · rfl
    · rw [State.raise_gang, State.inc_gang]
      split
      · split
        · split <;> rfl
        · rfl
      · rfl

/-! ## A store (R175, R180, R209, R211) -/

@[simp] theorem State.giveHome_gang (e d pref : Nat) : (s.giveHome e d pref).gang = s.gang := by
  unfold State.giveHome
  grind [State.placeWait_gang, State.raiseIf_gang, State.sayFull_gang, State.allocFrame_gang, State.settleZeros_gang,
    State.setExtent_gang]

@[simp] theorem State.readyHome_gang (e : Nat) : (s.readyHome e).gang = s.gang := by
  unfold State.readyHome
  grind [State.abandonMove_gang, State.placeWait_gang, State.promoteDue_gang, State.setExtent_gang]

@[simp] theorem State.touch_gang (e : Nat) : (s.touch e).gang = s.gang := by
  unfold State.touch
  split <;> rfl

@[simp] theorem State.markWritten_gang (x : Nat) : (s.markWritten x).gang = s.gang := by
  unfold State.markWritten
  split <;> rfl

@[simp] theorem State.storeDa_gang (d pref da : Nat) (bs : List Byte) : (s.storeDa d pref da bs).gang = s.gang := by
  unfold State.storeDa
  refine (foldl_keeps State.gang State.markWritten_gang _ _).trans ?_
  refine (foldl_keeps State.gang (fun (t : State) x => show (t.clearPoison x).gang = t.gang from rfl) _ _).trans ?_
  refine foldl_keeps State.gang (fun t e => ?_) _ _
  split <;> simp

/-- Bytes stored in the placement order change of the gang only the record of what has been stored
(R167). -/
theorem State.storeOrdered_placing (o : Nat × Nat × Nat) (d pref da : Nat) (bs : List Byte) :
    (s.storeOrdered o d pref da bs).gang.placing = s.gang.placing := by
  unfold State.storeOrdered
  dsimp only
  rw [State.storeDa_gang]

/-- With nothing stored that comes later, the bytes are stored as they are. -/
theorem State.storeOrdered_mem {s : State} (h : s.gang.applied = []) (o : Nat × Nat × Nat) (d pref da : Nat)
    (bs : List Byte) : (s.storeOrdered o d pref da bs).mem = (s.storeDa d pref da bs).mem := by
  simp only [State.storeOrdered, h, List.filter_nil, List.isEmpty_nil, if_true]

@[simp] theorem State.zeroFrames_gang (port da n : Nat) : (s.zeroFrames port da n).gang = s.gang := by
  refine foldl_keeps State.gang (fun t e => ?_) _ _
  split
  · split <;> rfl
  · rfl

@[simp] theorem State.zeroFrames_mem (port da n : Nat) : (s.zeroFrames port da n).mem = s.mem := by
  refine foldl_keeps State.mem (fun t e => ?_) _ _
  split
  · split <;> rfl
  · rfl

@[simp] theorem State.chargePort_gang (k n : Nat) : (s.chargePort k n).gang = s.gang := rfl

@[simp] theorem State.chargePort_mem (k n : Nat) : (s.chargePort k n).mem = s.mem := rfl

theorem State.maskedWrite_keeps (m : Nat) : (s.maskedWrite m).gang = s.gang ∧ (s.maskedWrite m).mem = s.mem := by
  unfold State.maskedWrite
  split <;> exact ⟨rfl, rfl⟩

@[simp] theorem State.maskedPart_gang (da n : Nat) : (s.maskedPart da n).gang = s.gang := by
  refine foldl_keeps State.gang (fun t u => ?_) _ _
  split
  · exact (State.maskedWrite_keeps _ _).1
  · rfl

@[simp] theorem State.maskedPart_mem (da n : Nat) : (s.maskedPart da n).mem = s.mem := by
  refine foldl_keeps State.mem (fun t u => ?_) _ _
  split
  · exact (State.maskedWrite_keeps _ _).2
  · rfl

end

end Sys2Proof.Machine

/-! PROOFS. The memory of other gang members: reads answered, writes held until their PLACE_END and stored then (R167, R308). -/

namespace Sys2Proof.Machine

/-! ## Writes held (R167) -/

/-- A held write: position, epoch, index, device address, data. -/
abbrev HeldWrite := Nat × Nat × Nat × Nat × List Byte

namespace HeldWrite

variable (e : HeldWrite)

/-- The position of the member that committed it. -/
abbrev pos : Nat := e.1

abbrev epoch : Nat := e.2.1

abbrev index : Nat := e.2.2.1

/-- Where its bytes go. -/
abbrev da : Nat := e.2.2.2.1

abbrev data : List Byte := e.2.2.2.2

end HeldWrite

/-- The writes of a member that are held, up to an epoch. -/
def State.dueOf (s : State) (pos n : Nat) : List HeldWrite :=
  s.gang.placing.filter fun e : HeldWrite => e.pos == pos && e.epoch ≤ n

/-- Does a held write go to a member that stands idle (R308)? -/
def State.idleFor (s : State) (e : HeldWrite) : Bool := s.heldBack e.da e.data.length

/-- Held writes in the order of epochs, then indices. -/
def placeOrder : List HeldWrite → List HeldWrite :=
  sortBy fun a b => a.epoch < b.epoch || (a.epoch == b.epoch && a.index ≤ b.index)

/-- One held write stored through the drift-forwarding port. -/
def State.placeHeld (s : State) (e : HeldWrite) : State :=
  let w := s.windowOf e.da
  let n := e.data.length
  (((s.storeOrdered (e.epoch, e.pos, e.index) w.1 w.2 e.da e.data).zeroFrames 20 e.da n).maskedPart e.da n).chargePort 20 n

/-- No write up to an epoch of a member held any more. -/
def State.letGo (s : State) (pos n : Nat) : State :=
  { s with gang := { s.gang with placing := s.gang.placing.filter fun e : HeldWrite => !(e.pos == pos && e.epoch ≤ n) } }

/-- The epoch up to which every member's writes have come. -/
def State.orderedUpTo (s : State) : Nat :=
  ((List.range s.gangN).filter (· != s.gangPos)).foldl (fun m p => min m (mgetD s.gang.placeEnd p 0)) s.cm.committed

/-- The records of stored writes that nothing can precede any more let go. -/
def State.forgetApplied (s : State) : State :=
  { s with gang := { s.gang with applied := s.gang.applied.filter fun e => s.orderedUpTo < e.1 } }

theorem State.applyPlaces_eq (s : State) (pos n : Nat) : s.applyPlaces pos n =
    if (placeOrder (s.dueOf pos n)).any s.idleFor then s
    else ((placeOrder (s.dueOf pos n)).foldl State.placeHeld (s.letGo pos n)).forgetApplied := rfl

theorem insertBy_perm {α : Type} (le : α → α → Bool) (x : α) (l : List α) : (insertBy le x l).Perm (x :: l) := by
  induction l with
  | nil => exact .refl _
  | cons y l ih =>
    rw [insertBy]
    split
    · exact .refl _
    · exact (ih.cons y).trans (.swap x y l)

theorem sortBy_perm {α : Type} (le : α → α → Bool) (l : List α) : (sortBy le l).Perm l := by
  induction l with
  | nil => exact .refl _
  | cons x l ih => exact (insertBy_perm le x _).trans (ih.cons x)

theorem mem_placeOrder {l : List HeldWrite} {e : HeldWrite} : e ∈ placeOrder l ↔ e ∈ l := (sortBy_perm _ l).mem_iff

section
variable {s : State} {pos n : Nat}

/-- While one of them goes to an idle member they are all held on. -/
theorem State.applyPlaces_idle (h : ∃ e ∈ s.dueOf pos n, s.idleFor e = true) : s.applyPlaces pos n = s := by
  obtain ⟨e, he, hi⟩ := h
  rw [State.applyPlaces_eq, if_pos (List.any_eq_true.2 ⟨e, mem_placeOrder.2 he, hi⟩)]

theorem State.applyPlaces_awake (h : ∀ e ∈ s.dueOf pos n, s.idleFor e = false) : s.applyPlaces pos n =
    ((placeOrder (s.dueOf pos n)).foldl State.placeHeld (s.letGo pos n)).forgetApplied := by
  rw [State.applyPlaces_eq, if_neg]
  simpa [List.any_eq_true, mem_placeOrder] using h

/-- None of them is held any more. -/
theorem State.applyPlaces_placing (h : ∀ e ∈ s.dueOf pos n, s.idleFor e = false) : (s.applyPlaces pos n).gang.placing =
    s.gang.placing.filter fun e : HeldWrite => !(e.pos == pos && e.epoch ≤ n) := by
  have hp : ∀ (t : State) e, (t.placeHeld e).gang.placing = t.gang.placing := fun t e => by
    simp only [State.placeHeld, State.chargePort_gang, State.maskedPart_gang, State.zeroFrames_gang,
      State.storeOrdered_placing]
  rw [State.applyPlaces_awake h]
  exact foldl_keeps (fun t : State => t.gang.placing) hp _ _

/-- With none of them held, nothing is stored. -/
theorem State.applyPlaces_none (h : s.dueOf pos n = []) : (s.applyPlaces pos n).mem = s.mem := by
  rw [State.applyPlaces_awake (by simp [h]), h]
  rfl

/-- A write to extents settled in DRAM, with none stored that comes later in the placement order. -/
theorem State.placeHeld_mem {e : HeldWrite} (ha : s.gang.applied = [])
    (he : ∀ k ∈ extentsIn e.da e.data.length, s.settledVolatile k = true) :
    (s.placeHeld e).mem = Memory.writeN s.mem e.da e.data := by
  simp only [State.placeHeld, State.chargePort_mem, State.maskedPart_mem, State.zeroFrames_mem,
    State.storeOrdered_mem ha]
  exact ((State.Stored.refl s).storeDa he _ _).mem

theorem State.applyPlaces_one {e : HeldWrite} (h : s.dueOf pos n = [e]) (hi : s.idleFor e = false)
    (ha : s.gang.applied = []) (he : ∀ k ∈ extentsIn e.da e.data.length, s.settledVolatile k = true) :
    (s.applyPlaces pos n).mem = Memory.writeN s.mem e.da e.data := by
  rw [State.applyPlaces_awake (by simp [h, hi]), h]
  exact State.placeHeld_mem (s := s.letGo pos n) ha he

end

/-! ## Reads for another member (R167, R308) -/

theorem State.Alike.isHot {s t : State} (h : s.Alike t) {e : Nat} (he : s.isHot e) : t.isHot e := by
  unfold State.isHot at he ⊢
  rwa [h.extent]

/-- Nothing ails hot bytes without poison. -/
theorem State.ails_hot {s : State} {da n : Nat} (hot : ∀ e ∈ extentsIn da n, s.isHot e)
    (sound : ∀ x ∈ sectorsIn da n, s.poisoned x = false) (p : Pending) : s.ails p da n = (false, false, false) := by
  simp only [State.ails, Prod.mk.injEq, List.any_eq_false]
  refine ⟨fun x hx => ?_, fun x hx => ?_, fun x hx => ?_⟩ <;>
    obtain ⟨y, f, hy, hf⟩ := hot _ (extent_of_sectorsIn hx)
  · simp [hy, sound x hx]
  · simp [hy, hf]
  · simp [hy, hf]

/-- A read of hot bytes without poison, and no cell in error, is answered with them. -/
theorem State.homeRead_hot {s : State} {b : List Byte} (j : Nat)
    (hot : ∀ e ∈ extentsIn (fieldBE b 0 8) (fieldBE b 8 4), s.isHot e)
    (sound : ∀ x ∈ sectorsIn (fieldBE b 0 8) (fieldBE b 8 4), s.poisoned x = false) :
    ∃ t k, s.Touched t ∧ s.homeRead j b [] = (t.chargePort 20 k).sendDrift j 0x14 s.ep.num
      (slice b 12 4 ++ [0, 0, 0, 0] ++ s.readMem (fieldBE b 0 8) (fieldBE b 8 4)) := by
  have hcells : s.readCells [] (fieldBE b 0 8) (fieldBE b 8 4) = s := rfl
  have hmoves : s.Touched ((extentsIn (fieldBE b 0 8) (fieldBE b 8 4)).foldl
      (fun s e => (s.readMoves e (s.windowOf (e * 65536)).2).2) s) := by
    refine List.foldlRecOn _ _ (.refl s) fun t ht e he => ?_
    rw [State.readMoves_hot (ht.isHot (hot e he))]
    exact ht.touch e
  unfold State.homeRead
  dsimp only
  rw [hcells]
  generalize List.foldl _ s (extentsIn (fieldBE b 0 8) (fieldBE b 8 4)) = t at hmoves
  have hp : t.poisoned = s.poisoned := hmoves.asks (fun u => u.poisoned) fun _ _ => rfl
  have hails : ∀ k p, (t.chargePort 20 k).ails p (fieldBE b 0 8) (fieldBE b 8 4) = (false, false, false) := fun k p =>
    State.ails_hot (s := t.chargePort 20 k) (fun e he => hmoves.isHot (hot e he))
      (fun x hx => (congrFun hp x).trans (sound x hx)) p
  have hnum : ∀ k, (t.chargePort 20 k).ep.num = s.ep.num := fun k =>
    hmoves.asks (fun u => (u.chargePort 20 k).ep.num) fun _ _ => rfl
  have hread : ∀ k a n, (t.chargePort 20 k).readMem a n = s.readMem a n := fun k a n =>
    hmoves.asks (fun u => (u.chargePort 20 k).readMem a n) fun _ _ => rfl
  refine ⟨t, t.volatileBytes (t.gaOf (fieldBE b 0 8)) (fieldBE b 8 4), hmoves, ?_⟩
  simp only [hails, hnum, hread, Bool.and_self, Bool.false_eq_true, if_false, List.append_assoc]
  rfl

/-- A frame for a link that is up waits for it. -/
theorem State.sendDrift_up {s : State} {j : Nat} (h : s.flag (DFT.LINK_UP j) = true) (typ epoch : Nat) (p : List Byte) :
    s.sendDrift j typ epoch p = { s with gang := { s.gang with
      txq := mput s.gang.txq j (mgetD s.gang.txq j [] ++ [{ typ := typ, epoch := epoch, payload := p }]) } } := by
  simp [State.sendDrift, h]

/-- A MEM_READ that none waits before is answered, unless an idle member holds it back. -/
theorem State.pumpHomeReads_one {s : State} (h : s.gang.waiting = []) (e : Nat × List Byte × List CellFault) :
    { s with gang := { s.gang with waiting := s.gang.waiting ++ [e] } }.pumpHomeReads =
      if s.heldBack (fieldBE e.2.1 0 8) (fieldBE e.2.1 8 4) then
        { s with gang := { s.gang with waiting := s.gang.waiting ++ [e] } }
      else s.homeRead e.1 e.2.1 e.2.2 := by
  have he : { s with gang := { s.gang with waiting := [] } } = s := by rw [← h]
  simp only [State.pumpHomeReads, h, List.nil_append, List.foldl_cons, List.foldl_nil, he]

/-- A good MEM_READ of hot bytes without poison is answered in a MEM_DATA frame. -/
theorem State.homeRead_took {s : State} {j : Fin 3} {f : LinkFrame} (h : driftGood s j f 0x13 = true)
    (hot : ∀ e ∈ extentsIn (fieldBE f.body 0 8) (fieldBE f.body 8 4), s.isHot e)
    (sound : ∀ x ∈ sectorsIn (fieldBE f.body 0 8) (fieldBE f.body 8 4), s.poisoned x = false) :
    let t := (driftTook s j f).homeRead j.val f.body []
    t.gang.txq = mput s.gang.txq j.val (mgetD s.gang.txq j.val [] ++ [{
        typ := 0x14, epoch := s.ep.num
        payload := slice f.body 12 4 ++ [0, 0, 0, 0] ++ s.readMem (fieldBE f.body 0 8) (fieldBE f.body 8 4) }]) ∧
      s.sameMemory t := by
  have hu := s.told_driftTook j f
  obtain ⟨t, k, ht, hr⟩ := State.homeRead_hot (s := driftTook s j f) (b := f.body) j.val
    (fun e he => hu.isHot (hot e he)) (fun x hx => (hu.poisoned x).trans (sound x hx))
  have hl : (t.chargePort 20 k).flag (DFT.LINK_UP j.val) = true :=
    ((ht.asks (fun v => (v.chargePort 20 k).flag (DFT.LINK_UP j.val)) fun _ _ => rfl).trans
      (hu.flag (DFT.linkUp_standing j))).trans (driftGood_iff.1 h).2.1
  have hgang : t.gang = s.gang := (ht.asks State.gang fun _ _ => rfl).trans (s.driftTook_gang j f)
  have hmem : t.mem = s.mem := (ht.asks State.mem fun _ _ => rfl).trans hu.mem
  have hread : ∀ a n, (driftTook s j f).readMem a n = s.readMem a n := fun a n => hu.asks (fun v => v.readMem a n) fun _ => rfl
  rw [hr, State.sendDrift_up hl, hread, hu.ep]
  refine ⟨?_, fun a => ?_⟩
  · simp only [State.chargePort_gang, hgang]
  · simp only [State.chargePort_mem, hmem]

/-! ## PLACE_END (R167) -/

/-- The epoch up to which a PLACE_END says that its member's writes have come (R167). -/
def State.endsAt (s : State) (j : Fin 3) (f : LinkFrame) : Nat :=
  max f.epoch.toNat (mgetD s.gang.placeEnd (s.linkPos j.val) 0)

/-- A PLACE_END taken. -/
def State.tookEnd (s : State) (j : Fin 3) (f : LinkFrame) : State :=
  let u := driftTook s j f
  { u with gang := { u.gang with placeEnd := mput s.gang.placeEnd (s.linkPos j.val) (s.endsAt j f) } }

theorem State.tookEnd_placing (s : State) (j : Fin 3) (f : LinkFrame) :
    (s.tookEnd j f).gang.placing = s.gang.placing ∧ (s.tookEnd j f).gang.applied = s.gang.applied := by
  simp only [State.tookEnd, State.driftTook_gang, and_self]

theorem State.tookEnd_dueOf (s : State) (j : Fin 3) (f : LinkFrame) (pos n : Nat) :
    (s.tookEnd j f).dueOf pos n = s.dueOf pos n := by
  rw [State.dueOf, (s.tookEnd_placing j f).1, State.dueOf]

theorem State.tookEnd_mem (s : State) (j : Fin 3) (f : LinkFrame) : (s.tookEnd j f).mem = s.mem := (s.told_driftTook j f).mem

theorem State.tookEnd_settledVolatile (s : State) (j : Fin 3) (f : LinkFrame) (e : Nat) :
    (s.tookEnd j f).settledVolatile e = s.settledVolatile e :=
  (s.told_driftTook j f).asks (fun u => u.settledVolatile e) fun _ => rfl

section
variable {s : State} {j : Fin 3} {f : LinkFrame} {pos n : Nat}

theorem State.tookEnd_letsGo (h : ∀ e ∈ s.dueOf pos n, (s.tookEnd j f).idleFor e = false) :
    ((s.tookEnd j f).applyPlaces pos n).gang.placing =
      s.gang.placing.filter fun e : HeldWrite => !(e.pos == pos && e.epoch ≤ n) := by
  rw [State.applyPlaces_placing (by rwa [s.tookEnd_dueOf]), (s.tookEnd_placing j f).1]

theorem State.tookEnd_none (h : s.dueOf pos n = []) : s.sameMemory ((s.tookEnd j f).applyPlaces pos n) := fun a => by
  rw [State.applyPlaces_none (by rwa [s.tookEnd_dueOf]), s.tookEnd_mem]

/-- One write held, to extents settled in DRAM. -/
theorem State.tookEnd_one {e : HeldWrite} (h : s.dueOf pos n = [e]) (ha : s.gang.applied = [])
    (hi : (s.tookEnd j f).idleFor e = false)
    (he : ∀ k ∈ extentsIn e.da e.data.length, ∃ x, s.extent k = some x ∧ x.isVolatile = true ∧ x.move = none)
    (a : Nat) : Memory.read ((s.tookEnd j f).applyPlaces pos n).mem a =
      if e.da ≤ a ∧ a < e.da + e.data.length then e.data.getD (a - e.da) 0
      else Memory.read s.mem a := by
  have hset : ∀ k ∈ extentsIn e.da e.data.length, (s.tookEnd j f).settledVolatile k = true := fun k hk => by
    rw [s.tookEnd_settledVolatile, State.settledVolatile_iff]
    exact he k hk
  rw [State.applyPlaces_one (by rwa [s.tookEnd_dueOf]) hi (by rw [(s.tookEnd_placing j f).2, ha]) hset, s.tookEnd_mem]
  exact Memory.read_writeN _ _ _ a

theorem State.placeEnd_good (h : driftGood s j f 0x12 = true) : s.placeEnd j f =
    (s.tookEnd j f).applyPlaces (s.linkPos j.val) (s.endsAt j f) := by
  rw [State.placeEnd, State.recvDrift_good h]
  simp only [State.driftTook_linkPos, State.driftTook_gang, State.tookEnd, State.endsAt]

end

/-! ## MEM_DATA and MEM_PLACE (R167) -/

theorem State.memData_good {s : State} {j : Fin 3} {f : LinkFrame} (h : driftGood s j f 0x14 = true) : s.memData j f =
    ((driftTook s j f).gotRemote (fieldBE f.body 0 4) (fieldBE f.body 4 1) (f.body.drop 8)).runReads := by
  rw [State.memData, State.recvDrift_good h]

/-- The write of a MEM_PLACE held with those that came before it. -/
def State.holdWrite (s : State) (j : Nat) (b : List Byte) : State :=
  { s with gang := { s.gang with
    placing := s.gang.placing ++ [(s.linkPos j, fieldBE b 8 8, fieldBE b 16 4, fieldBE b 0 8, b.drop 24)] } }

section
variable {s : State} {j : Fin 3} {b : List Byte}

theorem State.memPlace_early (h : ∀ m, mget s.gang.placeEnd (s.linkPos j.val) = some m → m < fieldBE b 8 8) :
    s.memPlace j b = s.holdWrite j.val b := by
  unfold State.memPlace State.holdWrite
  dsimp only
  split
  · rename_i m hm
    rw [if_neg (Nat.not_le.2 (h m hm))]
  · rfl

/-- Its member's PLACE_END has come already. -/
theorem State.memPlace_late {m : Nat} (h : mget s.gang.placeEnd (s.linkPos j.val) = some m) (hm : fieldBE b 8 8 ≤ m) :
    s.memPlace j b = (s.holdWrite j.val b).applyPlaces (s.linkPos j.val) m := by
  unfold State.memPlace
  simp only [h, if_pos hm]
  rfl

theorem State.holdWrite_took (f : LinkFrame) : (driftTook s j f).holdWrite j.val b =
    { driftTook s j f with gang := { (driftTook s j f).gang with
      placing := s.gang.placing ++ [(s.linkPos j.val, fieldBE b 8 8, fieldBE b 16 4, fieldBE b 0 8, b.drop 24)] } } := by
  simp only [State.holdWrite, State.driftTook_gang, State.driftTook_linkPos]

end

/-- Settles O59: each good frame by what it does in the state that took it. The stop beyond the presented capacity is the choice
of log entry 51. -/
theorem remoteMemory : Obligations.RemoteMemory := by
  intro s j f u pos da
  have hu := s.told_driftTook j f
  refine ⟨fun h => ⟨fun cells hlt => ?absent, fun cells hle => ?read, fun cells hw => ?idle, fun sound hot => ?answered⟩,
    fun h => ⟨fun hlt => ?absentPlace, fun hle => ⟨fun hm => ?held, fun m hm hn => ?late⟩⟩,
    fun h => ⟨?ends, fun hi => ?idleWrites, fun hi => ?letGo, fun hn => ?none, fun e he ha hi hx a => ?stored⟩,
    fun h => ⟨?data, fun hr hw hreads hcut => ?unasked⟩⟩
  case absent => exact (State.withDa_good h _ _).trans (if_pos hlt)
  case read => exact (State.withDa_good h _ _).trans (if_neg (Nat.not_lt.2 hle))
  case idle => exact State.pumpHomeReads_one (by rw [s.driftTook_gang, hw]) (j.val, f.body, cells)
  case answered => exact State.homeRead_took h hot sound
  case absentPlace => exact (State.withDa_good h _ _).trans (if_pos hlt)
  case held =>
    have hx := (State.withDa_good h _ fun v => v.memPlace j f.body).trans (if_neg (Nat.not_lt.2 hle))
    rw [State.memPlace_early (by rwa [s.driftTook_gang, s.driftTook_linkPos]), State.holdWrite_took] at hx
    exact hx
  case late =>
    have hx := (State.withDa_good h _ fun v => v.memPlace j f.body).trans (if_neg (Nat.not_lt.2 hle))
    rw [State.memPlace_late (by rw [s.driftTook_gang, s.driftTook_linkPos, hm]) hn, State.holdWrite_took,
      s.driftTook_linkPos] at hx
    exact hx
  case ends =>
    have hg := State.gives_whenDp (c := .placeEnd j f) _ (driftGood_iff.1 h).1 rfl
    rwa [State.placeEnd_good h] at hg
  case idleWrites => exact State.applyPlaces_idle (s := s.tookEnd j f) (by rwa [s.tookEnd_dueOf])
  case letGo => exact State.tookEnd_letsGo hi
  case none => exact State.tookEnd_none hn
  case stored => exact State.tookEnd_one he ha hi hx a
  case data =>
    have hg := State.gives_whenDp (c := .memData j f) _ (driftGood_iff.1 h).1 rfl
    rwa [State.memData_good h] at hg
  case unasked =>
    have hg := State.gives_whenDp (c := .memData j f) _ (driftGood_iff.1 h).1 rfl
    have hnone : mget (driftTook s j f).gang.remote (fieldBE f.body 0 4) = none := by rw [s.driftTook_gang, hr, mget_nil]
    rwa [State.memData_good h, State.gotRemote_none hnone, State.runReads_quiet (by rw [s.driftTook_net, hreads])
      (by rw [s.driftTook_gang, hw]) ((State.frozenCut_congr hu.queues (s.driftTook_net j f)).trans hcut)] at hg

end Sys2Proof.Machine

/-! PROOFS. What the device does in the background, at its tiers, flash, cells, keys, Census and NOR, leaves of a state. -/

namespace Sys2Proof.Machine

-- One proof at a time: many at once outgrow the memory that the check gives.
set_option Elab.async false

/-! ## Background work -/

/-- A state without what works in the background: tiers and memory, members, flash and parity, and the NOR. -/
def State.front (s : State) : State :=
  { s.core with tier := {}, mem := [], mc := {}, fl := {}, par := {}, cur := {}, q := { s.core.q with refigure := false } }

/-- `t` is `s` but for background work, which left `k` of the tiers and of memory as it was. -/
structure State.Behind {α : Type} (k : TierSt → Memory → α) (s t : State) : Prop where
  front : t.front = s.front
  kept : k t.tier t.mem = k s.tier s.mem

/-- It lost no event either. -/
structure State.Works {α : Type} (k : TierSt → Memory → α) (s t : State) : Prop extends s.Behind k t where
  evt : ∀ {p b : Nat}, b < 32 → s.evt p b = true → t.evt p b = true

/-- The tables of extents and memory, which work on cells, keys and logs leaves alone. -/
def extsAndMemory (x : TierSt) (m : Memory) : NMap Extent × Memory := (x.ext, m)

/-- The table of extents, which faults of cells leave alone. -/
def extsOnly (x : TierSt) (_ : Memory) : NMap Extent := x.ext

/-- Memory, which the moves of extents leave alone. -/
def memoryOnly (_ : TierSt) (m : Memory) : Memory := m

namespace State.Behind

variable {α : Type} {k : TierSt → Memory → α} {s t u : State}

theorem refl (s : State) : s.Behind k s := ⟨rfl, rfl⟩

theorem trans (h : s.Behind k t) (h' : t.Behind k u) : s.Behind k u := ⟨h'.front.trans h.front, h'.kept.trans h.kept⟩

/-- What is told is told in the background. -/
theorem of_told (h : s.Told t) : s.Behind k t := by
  refine ⟨?_, by rw [h.tier, h.mem]⟩
  rw [State.front, h.core, State.front]

/-- A fold does what its steps do. -/
theorem foldl {β γ : Type} (p : β → State) {g : β → γ → β} (hg : ∀ b c, (p b).Behind k (p (g b c))) (l : List γ) (b : β) :
    (p b).Behind k (p (l.foldl g b)) := by
  induction l generalizing b with
  | nil => exact refl _
  | cons c l ih => exact (hg b c).trans (ih _)

section
variable (h : s.Behind k t)
include h

/-- A change in the background. -/
theorem aside (hf : u.front = t.front := by rfl) (hk : k u.tier u.mem = k t.tier t.mem := by rfl) : s.Behind k u :=
  h.trans ⟨hf, hk⟩

theorem told (h' : t.Told u) : s.Behind k u := h.trans (of_told h')

theorem put (f : Fld) (v : Nat) : s.Behind k (t.put f v) := h.aside
theorem inc (f : Fld) (n : Nat) : s.Behind k (t.inc f n) := h.aside
theorem setb (f : Fld) (i : Nat) (b : Bool) : s.Behind k (t.setb f i b) := h.aside
theorem raise (p b : Nat) : s.Behind k (t.raise p b) := h.told ((State.Told.refl t).raise p b)
theorem raiseIf (c : Bool) (p b : Nat) : s.Behind k (t.raiseIf c p b) := h.told ((State.Told.refl t).raiseIf c p b)

/-- What reads nothing that works in the background is the same. -/
theorem asks {β : Type} (p : State → β) (hp : ∀ v : State, p v.front = p v) : p t = p s := by rw [← hp t, h.front, hp]

theorem mus : t.mus = s.mus := h.asks State.mus fun _ => rfl
theorem win : t.win = s.win := h.asks State.win fun _ => rfl
theorem cm : t.cm = s.cm := h.asks State.cm fun _ => rfl
theorem acc : t.acc = s.acc := h.asks State.acc fun _ => rfl
theorem held : t.net.held = s.net.held := h.asks (fun v : State => v.net.held) fun _ => rfl
theorem queues : t.q.q = s.q.q := h.asks (fun v : State => v.q.q) fun _ => rfl

end

theorem memory (h : s.Behind memoryOnly t) : t.mem = s.mem := h.kept

theorem sameMemory (h : s.Behind memoryOnly t) : s.sameMemory t := fun a => by rw [h.memory]

theorem exts (h : s.Behind extsOnly t) : t.tier.ext = s.tier.ext := h.kept

theorem extent (h : s.Behind extsOnly t) (e : Nat) : t.extent e = s.extent e := by rw [State.extent, h.exts, State.extent]

theorem onlyExts (h : s.Behind extsAndMemory t) : s.Behind extsOnly t := ⟨h.front, congrArg Prod.fst h.kept⟩

theorem onlyMemory (h : s.Behind extsAndMemory t) : s.Behind memoryOnly t := ⟨h.front, congrArg Prod.snd h.kept⟩

end State.Behind

/-- A field that lies in a page. -/
def Fld.placed (f : Fld) : Bool := decide (f.lsb < 64 ∧ f.off < 4096)

/-- Fields of two places are two registers. -/
theorem Fld.key_ne_of_place {f g : Fld} (hf : f.placed = true) (hg : g.placed = true)
    (h : f.page ≠ g.page ∨ f.off ≠ g.off ∨ f.lsb ≠ g.lsb) : f.key ≠ g.key := by
  simp only [Fld.placed, decide_eq_true_eq] at hf hg
  have hc : ∀ d : Dom, d.code ≤ 4 := by intro d; cases d <;> decide
  have h1 := hc f.dom
  have h2 := hc g.dom
  unfold Fld.key
  split <;> split <;> omega

/-- A field that is no event register. -/
def Fld.noEvent (f : Fld) : Bool := f.placed && decide (f.off ≠ 0x00C)

theorem evtRaw_ne_noEvent (p : Nat) {g : Fld} (hg : g.noEvent = true) : (HDR.EVT_RAW p).key ≠ g.key := by
  simp only [Fld.noEvent, Bool.and_eq_true, decide_eq_true_eq] at hg
  exact Fld.key_ne_of_place rfl hg.1 (.inr (.inl hg.2.symm))

namespace State.Works

variable {α : Type} {k : TierSt → Memory → α} {s t u : State}

theorem refl (s : State) : s.Works k s := ⟨.refl s, fun _ h => h⟩

theorem trans (h : s.Works k t) (h' : t.Works k u) : s.Works k u :=
  ⟨h.toBehind.trans h'.toBehind, fun hb he => h'.evt hb (h.evt hb he)⟩

/-- A fold does what its steps do. -/
theorem foldl {γ : Type} {g : State → γ → State} (hg : ∀ (v : State) (c : γ), v.Works k (g v c)) (l : List γ) (h : s.Works k t) :
    s.Works k (l.foldl g t) := by
  induction l generalizing t with
  | nil => exact h
  | cons c l ih => exact ih (h.trans (hg t c))

section
variable (h : s.Works k t)
include h

/-- A change in the background, apart from registers. -/
theorem aside (hf : u.front = t.front := by rfl) (hk : k u.tier u.mem = k t.tier t.mem := by rfl)
    (hr : u.reg = t.reg := by rfl) : s.Works k u :=
  h.trans ⟨⟨hf, hk⟩, fun _ he => by rwa [State.evt, State.get_of_reg hr]⟩

theorem put {g : Fld} (v : Nat) (hg : g.noEvent = true := by rfl) : s.Works k (t.put g v) :=
  h.trans ⟨(State.Behind.refl t).put g v, fun _ he => by rwa [State.evt, t.get_put_ne v (evtRaw_ne_noEvent _ hg)]⟩

theorem inc {g : Fld} (n : Nat) (hg : g.noEvent = true := by rfl) : s.Works k (t.inc g n) := h.put _ hg

theorem putb {g : Fld} (b : Bool) (hg : g.noEvent = true := by rfl) : s.Works k (t.putb g b) := h.put _ hg

theorem raise (p b : Nat) : s.Works k (t.raise p b) :=
  h.trans ⟨(State.Behind.refl t).raise p b, fun hb he => State.evt_raise he hb p b⟩

theorem raiseIf (c : Bool) (p b : Nat) : s.Works k (t.raiseIf c p b) := by
  cases c
  · exact h
  · exact h.raise p b

/-! ### The NOR (R351, R352) -/

theorem norProgramWords (a : Nat) (vs : List Nat) : s.Works k (t.norProgramWords a vs) :=
  (h.inc (g := NOR.PROGRAMS) vs.length).aside

theorem devNorOne (a : Nat) (v : Option Nat) : s.Works k (t.devNorOne a v) := by
  cases v
  · exact (h.inc (g := NOR.ERASES) 1).aside
  · exact (h.inc (g := NOR.PROGRAMS) 1).aside

theorem devNor (ops : List (Nat × Option Nat)) : s.Works k (t.devNor ops) := by
  unfold State.devNor
  split
  · exact h.aside
  · exact foldl (fun v _ => (refl v).devNorOne _ _) _ h

theorem layoutRewrite : s.Works k t.layoutRewrite := (h.devNor _).devNor _

/-! ### Census (R366, R371, R372) -/

theorem programRecord (bs : List Byte) : s.Works k (t.programRecord bs) := by
  have hw : s.Works k (t.programWords bs 64) := norProgramWords h.aside _ _
  unfold State.programRecord
  dsimp only
  refine raiseIf (raiseIf ?_ _ _ _) _ _ _
  split
  · exact hw.raise _ _
  split
  · exact hw.raise _ _
  · exact hw

theorem writeOoc (wait : Bool) (bs : List Byte) : s.Works k (t.writeOoc wait bs).2 := by
  unfold State.writeOoc
  split
  · split
    · exact h.inc _
    · exact h.aside
  split
  · exact h.inc _
  · exact h.programRecord _

theorem census (code idx : Nat) : s.Works k (t.census code idx) := by
  have hb : s.Works k { t with cen := t.cen.bump code } := h.aside
  unfold State.census
  dsimp only
  generalize { t with cen := t.cen.bump code } = v at hb ⊢
  split
  · unfold State.outOfCycle
    dsimp only
    split
    · exact hb.inc _
    · have hw := hb.writeOoc (false || v.periodDue) (v.recordBytes 2 code (idx % 256) false)
      split <;> rename_i e <;> rw [e] at hw
      · exact hw.aside
      · exact hw.inc _
  · exact hb

/-- A sector poisoned is told (R211, R371). -/
theorem poisonTold (m : Nat) : s.Works k (t.poisonTold m) := by
  have hd : s.Works k t.damage := by
    unfold State.damage
    split
    · exact h.aside
    · exact h
  exact (hd.raise _ _).census _ _

end

end State.Works

end Sys2Proof.Machine

/-! PROOFS. What the tiers and the flash do of themselves leaves memory, the contexts of requests and every event as they were
(R172 to R182, R237 to R244, R257 to R268). -/

namespace Sys2Proof.Machine

-- One proof at a time: many at once outgrow the memory that the check gives.
set_option Elab.async false

namespace State.Works

variable {α : Type} {k : TierSt → Memory → α} {s t : State}

/-- What either branch leaves, the choice leaves. -/
theorem snd_ite (c : Prop) [Decidable c] {a b : Bool × State} (ha : s.Works k a.2) (hb : s.Works k b.2) :
    s.Works k (if c then a else b).2 := by
  split
  · exact ha
  · exact hb

section
variable (h : s.Works k t)
include h

/-! ## Superblocks and logs (R237 to R241) -/

theorem setLb (n : Nat) (x : LbtEntry) : s.Works k (t.setLb n x) := h.aside

theorem setLog (n : Nat) (x : FlashLog) : s.Works k (t.setLog n x) := h.aside

theorem eraseBlock (b : Nat) : s.Works k (t.eraseBlock b) :=
  raiseIf (inc h.aside _) _ _ _

theorem newSb (use : SbUse) : s.Works k (t.newSb use).2 := by
  unfold State.newSb
  split
  · exact h
  · dsimp only
    split
    · exact h
    · exact raiseIf (aside (foldl (fun v b => (refl v).eraseBlock b) _ h)) _ _ _

theorem issueNext : s.Works k t.issueNext := by
  have hq : s.Works k { t with par := { t.par with queued := [] } } := h.aside
  refine foldl (fun v e => ?_) _ hq
  split <;> exact (refl v).aside

theorem freeSb (n : Nat) : s.Works k (t.freeSb n) := issueNext h.aside

theorem freeSbs (l : List Nat) : s.Works k (t.freeSbs l) := foldl (fun v n => (refl v).freeSb n) l h

theorem issueGroup (sb group kind : Nat) : s.Works k (t.issueGroup sb group kind) := by
  unfold State.issueGroup
  split
  · exact h
  · exact issueNext h.aside

theorem fillSlot (lb n : Nat) : s.Works k (t.fillSlot lb n).2 := by
  unfold State.fillSlot
  extract_lets x
  split
  · exact h
  split
  next ok u e =>
    have hu : s.Works k (ok, u).2 := by
      rw [← e]
      refine snd_ite _ ?_ h
      have hn := h.newSb .slc
      split <;> rename_i e1 <;> rw [e1] at hn
      · exact hn.setLb _ _
      · exact hn
    split
    · exact hu
    extract_lets y freed filled
    have hf : s.Works k freed := by
      simp only [freed]
      split
      · exact hu.freeSbs _
      · exact hu
    have hx : s.Works k filled := hf.setLb _ _
    dsimp only
    split
    · exact hx.issueGroup _ _ _
    · exact hx

/-- A log given up. -/
theorem dropLog (n : Nat) : s.Works k { t with fl := { t.fl with logs := mdel t.fl.logs n } } := h.aside

theorem endFill (lb : Nat) : s.Works k (t.endFill lb) := by
  unfold State.endFill
  dsimp only
  split
  · exact h
  split
  · exact h.setLb _ _
  · exact (h.setLb _ _).issueGroup _ _ _

theorem bindLog (lb : Nat) : s.Works k (t.bindLog lb).2 := by
  unfold State.bindLog
  split
  · exact h
  split
  · exact h
  have hn := h.newSb .log
  split <;> rename_i e <;> rw [e] at hn
  · exact hn
  · exact ((hn.setLog _ _).setLb _ _).raiseIf _ _ _

theorem appendSlot (n e : Nat) : s.Works k (t.appendSlot n e) := by
  unfold State.appendSlot
  split
  · exact h
  dsimp only
  split
  · exact (h.setLog _ _).issueGroup _ _ _
  · exact h.setLog _ _

/-! ## Merges (R239, R240, R244) -/

theorem switchBase (lb dest : Nat) : s.Works k (t.switchBase lb dest) := by
  have hf := h.freeSbs ((t.lbSbs lb).filter (· != dest))
  unfold State.switchBase
  dsimp only
  refine setLb ?_ _ _
  cases (t.lb lb).log with
  | none =>
    dsimp only
    split
    · exact hf.aside
    · exact hf
  | some n =>
    dsimp only
    split
    · exact (hf.dropLog n).aside
    · exact hf.dropLog n

theorem switchMerge (lb : Nat) : s.Works k (t.switchMerge lb) := by
  unfold State.switchMerge
  split
  · exact h
  split
  · exact h
  · exact (h.switchBase _ _).inc _

theorem mergeDest : s.Works k t.mergeDest.2 := by
  have hn := h.newSb .data
  unfold State.mergeDest
  split <;> rename_i e <;> rw [e] at hn
  · exact hn
  · split
    · exact hn
    · exact raiseIf hn.aside _ _ _

theorem startFull (lb : Nat) (fold : Bool) : s.Works k (t.startFull lb fold) := by
  unfold State.startFull
  dsimp only
  split
  · exact h
  have hd := h.mergeDest
  split <;> rename_i e <;> rw [e] at hd
  · exact hd
  · exact (hd.setLb _ _).issueGroup _ _ _

theorem startMerge (lb : Nat) : s.Works k (t.startMerge lb) := by
  unfold State.startMerge
  dsimp only
  split
  · exact h
  split
  · split
    · split
      · exact h.switchMerge lb
      · exact h
    · split
      · exact (h.setLb _ _).issueGroup _ _ _
      · exact h.startFull lb false
  · exact h.startFull lb false

theorem stepDue : s.Works k t.stepDue := foldl (fun v _ => (refl v).startFull _ _) _ h

theorem logPressure : s.Works k t.logPressure := by
  unfold State.logPressure
  split
  · split
    · exact h.startMerge _
    · exact h
  · exact h

theorem flashPlace (e : Nat) : s.Works k (t.flashPlace e).2 := by
  have hf := h.fillSlot (lbOf e).1 (lbOf e).2
  unfold State.flashPlace
  dsimp only
  split <;> rename_i e1 <;> rw [e1] at hf
  · exact hf
  · have hb := (hf.endFill (lbOf e).1).bindLog (lbOf e).1
    split <;> rename_i e2 <;> rw [e2] at hb
    · exact hb.logPressure
    · split
      · exact hb.startMerge _
      · exact (hb.appendSlot _ _).logPressure

theorem foldPressure : s.Works k t.foldPressure := by
  have hr := h.raiseIf (t.slcTarget < t.slcUsed) FTL.page FTL.evSLC_OVER
  unfold State.foldPressure
  dsimp only
  split
  · split
    · exact hr.startFull _ true
    · exact hr
  · exact hr

/-! ## ZERO (R240, R243) -/

theorem holdZero (e : Nat) : s.Works k (t.holdZero e) := by
  unfold State.holdZero
  dsimp only
  refine raise (raise ?_ _ _) _ _
  split
  · exact h
  · exact (h.inc _).setLb _ _

theorem logZero (e : Nat) : s.Works k (t.logZero e) := by
  have hb := h.bindLog (lbOf e).1
  unfold State.logZero
  dsimp only
  split
  · exact h.holdZero e
  split <;> rename_i e1 <;> rw [e1] at hb
  · exact hb.holdZero e
  split
  · exact hb
  · exact (hb.setLog _ _).logPressure

theorem retryZeros : s.Works k t.retryZeros := by
  refine foldl (fun v x => ?_) _ h
  split
  · exact refl v
  · refine foldl (fun w e => ?_) _ ((refl v).setLb _ _)
    split
    · split
      · exact (refl w).logZero e
      · exact refl w
    · exact refl w

end

section
variable (h : s.Works memoryOnly t)
include h

/-! ## Moves begun (R175 to R182) -/

theorem setExtent (e : Nat) (x : Extent) : s.Works memoryOnly (t.setExtent e x) := h.aside

theorem takeFrame (warm : Bool) (f : Nat) : s.Works memoryOnly (t.takeFrame warm f) := h.aside

theorem allocFrame (warm : Bool) : s.Works memoryOnly (t.allocFrame warm).2 := by
  have hn : s.Works memoryOnly t.freeNat.2 := h.aside
  unfold State.allocFrame
  dsimp only
  split
  · exact hn
  · cases List.findSome? _ _ with
    | none => exact hn
    | some f => exact hn.takeFrame warm f

theorem sayFull (d : Nat) (tiers : List Bool) (extra : Nat) (write : Bool) :
    s.Works memoryOnly (t.sayFull d tiers extra write) := by
  unfold State.sayFull
  split
  · exact h.raiseIf _ _ _
  · exact h.raiseIf _ _ _

theorem demote (e : Nat) : s.Works memoryOnly (t.demote e).2 := by
  unfold State.demote
  split
  · exact h
  split
  · exact h
  have hf := h.flashPlace e
  split <;> rename_i e1 <;> rw [e1] at hf
  · exact hf.setExtent _ _
  · exact hf

theorem promote (e pref : Nat) (reserve : Bool) (extra : Nat) (write : Bool) :
    s.Works memoryOnly (t.promote e pref reserve extra write).2 := by
  unfold State.promote
  split
  · exact h
  split
  · exact h
  split
  · split
    · exact h
    · exact h.sayFull _ _ _ _
  · rename_i w _
    have ha := h.allocFrame w
    split <;> rename_i e1 <;> rw [e1] at ha
    · exact ha
    · exact ha.setExtent _ _

theorem promoteDue (e : Nat) : s.Works memoryOnly (t.promoteDue e) := by
  unfold State.promoteDue
  split
  · exact h
  · rename_i x _
    have hd := h.setExtent e { x with due := true }
    have hp := hd.promote e x.pref false 0 false
    dsimp only
    split <;> rename_i e1 <;> rw [e1] at hp
    · exact hp
    · have hr := hp.promote e x.pref true 0 false
      split <;> rename_i e2 <;> rw [e2] at hr
      · exact hr
      · exact hr.raiseIf _ _ _

theorem moveFrame (e : Nat) (warm : Bool) : s.Works memoryOnly (t.moveFrame e warm).2 := by
  unfold State.moveFrame
  split
  · exact h
  split
  · exact h
  split
  · exact h
  refine snd_ite _ (h.sayFull _ _ _ _) ?_
  have ha := h.allocFrame warm
  split <;> rename_i e1 <;> rw [e1] at ha
  · exact ha
  · exact ha.setExtent _ _

omit h in
/-- Moves set going one after another. -/
theorem startMoves {f : State → Nat → Bool × State} (hf : ∀ (v : State) (e : Nat), v.Works memoryOnly (f v e).2) (n : Nat) (l : List Nat)
    {t : State} (h : s.Works memoryOnly t) : s.Works memoryOnly (startMoves f n l t) := by
  induction l generalizing n t with
  | nil => cases n <;> exact h
  | cons e l ih =>
    cases n with
    | zero => exact h
    | succ n =>
      have hm := h.trans (hf t e)
      rw [Machine.startMoves]
      split <;> rename_i heq <;> rw [heq] at hm <;> exact ih _ hm

/-! ## The tier manager (R181, R184, R226) -/

theorem homeWaiting : s.Works memoryOnly t.homeWaiting := by
  refine foldl (fun v e => (refl v).promoteDue e) _ (foldl (fun v e => ?_) _ h)
  split
  · exact refl v
  split
  · exact refl v
  · rename_i w _
    have ha := (refl v).allocFrame w
    split <;> rename_i e1 <;> rw [e1] at ha
    · exact ha.setExtent _ _
    · exact ha

theorem demoteHot : s.Works memoryOnly t.demoteHot := by
  have hr : ∀ b, s.Works memoryOnly { t with tier := { t.tier with hotRun := b } } := fun _ => h.aside
  unfold State.demoteHot
  dsimp only
  split
  · exact startMoves (fun v e => (refl v).moveFrame e true) _ _ (hr _)
  · exact hr _

theorem demotePref3 : s.Works memoryOnly t.demotePref3 := foldl (fun v e => (refl v).demote e) _ h

theorem demoteVolatile : s.Works memoryOnly t.demoteVolatile :=
  startMoves (fun v e => (refl v).demote e) _ _ h.aside

theorem drainMoves : s.Works memoryOnly t.drainMoves := by
  refine foldl (fun v e => ?_) _ h
  extract_lets hot
  have h1 := (refl v).moveFrame e (!hot)
  split <;> rename_i e1 <;> rw [e1] at h1
  · exact h1
  · have h2 := h1.moveFrame e hot
    split <;> rename_i e2 <;> rw [e2] at h2
    · exact h2
    · exact h2.demote e

theorem stepRebuild : s.Works memoryOnly t.stepRebuild := by
  unfold State.stepRebuild
  split
  · split
    · exact h.startFull _ false
    · exact h
  · exact h

theorem stepReshape : s.Works memoryOnly t.stepReshape := by
  unfold State.stepReshape
  split
  · exact h
  split
  · exact startFull h.aside _ _
  · exact raise (layoutRewrite h.aside) _ _

theorem checkRebuild : s.Works memoryOnly t.checkRebuild := by
  unfold State.checkRebuild
  dsimp only
  split
  · exact raise h.aside _ _
  · exact h.aside

theorem checkVhc : s.Works memoryOnly t.checkVhc :=
  raiseIf (putb (raiseIf h.aside _ _ _) _) _ _ _

/-- What the tier manager does, wherever it is run. -/
theorem manageTiers : s.Works memoryOnly t.manageTiers := by
  have hw := h.homeWaiting
  have hd : s.Works memoryOnly (if t.homeWaiting.flag TIR.DEMOTE_EN then t.homeWaiting.demoteHot.demotePref3
      else t.homeWaiting) := by
    split
    · exact hw.demoteHot.demotePref3
    · exact hw
  exact hd.demoteVolatile.drainMoves.retryZeros.foldPressure.stepRebuild.stepReshape.checkRebuild.checkVhc

/-! ## Moves abandoned (R178) -/

theorem abandonMove (e : Nat) : s.Works memoryOnly (t.abandonMove e) := by
  unfold State.abandonMove
  split
  · exact h
  split
  · exact h
  · have hx := h.setExtent e
    dsimp only
    refine raise (inc ?_ _) _ _
    split
    · split
      · split
        · exact (hx _).setLog _ _
        · exact hx _
      · exact hx _
    · exact hx _

end

end State.Works

end Sys2Proof.Machine

/-! PROOFS. The end of a move (R178, R241, R291): what the copy, the rows of a fill and the switch of the home leave. -/

namespace Sys2Proof.Machine

-- One proof at a time: many at once outgrow the memory that the check gives.
set_option Elab.async false

namespace State.Behind

variable {α : Type} {k : TierSt → Memory → α} {s t : State}

section
variable (h : s.Behind k t)
include h

theorem works {u : State} (h' : t.Works k u) : s.Behind k u := h.trans h'.toBehind

/-! ## Cells (R205, R210, R211) -/

theorem chargePort (p n : Nat) : s.Behind k (t.chargePort p n) := h.aside

theorem counts (c : CensusSt) : s.Behind k { t with cen := c } := h.aside

theorem censusN (code n : Nat) : s.Behind k (t.censusN code n) := h.counts _

theorem countFix (m rank bit : Nat) : s.Behind k (t.countFix m rank bit) := by
  unfold State.countFix
  dsimp only
  split
  · split
    · exact ((((((h.inc _ _).inc _ _).censusN 3 1).counts _).setb _ _ _).raise _ _)
    · exact (((h.inc _ _).inc _ _).censusN 3 1).counts _
  · split
    · exact ((((((h.inc _ _).inc _ _).censusN 4 1).counts _).setb _ _ _).raise _ _)
    · exact (((h.inc _ _).inc _ _).censusN 4 1).counts _

theorem maskedWrite (m : Nat) : s.Behind k (t.maskedWrite m) := by
  unfold State.maskedWrite
  split
  · exact h
  · exact h.inc _ _

theorem uncorrectable (m : Nat) : s.Behind k (t.uncorrectable m) := by
  unfold State.uncorrectable
  split <;> exact (h.inc _ _).raise _ _

/-! ## Keys and cipher channels (R284, R290, R291) -/

theorem useCounters (n c : Nat) : s.Behind k (t.useCounters n c).2 := by
  unfold State.useCounters
  split
  · exact h
  split
  · exact h
  split
  · exact raise h.aside _ _
  · dsimp only
    split <;> exact h.aside

theorem memberMsg (sb m first rows prio : Nat) (bad : Bool) : s.Behind k (t.memberMsg sb m first rows prio bad) := by
  unfold State.memberMsg
  split
  · exact h
  · exact h.told ((State.Told.refl t).channelMsg _ _ _ _ _ _ _)

theorem storeMsgs (sb first rows prio : Nat) : s.Behind k (t.storeMsgs sb first rows prio) :=
  h.trans (foldl id (fun v _ => (refl v).memberMsg _ _ _ _ _ _) _ t)

/-! ## Rows programmed (R233, R234, R252) -/

theorem countProgram (sb rows : Nat) : s.Behind k (t.countProgram sb rows) := by
  unfold State.countProgram
  split
  · exact h
  · exact (h.trans (foldl id (fun v _ => (refl v).inc _ _) _ t)).inc _ _

theorem pageNonces (first rows : Nat) : s.Behind k (t.pageNonces first rows).2 := by
  unfold State.pageNonces
  split
  · exact h
  · have hu := h.useCounters (t.get CPH.STORE_KEY) (16 * rows)
    split <;> rename_i e <;> rwa [e] at hu

theorem programRows (sb first rows prio : Nat) : s.Behind k (t.programRows sb first rows prio).2 := by
  unfold State.programRows
  split
  · exact h
  · have hn := h.pageNonces first rows
    split <;> rename_i e <;> rw [e] at hn
    · dsimp only
      refine countProgram (storeMsgs ?_ _ _ _ _) _ _
      split
      · exact hn.aside
      · exact hn
    · exact hn

theorem putSlots (sb : Nat) (ws : List SlotWrite) : s.Behind k (t.putSlots sb ws) := by
  unfold State.putSlots
  split
  · exact h
  · exact h.aside

theorem closeGroup (sb group : Nat) : s.Behind k (t.closeGroup sb group) :=
  h.works (State.Works.issueNext (.aside (.refl t)))

theorem fillRow (lb i : Nat) : s.Behind k (t.fillRow lb i).2 := by
  have hp := h.programRows ((t.lb lb).slc.getD (i / 512) 0) (i % 512) 1 3
  unfold State.fillRow
  dsimp only
  split <;> rename_i e <;> rw [e] at hp
  · exact hp
  · exact aside ((hp.closeGroup _ _).putSlots _ _)

theorem fillRows (lb i : Nat) : s.Behind k (t.fillRows lb i).2 := by
  refine h.trans (foldl (fun a : Bool × State => a.2) (fun a n => ?_) _ (true, t))
  split
  · exact (refl a.2).fillRow lb n
  · exact refl a.2

end

/-! ## Cells read (R205, R210, R211) -/

section
variable (h : s.Behind extsOnly t)
include h

theorem flipByte (da p : Nat) : s.Behind extsOnly (t.flipByte da p) := by
  unfold State.flipByte
  split
  · exact h
  · exact h.aside

theorem poisonSector (m sec : Nat) : s.Behind extsOnly (t.poisonSector m sec) :=
  works (aside h) (State.Works.poisonTold (.refl _) m)

theorem readCell (c : CellFault) : s.Behind extsOnly (t.readCell c) := by
  unfold State.readCell
  split
  · exact h
  split
  · exact h
  dsimp only
  split
  · exact h.flipByte _ _
  · split
    · exact (h.countFix _ _ _).flipByte _ _
    · exact ((h.countFix _ _ _).flipByte _ _).maskedWrite _
  · exact (h.uncorrectable _).poisonSector _ _

theorem readCells (cells : List CellFault) (da n : Nat) : s.Behind extsOnly (t.readCells cells da n) :=
  h.trans (foldl id (fun v c => (refl v).readCell c) _ t)

end

end State.Behind

/-! ## The end of a move (R178) -/

/-- The home that a move's destination becomes (R178). -/
def Dest.home : Dest → Home
  | .hot f => .hot f
  | .warm f => .warm f
  | .flash => .flash

/-- An extent whose move has ended (R178). -/
def Extent.Moved (d : Dest) (x y : Extent) : Prop := y.move = none ∧ y.owner = x.owner ∧ y.home = d.home

/-- A sector whose page failed authentication takes its poison bit (R301). -/
theorem State.Behind.untrust {s t : State} (h : s.Behind extsAndMemory t) (sec m : Nat) :
    s.Behind extsAndMemory (State.poisonTold { t with tier := { t.tier with untrusted := addTo t.tier.untrusted sec } } m) :=
  h.aside.works ((State.Works.refl _).poisonTold m)

/-- The home switches in one step (R178); apart from the extent, that is background work. -/
theorem State.commitMove_switches {s : State} {e : Nat} {x : Extent} {d : Dest} (hx : s.extent e = some x)
    (hd : x.move = some d) : ∃ y, Extent.Moved d x y ∧ (s.setExtent e y).Behind extsAndMemory (s.commitMove e) := by
  refine ⟨{ x with
    home := d.home, move := none, moveAt := 0, moveEp := 0, bad := 0, got := 0, due := false
    written := if x.home == .flash then 0 else x.written }, ⟨rfl, rfl, rfl⟩, ?_⟩
  rw [State.commitMove, hx]
  dsimp only
  rw [hd]
  dsimp only
  have hp := fun (u : State) (n : Nat) => ((State.Behind.refl u).chargePort 16 n).trans
    (.foldl id (fun v p => .foldl id (fun v j => (State.Behind.refl v).untrust (16 * e + 4 * p + j)
      (v.memberOfSector (16 * e + 4 * p + j))) (List.range 4) v) (onesBelow 4 x.bad) (u.chargePort 16 n))
  generalize (if x.home == .flash then 0 else x.written) = w
  split
  · exact (hp _ _).inc _ _
  · exact (hp _ _).inc _ _
  · exact (hp _ _).inc _ _
  · exact (hp _ _).inc _ _
  · exact hp _ _

/-! ## MOVE_COMMIT, case by case (R178, R190, R241, R291, R308) -/

namespace State

variable {s : State} {n : Nat} {x : Extent} {d : Dest}

/-- A home set apart, an extent's home is background work's alone to switch (R178). -/
theorem commitMove_moved {v : State} (hx : v.extent n = some x) (hd : x.move = some d) :
    (∃ y, (v.commitMove n).extent n = some y ∧ Extent.Moved d x y) ∧ v.sameMemory (v.commitMove n) := by
  obtain ⟨y, hy, hb⟩ := commitMove_switches hx hd
  refine ⟨⟨y, ?_, hy⟩, (hb.onlyMemory).sameMemory⟩
  rw [hb.onlyExts.extent, extent_setExtent]

theorem gives_moveCommit {e : BitVec 32} {r : CopyEnd} (h : s.dpUp = true) : s.gives (.moveCommit e r) (s.moveCommit e.toNat r) :=
  gives_whenDp (fun v => v.moveCommit e.toNat r) h rfl

theorem moveCommit_stays {r : CopyEnd}
    (h : s.copyWhole n = false ∨ s.mus.stopped = true ∨ s.heldBack (65536 * n) 65536 = true) : s.moveCommit n r = s := by
  rw [moveCommit, if_pos]
  rcases h with h | h | h <;> simp [h]

theorem mem_retireBlock (b : Nat) (erase : Bool) : b ∈ (s.retireBlock b erase).fl.retired := by
  cases erase <;> simp [retireBlock, checkSpare, mem_addTo]

section
variable (hx : s.extent n = some x) (hd : x.move = some d)
  (hgo : (!s.copyWhole n || s.mus.stopped || s.heldBack (65536 * n) 65536) = false)
include hx hd hgo

theorem moveCommit_failed {cells : List CellFault} {m : BlockFail} (hf : d = .flash) :
    s.moveCommit n ⟨cells, some m⟩ = ((s.retireBlock (s.sbBlock ((s.lb (n / 6144)).slc.getD (n % 6144 / 4 / 512) 0) m.member.val)
      m.erase).restartFill (n / 6144) (n % 6144 / 4)).manageTiers := by
  simp [moveCommit, hgo, hx, hd, hf]

theorem moveCommit_waits {r : CopyEnd} (hf : d = .flash) (hr : r.failed = none) {u : State}
    (hu : (s.readCells r.cells (65536 * n) 65536).fillRows (n / 6144) (n % 6144 / 4) = (false, u)) :
    s.moveCommit n r = if u.storeRetired then ((u.retireData ((s.lb (n / 6144)).slc.getD (n % 6144 / 4 / 512) 0)).restartFill
      (n / 6144) (n % 6144 / 4)).manageTiers else u := by
  simp [moveCommit, hgo, hx, hd, hf, hr, hu]

theorem moveCommit_flash {r : CopyEnd} (hf : d = .flash) (hr : r.failed = none) {u : State}
    (hu : (s.readCells r.cells (65536 * n) 65536).fillRows (n / 6144) (n % 6144 / 4) = (true, u)) :
    s.moveCommit n r = ((u.inc FTL.USER_BYTES 65536).commitMove n).manageTiers.examine.runReads := by
  simp [moveCommit, hgo, hx, hd, hf, hr, hu]

theorem moveCommit_frame {r : CopyEnd} (hf : d ≠ .flash) :
    s.moveCommit n r = ((s.readCells r.cells (65536 * n) 65536).commitMove n).manageTiers.examine.runReads := by
  simp [moveCommit, hgo, hx, hd, hf]

end

end State

/-- Settles O44: the end of a move switches the home, or the move stays, waits or begins its superblock again. -/
theorem moveCommits : Obligations.MoveCommits := by
  unfold Obligations.MoveCommits
  intro s e hdp n lb row sb
  have gives {r : CopyEnd} {u : State} (h : s.moveCommit n r = u) : s.gives (.moveCommit e r) u := by
    rw [← h]
    exact State.gives_moveCommit hdp
  refine ⟨fun r h => gives (State.moveCommit_stays h), fun x d hx hd hw hm hh => ?_⟩
  have hgo : (!s.copyWhole n || s.mus.stopped || s.heldBack (65536 * n) 65536) = false := by simp [hw, hm, hh]
  refine ⟨fun cells m hf => ⟨gives (State.moveCommit_failed hx hd hgo hf), State.mem_retireBlock _ _⟩, ?_⟩
  intro r hr v rows
  have hv : s.Behind extsOnly v := (State.Behind.refl s).readCells _ _ _
  have hs : r.cells = [] → v = s := fun hc => by simp [v, hc, State.readCells]
  refine ⟨fun hf hrows => gives (State.moveCommit_waits hx hd hgo hf (hr.resolve_left (· hf)) (Prod.ext hrows rfl)), fun hdone => ?_⟩
  obtain ⟨w, hw, hg⟩ : ∃ w, v.Behind extsAndMemory w ∧
      s.gives (.moveCommit e r) (w.commitMove n).manageTiers.examine.runReads := by
    by_cases hf : d = .flash
    · have hrows : rows.1 = true := hdone.resolve_left (· hf)
      exact ⟨_, ((State.Behind.refl v).fillRows lb row).inc _ _,
        gives (State.moveCommit_flash hx hd hgo hf (hr.resolve_left (· hf)) (Prod.ext hrows rfl))⟩
    · exact ⟨v, .refl v, gives (State.moveCommit_frame hx hd hgo hf)⟩
  obtain ⟨⟨y, hy, hmove, howner, hhome⟩, hmem⟩ :=
    State.commitMove_moved (v := w) (n := n) (by rw [hw.onlyExts.extent, hv.extent, hx]) hd
  have hvm : v.sameMemory (w.commitMove n) := fun a => by rw [hmem a, hw.onlyMemory.sameMemory a]
  exact ⟨_, hg, ⟨y, hy, hmove, howner, by rw [hhome]; cases d <;> rfl⟩, hvm, fun hc => hs hc ▸ hvm⟩

end Sys2Proof.Machine

/-! PROOFS. The declaration, VHC and the opening of service (R13, R185, R186, R362): what data service is judged by stays as
events are told and the links send. -/

namespace Sys2Proof.Machine

-- One proof at a time: many at once outgrow the memory that the check gives.
set_option Elab.async false

/-! ## What data service is judged by (R13, R186) -/

/-- A setting or a status by which data service is judged: not SYS.OPEN, which is the verdict, and not MUS.VHC_SHORT. -/
def Fld.judges (f : Fld) : Prop := f.standing = true ∧ f.key ≠ SYS.OPEN.key ∧ f.key ≠ MUS.VHC_SHORT.key

/-- One that lies elsewhere. -/
theorem Fld.judges_of_place {f : Fld} (hs : f.standing = true)
    (ho : f.page ≠ SYS.OPEN.page ∨ f.off ≠ SYS.OPEN.off ∨ f.lsb ≠ SYS.OPEN.lsb)
    (hv : f.page ≠ MUS.VHC_SHORT.page ∨ f.off ≠ MUS.VHC_SHORT.off ∨ f.lsb ≠ MUS.VHC_SHORT.lsb) : f.judges := by
  have hp : f.placed = true := by
    rw [Fld.standing_iff] at hs
    simp only [Fld.placed, decide_eq_true_eq]
    omega
  exact ⟨hs, Fld.key_ne_of_place hp rfl ho, Fld.key_ne_of_place hp rfl hv⟩

/-- Data service is judged in `t` as in `s`. -/
structure State.JudgedAs (s t : State) : Prop where
  core : t.core = s.core
  regs : ∀ f : Fld, f.judges → t.get f = s.get f

namespace State.JudgedAs

variable {s t u : State}

theorem refl (s : State) : s.JudgedAs s := ⟨rfl, fun _ _ => rfl⟩

theorem trans (h : s.JudgedAs t) (h' : t.JudgedAs u) : s.JudgedAs u :=
  ⟨h'.core.trans h.core, fun f hf => (h'.regs f hf).trans (h.regs f hf)⟩

theorem of_told (h : s.Told t) : s.JudgedAs t := ⟨h.core, fun f hf => h.regs f hf.1⟩

/-- SYS.OPEN itself does not enter. -/
theorem put_open (s : State) (v : Nat) : s.JudgedAs (s.put SYS.OPEN v) :=
  ⟨rfl, fun _ hf => s.get_put_ne v hf.2.1⟩

/-- Nor does MUS.VHC_SHORT. -/
theorem put_vhcShort (s : State) (v : Nat) : s.JudgedAs (s.put MUS.VHC_SHORT v) :=
  ⟨rfl, fun _ hf => s.get_put_ne v hf.2.2⟩

section
variable (h : s.JudgedAs t)
include h

theorem asks {α : Type} (p : State → α) (hp : ∀ v : State, p v.core = p v) : p t = p s := by rw [← hp t, h.core, hp]

theorem flag {f : Fld} (hf : f.judges) : t.flag f = s.flag f := by rw [State.flag, h.regs f hf, State.flag]

theorem memberUp : t.memberUp = s.memberUp := by
  funext m
  simp only [State.memberUp]
  rw [h.flag (f := STK.IN_SERVICE m) (Fld.judges_of_place rfl (.inr (.inl (by simp [STK.IN_SERVICE, SYS.OPEN])))
      (.inr (.inr (by simp [STK.IN_SERVICE, MUS.VHC_SHORT])))),
    h.flag (f := DCH.IN_SERVICE (m - 8)) (Fld.judges_of_place rfl (.inr (.inl (by simp [DCH.IN_SERVICE, SYS.OPEN])))
      (.inr (.inr (by simp [DCH.IN_SERVICE, MUS.VHC_SHORT]))))]

theorem dies (c : Nat) : t.get (FCH.DIE_PRESENT c) = s.get (FCH.DIE_PRESENT c) :=
  h.regs _ (Fld.judges_of_place rfl (.inl (by simp [FCH.DIE_PRESENT, SYS.OPEN]))
    (.inr (.inl (by simp [FCH.DIE_PRESENT, MUS.VHC_SHORT]))))

theorem diePresent : t.diePresent = s.diePresent := by
  funext d
  rw [State.diePresent, h.dies, h.asks State.fl fun _ => rfl, State.diePresent]

theorem dieFailed : t.dieFailed = s.dieFailed := h.asks State.dieFailed fun _ => rfl

/-- VHC_MAX (R186): the declaration, and the healthy dies of the channels in service. -/
theorem vhcMax : t.vhcMax = s.vhcMax := by
  have hs : ∀ c, t.flag (FCH.IN_SERVICE c) = s.flag (FCH.IN_SERVICE c) := fun c =>
    h.flag (Fld.judges_of_place rfl (.inr (.inl (by simp [FCH.IN_SERVICE, SYS.OPEN])))
      (.inr (.inr (by simp [FCH.IN_SERVICE, MUS.VHC_SHORT]))))
  simp only [State.vhcMax, State.musterRate, State.healthyDies, hs, h.diePresent, h.dieFailed,
    h.regs MUS.DECL_J ⟨rfl, by decide, by decide⟩]

theorem vhcEff : t.vhcEff = s.vhcEff := by
  rw [State.vhcEff, State.vhcEff, h.vhcMax, h.asks State.vhc fun _ => rfl, h.asks State.fl fun _ => rfl,
    h.regs MUS.AREA_GIB ⟨rfl, by decide, by decide⟩]

theorem minSet : t.minSet = s.minSet := by
  have hrun : t.coreRuns = s.coreRuns := by
    funext c
    rw [State.coreRuns, h.regs CUR.RUN ⟨rfl, by decide, by decide⟩, h.asks State.mgUp fun _ => rfl,
      h.asks State.cur fun _ => rfl, State.coreRuns]
  have hlink : ∀ p, t.get (HP.LINK_UP p) = s.get (HP.LINK_UP p) := fun p =>
    h.regs _ (Fld.judges_of_place rfl (.inr (.inl (by simp [HP.LINK_UP, SYS.OPEN])))
      (.inr (.inr (by simp [HP.LINK_UP, MUS.VHC_SHORT]))))
  have hgood : t.goodDies = s.goodDies := by simp only [State.goodDies, h.dies, h.diePresent, h.dieFailed]
  simp only [State.minSet, hrun, hlink, h.memberUp, hgood, h.asks State.cur fun _ => rfl, h.asks State.ep fun _ => rfl,
    h.asks State.pwr fun _ => rfl, h.asks State.cm fun _ => rfl]

/-- What data service needs to stay open. -/
theorem serviceHolds : t.serviceHolds = s.serviceHolds := by
  rw [State.serviceHolds, State.serviceHolds, h.minSet, h.vhcEff, h.asks State.gangOk fun _ => rfl,
    h.asks State.mus fun _ => rfl, h.asks State.cm fun _ => rfl]

end

end State.JudgedAs

/-! ## Once a command has settled -/

section
variable (s : State)

/-- What is judged so in two states, sending what the links hold leaves. -/
theorem State.flushLinks_judged {α : Type} (p : State → α) (hp : ∀ {u v : State}, u.JudgedAs v → p v = p u)
    (cm : ∀ u q n k, p { u with cm := { u.cm with txq := q, txSeq := n, kept := k } } = p u)
    (gang : ∀ u q n, p { u with gang := { u.gang with txq := q, txSeq := n } } = p u) : p s.flushLinks = p s := by
  refine State.flushLinks_keeps p cm gang (fun u _ _ => hp ⟨rfl, fun _ _ => rfl⟩) (fun u o => hp ⟨rfl, fun _ _ => rfl⟩)
    (fun u f n hf => hp (.of_told ((State.Told.refl u).inc n ?_))) (fun u b => hp (.of_told ((State.Told.refl u).raise _ b))) s
  simp only [linkFields, List.mem_cons, List.not_mem_nil, or_false] at hf
  rcases hf with rfl | rfl | rfl | rfl | rfl | rfl | rfl | rfl <;> rfl

theorem State.flushLinks_serviceHolds : s.flushLinks.serviceHolds = s.serviceHolds :=
  s.flushLinks_judged State.serviceHolds State.JudgedAs.serviceHolds (fun _ _ _ _ => rfl) (fun _ _ _ => rfl)

theorem State.flushLinks_serviceUp : s.flushLinks.serviceUp = s.serviceUp := by
  rw [State.serviceUp, State.flag, State.get_flushLinks s (by decide) (by decide) (by decide), State.serviceUp, State.flag]

theorem State.checkService_judged : s.JudgedAs s.checkService := by
  unfold State.checkService
  split
  · exact (State.JudgedAs.put_open s 0).trans (.of_told ((State.Told.refl _).raise _ _))
  · exact .refl s

theorem State.vhcMax_with_pending (l : List Instr) : { s with pending := l }.vhcMax = s.vhcMax := rfl

theorem State.serviceUp_with_pending (l : List Instr) : { s with pending := l }.serviceUp = s.serviceUp := rfl

@[simp] theorem State.settled_vhcMax (t : State) : (s.settled t).vhcMax = t.vhcMax := by
  rw [State.settled, State.vhcMax_with_pending, (State.checkService_judged _).vhcMax]
  exact t.flushLinks_judged State.vhcMax State.JudgedAs.vhcMax (fun _ _ _ _ => rfl) (fun _ _ _ => rfl)

@[simp] theorem State.settled_vhc (t : State) : (s.settled t).vhc = t.vhc := by
  rw [State.vhc, State.settled_mus, State.vhc]

variable {s}

/-- Data service that is open and whose conditions hold stays open. -/
theorem State.serviceUp_settled {t : State} (hu : t.serviceUp = true) (hh : t.serviceHolds = true) (s : State) :
    (s.settled t).serviceUp = true := by
  have hc : t.flushLinks.checkService = t.flushLinks := by
    rw [State.checkService, State.flushLinks_serviceHolds, hh]
    simp
  rw [State.settled, State.serviceUp_with_pending, hc, State.flushLinks_serviceUp, hu]

end

/-! ## The declaration and VHC (R185, R186, R200) -/

/-- ARMED entered changes nothing but the state of the muster engine. -/
theorem State.checkArmed_eq (s : State) : ∃ a : MusState, (a = s.mus.state ∨ a = .armed) ∧
    s.checkArmed = { s with mus := { s.mus with state := a } } := by
  unfold State.checkArmed
  split
  · exact ⟨_, .inr rfl, rfl⟩
  · exact ⟨_, .inl rfl, rfl⟩

theorem State.checkVhc_judged (s : State) : s.JudgedAs s.checkVhc :=
  ((State.JudgedAs.of_told (.raiseIf (.aside (.refl s)) _ _ _)).trans (.put_vhcShort _ _)).trans
    (.of_told (.raiseIf (.refl _) _ _ _))

/-- The ceiling judged, and ARMED entered where it now may be, leave what both are judged by. -/
structure State.Rejudged (s t : State) : Prop where
  regs : ∀ f : Fld, f.judges → t.get f = s.get f
  vhc : t.vhc = s.vhc
  vhcMax : t.vhcMax = s.vhcMax
  mem : t.mem = s.mem

theorem State.rejudged (s : State) : s.Rejudged s.checkVhc.checkArmed := by
  have hj := s.checkVhc_judged
  obtain ⟨a, -, ha⟩ := s.checkVhc.checkArmed_eq
  rw [ha]
  exact ⟨hj.regs, hj.asks State.vhc fun _ => rfl, hj.vhcMax, hj.asks State.mem fun _ => rfl⟩

section
variable {s : State} {path : Path}

theorem State.gives_regRun {c : Instr} {f : Fld} {act : State → State} (h : s.canWrite path f = true)
    (hc : exec c s = .next (s.whenSup fun s => s.regRun path f act)) : s.gives c (act s) := by
  rw [State.gives, hc, State.whenSup_regRun h]

theorem State.gives_declJ (h : s.canWrite path MUS.DECL_J = true) (v : BitVec 16) :
    s.gives (.declJ path v) (s.writeDecl path v.toNat) :=
  State.gives_regRun (f := MUS.DECL_J) (act := fun s => s.writeDecl path v.toNat) h rfl

theorem State.gives_vhc (h : s.canWrite path MUS.VHC = true) (v : BitVec 16) :
    s.gives (.vhc path v) (s.writeVhc path v.toNat) :=
  State.gives_regRun (f := MUS.VHC) (act := fun s => s.writeVhc path v.toNat) h rfl

/-- A write of DECL_J that is not the first through PCIe with ENERGY_DECL_EN high changes nothing; a curator's is counted. -/
theorem State.writeDecl_ignored (h : path = .pcie → s.flag MUS.DECL_LOCKED = true ∨ s.pwr.energyEn = false) (v : Nat) :
    s.writeDecl path v = s.curatorFence path 3 (MUS.page * 4096 + 0x028) := by
  rw [State.writeDecl, State.declare, if_pos]
  by_cases hp : path = .pcie
  · rcases h hp with h | h <;> simp [h]
  · simp [hp]

/-- The first one: VHC takes the value VHC_MAX (R185, R186). -/
theorem State.writeDecl_taken (hl : s.flag MUS.DECL_LOCKED = false) (he : s.pwr.energyEn = true) (v : Nat) :
    s.writeDecl .pcie v = ((s.put MUS.DECL_J v).put MUS.DECL_LOCKED 1).takeVhc.checkVhc.checkArmed := by
  simp [State.writeDecl, State.declare, State.curatorFence, hl, he]

/-- VHC written with a lower value (R186). -/
theorem State.writeVhc_lower {v : Nat} (h : v < s.vhc) :
    s.writeVhc path v = ({ s with mus := { s.mus with vhc := v } }).checkVhc.checkArmed := by
  rw [State.writeVhc, if_neg (by simpa using h.ne), if_pos h]

/-- With a higher one. -/
theorem State.writeVhc_higher {v : Nat} (h : s.vhc < v) :
    s.writeVhc path v = (s.raise MUS.page MUS.evVHC_RAISE).curatorFence path 4 (MUS.page * 4096 + 0x030) := by
  rw [State.writeVhc, if_neg (by simpa using h.ne'), if_neg h.not_gt]

theorem State.curatorFence_other (h : ∀ k, path ≠ .curator k) (cause addr : Nat) : s.curatorFence path cause addr = s := by
  cases path with
  | curator k => exact absurd rfl (h k)
  | _ => rfl

end

/-- VHC taken at VHC_MAX (R186). -/
theorem State.takeVhc_eq (s : State) : ∃ m : MusSt, s.takeVhc = { s with mus := m } ∧ m.vhc = min 65535 s.vhcMax :=
  ⟨_, rfl, rfl⟩

/-- What a declaration takes: the value, its lock, and VHC at VHC_MAX (R185, R186). -/
theorem State.declared (s : State) (v : BitVec 16) :
    let t := ((s.put MUS.DECL_J v.toNat).put MUS.DECL_LOCKED 1).takeVhc
    t.get MUS.DECL_J = v.toNat ∧ t.get MUS.DECL_LOCKED = 1 ∧ t.vhc = min 65535 t.vhcMax ∧ t.mem = s.mem := by
  obtain ⟨m, hm, hv⟩ := ((s.put MUS.DECL_J v.toNat).put MUS.DECL_LOCKED 1).takeVhc_eq
  rw [hm]
  refine ⟨?_, State.get_put_self _ MUS.DECL_LOCKED 1, hv, rfl⟩
  refine (State.get_put_ne _ 1 (by decide : MUS.DECL_J.key ≠ MUS.DECL_LOCKED.key)).trans ?_
  rw [State.get_put_self, show MUS.DECL_J.width = 16 from rfl]
  exact Nat.mod_eq_of_lt v.isLt

/-- Settles O53: each register write by what its value comes to on its path, and the opening by what data service is judged by. -/
theorem declarationAndService : Obligations.DeclarationAndService := by
  refine fun s => ⟨fun path v hw => ⟨?smbus, ?curator, ?ignored, ?declared⟩,
    fun path v hw => ⟨?same, ?lower, fun hv => ⟨?fenced, ?higher⟩⟩,
    fun hd => ⟨?opens, ?stays⟩⟩
  case smbus =>
    rintro rfl
    have hg := State.gives_declJ hw v
    rwa [State.writeDecl_ignored (by simp)] at hg
  case curator =>
    rintro k rfl
    have hg := State.gives_declJ hw v
    rwa [State.writeDecl_ignored (by simp)] at hg
  case ignored =>
    rintro rfl h
    have hg := State.gives_declJ hw v
    rwa [State.writeDecl_ignored fun _ => h] at hg
  case declared =>
    rintro rfl hl he
    have hg := State.gives_declJ hw v
    rw [State.writeDecl_taken hl he] at hg
    obtain ⟨hv, hlock, hvhc, hmem⟩ := s.declared v
    have hj := State.rejudged ((s.put MUS.DECL_J v.toNat).put MUS.DECL_LOCKED 1).takeVhc
    refine hg.answers ⟨?_, ?_, ?_, fun a => ?_⟩
    · rw [State.get_settled _ _ (by decide), hj.regs _ ⟨rfl, by decide, by decide⟩, hv]
    · rw [State.get_settled _ _ (by decide), hj.regs _ ⟨rfl, by decide, by decide⟩, hlock]
    · rw [State.settled_vhcMax, State.settled_vhc, hj.vhc, hj.vhcMax, hvhc]
    · rw [State.settled_mem, hj.mem, hmem]
  case same =>
    intro hv
    have hg := State.gives_vhc hw v
    rwa [State.writeVhc, if_pos (by simpa using hv)] at hg
  case lower =>
    intro hv
    have hg := State.gives_vhc hw v
    rw [State.writeVhc_lower hv] at hg
    have hj := State.rejudged { s with mus := { s.mus with vhc := v.toNat } }
    refine hg.answers ⟨(State.settled_vhc _ _).trans hj.vhc, fun a => ?_⟩
    rw [State.settled_mem, hj.mem]
  case fenced =>
    rintro k rfl
    have hg := State.gives_vhc hw v
    rwa [State.writeVhc_higher hv] at hg
  case higher =>
    intro hk
    have hg := State.gives_vhc hw v
    rwa [State.writeVhc_higher hv, State.curatorFence_other hk] at hg
  case opens =>
    intro hu hm
    have hg := State.gives_whenDp (c := .serviceOpen) _ hd rfl
    simp only [hu, hm, Bool.not_false, Bool.and_self, if_true] at hg
    have ht := (State.Told.refl (s.put SYS.OPEN 1)).raise SYS.page SYS.evSERVICE_OPENED
    have hh : (s.put SYS.OPEN 1).serviceHolds = true := by
      rw [(State.JudgedAs.put_open s 1).serviceHolds]
      simp only [State.mayOpen, Bool.and_eq_true] at hm
      exact hm.1.1.1
    refine hg.answers ⟨State.serviceUp_settled ?_ ?_ s, State.evt_settled (State.evt_raise_self _ _ _ (by decide)) (by decide) s,
      fun a => ?_⟩
    · rw [ht.serviceUp]
      exact s.flag_put_one SYS.OPEN (by decide)
    · rw [(State.JudgedAs.of_told ht).serviceHolds, hh]
    · rw [State.settled_mem, State.raise_mem, State.put_mem]
  case stays =>
    intro h
    have hg := State.gives_whenDp (c := .serviceOpen) _ hd rfl
    rwa [if_neg (by rcases h with h | h <;> simp [h])] at hg

end Sys2Proof.Machine

/-! PROOFS. Restore and arming (R196, R197, R200): what a fresh start and a restored image come to, and what the device does of
itself after them leaves. -/

namespace Sys2Proof.Machine

-- One proof at a time: many at once outgrow the memory that the check gives.
set_option Elab.async false

theorem mget_mmap {α β : Type} (f : Nat → α → β) (m : NMap α) (n : Nat) : mget (mmap f m) n = (mget m n).map (f n) := by
  induction m with
  | nil => rfl
  | cons e m ih =>
    change (if e.1 = n then some (f e.1 e.2) else mget (mmap f m) n) = (if e.1 = n then some e.2 else mget m n).map (f n)
    split
    · next he => rw [he, Option.map_some]
    · exact ih

namespace State.Works

variable {α : Type} {k : TierSt → Memory → α} {s t : State}

section
variable (h : s.Works k t)
include h

/-! ## The muster records (R199) -/

theorem roomForRecord : s.Works k t.roomForRecord := by
  unfold State.roomForRecord
  dsimp only
  split
  · exact h.devNor _
  split
  · exact h
  · exact h.devNor _

/-! ## The stripe journal replayed (R240, R265) -/

theorem forgetMerge (lb : Nat) : s.Works k (t.forgetMerge lb) := by
  unfold State.forgetMerge
  dsimp only
  refine setLb ?_ _ _
  split
  · split
    · exact h
    · exact h.freeSb _
  · exact h

theorem replayJournal : s.Works k t.replayJournal := by
  unfold State.replayJournal
  extract_lets dead counted par cleared hit voided fills opened forgot due
  have hc : s.Works k counted := h.inc _
  have hv : s.Works k voided := foldl (fun v _ => (refl v).setLog _ _) _ (hc.aside (u := cleared))
  have ho : s.Works k opened := foldl (fun v _ => (refl v).setLb _ _) _ hv
  have hf : s.Works k forgot := foldl (fun v lb => (refl v).forgetMerge lb) _ ho
  have hd : s.Works k due := foldl (fun v _ => (refl v).setLb _ _) _ hf
  exact hd.stepDue.retryZeros

end

/-- An extent given another home, as its member is out of service (R196). -/
theorem rehouse (h : s.Works memoryOnly t) (e : Nat) : s.Works memoryOnly (t.rehouse e) := by
  unfold State.rehouse
  split
  · exact h
  extract_lets up w
  split
  · exact h
  have h1 := h.allocFrame w
  split <;> rename_i e1 <;> rw [e1] at h1
  · exact h1.setExtent _ _
  have h2 := h1.allocFrame (!w)
  split <;> rename_i e2 <;> rw [e2] at h2
  · exact h2.setExtent _ _
  have h3 := h2.flashPlace e
  split <;> rename_i e3 <;> rw [e3] at h3
  · exact h3.setExtent _ _
  · exact h3.setExtent _ _

end State.Works

namespace State

variable (s : State)

/-! ## A fresh start (R200, R236) -/

/-- What the device lays out and writes as it formats, and the room for its first record, leave of the muster engine's state and of
memory. -/
theorem startFresh_eq : ∃ (v : State) (x : MusSt), x.restored = true ∧ x.state = s.mus.state ∧ v.mem = s.mem ∧
    (∀ {p b : Nat}, b < 32 → s.evt p b = true → v.evt p b = true) ∧ s.startFresh = ({ v with mus := x }).checkArmed := by
  obtain ⟨f, hf, hmus, hmem, hreg⟩ : ∃ f : State, s.formatFlash = f.layoutRewrite ∧ f.mus.state = s.mus.state ∧ f.mem = s.mem ∧
    f.reg = s.reg := ⟨_, rfl, rfl, rfl, rfl⟩
  have hw : f.Works memoryOnly s.formatFlash.roomForRecord := by
    rw [hf]
    exact (State.Works.refl f).layoutRewrite.roomForRecord
  refine ⟨s.formatFlash.roomForRecord, { s.formatFlash.roomForRecord.mus with restored := true }, rfl, ?_, ?_,
    fun hb he => hw.evt hb ?_, rfl⟩
  · exact (congrArg MusSt.state hw.mus).trans hmus
  · exact hw.memory.trans hmem
  · rwa [State.evt, State.get_of_reg hreg]

/-- A fresh start goes no further than ARMED, and loses no event (R200). -/
theorem startFresh_starts : s.startFresh.mus.restored = true ∧
    (s.startFresh.mus.state = s.mus.state ∨ s.startFresh.mus.state = .armed) ∧ s.sameMemory s.startFresh ∧
    ∀ {p b : Nat}, b < 32 → s.evt p b = true → s.startFresh.evt p b = true := by
  obtain ⟨v, x, hr, hx, hm, he, hs⟩ := s.startFresh_eq
  obtain ⟨a, ha, hc⟩ := ({ v with mus := x } : State).checkArmed_eq
  rw [hs, hc]
  exact ⟨hr, ha.imp_left (·.trans hx), fun i => congrArg (Memory.read · i) hm, fun hb h => he hb h⟩

/-! ## An image restored (R196, R197, R199) -/

/-- Room made once CONSUMED is programmed changes nothing else of the muster engine than what it waits for. -/
theorem roomAfter_eq (a : Nat) : ∃ (v : State) (x : MusSt), s.Works memoryOnly v ∧ s.roomAfter a = { v with mus := x } := by
  unfold roomAfter
  split
  · exact ⟨_, _, (State.Works.refl s).roomForRecord, rfl⟩
  · exact ⟨s, _, .refl s, rfl⟩

/-- What the image brings back, and what the device then does of itself (R196, R197). -/
theorem restoreImage_eq (a : Nat) (m : Image) : ∃ (b v : State) (x : MusSt), b.q.q = mmap (fun _ q => q.restored) m.q ∧
    b.cm.committed = fieldLE (s.norBytes a 32) 16 8 ∧ b.mem = m.mem ∧ b.Works memoryOnly v ∧ x.restored = true ∧
    x.restoreValid = true ∧ ∃ n, s.restoreImage a m =
      (({ v with mus := x }.put MUS.LAST_SERIAL n).raise MUS.page MUS.evRESTORE_DONE).manageTiers := by
  unfold restoreImage
  extract_lets area committed read q win cm mc acc image homed written replayed room next mus t
  have hh : image.Works memoryOnly homed := .foldl (fun v e => (State.Works.refl v).rehouse e) _ (.refl image)
  have hw : image.Works memoryOnly replayed := (hh.aside (u := written)).replayJournal
  obtain ⟨v, x, hv, hr⟩ := roomAfter_eq (replayed.devNor [(a + 248, some 0)]) a
  have ht : t = { v with mus := t.mus } := by
    change ({ room with mus := t.mus } : State) = _
    rw [show room = _ from hr]
  refine ⟨image, v, t.mus, rfl, rfl, rfl, (hw.devNor _).trans hv, rfl, rfl, t.norWord (a + 4), ?_⟩
  rw [← ht]

/-- What a restored image comes to (R196, R197). -/
theorem restoreImage_restores (a : Nat) (m : Image) :
    let u := s.restoreImage a m
    u.mus.restored = true ∧ u.mus.restoreValid = true ∧ u.evt MUS.page MUS.evRESTORE_DONE = true ∧
      u.q.q = mmap (fun _ q => q.restored) m.q ∧ u.cm.committed = fieldLE (s.norBytes a 32) 16 8 ∧ u.mem = m.mem := by
  obtain ⟨b, v, x, hq, hc, hm, hw, hr, hv, n, hu⟩ := s.restoreImage_eq a m
  have ht := (State.Works.refl (({ v with mus := x }.put MUS.LAST_SERIAL n).raise MUS.page MUS.evRESTORE_DONE)).manageTiers
  dsimp only
  rw [hu, ht.mus, ht.queues, ht.cm, ht.memory, raise_mus, raise_q, raise_cm, raise_mem]
  exact ⟨hr, hv, ht.evt (by decide) (evt_raise_self _ _ _ (by decide)), hw.queues.trans hq, (congrArg CommitSt.committed hw.cm).trans hc,
    hw.memory.trans hm⟩

/-! ## RESTORE_DONE and ARM, case by case (R196, R200, R289) -/

variable {s}

theorem restoreDone_stays (h : s.mus.state ≠ .restoring ∨ s.mus.restored = true ∨ s.key.reload ≠ []) (ok : Bool) (ms : Nat) :
    s.restoreDone ok ms = s := by
  rw [restoreDone, if_pos]
  rcases h with h | h | h <;> simp [h]

section
variable (hs : s.mus.state = .restoring) (hr : s.mus.restored = false) (hk : s.key.reload = [])
include hs hr hk

/-- Where a block fails, the device starts fresh (R196). -/
theorem restoreDone_fresh (ms : Nat) : s.restoreDone false ms =
    ((s.put MUS.LAST_RESTORE_MS ms).raise MUS.page MUS.evRESTORE_INVALID).startFresh.resumeAgain.checkArmed := by
  rw [restoreDone, if_neg (by simp [hs, hr, hk])]
  simp only [Bool.and_false, Bool.false_and, Bool.false_eq_true, if_false]
  cases (s.put MUS.LAST_RESTORE_MS ms).chosenRecord with
  | none => rfl
  | some a =>
    dsimp only
    cases mget (s.put MUS.LAST_RESTORE_MS ms).mus.images _ with
    | none => rfl
    | some m => rfl

/-- The image that the record names is restored (R196). -/
theorem restoreDone_image {a : Nat} {m : Image} (ms : Nat) (ha : s.chosenRecord = some a)
    (hm : mget s.mus.images (fieldLE (s.norBytes a 16) 10 1 % 2) = some m) (hserial : m.serial = s.norWord (a + 4))
    (hv : m.verifies = true) (hkey : s.storeKeyOk = true)
    (hread : s.areaReadable (fieldLE (s.norBytes a 16) 10 1 % 2) m.blocks.length = true) :
    s.restoreDone true ms = ((s.put MUS.LAST_RESTORE_MS ms).restoreImage a m).resumeAgain.checkArmed := by
  have hkey' : (s.put MUS.LAST_RESTORE_MS ms).storeKeyOk = true := by
    rw [← hkey, storeKeyOk, storeInst, s.get_put_ne ms (by decide : CPH.STORE_KEY.key ≠ MUS.LAST_RESTORE_MS.key)]
    rfl
  rw [restoreDone, if_neg (by simp [hs, hr, hk])]
  dsimp only
  rw [show (s.put MUS.LAST_RESTORE_MS ms).chosenRecord = some a from ha]
  dsimp only
  rw [show mget (s.put MUS.LAST_RESTORE_MS ms).mus.images (fieldLE ((s.put MUS.LAST_RESTORE_MS ms).norBytes a 16) 10 1 % 2) = some m
    from hm]
  dsimp only
  rw [if_pos]
  simp only [Bool.and_eq_true, beq_iff_eq]
  exact ⟨⟨⟨⟨hserial, trivial⟩, hv⟩, hkey'⟩, hread⟩

end

theorem gives_arm {path : Path} (h : s.canWrite path MUS.ARM = true) : s.gives (.arm path) s.arm :=
  gives_regRun (f := MUS.ARM) (act := State.arm) h rfl

theorem gives_restoreDone (h : s.dpUp = true) (ok : Bool) (ms : Nat) : s.gives (.restoreDone ok ms) (s.restoreDone ok ms) :=
  gives_whenDp (fun v => v.restoreDone ok ms) h rfl

/-! ## ARM and AREA_READY, case by case (R197, R200, R263) -/

theorem arm_stays (h : s.mus.state ≠ .unready ∨ s.mus.restored = true) : s.arm = s := by
  rw [arm, if_pos]
  rcases h with h | h <;> simp [h]

section
variable (hs : s.mus.state = .unready) (hr : s.mus.restored = false)
include hs hr

theorem arm_restores (hc : s.chosenRecord.isSome = true) : s.arm = { s with mus := { s.mus with state := .restoring } } := by
  rw [arm, if_neg (by simp [hs, hr]), if_pos hc]

theorem arm_fresh (hc : s.chosenRecord = none) : s.arm = s.startFresh.resumeAgain := by
  rw [arm, if_neg (by simp [hs, hr]), if_neg (by simp [hc])]

end

theorem areaErased_stays (h : s.mus.erasing = [] ∨ s.mus.stopped = true) : s.areaErased = s := by
  unfold areaErased
  split
  · rfl
  · next he => rw [if_pos (h.resolve_left (by simp [he]))]

/-- An erase that ends: the area is clean and holds no image (R197). -/
theorem areaErased_eq {a : Nat} {rest : List Nat} (he : s.mus.erasing = a :: rest) (hm : s.mus.stopped = false) :
    ∃ x : MusSt, x.erasing = rest ∧ x.dirty.contains a = false ∧ mget x.images a = none ∧
      s.areaErased = ({ s with mus := x }.raise MUS.page MUS.evAREA_READY_EVT).checkArmed := by
  rw [areaErased, he]
  dsimp only
  rw [if_neg (by simp [hm])]
  exact ⟨_, rfl, by simp, mget_mdel_self s.mus.images a, rfl⟩

/-- ARMED, where the clean area brings it, changes none of that. -/
theorem areaErased_clean {a : Nat} {rest : List Nat} (he : s.mus.erasing = a :: rest) (hm : s.mus.stopped = false) :
    let t := s.areaErased
    t.mus.erasing = rest ∧ t.mus.dirty.contains a = false ∧ mget t.mus.images a = none ∧
      t.evt MUS.page MUS.evAREA_READY_EVT = true ∧ t.mem = s.mem := by
  obtain ⟨x, herasing, hclean, himage, hx⟩ := areaErased_eq he hm
  have hmus : ({ s with mus := x }.raise MUS.page MUS.evAREA_READY_EVT).mus = x := raise_mus _ _ _
  have hmem : ({ s with mus := x }.raise MUS.page MUS.evAREA_READY_EVT).mem = s.mem := raise_mem _ _ _
  have hevt := evt_raise_self { s with mus := x } MUS.page MUS.evAREA_READY_EVT (by decide)
  generalize { s with mus := x }.raise MUS.page MUS.evAREA_READY_EVT = r at hx hmus hmem hevt
  obtain ⟨b, -, hb⟩ := r.checkArmed_eq
  dsimp only
  rw [hx, hb, hmus]
  exact ⟨herasing, hclean, himage, hevt, hmem⟩

end State

/-- Settles O52: ARM and AREA_READY by the state of the muster engine, RESTORE_DONE by whether the image can be restored. -/
theorem restoreAndArming : Obligations.RestoreAndArming := by
  refine fun s => ⟨fun path hw => ⟨?ignored, ?restores, ?fresh⟩,
    fun hd => ⟨?stays, fun hs hr hk => ⟨?invalid, ?valid⟩, ?erases, ?erased⟩⟩
  case ignored =>
    intro h
    simpa only [State.arm_stays h] using State.gives_arm hw
  case restores =>
    intro hs hr hc
    simpa only [State.arm_restores hs hr hc] using State.gives_arm hw
  case fresh =>
    intro hs hr hc
    obtain ⟨hdone, hstate, hmem, -⟩ := s.startFresh_starts
    exact ⟨s.startFresh, State.arm_fresh hs hr hc ▸ State.gives_arm hw, hdone, hstate.imp_left (·.trans hs), hmem⟩
  case stays =>
    intro ok ms h
    simpa only [State.restoreDone_stays h] using State.gives_restoreDone hd ok ms
  case invalid =>
    intro ms
    obtain ⟨hdone, -, hmem, hevt⟩ := ((s.put MUS.LAST_RESTORE_MS ms).raise MUS.page MUS.evRESTORE_INVALID).startFresh_starts
    refine ⟨_, State.restoreDone_fresh hs hr hk ms ▸ State.gives_restoreDone hd false ms, hdone,
      hevt (by decide) (State.evt_raise_self _ _ _ (by decide)), fun i => ?_⟩
    rw [hmem i, State.raise_mem, State.put_mem]
  case valid =>
    intro ms a m ha hm hserial hv hkey hread
    obtain ⟨hdone, hvalid, hevt, hq, hc, hmem⟩ := (s.put MUS.LAST_RESTORE_MS ms).restoreImage_restores a m
    refine ⟨_, State.restoreDone_image hs hr hk ms ha hm hserial hv hkey hread ▸ State.gives_restoreDone hd true ms, hdone, hvalid,
      hevt, fun n q hn => ?_, hc, fun i => by rw [hmem]⟩
    rw [hq, mget_mmap, hn]
    rfl
  case erases =>
    intro h
    have hg := State.gives_whenDp (c := .areaReady) State.areaErased hd rfl
    rwa [State.areaErased_stays h] at hg
  case erased =>
    intro a rest he hm
    obtain ⟨herasing, hclean, himage, hevt, hmem⟩ := State.areaErased_clean he hm
    refine (State.gives_whenDp (c := .areaReady) State.areaErased hd rfl).answers ⟨?_, ?_, ?_, State.evt_settled hevt (by decide) s, ?_⟩
    · rw [State.settled_mus, herasing]
    · rw [State.settled_mus, hclean]
    · rw [State.settled_mus, himage]
    · intro i
      rw [State.settled_mem, hmem]

end Sys2Proof.Machine

/-! PROOFS. The steps of a muster (R189 to R193, R198, R263, R291): its start, the end of its commit, its image and its end. -/

namespace Sys2Proof.Machine

-- One proof at a time: many at once outgrow the memory that the check gives.
set_option Elab.async false

/-! ## The start (R189, R190, R263) -/

namespace State.Works

variable {α : Type} {k : TierSt → Memory → α} {s t : State}

theorem freeNat (h : s.Works k t) : s.Works k t.freeNat.2 := h.aside

/-- Programs in flight aborted (R263). -/
theorem abortPrograms (h : s.Works k t) : s.Works k t.abortPrograms := by
  unfold State.abortPrograms
  split
  next v u e =>
    have hu : u = t.freeNat.2 ∨ u = t := by
      split at e
      · exact .inl (congrArg Prod.snd e).symm
      · exact .inr (congrArg Prod.snd e).symm
    rcases hu with rfl | rfl
    · exact h.freeNat.aside
    · exact h.aside

end State.Works

namespace State

variable {s : State}

/-- A frame of the adit link waits to be sent, or is discarded (R152). -/
theorem sendAdit_eq (s : State) (typ epoch : Nat) (payload : List Byte) (last : Bool) :
    ∃ q, s.sendAdit typ epoch payload last = { s with cm := { s.cm with txq := q } } := by
  unfold sendAdit
  dsimp only
  split
  · exact ⟨_, rfl⟩
  · exact ⟨s.cm.txq, rfl⟩

/-- Step 1 of a muster outside START: admission stops, the rest of the engine stays (R190). -/
theorem beginMuster_begins (hs : s.mus.state = .armed) (cause : Nat) :
    let t := s.beginMuster cause
    t.mus = { s.mus with state := .mustering, step := .commit, cause := cause, stopped := true } ∧ t.net.held = [] ∧
      t.evt MUS.page MUS.evMUSTER_START = true := by
  unfold beginMuster
  extract_lets short mus net key begun abandoned aborted sent told t
  have ha : begun.Works memoryOnly abandoned := .foldl (fun v e => (State.Works.refl v).abandonMove e) _ (.refl begun)
  have hb : begun.Works memoryOnly aborted := by
    simp only [aborted]
    split
    · exact ha
    · exact ha.abortPrograms
  obtain ⟨q, hq⟩ := aborted.sendAdit_eq 0x07 aborted.ep.num [] false
  have ht : (sent.raise MUS.page MUS.evMUSTER_START).Works memoryOnly told := (State.Works.refl _).census 11 0
  have hlong : t = told := if_neg (by simp [short, hs])
  have hmus : sent.mus = begun.mus := (congrArg State.mus hq).trans hb.mus
  have hheld : sent.net.held = [] := (congrArg (fun v : State => v.net.held) hq).trans hb.held
  rw [hlong]
  refine ⟨?_, ?_, ht.evt (by decide) (evt_raise_self _ _ _ (by decide))⟩
  · rw [ht.mus, raise_mus, hmus]
  · rw [ht.held, raise_net, hheld]

/-- A trigger in ARMED with the NOR at rest is recorded and begins the muster at once (R189, R193). -/
theorem musterTrigger_eq (hs : s.mus.state = .armed) (hn : s.norInFlight = false) (hw : s.musterWaits = false) (cause : Nat) :
    ∃ x : MusSt, s.musterTrigger cause = ({ s with mus := x }).beginMuster cause ∧
      x.state = .armed ∧ bitOf x.causes cause = true := by
  refine ⟨_, (if_neg ?_).trans (if_neg ?_), hs, bitOf_setBit_self s.mus.causes cause⟩
  · change ¬(s.mus.state == .mustering || s.mus.state == .mustered || s.musterWaits) = true
    simp [hs, hw]
  · change ¬s.norInFlight = true
    simp [hn]

end State

/-! ## PFAIL (R189) -/

section
variable {s : State} (hd : s.dpUp = true) (time low : Nat)
include hd

theorem State.gives_pfail_ignored (h : s.flag MUS.PFAIL_EN = false ∨ 2 * low < usCycles) :
    s.gives (.pfail time low) (s.at time) := by
  have hg := State.gives_whenDp (c := .pfail time low) _ hd rfl
  rwa [if_pos] at hg
  rcases h with h | h
  · rw [show (s.at time).flag MUS.PFAIL_EN = false from h]
    simp
  · simp [h]

/-- A power failure of 1 µs or more (R189). -/
theorem State.gives_pfail (he : s.flag MUS.PFAIL_EN = true) (hl : usCycles ≤ low) :
    s.gives (.pfail time low) ((s.at time).musterTrigger 1) := by
  have hg := State.gives_whenDp (c := .pfail time low) _ hd rfl
  have hlow : ¬2 * low < usCycles := by omega
  simpa only [show (s.at time).flag MUS.PFAIL_EN = true from he, Bool.not_true, Bool.false_or, hlow, hl.not_gt, decide_false,
    Bool.false_eq_true, if_false, if_true] using hg

end

/-- Data service is closed in a muster (R13, R190). -/
theorem State.serviceUp_settled_shut {t : State} (h : t.mus.state = .mustering) (s : State) : (s.settled t).serviceUp = false := by
  have hh : (s.settled t).serviceHolds = false := by simp [State.serviceHolds, h]
  have ho := s.openHeld_settled t
  rwa [State.openHeld, hh, Bool.or_false, Bool.not_eq_true'] at ho

/-! ## The end of the commit (R190, R191, R198) -/

namespace State

theorem linksOff_eq (s : State) : s.linksOff =
    (({ s with pwr := { s.pwr with hostSerdes := false } }.put (DFT.LINK_UP 0) 0).put (DFT.LINK_UP 1) 0).put (DFT.LINK_UP 2) 0 := rfl

/-- The host SerDes and the drift links are off (R190). -/
theorem linksOff_off (s : State) : s.linksOff.mus = s.mus ∧ s.linksOff.pwr.hostSerdes = false ∧
    ∀ j, j < 3 → s.linksOff.get (DFT.LINK_UP j) = 0 := by
  refine ⟨by rw [linksOff_eq]; rfl, by rw [linksOff_eq]; rfl, fun j hj => ?_⟩
  rw [linksOff_eq]
  interval_cases j
  · rw [get_put_ne _ _ (by decide), get_put_ne _ _ (by decide), get_put_self, Nat.zero_mod]
  · rw [get_put_ne _ _ (by decide), get_put_self, Nat.zero_mod]
  · rw [get_put_self, Nat.zero_mod]

theorem relayAnswer_mus (s : State) (dst : RetAddr) (bytes : List Byte) : (s.relayAnswer dst bytes).mus = s.mus := by
  unfold relayAnswer
  dsimp only
  split
  · rfl
  · split <;> rfl

/-- What is queued to be sent has nothing to do with the muster engine. -/
theorem flushWaiting_mus (s : State) : s.flushWaiting.mus = s.mus := by
  rw [flushWaiting, foldl_keeps State.mus fun (v : State) (r : RetAddr × List Byte) => v.relayAnswer_mus r.1 r.2]
  exact foldl_keeps State.mus (fun (v : State) (w : Waiting) => ((State.Alike.refl v).sendDgram w.dst w.hdr w.data w.slot w.lat).mus) _ _

theorem setRegion1_mus (s : State) (off : Nat) (bs : List Byte) : (s.setRegion1 off bs).mus = s.mus := rfl

theorem adminAnswer_mus (s : State) (r : Req) (epoch status : Nat) (data : List Byte) :
    (s.adminAnswer r epoch status data).mus = s.mus := by
  unfold adminAnswer
  split
  · unfold adm0Answer
    dsimp only
    rw [raise_mus, countLatency]
    dsimp only
    refine foldl_keeps State.mus (fun v k => ?_) (List.range (segments data).length) s
    rw [send_mus, setRegion1_mus]
  · exact ((State.Alike.refl s).finish r epoch status data).mus

/-- Step 3: the MUSTER commands are answered, and the links are off (R190, R198). -/
theorem musterStep3_off (s : State) (next : MusStep) :
    let t := s.musterStep3 next
    t.mus = { s.mus with step := next, answers := [] } ∧ t.pwr.hostSerdes = false ∧ ∀ j, j < 3 → t.get (DFT.LINK_UP j) = 0 := by
  unfold musterStep3
  extract_lets rs mus stepped t
  have hmus : ((rs.foldl (fun (s : State) r => s.adminAnswer r r.epoch 0 []) stepped).flushLinks).mus =
      { s.mus with step := next, answers := [] } := by
    rw [flushLinks_mus, foldl_keeps State.mus fun (v : State) (r : Req) => v.adminAnswer_mus r r.epoch 0 []]
    exact flushWaiting_mus _
  obtain ⟨hkept, hserdes, hlinks⟩ := linksOff_off (rs.foldl (fun (s : State) r => s.adminAnswer r r.epoch 0 []) stepped).flushLinks
  exact ⟨hkept.trans hmus, hserdes, hlinks⟩

theorem gives_musterCommitEnd {s : State} (hd : s.dpUp = true) (time : Nat) (cells : List CellFault) :
    s.gives (.musterCommitEnd ⟨time, cells⟩) ((s.at time).musterCommitEnd cells) :=
  gives_whenDp (fun v => (v.at time).musterCommitEnd cells) hd rfl

section
variable {s : State} (cells : List CellFault)

theorem musterCommitEnd_stays (h : s.mus.state ≠ .mustering ∨ s.mus.step ≠ .commit ∨ s.commitGoesOn = true) :
    s.musterCommitEnd cells = s := by
  rw [musterCommitEnd, if_pos]
  rcases h with h | h | h <;> simp [h]

theorem musterCommitEnd_ends (hs : s.mus.state = .mustering) (hc : s.mus.step = .commit) (hg : s.commitGoesOn = false) :
    s.musterCommitEnd cells = (s.commitRest cells).musterStep3 .image := by
  rw [musterCommitEnd, if_neg (by simp [hs, hc, hg])]

end

end State

/-! ## The image (R192, R193, R263, R291) -/

/-- All of the tiers and of memory, where no cell is at fault. -/
def tiersAndMemory (x : TierSt) (m : Memory) : TierSt × Memory := (x, m)

namespace State.Behind

variable {α : Type} {k : TierSt → Memory → α} {s t : State}

theorem tier (h : s.Behind tiersAndMemory t) : t.tier = s.tier := congrArg Prod.fst h.kept

theorem all (h : s.Behind tiersAndMemory t) : s.Behind k t :=
  ⟨h.front, by rw [h.tier, show t.mem = s.mem from congrArg Prod.snd h.kept]⟩

section
variable (h : s.Behind k t)
include h

theorem areaMsgs (counter : Nat → Fld) (ps : List (Nat × Nat)) : s.Behind k (t.areaMsgs counter ps) :=
  h.trans (foldl id (fun v _ => ((refl v).inc _ _).told ((State.Told.refl _).channelMsg _ _ _ _ _ _ _)) ps t)

/-- Pages of a muster area that failed to program (R291). -/
theorem programsFailed (ps : List (Nat × Nat)) : s.Behind k (ps.foldl (fun u p =>
    (u.inc (FCH.PROGRAM_FAIL (dieChan p.1))).raise (FCH.page (dieChan p.1)) FCH.evPROGRAM_FAIL_EVT) t) :=
  h.trans (foldl id (fun v _ => ((refl v).inc _ _).raise _ _) ps t)

end

end State.Behind

namespace State

/-- The image written, or not, under the next area (R192, R291). -/
theorem writeImage_eq (s : State) (serial : Nat) (ok : Bool) : ∃ (y : State) (n : Nat) (x : MusSt), s.Behind tiersAndMemory y ∧
    s.writeImage serial ok = { y with free := n, mus := x } ∧ x.step = .record ∧ x.dirty = addTo y.mus.dirty s.mus.areaNext ∧
    x.images = if ok then mput y.mus.images s.mus.areaNext (y.image serial) else mdel y.mus.images s.mus.areaNext := by
  refine ⟨_, _, _, ?_, rfl, rfl, rfl, rfl⟩
  split
  · exact (State.Behind.refl s).areaMsgs _ _
  · exact (State.Behind.refl s).programsFailed _

end State

/-- What the end of the image leaves of `v`, which it was made of: the image, or none, under the next area (R192, R193, R291). -/
structure State.ImageKept (v : State) (ok : Bool) (cells : List CellFault) (t : State) : Prop where
  step : t.mus.step = .record
  dirty : t.mus.dirty.contains v.mus.areaNext = true
  image : ok = true → ∃ m, mget t.mus.images v.mus.areaNext = some m ∧ t.get MUS.LAST_SERIAL = m.serial ∧
    m.q = v.q.q ∧ m.dom = v.win.dom ∧ m.win = v.win.win ∧ m.ext = v.tier.ext ∧ m.staged = v.cm.ep ∧ m.jrn = v.acc.jrn ∧ m.lastCal = v.cm.lastCal ∧
    (∀ a, Memory.read m.mem a = Memory.read t.mem a) ∧ (cells = [] → m.poison = v.tier.poison)
  none : ok = false → mget t.mus.images v.mus.areaNext = none
  mem : cells = [] → v.sameMemory t

namespace State

theorem ImageKept.settled {v t : State} {ok : Bool} {cells : List CellFault} (h : v.ImageKept ok cells t) (s : State) :
    v.ImageKept ok cells (s.settled t) := by
  obtain ⟨hstep, hdirty, himage, hnone, hmem⟩ := h
  refine ⟨?_, ?_, ?_, ?_, ?_⟩
  · rwa [settled_mus]
  · rwa [settled_mus]
  · rwa [settled_mus, settled_mem, get_settled _ _ (by decide)]
  · rwa [settled_mus]
  · simpa only [sameMemory, settled_mem] using hmem

/-- The image written, the record and the serial number programmed after it (R193). -/
theorem imageKept_of_written {v w z : State} {ok : Bool} {cells : List CellFault} {serial : Nat} (n : Nat) (hw : v.Behind extsOnly w)
    (hc : cells = [] → v.Behind tiersAndMemory w) (hs : serial < 2 ^ 32) (hz : (w.writeImage serial ok).Works memoryOnly z) :
    v.ImageKept ok cells ((z.put MUS.LAST_SERIAL serial).put MUS.LAST_MUSTER_US n) := by
  obtain ⟨y, k, x, hy, hx, hstep, hdirty, himages⟩ := w.writeImage_eq serial ok
  rw [hx] at hz
  have hmus : z.mus = x := hz.mus
  have hmem : z.mem = y.mem := hz.memory
  have hvy : v.Behind extsOnly y := hw.trans hy.all
  have hall : cells = [] → v.Behind tiersAndMemory y := fun h => (hc h).trans hy
  rw [hw.mus] at hdirty himages
  refine ⟨?_, ?_, fun hok => ⟨y.image serial, ?_, ?_, hvy.queues, ?_, ?_, hvy.exts, ?_, ?_, ?_, fun a => ?_, fun h => ?_⟩,
    fun hok => ?_, fun h a => ?_⟩
  · rw [put_mus, put_mus, hmus, hstep]
  · rw [put_mus, put_mus, hmus, hdirty]
    exact List.contains_iff_mem.mpr (mem_addTo _ _)
  · rw [put_mus, put_mus, hmus, himages, hok]
    exact mget_mput_self _ _ _
  · rw [get_put_ne _ _ (by decide), get_put_self, show MUS.LAST_SERIAL.width = 32 from rfl]
    exact Nat.mod_eq_of_lt hs
  · exact congrArg WinSt.dom hvy.win
  · exact congrArg WinSt.win hvy.win
  · exact congrArg CommitSt.ep hvy.cm
  · exact congrArg AccSt.jrn hvy.acc
  · exact congrArg CommitSt.lastCal hvy.cm
  · rw [put_mem, put_mem, hmem]
    rfl
  · exact congrArg TierSt.poison (hall h).tier
  · rw [put_mus, put_mus, hmus, himages, hok]
    exact mget_mdel_self _ _
  · rw [put_mem, put_mem, hmem]
    exact (hall h).all.sameMemory a

end State

namespace State

variable {s : State} {cells : List CellFault}

theorem gives_musterImageDone (hd : s.dpUp = true) (time : Nat) (cells : List CellFault) :
    s.gives (.musterImageDone ⟨time, cells⟩) ((s.at time).musterImageDone cells) :=
  gives_whenDp (fun v => (v.at time).musterImageDone cells) hd rfl

theorem musterImageDone_stays (h : s.mus.state ≠ .mustering ∨ s.mus.step ≠ .image ∨ s.chanWaits 8 = true ∨ s.storeInst = none) :
    s.musterImageDone cells = s := by
  rw [musterImageDone, if_pos]
  rcases h with h | h | h | h <;> simp [h]

/-- Nothing that the image waits for is missing (R192, R288, R300). -/
theorem imageDue (hs : s.mus.state = .mustering) (hi : s.mus.step = .image) (hw : s.chanWaits 8 = false) (hk : s.storeInst.isSome = true) :
    (s.mus.state != .mustering || s.mus.step != .image || s.chanWaits 8 || s.storeInst.isNone) = false := by
  simp [hs, hi, hw, ← Option.not_isSome, hk]

section
variable {v u : State} {ok : Bool} (hs : s.mus.state = .mustering) (hi : s.mus.step = .image) (hw : s.chanWaits 8 = false)
  (hk : s.storeInst.isSome = true) (hv : v = if s.mus.cause = 5 then s.finishPrograms else s)
  (hu : v.useCounters (v.get CPH.STORE_KEY) (4 * v.imageBlocks) = (ok, u))
include hs hi hw hk hv hu

/-- While the storage key's counters can seal nothing, the muster waits (R192). -/
theorem musterImageDone_waits (hok : ok = false) (hr : u.storeRetired = false) : s.musterImageDone cells = v := by
  rw [musterImageDone, imageDue hs hi hw hk, if_neg (by simp)]
  simp only [beq_iff_eq]
  rw [← hv, hu]
  simp [hok, hr]

/-- The image is made of the cells read, and written; the record follows (R192, R193). -/
theorem musterImageDone_keeps (h : ok = true ∨ u.storeRetired = true) : v.ImageKept ok cells (s.musterImageDone cells) := by
  have hwrites : ¬(!ok && !u.storeRetired) = true := by rcases h with h | h <;> simp [h]
  rw [musterImageDone, imageDue hs hi hw hk, if_neg (by simp)]
  simp only [beq_iff_eq]
  rw [← hv, hu]
  dsimp only
  rw [if_neg hwrites]
  have hseal {α : Type} (k : TierSt → Memory → α) : v.Behind k u := by
    have hb := (State.Behind.refl (k := k) v).useCounters (v.get CPH.STORE_KEY) (4 * v.imageBlocks)
    rwa [hu] at hb
  have hread : v.Behind extsOnly (cells.foldl readCell u) :=
    (hseal _).trans (.foldl id (fun v c => (State.Behind.refl v).readCell c) cells u)
  refine imageKept_of_written (w := (cells.foldl readCell u).chargePort 17
    (65536 * (8192 + (u.usedFrames false).length + (u.usedFrames true).length)))
    _ (hread.chargePort 17 _) (fun hc => ?_) ?_ ?_
  · rw [hc]
    exact (hseal _).chargePort 17 _
  · split
    · exact Nat.mod_lt _ (by decide)
    · decide
  · have hz (x : State) (o : Option Nat) (ws : List Nat) : x.Works memoryOnly
        (match o with
          | some a => x.devNor (wordsAt a ws)
          | none => x) := by
      cases o
      · exact .refl x
      · exact (State.Works.refl x).devNor _
    exact hz _ _ _

end

end State

/-! ## The end of a muster (R190, R198, R330, R383) -/

namespace State

variable {s t : State}

/-- LOCK_A driven at a new density is an output sent (R309). -/
theorem lockA_told (s t : State) : t.Told (s.lockA t) := by
  unfold lockA
  split
  · exact .refl t
  · exact (State.Told.refl t).send _

theorem lockA_key (s t : State) : (s.lockA t).key = t.key := by
  unfold lockA
  split <;> rfl

theorem lockA_reg (s t : State) : (s.lockA t).reg = t.reg := by
  unfold lockA
  split <;> rfl

/-- The RSTOUT_N outputs follow: nothing else changes (R337). -/
theorem rstout_keeps {α : Type} (p : State → α)
    (hp : ∀ (v : State) c st, p { v with pwr := { v.pwr with rstCond := c, rstStretch := st } } = p v) (s : State) :
    p s.rstout = p s :=
  foldl_keeps p (fun v _ => hp v _ _) _ s

/-- Rails that are on fall (R330). -/
theorem shutDown_falls (h : s.pwr.seq = .on) : s.shutDown.pwr.seq = .falling ∧ s.shutDown.pwr.musterDoneN = s.pwr.musterDoneN ∧
    s.shutDown.mus = s.mus ∧ s.shutDown.mem = s.mem ∧ s.shutDown.reg = s.reg := by
  unfold shutDown
  rw [h]
  dsimp only
  unfold shutFrom
  generalize hu : (({ s with pwr := { s.pwr with
    seq := .falling, entry := s.seqLen - 1, wait := .discharged, disLate := 0, toFault := false } }).driveEn (s.seqLen - 1) false) = u
  obtain ⟨hseq, hdone, hmus, hmem, hreg⟩ : u.pwr.seq = .falling ∧ u.pwr.musterDoneN = s.pwr.musterDoneN ∧ u.mus = s.mus ∧
      u.mem = s.mem ∧ u.reg = s.reg := by
    rw [← hu]
    exact ⟨rfl, rfl, rfl, rfl, rfl⟩
  have ht := s.lockA_told u.rstout
  rw [ht.pwr, ht.mus, ht.mem, lockA_reg]
  exact ⟨(rstout_keeps (fun v => v.pwr.seq) (fun _ _ _ => rfl) u).trans hseq,
    (rstout_keeps (fun v => v.pwr.musterDoneN) (fun _ _ _ => rfl) u).trans hdone,
    (rstout_keeps State.mus (fun _ _ _ => rfl) u).trans hmus, (rstout_keeps State.mem (fun _ _ _ => rfl) u).trans hmem,
    (rstout_keeps State.reg (fun _ _ _ => rfl) u).trans hreg⟩

/-! ### Vitrine (R299, R383) -/

/-- The keys erased as the device freezes: the root key's working copy is gone (R299). -/
theorem eraseKeys_keeps (s : State) (mesh : Bool) :
    (s.eraseKeys mesh).key.rootGone = true ∧ (s.eraseKeys mesh).mus = s.mus ∧ (s.eraseKeys mesh).mem = s.mem := by
  unfold eraseKeys
  extract_lets _ erased
  rw [foldl_keeps State.key fun (v : State) (i : Nat) => v.raise_key _ _,
    foldl_keeps State.mus fun (v : State) (i : Nat) => v.raise_mus _ _,
    foldl_keeps State.mem fun (v : State) (i : Nat) => v.raise_mem _ _]
  exact ⟨rfl, rfl, rfl⟩

theorem sameKeys.rootGone (h : s.sameKeys t) : t.key.rootGone = s.key.rootGone := by
  have hk := congrArg KeySt.rootGone h
  exact hk

theorem keyAlarm_keeps (s : State) (cause : Nat) :
    (s.keyAlarm cause).key.rootGone = true ∧ (s.keyAlarm cause).mus = s.mus ∧ (s.keyAlarm cause).mem = s.mem := by
  obtain ⟨hroot, hmus, hmem⟩ := s.eraseKeys_keeps (cause == 4)
  simp only [keyAlarm, raise_key, put_key, setb_key, raise_mus, put_mus, setb_mus, raise_mem, put_mem, setb_mem]
  exact ⟨hroot, hmus, hmem⟩

/-- The device frozen (R383). -/
theorem freeze_freezes (s : State) (cause : Nat) :
    let t := s.freeze cause true
    t.vit.frozen = true ∧ t.get VIT.DEFERRED = 1 ∧ t.key.rootGone = true ∧ t.mus = s.mus ∧ t.mem = s.mem := by
  obtain ⟨hroot, hmus, hmem⟩ := s.keyAlarm_keeps 3
  unfold freeze
  extract_lets alarmed entered stamped vit t
  have hdeferred : stamped.get VIT.DEFERRED = 1 := by
    simp only [stamped, entered]
    rw [get_put_ne _ _ (by decide), get_put_ne _ _ (by decide), inc, get_put_ne _ _ (by decide), putb, get_put_self]
    rfl
  obtain ⟨hkey, hengine, hbytes⟩ : stamped.key = alarmed.key ∧ stamped.mus = alarmed.mus ∧ stamped.mem = alarmed.mem := by
    simp [stamped, entered]
  clear_value stamped
  have ht := stamped.lockA_told ({ stamped with vit := { stamped.vit with frozen := true, deferred := none } }.raise VIT.page
    VIT.evVITRINE_ENTERED)
  refine ⟨?_, ?_, ?_, ?_, ?_⟩
  · exact (ht.asksCore (fun v => v.vit.frozen) fun _ => rfl).trans (by rw [raise_vit])
  · refine (get_of_reg (lockA_reg _ _) _).trans ?_
    rw [get_raise _ _ _ (by decide) (by decide)]
    exact hdeferred
  · exact (congrArg KeySt.rootGone (lockA_key _ _)).trans (by rw [raise_key, hkey]; exact hroot)
  · exact ht.mus.trans (by rw [raise_mus, hengine]; exact hmus)
  · exact ht.mem.trans (by rw [raise_mem, hbytes]; exact hmem)

end State

namespace State

variable {s : State}

theorem musterEnd_stays (h : s.mus.state ≠ .mustering ∨ s.mus.step ≠ .record) : s.musterEnd = s := by
  rw [musterEnd, if_pos]
  rcases h with h | h <;> simp [h]

/-- Step 6: MUSTER_DONE_N is asserted, and step 7 follows (R190, R198). -/
theorem musterEnd_eq (hs : s.mus.state = .mustering) (hr : s.mus.step = .record) : ∃ v : State,
    v.mus = { s.mus with state := .mustered, step := .done } ∧ v.pwr = { s.pwr with musterDoneN := true } ∧
      v.mem = s.mem ∧ v.evt MUS.page MUS.evMUSTER_DONE = true ∧
      (∀ c, s.vit.deferred = some c → s.musterEnd = v.freeze c true) ∧
      (s.vit.deferred = none → s.musterEnd =
        if v.mus.cause == 6 then v.askReset 6 true else if v.mus.cause == 4 && v.mus.mode then v else v.shutDown) := by
  have hend : s.musterEnd = _ := if_neg (by simp [hs, hr])
  extract_lets mus pwr locked told at hend
  have ht : ({ s with mus := { s.mus with state := .mustered, step := .done }, pwr := { s.pwr with musterDoneN := true } } : State).Told
      told := ((lockA_told s _).inc (g := MUS.MUSTERS) 1).raise _ _
  have hv : told.vit = s.vit := ht.asksCore State.vit fun _ => rfl
  refine ⟨told, ht.mus, ht.pwr, ht.mem, evt_raise_self _ _ _ (by decide), fun c hc => ?_, fun hc => ?_⟩
  · rw [hend, hv, hc]
  · rw [hend, hv, hc]

/-- The device holds, or its rails fall (R190, R198). -/
theorem musterEnd_off (hp : s.pwr.seq = .on) (hs : s.mus.state = .mustering) (hr : s.mus.step = .record) (hv : s.vit.deferred = none)
    (hc : s.mus.cause ≠ 6) :
    let t := s.musterEnd
    t.mus.state = .mustered ∧ t.pwr.musterDoneN = true ∧ t.evt MUS.page MUS.evMUSTER_DONE = true ∧
      t.pwr.seq = (if s.mus.cause = 4 ∧ s.mus.mode = true then .on else .falling) ∧ t.mem = s.mem := by
  obtain ⟨v, hmus, hpwr, hmem, hevt, -, hend⟩ := musterEnd_eq hs hr
  have hon : v.pwr.seq = .on := by rw [hpwr, hp]
  have hdone : v.pwr.musterDoneN = true := by rw [hpwr]
  have hcause : v.mus.cause = s.mus.cause := by rw [hmus]
  have hmode : v.mus.mode = s.mus.mode := by rw [hmus]
  have hstate : v.mus.state = .mustered := by rw [hmus]
  dsimp only
  rw [hend hv, hcause, hmode, if_neg (by simpa using hc)]
  by_cases hm : s.mus.cause = 4 ∧ s.mus.mode = true
  · rw [if_pos (by simpa using hm), if_pos hm]
    exact ⟨hstate, hdone, hevt, hon, hmem⟩
  · obtain ⟨hseq, hkept, hengine, hbytes, hreg⟩ := v.shutDown_falls hon
    rw [if_neg (by simpa using hm), if_neg hm, hkept, hengine, hbytes, evt, get_of_reg hreg]
    exact ⟨hstate, hdone, hevt, hseq, hmem⟩

/-- Vitrine is entered where it was deferred (R384). -/
theorem musterEnd_freezes (hs : s.mus.state = .mustering) (hr : s.mus.step = .record) {c : Nat} (hv : s.vit.deferred = some c) :
    let t := s.musterEnd
    t.mus.state = .mustered ∧ t.vit.frozen = true ∧ t.get VIT.DEFERRED = 1 ∧ t.key.rootGone = true ∧ t.mem = s.mem := by
  obtain ⟨v, hmus, -, hmem, -, hend, -⟩ := musterEnd_eq hs hr
  obtain ⟨hfrozen, hdeferred, hroot, hengine, hbytes⟩ := v.freeze_freezes c
  dsimp only
  rw [hend c hv]
  exact ⟨by rw [hengine, hmus], hfrozen, hdeferred, hroot, hbytes.trans hmem⟩

end State

/-- Settles O51: PFAIL, and the end of each step by whether the muster engine stands in that step. -/
theorem musterSteps : Obligations.MusterSteps := by
  refine fun s hd => ⟨fun time low => State.gives_pfail_ignored hd time low, ?begins, ?ends, ?goesOn, ?stays,
    fun time cells hs hi hw hk => ?image, fun hs hr => ⟨?off, ?freezes⟩, ?done⟩
  case begins =>
    intro time low he hl hs hn hw
    obtain ⟨x, hb, hx, hcause⟩ := State.musterTrigger_eq (s := s.at time) hs hn hw 1
    have hg := State.gives_pfail hd time low he hl
    rw [hb] at hg
    obtain ⟨hmus, hheld, hevt⟩ := State.beginMuster_begins (s := { s.at time with mus := x }) hx 1
    refine hg.answers ?_
    rw [State.settled_mus, State.settled_net, hmus]
    refine ⟨rfl, rfl, rfl, hcause, rfl, hheld, State.evt_settled hevt (by decide) s, ?_⟩
    exact State.serviceUp_settled_shut (congrArg MusSt.state hmus) s
  case ends =>
    intro time cells hs hc hgo
    have hg := State.gives_musterCommitEnd hd time cells
    rw [State.musterCommitEnd_ends (s := s.at time) cells hs hc hgo] at hg
    obtain ⟨hmus, hserdes, hlinks⟩ := ((s.at time).commitRest cells).musterStep3_off .image
    refine hg.answers ?_
    rw [State.settled_mus, State.settled_pwr, hmus]
    refine ⟨rfl, rfl, hserdes, fun j hj => ?_⟩
    rw [State.get_settled_standing _ _ rfl (Fld.key_ne_of_place rfl rfl (.inl (by simp [DFT.LINK_UP, SYS.OPEN]))), hlinks j hj]
  case goesOn =>
    intro time cells h
    simpa only [State.musterCommitEnd_stays (s := s.at time) cells h] using State.gives_musterCommitEnd hd time cells
  case stays =>
    intro time cells h
    simpa only [State.musterImageDone_stays (s := s.at time) (cells := cells) h] using State.gives_musterImageDone hd time cells
  case image =>
    intro v p
    have hg := State.gives_musterImageDone hd time cells
    have hkept (ok : Bool) (hp : p.1 = ok) (h : ok = true ∨ p.2.storeRetired = true) :
        s.answers (.musterImageDone ⟨time, cells⟩) (v.ImageKept ok cells) :=
      hg.answers ((State.musterImageDone_keeps (s := s.at time) hs hi hw hk rfl (Prod.ext hp rfl) h).settled s)
    refine ⟨fun hp => ?_, fun hp hr => ?_, fun hp hr => ?_⟩
    · obtain ⟨t, ht, h⟩ := hkept true hp (.inl rfl)
      exact ⟨t, ht, h.step, h.dirty, h.image rfl, h.mem⟩
    · obtain ⟨t, ht, h⟩ := hkept false hp (.inr hr)
      exact ⟨t, ht, h.step, h.dirty, h.none rfl⟩
    · rwa [State.musterImageDone_waits (s := s.at time) hs hi hw hk rfl (Prod.ext hp rfl) rfl hr] at hg
  case off =>
    intro hv hc
    have hon : s.pwr.seq = .on := by
      simp only [State.dpUp, State.mgUp, Bool.and_eq_true, beq_iff_eq] at hd
      exact hd.1.1.1.1.1
    obtain ⟨hstate, hdone, hevt, hseq, hmem⟩ := State.musterEnd_off hon hs hr hv hc
    refine (State.gives_whenDp (c := .musterDone) State.musterEnd hd rfl).answers
      ⟨?_, ?_, State.evt_settled hevt (by decide) s, ?_, fun a => ?_⟩
    · rw [State.settled_mus, hstate]
    · rw [State.settled_pwr, hdone]
    · rw [State.settled_pwr, hseq]
    · rw [State.settled_mem, hmem]
  case freezes =>
    intro c hv
    obtain ⟨hstate, hfrozen, hdeferred, hroot, hmem⟩ := State.musterEnd_freezes hs hr hv
    refine (State.gives_whenDp (c := .musterDone) State.musterEnd hd rfl).answers ⟨?_, ?_, ?_, ?_, fun a => ?_⟩
    · rw [State.settled_mus, hstate]
    · rw [State.settled_vit, hfrozen]
    · rw [State.get_settled _ _ (by decide), hdeferred]
    · rw [(State.settled_sameKeys s s.musterEnd).rootGone, hroot]
    · rw [State.settled_mem, hmem]
  case done =>
    intro h
    have hg := State.gives_whenDp (c := .musterDone) State.musterEnd hd rfl
    rwa [State.musterEnd_stays h] at hg

end Sys2Proof.Machine

/-! PROOFS. What the NOR, the Census and poison bits leave of the members: their registers, and what the members hold (R211, R314,
R371). -/

namespace Sys2Proof.Machine

/-! ## Registers of members -/

/-- A register of a member's page that is no event register. -/
structure Fld.OfMember (f : Fld) : Prop where
  noEvent : f.noEvent = true
  low : 0x40 ≤ f.page
  high : f.page < 0x50

namespace Fld

variable {f g : Fld}

theorem OfMember.placed (hf : f.OfMember) : f.placed = true := by
  have h := hf.noEvent
  simp only [Fld.noEvent, Bool.and_eq_true] at h
  exact h.1

/-- A register of a stack's page. -/
theorem ofMember_stk {n : Nat} (hn : n < 8) (hp : f.page = STK.page n := by rfl) (hf : f.noEvent = true := by rfl) :
    f.OfMember := by
  unfold STK.page at hp
  exact ⟨hf, by omega, by omega⟩

/-- A register of a warm channel's page. -/
theorem ofMember_dch {n : Nat} (hn : n < 8) (hp : f.page = DCH.page n := by rfl) (hf : f.noEvent = true := by rfl) :
    f.OfMember := by
  unfold DCH.page at hp
  exact ⟨hf, by omega, by omega⟩

theorem OfMember.ne_evtRaw (hf : f.OfMember) (p : Nat) : f.key ≠ (HDR.EVT_RAW p).key :=
  (evtRaw_ne_noEvent p hf.noEvent).symm

/-- Do two registers lie at two places of a page, whatever their pages are? -/
def apart (f g : Fld) : Bool := f.placed && g.placed && (f.off != g.off || f.lsb != g.lsb)

theorem key_ne_of_apart (h : f.apart g = true := by rfl) : f.key ≠ g.key := by
  simp only [apart, Bool.and_eq_true, Bool.or_eq_true, bne_iff_ne] at h
  obtain ⟨⟨hf, hg⟩, h⟩ := h
  exact key_ne_of_place hf hg (.inr h)

/-- A register of another page is another register. -/
theorem OfMember.ne_elsewhere (hf : f.OfMember) (hg : g.placed = true) (hp : g.page < 0x40 ∨ 0x50 ≤ g.page) :
    f.key ≠ g.key := by
  have hlow := hf.low
  have hhigh := hf.high
  exact key_ne_of_place hf.placed hg (.inl (by omega))

end Fld

theorem State.get_raise_ofMember (s : State) (p b : Nat) {f : Fld} (hf : f.OfMember) : (s.raise p b).get f = s.get f :=
  s.get_raise p b (hf.ne_evtRaw p) (hf.ne_elsewhere rfl (.inr (by decide)))

theorem State.get_raiseIf_ofMember (s : State) (c : Bool) (p b : Nat) {f : Fld} (hf : f.OfMember) :
    (s.raiseIf c p b).get f = s.get f :=
  s.get_raiseIf c p b (hf.ne_evtRaw p) (hf.ne_elsewhere rfl (.inr (by decide)))

/-- A register of a member reads, settled, as the command's effect left it. -/
theorem State.get_settled_ofMember (s t : State) {f : Fld} (hf : f.OfMember) : (s.settled t).get f = t.get f := by
  refine s.get_settled t fun g hg => ?_
  have hg' : g.placed = true ∧ (g.page < 0x40 ∨ 0x50 ≤ g.page) := by
    revert g
    decide
  exact hf.ne_elsewhere hg'.1 hg'.2

/-- The event register of a member's page reads, settled, as the command's effect left it. -/
theorem State.get_settled_evtRaw (s t : State) {p : Nat} (hlow : 0x40 ≤ p) (hhigh : p < 0x50) :
    (s.settled t).get (HDR.EVT_RAW p) = t.get (HDR.EVT_RAW p) := by
  refine s.get_settled t fun g hg => ?_
  have hg' : g.placed = true ∧ (g.page < 0x40 ∨ 0x50 ≤ g.page) := by
    revert g
    decide
  exact Fld.key_ne_of_place rfl hg'.1 (.inl (by dsimp only [HDR.EVT_RAW]; omega))

/-! ## What nothing noted in the NOR or the Census touches -/

/-- The counters of the NOR, of the Census and of calibration records found bad. -/
def noteFields : List Fld := [NOR.PROGRAMS, NOR.ERASES, CEN.DROPPED, CEN.OOC_SUPPRESSED, CLK.RECORD_CRC_FAIL]

/-- `p` looks at nothing that a note of the device in the NOR or the Census changes. -/
structure Unnoted {α : Type} (p : State → α) : Prop where
  cur : ∀ (s : State) c, p { s with cur := c } = p s
  cen : ∀ (s : State) c, p { s with cen := c } = p s
  free : ∀ (s : State) n, p { s with free := n } = p s
  inc : ∀ (s : State) {g : Fld} n, g ∈ noteFields → p (s.inc g n) = p s
  raise : ∀ (s : State) q b, p (s.raise q b) = p s

theorem unnoted_get {f : Fld} (hf : f.OfMember) : Unnoted fun s => s.get f where
  cur _ _ := rfl
  cen _ _ := rfl
  free _ _ := rfl
  inc s g n hg := by
    have hg' : g.placed = true ∧ (g.page < 0x40 ∨ 0x50 ≤ g.page) := by
      revert g
      decide
    exact s.get_inc_ne n (hf.ne_elsewhere hg'.1 hg'.2)
  raise s q b := s.get_raise_ofMember q b hf

theorem unnoted_mc : Unnoted State.mc := ⟨fun _ _ => rfl, fun _ _ => rfl, fun _ _ => rfl, fun _ _ _ _ => rfl, State.raise_mc⟩

theorem unnoted_mem : Unnoted State.mem := ⟨fun _ _ => rfl, fun _ _ => rfl, fun _ _ => rfl, fun _ _ _ _ => rfl, State.raise_mem⟩

theorem unnoted_cm : Unnoted State.cm := ⟨fun _ _ => rfl, fun _ _ => rfl, fun _ _ => rfl, fun _ _ _ _ => rfl, State.raise_cm⟩

namespace Unnoted

variable {α β : Type} {p : State → α} (h : Unnoted p)
include h

theorem comp (r : α → β) : Unnoted fun s => r (p s) where
  cur s c := congrArg r (h.cur s c)
  cen s c := congrArg r (h.cen s c)
  free s n := congrArg r (h.free s n)
  inc s _ n hg := congrArg r (h.inc s n hg)
  raise s q b := congrArg r (h.raise s q b)

theorem raiseIf (s : State) (c : Bool) (q b : Nat) : p (s.raiseIf c q b) = p s := by
  cases c
  · rfl
  · exact h.raise s q b

/-! ### The NOR (R351, R352) -/

theorem norProgramWords (s : State) (a : Nat) (vs : List Nat) : p (s.norProgramWords a vs) = p s :=
  (h.cur _ _).trans ((h.inc _ _ (by decide)).trans (h.cur _ _))

theorem devNorOne (s : State) (a : Nat) (v : Option Nat) : p (s.devNorOne a v) = p s := by
  cases v <;> exact (h.cur _ _).trans ((h.inc _ _ (by decide)).trans (h.cur _ _))

theorem devNor (s : State) (ops : List (Nat × Option Nat)) : p (s.devNor ops) = p s := by
  unfold State.devNor
  split
  · exact h.cur s _
  · exact foldl_keeps p (fun v _ => h.devNorOne v _ _) _ _

/-! ### The Census (R371, R372) -/

theorem programRecord (s : State) (bs : List Byte) : p (s.programRecord bs) = p s := by
  have hw : p (s.programWords bs 64) = p s := (h.norProgramWords _ _ _).trans (h.cen _ _)
  unfold State.programRecord
  dsimp only
  rw [h.raiseIf, h.raiseIf]
  split
  · exact (h.raise _ _ _).trans hw
  split
  · exact (h.raise _ _ _).trans hw
  · exact hw

theorem writeOoc (s : State) (wait : Bool) (bs : List Byte) : p (s.writeOoc wait bs).2 = p s := by
  unfold State.writeOoc
  split
  · split
    · exact h.inc _ _ (by decide)
    · exact h.cen _ _
  split
  · exact h.inc _ _ (by decide)
  · exact h.programRecord _ _

theorem census (s : State) (code idx : Nat) : p (s.census code idx) = p s := by
  have hb : p { s with cen := s.cen.bump code } = p s := h.cen _ _
  unfold State.census
  dsimp only
  generalize { s with cen := s.cen.bump code } = v at hb ⊢
  split
  · unfold State.outOfCycle
    dsimp only
    split
    · exact (h.inc _ _ (by decide)).trans hb
    · have hw := (h.writeOoc v (false || v.periodDue) (v.recordBytes 2 code (idx % 256) false)).trans hb
      split <;> rename_i e <;> rw [e] at hw
      · exact (h.cen _ _).trans hw
      · exact (h.inc _ _ (by decide)).trans hw
  · exact hb

/-! ### Calibration records (R314, R315) -/

theorem calProgram (s : State) (m f code : Nat) (body : List Byte) : p (s.calProgram m f code body) = p s := by
  unfold State.calProgram
  extract_lets v serial r
  dsimp only
  split
  · exact h.devNor _ _
  split
  · exact h.devNor _ _
  · exact h.devNor _ _

theorem freeRecord (s : State) (m f code : Nat) : p (s.freeRecord m f code) = p s :=
  (h.calProgram _ _ _ _ _).trans (h.free _ _)

end Unnoted

/-! ## Poison (R211, R212) -/

namespace State

variable (s : State)

@[simp] theorem damage_get (f : Fld) : s.damage.get f = s.get f := by
  unfold damage
  split <;> rfl

@[simp] theorem damage_cm : s.damage.cm = s.cm := by
  unfold damage
  split <;> rfl

/-- The loss is judged where the twin is PAIRED (R212). -/
theorem damage_damaged (h : s.cm.twin = .paired) : s.damage.mc.damaged = true := by simp [damage, h]

/-- What the memory channels hold, but for whether a loss is to be judged. -/
def mcButDamage : MemSt := { s.mc with damaged := false }

@[simp] theorem damage_mcButDamage : s.damage.mcButDamage = s.mcButDamage := by
  unfold damage
  split <;> rfl

variable (m sec : Nat)

@[simp] theorem poisonSector_cm : (s.poisonSector m sec).cm = s.cm :=
  (unnoted_cm.census _ _ _).trans ((unnoted_cm.raise _ _ _).trans (damage_cm _))

theorem get_poisonSector {f : Fld} (hf : f.OfMember) : (s.poisonSector m sec).get f = s.get f :=
  ((unnoted_get hf).census _ _ _).trans (((unnoted_get hf).raise _ _ _).trans (damage_get _ f))

@[simp] theorem poisonSector_mcButDamage : (s.poisonSector m sec).mcButDamage = s.mcButDamage :=
  have h : Unnoted mcButDamage := unnoted_mc.comp fun x => { x with damaged := false }
  (h.census _ _ _).trans ((h.raise _ _ _).trans (damage_mcButDamage _))

@[simp] theorem poisonSector_mem : (s.poisonSector m sec).mem = s.mem :=
  (unnoted_mem.census _ _ _).trans ((unnoted_mem.raise _ _ _).trans (by unfold damage; split <;> rfl))

end State

end Sys2Proof.Machine

/-! PROOFS. The members of the memory channels: temperatures, members that leave service, and command parity (R212, R217, R224,
R341). -/

namespace Sys2Proof.Machine

/-! ## Registers of a member, by its number -/

/-- The counter of command parity errors of a member (R224). -/
def parityFld (m : Nat) : Fld := if m < 8 then STK.CA_PARITY m else DCH.CA_PARITY (m - 8)

/-- The event of a command parity error of a member (R224). -/
def parityEvt (m : Nat) : Nat := if m < 8 then STK.evCA_PARITY_EVT else DCH.evCA_PARITY_EVT

section
variable {m : Nat} (hm : m < 16)
include hm

theorem inServiceFld_ofMember : (inServiceFld m).OfMember := by
  unfold inServiceFld
  split
  · exact Fld.ofMember_stk ‹_›
  · exact Fld.ofMember_dch (by omega : m - 8 < 8)

theorem trainedFld_ofMember : (trainedFld m).OfMember := by
  unfold trainedFld
  split
  · exact Fld.ofMember_stk ‹_›
  · exact Fld.ofMember_dch (by omega : m - 8 < 8)

theorem parityFld_ofMember : (parityFld m).OfMember := by
  unfold parityFld
  split
  · exact Fld.ofMember_stk ‹_›
  · exact Fld.ofMember_dch (by omega : m - 8 < 8)

theorem fspActive_ofMember (h : 8 ≤ m) : (DCH.FSP_ACTIVE (m - 8)).OfMember := Fld.ofMember_dch (by omega : m - 8 < 8)

theorem enable_ofMember : (HDR.ENABLE (memberPage m)).OfMember := by
  unfold memberPage
  split
  · exact Fld.ofMember_stk ‹_›
  · exact Fld.ofMember_dch (by omega : m - 8 < 8)

end

section
variable (m : Nat)

theorem parityEvt_lt : parityEvt m < 32 := by
  unfold parityEvt
  split <;> decide

theorem parityFld_ne_inService : (parityFld m).key ≠ (inServiceFld m).key := by
  unfold parityFld inServiceFld
  split <;> exact Fld.key_ne_of_apart

theorem trained_ne_inService : (trainedFld m).key ≠ (inServiceFld m).key := by
  unfold trainedFld inServiceFld
  split <;> exact Fld.key_ne_of_apart

theorem enable_ne_inService : (HDR.ENABLE (memberPage m)).key ≠ (inServiceFld m).key := by
  unfold inServiceFld
  split <;> exact Fld.key_ne_of_apart

theorem enable_ne_trained : (HDR.ENABLE (memberPage m)).key ≠ (trainedFld m).key := by
  unfold trainedFld
  split <;> exact Fld.key_ne_of_apart

end

namespace State

variable {s : State}

/-! ## Temperatures (R217, R341) -/

section
variable {n : Nat} (hn : n < 8)
include hn

/-- REF_X2 of a stack shows how it refreshes, and nothing else of its page changes but the event register. -/
theorem showX2_stk (s : State) : let t := s.showX2 n
    t.mem = s.mem ∧ t.mc = s.mc ∧ (∀ f : Fld, f.OfMember → f.key ≠ (STK.REF_X2 n).key → t.get f = s.get f) ∧
      t.flag (STK.REF_X2 n) = t.refX2 n 0 := by
  have hx : s.showX2 n = _ := if_pos hn
  extract_lets b at hx
  have hregs (f : Fld) (hf : f.OfMember) (hne : f.key ≠ (STK.REF_X2 n).key) : (s.showX2 n).get f = s.get f := by
    rw [hx, putb, get_put_ne _ _ hne, get_raiseIf_ofMember _ _ _ _ hf]
  have hmc : (s.showX2 n).mc = s.mc := by rw [hx, putb_mc, raiseIf_mc]
  have hforce : (s.showX2 n).get (STK.FORCE_X2 n) = s.get (STK.FORCE_X2 n) :=
    hregs _ (Fld.ofMember_stk hn) Fld.key_ne_of_apart
  have hb : (s.showX2 n).refX2 n 0 = b := by
    simp only [refX2, member, hmc, flag, hforce, if_pos hn, b]
  refine ⟨by rw [hx, putb_mem, raiseIf_mem], hmc, hregs, ?_⟩
  rw [hb, hx, flag, putb, get_put_self]
  cases b <;> rfl

/-- The sensor of a stack read: shown, and judged against 85 °C and 80 °C. -/
theorem stackTemp_reads (s : State) (c : Int) : let t := s.stackTemp n c
    t.mem = s.mem ∧ t.get (STK.TEMP_C n) = (BitVec.ofInt 8 c).toNat ∧
      (t.member n).hotRank = (s.member n).hotRank.set 0
        (if 85 ≤ c then true else if c ≤ 80 then false else (s.member n).hotRank.getD 0 false) ∧
      t.flag (STK.REF_X2 n) = t.refX2 n 0 := by
  dsimp only
  unfold stackTemp
  extract_lets read cen kept x hot
  obtain ⟨hmem, hmc, hregs, hx2⟩ := showX2_stk hn (kept.setMember n { x with hotRank := x.hotRank.set 0 hot })
  refine ⟨hmem, ?_, ?_, hx2⟩
  · rw [hregs _ (Fld.ofMember_stk hn) Fld.key_ne_of_apart, setMember_get]
    exact (s.get_put_self (STK.TEMP_C n) _).trans (Nat.mod_eq_of_lt (BitVec.isLt _))
  · rw [member, hmc]
    exact congrArg MemberSt.hotRank (kept.member_setMember n _)

end

/-- A rank's registers read: TEMP_OVER shows whether a device of either rank asks for more than twice the base rate, and is raised
as it comes up. -/
theorem rankTemp_reads {n : Nat} (hn : n < 8) (s : State) (rank : Nat) (levels : List Nat) : let t := s.rankTemp n rank levels
    let over_ := ((s.member (8 + n)).overRank.set rank (levels.any (1 < ·))).any id
    t.mem = s.mem ∧ (t.member (8 + n)).hotRank = (s.member (8 + n)).hotRank.set rank (levels.any (0 < ·)) ∧
      t.flag (DCH.TEMP_OVER n) = over_ ∧
      (over_ = true → s.flag (DCH.TEMP_OVER n) = false →
        t.evt (DCH.page n) DCH.evTEMP_OVER_EVT = true ∧ t.q.refigure = true) ∧
      (over_ = true → s.flag (DCH.TEMP_OVER n) = true →
        t.get (HDR.EVT_RAW (DCH.page n)) = s.get (HDR.EVT_RAW (DCH.page n))) := by
  dsimp only
  unfold rankTemp
  extract_lets m x hot noted o was told
  have ho : o = ((s.member (8 + n)).overRank.set rank (levels.any (1 < ·))).any id :=
    congrArg (fun y : MemberSt => y.overRank.any id) (s.member_setMember m _)
  rw [← ho]
  generalize hw : (if o != was then { told with q := { told.q with refigure := true } } else told) = w
  obtain ⟨hmem, hmc, hreg⟩ : w.mem = told.mem ∧ w.mc = told.mc ∧ w.reg = told.reg := by
    rw [← hw]
    split <;> exact ⟨rfl, rfl, rfl⟩
  have hx : w.showX2 m = w.put (DCH.REF_X2 (m - 8)) _ := if_neg (by omega)
  have hget (f : Fld) (hne : f.key ≠ (DCH.REF_X2 (m - 8)).key) : (w.showX2 m).get f = told.get f := by
    rw [hx, get_put_ne _ _ hne, get_of_reg hreg]
  refine ⟨?_, ?_, ?_, fun hover hwas => ⟨?_, ?_⟩, fun hover hwas => ?_⟩
  · rw [hx, put_mem, hmem, raiseIf_mem]
    rfl
  · rw [hx, member, put_mc, hmc, raiseIf_mc]
    exact congrArg MemberSt.hotRank (s.member_setMember m _)
  · rw [flag, hget _ Fld.key_ne_of_apart, get_raiseIf_ofMember _ _ _ _ (Fld.ofMember_dch hn), putb, get_put_self]
    cases o <;> rfl
  · rw [evt, hget _ Fld.key_ne_of_apart]
    have hup : (o && !was) = true := by rw [hover, show was = false from hwas]; rfl
    simp only [told, hup]
    exact evt_raise_self _ _ _ (by decide)
  · have hne : (o != was) = true := by rw [hover, show was = false from hwas]; rfl
    rw [hx, put_q, ← hw, if_pos hne]
  · have hstays : (o && !was) = false := by rw [hover, show was = true from hwas]; rfl
    rw [hget _ Fld.key_ne_of_apart]
    simp only [told, hstays]
    exact get_put_ne noted _ Fld.key_ne_of_apart

/-! ## A member leaves service (R212, R224, R308) -/

/-- A member that leaves service at once: its sectors are poisoned, and a loss is judged where the twin is PAIRED. -/
theorem dropMember_eq (s : State) {m : Nat} (hm : m < 16) : ∃ u : State, s.dropMember m = u.resettle.manageTiers ∧
    u.get (inServiceFld m) = 0 ∧
    (∀ f : Fld, f.OfMember → f.key ≠ (inServiceFld m).key → u.get f = s.get f) ∧
    (s.cm.twin = .paired → u.mc.damaged = true) ∧ u.q.refigure = true := by
  unfold dropMember
  extract_lets secs poisoned out d q
  have hcm : poisoned.cm = s.cm := foldl_keeps State.cm (fun v sec => v.poisonSector_cm m sec) secs s
  have hregs (f : Fld) (hf : f.OfMember) : poisoned.get f = s.get f :=
    foldl_keeps (fun v : State => v.get f) (fun v sec => v.get_poisonSector m sec hf) secs s
  have hout (f : Fld) (hf : f.OfMember) : out.get f = (poisoned.put (inServiceFld m) 0).get f :=
    get_raise_ofMember _ _ _ hf
  have hjudged : s.cm.twin = .paired → d.mc.damaged = true := fun hp =>
    damage_damaged out (by rw [raise_cm, put_cm, hcm, hp])
  have hdamage (f : Fld) : d.get f = out.get f := damage_get out f
  clear_value d q
  refine ⟨_, rfl, ?_, fun f hf hne => ?_, hjudged, rfl⟩
  · change d.get _ = 0
    rw [hdamage, hout _ (inServiceFld_ofMember hm), get_put_self, Nat.zero_mod]
  · change d.get f = _
    rw [hdamage, hout f hf, get_put_ne _ _ hne, hregs f hf]

/-! ## Command parity (R224) -/

/-- A failure counted and raised, and its place in the row of one command. -/
def parityNoted (s : State) (m row : Nat) : State :=
  ((s.inc (parityFld m)).raise (memberPage m) (parityEvt m)).setMember m { s.member m with caRow := if row = 3 then 0 else row }

theorem caParity_idle {m : Nat} (h : s.memberUp m = false) (again : Bool) : s.caParity m again = s := by simp [caParity, h]

theorem caParity_eq {m : Nat} (h : s.memberUp m = true) (again : Bool) : s.caParity m again =
    let row := if again then (s.member m).caRow + 1 else 1
    let t := s.parityNoted m row
    if row != 3 then t
    else if m < 8 || t.get (DCH.FSP_ACTIVE (m - 8)) == 3 then t.dropMember m
    else ((t.setFsp (m - 8) (t.get (DCH.FSP_ACTIVE (m - 8)) + 1)).inc (DCH.FSP_FALLS (m - 8))).raise (DCH.page (m - 8))
      DCH.evFSP_FALL := by
  have hcount : (if m < 8 then (s.inc (STK.CA_PARITY m)).raise (STK.page m) STK.evCA_PARITY_EVT
      else (s.inc (DCH.CA_PARITY (m - 8))).raise (DCH.page (m - 8)) DCH.evCA_PARITY_EVT) =
      (s.inc (parityFld m)).raise (memberPage m) (parityEvt m) := by
    unfold parityFld memberPage parityEvt
    split <;> rfl
  have hmember : ((s.inc (parityFld m)).raise (memberPage m) (parityEvt m)).member m = s.member m := by
    rw [member, raise_mc, inc_mc, member]
  rw [caParity, if_neg (by simp [h]), hcount]
  simp only [hmember, parityNoted]
  rfl

/-- A failure of another command, or one that follows no two, is no third in a row. -/
theorem row_ne_three {m : Nat} {again : Bool} (hr : again = false ∨ (s.member m).caRow ≠ 2) :
    (if again then (s.member m).caRow + 1 else 1) ≠ 3 := by
  cases again <;> simp_all

theorem caParity_counts {m : Nat} (h : s.memberUp m = true) {again : Bool} (hr : again = false ∨ (s.member m).caRow ≠ 2) :
    s.caParity m again = s.parityNoted m (if again then (s.member m).caRow + 1 else 1) := by
  rw [caParity_eq h]
  exact if_pos (by simpa using row_ne_three hr)

/-- The third failure in a row of one command takes a stack, or a channel at its last set point, out of service. -/
theorem caParity_drops {m : Nat} (h : s.memberUp m = true) (hr : (s.member m).caRow = 2)
    (hf : m < 8 ∨ (s.parityNoted m 3).get (DCH.FSP_ACTIVE (m - 8)) = 3) :
    s.caParity m true = (s.parityNoted m 3).dropMember m := by
  rw [caParity_eq h, hr]
  exact (if_neg (by decide)).trans (if_pos (by simpa using hf))

/-- The third failure in a row of one command takes a channel down one set point. -/
theorem caParity_falls {m : Nat} (h : s.memberUp m = true) (hr : (s.member m).caRow = 2) (hm : 8 ≤ m)
    (hf : (s.parityNoted m 3).get (DCH.FSP_ACTIVE (m - 8)) ≠ 3) : s.caParity m true =
    let t := s.parityNoted m 3
    ((t.setFsp (m - 8) (t.get (DCH.FSP_ACTIVE (m - 8)) + 1)).inc (DCH.FSP_FALLS (m - 8))).raise (DCH.page (m - 8))
      DCH.evFSP_FALL := by
  rw [caParity_eq h, hr]
  exact (if_neg (by decide)).trans (if_neg (by simpa [hm] using hf))

theorem parityNoted_notes (s : State) {m : Nat} (hm : m < 16) (row : Nat) : let t := s.parityNoted m row
    t.mem = s.mem ∧ t.cm = s.cm ∧ (t.member m).caRow = (if row = 3 then 0 else row) ∧
      t.get (parityFld m) = min (2 ^ (parityFld m).width - 1) (s.get (parityFld m) + 1) ∧
      (∀ f : Fld, f.OfMember → f.key ≠ (parityFld m).key → t.get f = s.get f) ∧
      t.evt (memberPage m) (parityEvt m) = true := by
  dsimp only
  unfold parityNoted
  have hget (f : Fld) (hf : f.OfMember) :
      ((s.inc (parityFld m)).raise (memberPage m) (parityEvt m)).get f = (s.inc (parityFld m)).get f :=
    get_raise_ofMember _ _ _ hf
  refine ⟨?_, ?_, ?_, ?_, fun f hf hne => ?_, ?_⟩
  · rw [setMember_mem, raise_mem, inc_mem]
  · rw [setMember_cm, raise_cm, inc_cm]
  · rw [member_setMember]
  · rw [setMember_get, hget _ (parityFld_ofMember hm), get_inc_self]
  · rw [setMember_get, hget f hf, get_inc_ne _ _ hne]
  · rw [evt, setMember_get, ← evt, evt_raise_self _ _ _ (parityEvt_lt m)]

/-- One set point down. -/
theorem fspFall_falls {n : Nat} (hn : n < 8) (hf : s.get (DCH.FSP_ACTIVE n) < 3) :
    let t := ((s.setFsp n (s.get (DCH.FSP_ACTIVE n) + 1)).inc (DCH.FSP_FALLS n)).raise (DCH.page n) DCH.evFSP_FALL
    t.mem = s.mem ∧ t.mc = s.mc ∧ t.get (DCH.FSP_ACTIVE n) = s.get (DCH.FSP_ACTIVE n) + 1 ∧
      (∀ f : Fld, f.OfMember → f.key ≠ (DCH.FSP_ACTIVE n).key → f.key ≠ (DCH.FSP_FALLS n).key → t.get f = s.get f) ∧
      t.evt (DCH.page n) DCH.evFSP_FALL = true ∧ t.q.refigure = true := by
  have hset (f : Fld) : (s.setFsp n (s.get (DCH.FSP_ACTIVE n) + 1)).get f =
      (s.put (DCH.FSP_ACTIVE n) (s.get (DCH.FSP_ACTIVE n) + 1)).get f := rfl
  refine ⟨?_, ?_, ?_, fun f hm ha hc => ?_, evt_raise_self _ _ _ (by decide), ?_⟩
  · rw [raise_mem, inc_mem, setFsp, put_mem]
  · rw [raise_mc, inc_mc, setFsp, put_mc]
  · rw [get_raise_ofMember _ _ _ (Fld.ofMember_dch hn), get_inc_ne _ _ Fld.key_ne_of_apart, hset, get_put_self]
    exact Nat.mod_eq_of_lt (by change _ < 4; omega)
  · rw [get_raise_ofMember _ _ _ hm, get_inc_ne _ _ hc, hset, get_put_ne _ _ ha]
  · rw [raise_q, inc_q, setFsp]

end State
end Sys2Proof.Machine

/-! PROOFS. Delay lines and the training of members that enter service, and the statement about faults of the memory channels (R223,
R307, R308, R313). -/

namespace Sys2Proof.Machine

section
variable {m : Nat} (hm : 8 ≤ m)
include hm

theorem trained_ne_fspActive : (trainedFld m).key ≠ (DCH.FSP_ACTIVE (m - 8)).key := by
  rw [trainedFld, if_neg (by omega)]
  exact Fld.key_ne_of_apart

theorem inService_ne_fspActive : (inServiceFld m).key ≠ (DCH.FSP_ACTIVE (m - 8)).key := by
  rw [inServiceFld, if_neg (by omega)]
  exact Fld.key_ne_of_apart

theorem parityFld_ne_fspActive : (parityFld m).key ≠ (DCH.FSP_ACTIVE (m - 8)).key := by
  rw [parityFld, if_neg (by omega)]
  exact Fld.key_ne_of_apart

theorem parityFld_ne_fspFalls : (parityFld m).key ≠ (DCH.FSP_FALLS (m - 8)).key := by
  rw [parityFld, if_neg (by omega)]
  exact Fld.key_ne_of_apart

end

/-- Training a member at a set point writes its codes and seeds, and notes a record (R223, R313, R315). -/
theorem Unnoted.trainAt {α : Type} {p : State → α} (h : Unnoted p) {m : Nat}
    (hm : ∀ (v : State) codes seeds, p (v.setMember m { v.member m with codes := codes, seeds := seeds }) = p v) (s : State)
    (f : Nat) : p (s.trainAt m f) = p s := by
  have hbad : p (s.inc CLK.RECORD_CRC_FAIL (s.calBad m f)).freeNat.2 = p s := (h.free _ _).trans (h.inc _ _ (by decide))
  unfold State.trainAt
  dsimp only
  generalize (s.inc CLK.RECORD_CRC_FAIL (s.calBad m f)).freeNat = q at hbad ⊢
  split
  · exact (hm _ _ _).trans hbad
  · exact (hm _ _ _).trans ((h.freeRecord _ _ _ _).trans hbad)

namespace State

variable {s : State}

/-- A member that enters service is trained at every set point, and its figures follow (R223, R308). -/
theorem bringUp_eq (s : State) {m : Nat} (hm : m < 16) : ∃ u : State, s.bringUp m = u.resettle.manageTiers ∧
    u.get (trainedFld m) = 1 ∧ u.get (inServiceFld m) = 1 ∧
    u.get (HDR.ENABLE (memberPage m)) = s.get (HDR.ENABLE (memberPage m)) ∧
    (u.member m).inWindow = (s.member m).inWindow ∧ u.q.refigure = true ∧ u.mem = s.mem := by
  unfold bringUp
  extract_lets x start trained up fsp q
  have hwindow : (trained.member m).inWindow = (s.member m).inWindow := by
    have h : Unnoted fun v => (v.member m).inWindow := unnoted_mc.comp fun x => (mgetD x.members m {}).inWindow
    have hkept : (trained.member m).inWindow = (start.member m).inWindow :=
      foldl_keeps (fun v : State => (v.member m).inWindow)
        (fun v f => h.trainAt (fun v codes seeds => by rw [member_setMember]) v f) _ start
    exact hkept.trans (by simp only [start, member_setMember, x])
  have hmem : trained.mem = s.mem :=
    foldl_keeps State.mem (fun v f => unnoted_mem.trainAt (fun _ _ _ => rfl) v f) _ start
  have henable : trained.get (HDR.ENABLE (memberPage m)) = s.get (HDR.ENABLE (memberPage m)) :=
    foldl_keeps (fun v : State => v.get _) (fun v f => (unnoted_get (enable_ofMember hm)).trainAt (fun _ _ _ => rfl) v f) _ start
  have hfsp (f : Fld) (hne : 8 ≤ m → f.key ≠ (DCH.FSP_ACTIVE (m - 8)).key) : fsp.get f = up.get f := by
    simp only [fsp]
    split
    · rfl
    · exact get_put_ne _ _ (hne (by omega))
  obtain ⟨hfmem, hfmc⟩ : fsp.mem = up.mem ∧ fsp.mc = up.mc := by
    simp only [fsp]
    split <;> exact ⟨rfl, rfl⟩
  clear_value trained fsp q
  refine ⟨_, rfl, (hfsp _ trained_ne_fspActive).trans ?_, (hfsp _ inService_ne_fspActive).trans ?_,
    (hfsp _ fun _ => Fld.key_ne_of_apart).trans ?_, ?_, rfl, hfmem.trans hmem⟩
  · exact (get_put_ne _ _ (trained_ne_inService m)).trans ((get_put_self _ _ _).trans (by unfold trainedFld; split <;> rfl))
  · exact (get_put_self _ _ _).trans (by unfold inServiceFld; split <;> rfl)
  · exact ((get_put_ne _ _ (enable_ne_inService m)).trans (get_put_ne _ _ (enable_ne_trained m))).trans henable
  · exact (congrArg (fun x : MemSt => (mgetD x.members m {}).inWindow) hfmc).trans hwindow

/-! ## Delay lines (R307, R308) -/

section
variable (s : State) (i err : Nat) (inWin : Bool)

@[simp] theorem setPhase_reg : (s.setPhase i err inWin).reg = s.reg := by
  unfold setPhase
  split <;> rfl

@[simp] theorem setPhase_get (f : Fld) : (s.setPhase i err inWin).get f = s.get f := get_of_reg (s.setPhase_reg i err inWin) f

@[simp] theorem setPhase_flag (f : Fld) : (s.setPhase i err inWin).flag f = s.flag f := by rw [flag, setPhase_get, flag]

@[simp] theorem setPhase_mem : (s.setPhase i err inWin).mem = s.mem := by
  unfold setPhase
  split <;> rfl

@[simp] theorem setPhase_epochCode : (s.setPhase i err inWin).clk.epochCode = s.clk.epochCode := by
  unfold setPhase
  split <;> rfl

/-- A DLL is in its window as its phase error was kept. -/
theorem dllIn_setPhase : (s.setPhase i err inWin).dllIn i = (s.dllEnabled i && inWin) := by
  have he : (s.setPhase i err inWin).dllEnabled i = s.dllEnabled i := by simp only [dllEnabled, flag, setPhase_get]
  rw [dllIn, he]
  congr 1
  unfold setPhase
  split
  · rfl
  · rw [member_setMember]

end

theorem dllOut_ignored {i err : Nat} (h : s.dllIn i = false ∨ err ≤ dllWindow i) : s.dllOut i err = s := by
  rw [dllOut, if_pos]
  simpa using h

theorem dllOut_leaves {i err : Nat} (hin : s.dllIn i = true) (herr : dllWindow i < err) :
    s.dllOut i err = (s.setPhase i err false).raise CLK.page CLK.evDLL_OUT := by
  rw [dllOut, if_neg]
  simpa [hin] using herr

theorem dllBack_ignored {i err : Nat} (h : s.dllEnabled i = false ∨ s.dllIn i = true ∨ dllWindow i < err) :
    s.dllBack i err = s := by
  rw [dllBack, if_pos]
  simpa [or_assoc] using h

section
variable {i err : Nat} (hen : s.dllEnabled i = true) (hout : s.dllIn i = false) (herr : err ≤ dllWindow i)
include hen hout herr

theorem dllBack_known (h : i = 0 ∧ s.clk.epochCode.isSome = true ∨ i ≠ 0 ∧ s.flag (trainedFld (i - 1)) = true) :
    s.dllBack i err = (s.setPhase i err true).examine.applyDue.runReads := by
  rw [dllBack, if_neg (by simp [hen, hout, herr])]
  obtain ⟨hi, h⟩ | ⟨hi, h⟩ := h
  · simp [hi, h]
  · simp [hi, h]

/-- The epoch DLL takes the code of its search where it has none (R313). -/
theorem dllBack_searched (hi : i = 0) (h : s.clk.epochCode = none) :
    let v := s.setPhase i err true
    s.dllBack i err =
      ({ v.freeNat.2 with clk := { v.freeNat.2.clk with epochCode := some (v.freeNat.1 % 16384) } }).examine.applyDue.runReads := by
  dsimp only
  rw [dllBack, if_neg (by simp [hen, hout, herr])]
  simp [hi, h]

/-- A member that is not trained enters service (log entry 29). -/
theorem dllBack_untrained (hi : i ≠ 0) (h : s.flag (trainedFld (i - 1)) = false) :
    s.dllBack i err = ((s.setPhase i err true).bringUp (i - 1)).examine.applyDue.runReads := by
  rw [dllBack, if_neg (by simp [hen, hout, herr])]
  simp [hi, h]

end

theorem dllTimeout_idle {m : Nat} (h : s.memberUp m = false ∨ (s.member m).inWindow = true ∨ (s.member m).outSince = none) :
    s.dllTimeout m = s := by
  rw [dllTimeout, if_neg]
  rcases h with h | h | h <;> simp [h]

theorem dllTimeout_drops {m : Nat} (hup : s.memberUp m = true) (hin : (s.member m).inWindow = false)
    (hout : (s.member m).outSince.isSome = true) : s.dllTimeout m = (s.dropMember m).examine.applyDue.runReads := by
  rw [dllTimeout, if_pos]
  simp [hup, hin, hout]

/-- A member's DLL is in its window as its page is enabled and its member says so. -/
theorem dllIn_congr {t : State} {i : Nat} (hi : i ≠ 0)
    (he : t.get (HDR.ENABLE (memberPage (i - 1))) = s.get (HDR.ENABLE (memberPage (i - 1))))
    (hw : (t.member (i - 1)).inWindow = (s.member (i - 1)).inWindow) : t.dllIn i = s.dllIn i := by
  simp only [dllIn, dllEnabled, flag, he, if_neg hi, hw]

theorem dllIn_settled (s t : State) {i : Nat} (hi : i < 17) : (s.settled t).dllIn i = t.dllIn i := by
  by_cases h : i = 0
  · simp [dllIn, dllEnabled, h]
  · exact dllIn_congr h (s.get_settled_ofMember t (enable_ofMember (by omega))) (by rw [member, settled_mc, ← member])

theorem dllIn_raise (s : State) (p b : Nat) {i : Nat} (hi : i < 17) : (s.raise p b).dllIn i = s.dllIn i := by
  by_cases h : i = 0
  · simp [dllIn, dllEnabled, h]
  · exact dllIn_congr h (s.get_raise_ofMember p b (enable_ofMember (by omega))) (by rw [member, raise_mc, ← member])

theorem lockA_dllIn (s t : State) (i : Nat) : (s.lockA t).dllIn i = t.dllIn i := by
  unfold lockA
  split <;> rfl

theorem refX2_settled (s t : State) {n : Nat} (hn : n < 8) (k : Nat) : (s.settled t).refX2 n k = t.refX2 n k := by
  simp only [refX2, member, settled_mc, flag, if_pos hn, s.get_settled_ofMember t (f := STK.FORCE_X2 n) (Fld.ofMember_stk hn)]

/-! ## The commands -/

section
variable (hd : s.dpUp = true)
include hd

theorem gives_stackTempRead (n : Fin 8) (c : Int) :
    s.gives (.stackTempRead n c) (if s.memberUp n.val then s.stackTemp n.val c else s) :=
  gives_whenDp (fun s => if s.memberUp n.val then s.stackTemp n.val c else s) hd rfl

theorem gives_mrTempRead (n : Fin 8) (rank : Fin 2) (levels : List Nat) :
    s.gives (.mrTempRead n rank levels) (if s.refTarget (8 + n.val) rank.val then s.rankTemp n.val rank.val levels else s) :=
  gives_whenDp (fun s => if s.refTarget (8 + n.val) rank.val then s.rankTemp n.val rank.val levels else s) hd rfl

theorem gives_caParity (m : MemberId) (again : Bool) : s.gives (.caParity m again) (s.caParity m.val again) :=
  gives_whenDp (fun s => s.caParity m.val again) hd rfl

theorem gives_dllOut (i : Fin 17) (time err : Nat) : s.gives (.dllOut i time err) (s.lockA ((s.at time).dllOut i.val err)) :=
  gives_whenDp (fun s => s.lockA ((s.at time).dllOut i.val err)) hd rfl

theorem gives_dllBackInWindow (i : Fin 17) (time err : Nat) :
    s.gives (.dllBackInWindow i time err) (s.lockA ((s.at time).dllBack i.val err)) :=
  gives_whenDp (fun s => s.lockA ((s.at time).dllBack i.val err)) hd rfl

theorem gives_dllTimeout (m : MemberId) : s.gives (.dllTimeout m) (s.dllTimeout m.val) :=
  gives_whenDp (fun s => s.dllTimeout m.val) hd rfl

end

end State

/-! ## The statement -/

/-- Settles O49: each command by what its branch does. A member enters service as its DLL reaches its window by log entry 29, and
a set point falls at once by log entry 55. -/
theorem memoryChannelFaults : Obligations.MemoryChannelFaults := by
  refine ⟨fun s hd => ⟨fun n c h => ?stack, fun n c h => ?noStack, fun n rank levels h => ?rank,
      fun n rank levels h => ?noRank⟩,
    fun s m again hd => ⟨fun h => ?absent, fun h hr => ?counts, fun h ha hr hm hf => ?falls, fun h ha hr hf => ?drops⟩,
    fun s i hd => ⟨fun time err hin herr => ?out, fun time err h => ?stays,
      fun time err hen hout herr => ⟨?back, fun h => ?known, fun hi h => ?searched, fun hi h => ?untrained⟩,
      fun time err h => ?ignored, fun m hup hin hout => ?timeout, fun m h => ?late⟩⟩
  case stack =>
    obtain ⟨hmem, htemp, hhot, hx2⟩ := State.stackTemp_reads n.isLt s c
    have hg := State.gives_stackTempRead hd n c
    rw [if_pos h] at hg
    refine hg.answers ⟨?_, State.sameMemory_settled hmem s, ?_, ?_⟩
    · rw [State.get_settled_ofMember _ _ (Fld.ofMember_stk n.isLt), htemp]
    · rw [State.member, State.settled_mc, ← State.member, hhot]
    · rw [State.flag, State.get_settled_ofMember _ _ (Fld.ofMember_stk n.isLt), ← State.flag, hx2,
        State.refX2_settled _ _ n.isLt]
  case noStack => simpa only [h, Bool.false_eq_true, if_false] using State.gives_stackTempRead hd n c
  case rank =>
    obtain ⟨hmem, hhot, hover, hup, hstays⟩ := State.rankTemp_reads n.isLt s rank.val levels
    have hg := State.gives_mrTempRead hd n rank levels
    rw [if_pos h] at hg
    refine hg.answers ⟨?_, ⟨?_, fun ho hs => ⟨?_, ?_⟩, fun ho hs => ?_⟩, State.sameMemory_settled hmem s⟩
    · rw [State.member, State.settled_mc, ← State.member, hhot]
    · rw [State.flag, State.get_settled_ofMember _ _ (Fld.ofMember_dch n.isLt), ← State.flag, hover]
    · exact State.evt_settled (hup ho hs).1 (by decide) s
    · rw [State.settled_q, (hup ho hs).2]
    · rw [State.get_settled_evtRaw _ _ (by unfold DCH.page; omega) (by unfold DCH.page; omega), hstays ho hs]
  case noRank => simpa only [h, Bool.false_eq_true, if_false] using State.gives_mrTempRead hd n rank levels
  case absent => simpa only [State.caParity_idle h] using State.gives_caParity hd m again
  case counts =>
    obtain ⟨hmem, -, hrow, hcount, -, hevt⟩ := s.parityNoted_notes m.isLt (if again then (s.member m.val).caRow + 1 else 1)
    have hg := State.gives_caParity hd m again
    rw [State.caParity_counts h hr] at hg
    refine hg.answers ⟨?_, ?_, State.evt_settled hevt (parityEvt_lt _) s, State.sameMemory_settled hmem s⟩
    · rw [State.member, State.settled_mc, ← State.member, hrow, if_neg (State.row_ne_three hr)]
    · exact (State.get_settled_ofMember _ _ (parityFld_ofMember m.isLt)).trans hcount
  case falls =>
    subst ha
    obtain ⟨hmem, -, hrow, hcount, hregs, -⟩ := s.parityNoted_notes m.isLt 3
    have hfsp := hregs _ (fspActive_ofMember m.isLt hm) (parityFld_ne_fspActive hm).symm
    rw [← hfsp] at hf ⊢
    obtain ⟨hmem', hmc, hactive, hregs', hevt, hfig⟩ := State.fspFall_falls (n := m.val - 8) (by omega) hf
    have hg := State.gives_caParity hd m true
    rw [State.caParity_falls h hr hm hf.ne] at hg
    refine hg.answers ⟨?_, ?_, ?_, State.evt_settled hevt (by decide) s, ?_, State.sameMemory_settled (hmem'.trans hmem) s⟩
    · exact (State.get_settled_ofMember _ _ (fspActive_ofMember m.isLt hm)).trans hactive
    · rw [State.member, State.settled_mc, hmc, ← State.member, hrow, if_pos rfl]
    · refine (State.get_settled_ofMember _ _ (parityFld_ofMember m.isLt)).trans (Eq.trans ?_ hcount)
      exact hregs' _ (parityFld_ofMember m.isLt) (parityFld_ne_fspActive hm) (parityFld_ne_fspFalls hm)
    · rw [State.settled_q, hfig]
  case drops =>
    subst ha
    obtain ⟨-, hcm, -, hcount, hregs, -⟩ := s.parityNoted_notes m.isLt 3
    obtain ⟨u, hu, hout, hkept, hlost, hfig⟩ := (s.parityNoted m.val 3).dropMember_eq m.isLt
    have hlast : m.val < 8 ∨ (s.parityNoted m.val 3).get (DCH.FSP_ACTIVE (m.val - 8)) = 3 := by
      by_cases hm : m.val < 8
      · exact .inl hm
      · rw [hregs _ (fspActive_ofMember m.isLt (by omega)) (parityFld_ne_fspActive (by omega)).symm]
        exact hf
    have hg := State.gives_caParity hd m true
    rw [State.caParity_drops h hr hlast, hu] at hg
    exact ⟨u, hg, hout, (hkept _ (parityFld_ofMember m.isLt) (parityFld_ne_inService _)).trans hcount, hcm ▸ hlost, hfig⟩
  case out =>
    have hg := State.gives_dllOut hd i time err
    rw [State.dllOut_leaves (s := s.at time) hin herr] at hg
    refine hg.answers ⟨?_, State.evt_settled ?_ (by decide) s, State.sameMemory_settled ?_ s⟩
    · rw [State.dllIn_settled _ _ i.isLt, State.lockA_dllIn, State.dllIn_raise _ _ _ i.isLt, State.dllIn_setPhase, Bool.and_false]
    · rw [State.evt, State.get_of_reg (State.lockA_reg _ _), ← State.evt, State.evt_raise_self _ _ _ (by decide)]
    · rw [(State.lockA_told _ _).mem, State.raise_mem, State.setPhase_mem, State.at_mem]
  case stays => simpa only [State.dllOut_ignored (s := s.at time) h] using State.gives_dllOut hd i time err
  case back => rw [State.dllIn_setPhase, Bool.and_true]; exact hen
  case known =>
    simpa only [State.dllBack_known (s := s.at time) hen hout herr h] using State.gives_dllBackInWindow hd i time err
  case searched =>
    simpa only [State.dllBack_searched (s := s.at time) hen hout herr hi h] using State.gives_dllBackInWindow hd i time err
  case untrained =>
    obtain ⟨u, hu, htrained, hin, henable, hwindow, hfig, hmem⟩ :=
      ((s.at time).setPhase i.val err true).bringUp_eq (m := i.val - 1) (by omega)
    have hg := State.gives_dllBackInWindow hd i time err
    rw [State.dllBack_untrained (s := s.at time) hen hout herr hi h, hu] at hg
    refine ⟨u, hg, htrained, hin, ?_, hfig, fun a => ?_⟩
    · rw [State.dllIn_congr hi henable hwindow, State.dllIn_setPhase, Bool.and_true]
      exact hen
    · rw [hmem, State.setPhase_mem, State.at_mem]
  case ignored =>
    simpa only [State.dllBack_ignored (s := s.at time) h] using State.gives_dllBackInWindow hd i time err
  case timeout =>
    obtain ⟨u, hu, hout', -, hlost, -⟩ := s.dropMember_eq m.isLt
    have hg := State.gives_dllTimeout hd m
    rw [State.dllTimeout_drops hup hin hout, hu] at hg
    exact ⟨u, hg, hout', hlost⟩
  case late => simpa only [State.dllTimeout_idle h] using State.gives_dllTimeout hd m

end Sys2Proof.Machine

/-! PROOFS. The fill engine, drain and set points, margin scans and retraining (R214, R225, R226, R320, R322, R323). -/

namespace Sys2Proof.Machine

/-- A key of a table into which `c f` is put for each `f` of a list. -/
theorem mget_foldl_mput {α : Type} (c : Nat → α) (l : List Nat) (m : NMap α) (f : Nat) :
    mget (l.foldl (fun m f => mput m f (c f)) m) f = if f ∈ l then some (c f) else mget m f := by
  induction l generalizing m with
  | nil => simp
  | cons a l ih =>
    rw [List.foldl_cons, ih]
    by_cases hl : f ∈ l
    · simp [hl]
    · by_cases ha : f = a
      · subst ha
        simp [hl]
      · simp [hl, ha, mget_mput_ne m _ ha]

namespace State

variable {s : State}

/-! ## Fill (R214) -/

/-- The memory channels as the fill engine has written over every member in service. -/
def filledOver (s : State) : State :=
  { s with mc := { s.mc with
      fillBusy := false, fillDone := true, filled := (List.range 16).filter s.memberUp, refilled := []
      touched := (s.usedFrames false).map (false, ·) ++ (s.usedFrames true).map (true, ·) } }

theorem fillEnd_idle (h : s.mc.fillBusy = false) : s.fillEnd = s := by simp [fillEnd, h]

/-- The end of a fill poisons sectors, those of the homes that it has filled over, and is raised. -/
theorem fillEnd_eq (h : s.mc.fillBusy = true) : ∃ secs : List Nat, (s.cm.inService = false → secs = []) ∧
    s.fillEnd = (secs.foldl (fun v sec => v.poisonSector (v.memberOfSector sec) sec) s.filledOver).raise CEL.page
      CEL.evFILL_DONE_EVT := by
  refine ⟨_, fun hs => ?_, if_neg (by simp [h])⟩
  exact if_neg (by simp [hs])

/-- A fill that ends out of service does no more than that. -/
theorem fillEnd_outOfService (h : s.mc.fillBusy = true) (hs : s.cm.inService = false) :
    s.fillEnd = s.filledOver.raise CEL.page CEL.evFILL_DONE_EVT := by
  obtain ⟨secs, hsecs, he⟩ := fillEnd_eq h
  rw [he, hsecs hs, List.foldl_nil]

theorem fillEnd_ends (h : s.mc.fillBusy = true) : let t := s.fillEnd
    t.mem = s.mem ∧ t.mc.fillBusy = false ∧ t.mc.fillDone = true ∧ t.mc.filled = (List.range 16).filter s.memberUp ∧
      t.evt CEL.page CEL.evFILL_DONE_EVT = true := by
  obtain ⟨secs, -, he⟩ := fillEnd_eq h
  generalize hu : secs.foldl (fun v sec => v.poisonSector (v.memberOfSector sec) sec) s.filledOver = u at he
  have hmem : u.mem = s.mem := hu ▸ foldl_keeps State.mem (fun v sec => v.poisonSector_mem _ _) secs s.filledOver
  have hmc : u.mcButDamage = s.filledOver.mcButDamage :=
    hu ▸ foldl_keeps mcButDamage (fun v sec => v.poisonSector_mcButDamage _ _) secs s.filledOver
  have hbusy := congrArg MemSt.fillBusy hmc
  have hdone := congrArg MemSt.fillDone hmc
  have hfilled := congrArg MemSt.filled hmc
  dsimp only
  rw [he, raise_mem, raise_mc]
  exact ⟨hmem, hbusy, hdone, hfilled, evt_raise_self _ _ _ (by decide)⟩

/-! ## Set points (R225) -/

theorem writeFsp_taken {n f : Nat} (h : (mget (s.member (8 + n)).codes f).isSome = true ∨ s.drained (8 + n) = true) :
    s.writeFsp n f = (s.put (DCH.FSP n) f).setMember (8 + n) { s.member (8 + n) with fspReq := some f } :=
  if_pos (by simpa using h)

theorem writeFsp_rejected {n f : Nat} (hc : mget (s.member (8 + n)).codes f = none) (hd : s.drained (8 + n) = false) :
    s.writeFsp n f = s.raise (DCH.page n) DCH.evFSP_REJECT :=
  if_neg (by simp [hc, hd])

/-! ## Margin scans (R320) -/

theorem scanStart_starts (hs : s.clk.scan = none) (hr : s.clk.retrain = none) (h1 : 1 ≤ s.get CLK.MEMBER)
    (h16 : s.get CLK.MEMBER ≤ 16) (hup : s.memberUp (s.get CLK.MEMBER - 1) = true)
    (hsub : s.get CLK.SUB < memberSubs (s.get CLK.MEMBER - 1)) : s.scanStart =
      { s with clk := { s.clk with scan := some (s.get CLK.MEMBER - 1), scanSub := s.get CLK.SUB, margins := [] } } := by
  refine if_neg ?_
  simp [hs, hr, h16, hup, hsub, Nat.one_le_iff_ne_zero.1 h1]

/-- A scan or a retraining runs, or MEMBER and SUB name none in service. -/
theorem scanStart_ignored (h : s.clk.scan.isSome = true ∨ s.clk.retrain.isSome = true ∨ s.get CLK.MEMBER = 0 ∨
    16 < s.get CLK.MEMBER ∨ s.memberUp (s.get CLK.MEMBER - 1) = false ∨
    memberSubs (s.get CLK.MEMBER - 1) ≤ s.get CLK.SUB) : s.scanStart = s := by
  refine if_pos ?_
  simpa [or_assoc] using h

theorem scanDone_idle (h : s.clk.scan = none) (lanes : List (List Nat)) : s.scanDone lanes = s := by simp [scanDone, h]

/-- The end of a scan keeps the margins of each lane. -/
theorem scanDone_ends (h : s.clk.scan.isSome = true) (lanes : List (List Nat)) : let t := s.scanDone lanes
    t.mem = s.mem ∧ t.clk.scan = none ∧ t.evt CLK.page CLK.evMSCAN_DONE = true ∧
      ∀ i l r v h, lanes[i]? = some [l, r, v, h] → l < 256 → r < 256 → v < 256 → h < 256 →
        (i, { left := l, right := r, vlow := v, vhigh := h }) ∈ t.clk.margins := by
  have he : s.scanDone lanes = _ := if_neg (by simpa [Option.isSome_iff_ne_none] using h)
  extract_lets ms u at he
  dsimp only
  rw [he, raise_mem, raise_clk]
  refine ⟨rfl, rfl, evt_raise_self _ _ _ (by decide), fun i l r v h hi hl hr hv hh => ?_⟩
  have hlt : i < lanes.length := (List.getElem?_eq_some_iff.1 hi).1
  refine List.mem_map.2 ⟨i, List.mem_range.2 hlt, ?_⟩
  simp [List.getD_eq_getElem?_getD, hi, Nat.mod_eq_of_lt, hl, hr, hv, hh]

/-! ## Retraining (R322, R323) -/

theorem gives_retrainStart {path : Path} (h : s.canWrite path CLK.RETRAIN_START = true) :
    s.gives (.retrainStart path) s.retrainStart := congrArg _ (whenSup_regRun h retrainStart)

theorem retrainStart_unnamed (h : s.clk.retrain.isSome = true ∨ s.get CLK.RETRAIN_MEMBER = 0 ∨ 16 < s.get CLK.RETRAIN_MEMBER) :
    s.retrainStart = s.retrainRefuse :=
  if_pos (by simpa [or_assoc] using h)

section
variable (hr : s.clk.retrain = none) (h1 : 1 ≤ s.get CLK.RETRAIN_MEMBER) (h16 : s.get CLK.RETRAIN_MEMBER ≤ 16)
include hr h1 h16

theorem retrainStart_drained (hd : s.drained (s.get CLK.RETRAIN_MEMBER - 1) = true) : s.retrainStart =
    { s with clk := { s.clk with
      retrain := some (s.get CLK.RETRAIN_MEMBER - 1, false), retrainFsp := 0, retrainSlots := 0, retrainAt := none } } :=
  (if_neg (by simp [hr, h16, Nat.one_le_iff_ne_zero.1 h1])).trans (if_pos hd)

variable (hd : s.drained (s.get CLK.RETRAIN_MEMBER - 1) = false)
include hd

theorem retrainStart_inService (hup : s.memberUp (s.get CLK.RETRAIN_MEMBER - 1) = true)
    (hx : s.flag (HDR.EXPERT CLK.page) = true) : s.retrainStart =
    { s with
      clk := { s.clk with
        retrain := some (s.get CLK.RETRAIN_MEMBER - 1, true), retrainFsp := 0, retrainSlots := 0, retrainAt := none }
      q := { s.q with refigure := true } } :=
  (if_neg (by simp [hr, h16, Nat.one_le_iff_ne_zero.1 h1])).trans ((if_neg (by simp [hd])).trans (if_pos (by simp [hup, hx])))

/-- Neither DRAINED nor in service at expert level (log entry 31). -/
theorem retrainStart_refused
    (h : s.memberUp (s.get CLK.RETRAIN_MEMBER - 1) = false ∨ s.flag (HDR.EXPERT CLK.page) = false) :
    s.retrainStart = s.retrainRefuse :=
  (if_neg (by simp [hr, h16, Nat.one_le_iff_ne_zero.1 h1])).trans
    ((if_neg (by simp [hd])).trans (if_neg (by simpa [imp_iff_not_or] using h)))

end

theorem retrainDone_idle (h : s.clk.retrain = none) (codes : List Nat) : s.retrainDone codes = s := by simp [retrainDone, h]

@[simp] theorem retrainPoint_mem (s : State) (m f code : Nat) : (s.retrainPoint m f code).mem = s.mem :=
  unnoted_mem.freeRecord _ _ _ _

theorem retrainPoint_codes (s : State) (m f code : Nat) :
    ((s.retrainPoint m f code).member m).codes = mput (s.member m).codes f code := by
  have h : Unnoted fun v => (v.member m).codes := unnoted_mc.comp fun x => (mgetD x.members m {}).codes
  exact (h.freeRecord _ _ _ _).trans (congrArg MemberSt.codes (s.member_setMember m _))

/-- Set points retrained one after another, each with its code. -/
theorem retrainPoints_codes (s : State) (m : Nat) (c : Nat → Nat) (l : List Nat) (f : Nat) :
    mget ((l.foldl (fun v f => v.retrainPoint m f (c f)) s).member m).codes f =
      if f ∈ l then some (c f) else mget (s.member m).codes f := by
  rw [← mget_foldl_mput c]
  exact congrArg (mget · f)
    (List.foldl_hom (fun v : State => (v.member m).codes) fun v f => (v.retrainPoint_codes m f (c f)).symm).symm

/-- The set points of a member that have not ended yet, retrained. -/
def retrainLeft (s : State) (m : Nat) (codes : List Nat) : State :=
  ((List.range (setPoints m)).filter (s.clk.retrainFsp ≤ ·)).foldl
    (fun v f => v.retrainPoint m f (codes.getD f (mgetD (s.member m).codes f 0) % 16384)) s

theorem retrainDone_eq {m : Nat} {b : Bool} (h : s.clk.retrain = some (m, b)) (codes : List Nat) : s.retrainDone codes =
    let u := (s.retrainLeft m codes).calRestart m
    (({ u with clk := { u.clk with retrain := none }, q := { u.q with refigure := true } }).put CLK.RETRAIN_RESULT 0).raise CLK.page
      CLK.evRETRAIN_DONE := by
  simp only [retrainDone, h]
  rfl

/-- The end of a retraining: each set point that has not ended yet takes its code. -/
theorem retrainDone_ends {m : Nat} {b : Bool} (h : s.clk.retrain = some (m, b)) (codes : List Nat) :
    let t := s.retrainDone codes
    t.mem = s.mem ∧ t.clk.retrain = none ∧ t.get CLK.RETRAIN_RESULT = 0 ∧ t.evt CLK.page CLK.evRETRAIN_DONE = true ∧
      ∀ f, mget (t.member m).codes f = if s.clk.retrainFsp ≤ f ∧ f < setPoints m
        then some (codes.getD f (mgetD (s.member m).codes f 0) % 16384) else mget (s.member m).codes f := by
  have hmem : (s.retrainLeft m codes).mem = s.mem := foldl_keeps State.mem (fun v f => v.retrainPoint_mem m f _) _ s
  dsimp only
  rw [retrainDone_eq h]
  refine ⟨?_, ?_, ?_, evt_raise_self _ _ _ (by decide), fun f => ?_⟩
  · rw [raise_mem, put_mem]
    exact hmem
  · rw [raise_clk, put_clk]
  · rw [get_raise _ _ _ (by decide) (by decide), get_put_self, Nat.zero_mod]
  · rw [member, raise_mc, put_mc]
    refine (s.retrainPoints_codes m _ _ f).trans ?_
    simp only [List.mem_filter, List.mem_range, decide_eq_true_eq, and_comm]

end State

/-! ## The statement -/

/-- Settles O50: each command by what its branch does. Homes are filled over during service by log entry 30; a START that names
no member is ignored, and a RETRAIN of one neither DRAINED nor in service refused, by log entry 31. -/
theorem fillDrainScanRetrain : Obligations.FillDrainScanRetrain := by
  refine ⟨fun s path => ⟨fun h => ?fillStart, fun hd hb hs => ?filled, fun hd hb => ?fillDone, fun hd hb => ?noFill,
      fun m v h => ?drain, fun n v h => ⟨fun hc => ?fsp, fun hc hn => ?noCode⟩⟩,
    fun s path => ⟨fun h => ⟨fun hs hr h1 h16 hup hsub => ?scan, fun hi => ?noScan⟩, fun hd hs lanes => ?scanDone,
      fun hd hs lanes => ?noScanDone,
      fun h => ⟨fun hi => ?unnamed, fun hr h1 h16 hd => ?drained, fun hr h1 h16 hd hup => ?neither,
        fun hr h1 h16 hd hup => ⟨fun hx => ?expert, fun hx => ?locked⟩⟩,
      fun hd => ⟨fun codes hr => ?noRetrain, fun m b codes hr => ?retrained⟩⟩⟩
  case fillStart => exact congrArg _ (State.whenSup_regRun h State.fillStart)
  case filled =>
    have hg := State.gives_whenDp (c := .fillDone) State.fillEnd hd rfl
    rwa [State.fillEnd_outOfService hb hs] at hg
  case fillDone =>
    obtain ⟨hmem, hbusy, hdone, hfilled, hevt⟩ := State.fillEnd_ends hb
    refine (State.gives_whenDp (c := .fillDone) State.fillEnd hd rfl).answers
      ⟨?_, ?_, ?_, State.evt_settled hevt (by decide) s, State.sameMemory_settled hmem s⟩ <;> rw [State.settled_mc]
    · exact hbusy
    · exact hdone
    · exact hfilled
  case noFill =>
    have hg := State.gives_whenDp (c := .fillDone) State.fillEnd hd rfl
    rwa [State.fillEnd_idle hb] at hg
  case drain => exact congrArg _ (State.whenSup_regRun h fun s => s.setDrain m.val v)
  case fsp =>
    rw [← State.writeFsp_taken hc]
    exact congrArg _ (State.whenSup_regRun h fun s => s.writeFsp n.val v.toNat)
  case noCode =>
    rw [← State.writeFsp_rejected hc hn]
    exact congrArg _ (State.whenSup_regRun h fun s => s.writeFsp n.val v.toNat)
  case scan =>
    rw [← State.scanStart_starts hs hr h1 h16 hup hsub]
    exact congrArg _ (State.whenSup_regRun h State.scanStart)
  case noScan =>
    have hg : s.gives (.mscanStart path) s.scanStart := congrArg _ (State.whenSup_regRun h State.scanStart)
    rwa [State.scanStart_ignored hi] at hg
  case scanDone =>
    obtain ⟨hmem, hscan, hevt, hmargins⟩ := State.scanDone_ends hs lanes
    refine (State.gives_whenDp (c := .mscanDone lanes) (fun s => s.scanDone lanes) hd rfl).answers
      ⟨?_, State.evt_settled hevt (by decide) s, ?_, State.sameMemory_settled hmem s⟩ <;> rw [State.settled_clk]
    · exact hscan
    · exact hmargins
  case noScanDone =>
    have hg := State.gives_whenDp (c := .mscanDone lanes) (fun s => s.scanDone lanes) hd rfl
    rwa [State.scanDone_idle hs] at hg
  case unnamed =>
    have hg := State.gives_retrainStart h
    rw [State.retrainStart_unnamed hi] at hg
    exact hg
  case drained =>
    have hg := State.gives_retrainStart h
    rw [State.retrainStart_drained hr h1 h16 hd] at hg
    exact hg
  case neither =>
    have hg := State.gives_retrainStart h
    rw [State.retrainStart_refused hr h1 h16 hd (.inl hup)] at hg
    exact hg
  case expert =>
    have hg := State.gives_retrainStart h
    rw [State.retrainStart_inService hr h1 h16 hd hup hx] at hg
    exact hg
  case locked =>
    have hg := State.gives_retrainStart h
    rw [State.retrainStart_refused hr h1 h16 hd (.inr hx)] at hg
    exact hg
  case noRetrain =>
    have hg := State.gives_whenDp (c := .retrainDone codes) (fun s => s.retrainDone codes) hd rfl
    rwa [State.retrainDone_idle hr] at hg
  case retrained =>
    obtain ⟨hmem, hend, hresult, hevt, hcodes⟩ := State.retrainDone_ends hr codes
    refine (State.gives_whenDp (c := .retrainDone codes) (fun s => s.retrainDone codes) hd rfl).answers
      ⟨?_, ?_, State.evt_settled hevt (by decide) s, fun f hlow hhigh c hc hlt => ?_, fun f hf => ?_,
        State.sameMemory_settled hmem s⟩
    · rw [State.settled_clk, hend]
    · rw [State.get_settled _ _ (by decide), hresult]
    · rw [State.member, State.settled_mc, ← State.member, hcodes, if_pos ⟨hlow, hhigh⟩]
      simp [List.getD_eq_getElem?_getD, hc, Nat.mod_eq_of_lt hlt]
    · rw [State.member, State.settled_mc, ← State.member, hcodes, if_neg (by omega)]

end Sys2Proof.Machine

/-! PROOFS. How a command can end: with a next state, or, of the two that name a device address, with the fault of an absent one
(R232; log entry 51). -/

namespace Sys2Proof.Machine

/-- A command that names device addresses completes, or, while the datapath runs, names an absent one (R232). -/
theorem State.withDa_ends (s : State) (j typ : Nat) (f : LinkFrame) (n : Nat) (g : State → State) :
    (∃ t, s.withDa j typ f n g = .next t) ∨ s.dpUp = true ∧ s.withDa j typ f n g = .fault .deviceAddressAbsent := by
  unfold State.withDa
  split
  · exact .inl ⟨_, rfl⟩
  next hd =>
    split
    · exact .inl ⟨_, rfl⟩
    · split
      · exact .inr ⟨by simpa using hd, rfl⟩
      · exact .inl ⟨_, rfl⟩

/-- A command that reads or places bytes at a device address for another gang member (R167). -/
def namesDeviceAddress (c : Instr) : Prop := ∃ j : Fin 3, (∃ r, c = .memRead j r) ∨ ∃ f, c = .memPlace j f

/-- Every command completes, but for the one fault of the two that name a device address. -/
theorem exec_ends (c : Instr) (s : State) :
    (∃ t, exec c s = .next t) ∨ exec c s = .fault .deviceAddressAbsent ∧ s.dpUp = true ∧ namesDeviceAddress c := by
  cases c with
  | memRead j r => exact (s.withDa_ends _ _ _ _ _).imp_right fun ⟨hd, hf⟩ => ⟨hf, hd, j, .inl ⟨r, rfl⟩⟩
  | memPlace j f => exact (s.withDa_ends _ _ _ _ _).imp_right fun ⟨hd, hf⟩ => ⟨hf, hd, j, .inr ⟨f, rfl⟩⟩
  | _ => exact .inl ⟨_, rfl⟩

/-- Settles O3: by the two ways in which a command can end. -/
theorem onlyAbsentAddressesFault : Obligations.OnlyAbsentAddressesFault := by
  refine ⟨fun c s r hr => ?refused, fun c s hread hplace => ?completes, fun c s e he => ?faults⟩
  case refused =>
    obtain ⟨t, ht⟩ | ⟨hf, -⟩ := exec_ends c s
    · cases ht.symm.trans hr
    · cases hf.symm.trans hr
  case completes =>
    obtain ht | ⟨-, -, j, ⟨r, hc⟩ | ⟨f, hc⟩⟩ := exec_ends c s
    · exact ht
    · exact absurd hc (hread j r)
    · exact absurd hc (hplace j f)
  case faults =>
    obtain ⟨t, ht⟩ | ⟨hf, hd, hn⟩ := exec_ends c s
    · cases ht.symm.trans he
    · cases hf.symm.trans he
      exact ⟨rfl, hd, hn⟩

end Sys2Proof.Machine

/-! PROOFS. What reads for merges, records of the layout and the switch of homes leave in the background, and what leaves the tables
of the capacity tier as they were (R178, R237, R253, R260, R268). -/

namespace Sys2Proof.Machine

-- One proof at a time: many at once outgrow the memory that the check gives.
set_option Elab.async false

/-! ## The capacity tier's tables (R235, R237) -/

theorem unnoted_fl : Unnoted State.fl := ⟨fun _ _ => rfl, fun _ _ => rfl, fun _ _ => rfl, fun _ _ _ _ => rfl, State.raise_fl⟩

namespace State

variable (s : State)

@[simp] theorem lb_setLb (n : Nat) (x : LbtEntry) : (s.setLb n x).lb n = x := mgetD_mset_self _ _ _ _

theorem lb_of_fl {t : State} (h : t.fl = s.fl) (n : Nat) : t.lb n = s.lb n := by rw [lb, h, lb]

@[simp] theorem poisonTold_fl (m : Nat) : (s.poisonTold m).fl = s.fl :=
  (unnoted_fl.census _ _ _).trans ((unnoted_fl.raise _ _ _).trans (by unfold damage; split <;> rfl))

@[simp] theorem layoutAppend_fl (r : LayoutRec) : (s.layoutAppend r).fl = s.fl := by
  unfold layoutAppend
  extract_lets v o
  split
  · exact unnoted_fl.devNor _ _
  · exact (unnoted_fl.devNor _ _).trans (unnoted_fl.devNor _ _)

theorem chargePort_fl (p n : Nat) : (s.chargePort p n).fl = s.fl := rfl

/-- The sectors of the pages that failed authentication are noted outside the capacity tier (R301). -/
theorem untrustPages_fl (e : Nat) (l : List Nat) : (l.foldl (fun v p => (List.range 4).foldl (fun v j =>
    State.poisonTold { v with tier := { v.tier with untrusted := addTo v.tier.untrusted (16 * e + 4 * p + j) } }
      (v.memberOfSector (16 * e + 4 * p + j))) v) s).fl = s.fl := by
  refine foldl_keeps fl (fun v p => ?_) l s
  refine foldl_keeps fl (fun w j => ?_) (List.range 4) v
  rw [poisonTold_fl]

/-- A home switches in the table of extents; the capacity tier's own stand (R178). -/
@[simp] theorem commitMove_fl (e : Nat) : (s.commitMove e).fl = s.fl := by
  cases hx : s.extent e with
  | none => simp only [commitMove, hx]
  | some x =>
    cases hd : x.move with
    | none => simp only [commitMove, hx, hd]
    | some d =>
      simp only [commitMove, hx, hd]
      split <;> simp only [inc_fl, untrustPages_fl, chargePort_fl, setExtent_fl]

/-- A read that meets no array fault changes nothing (R205). -/
@[simp] theorem readCells_nil (da n : Nat) : s.readCells [] da n = s := rfl

end State

/-! ## In the background -/

namespace State.Works

variable {α : Type} {k : TierSt → Memory → α} {s t : State}

section
variable (h : s.Works k t)
include h

theorem dropGroups (p : StripeEntry → Bool) : s.Works k (t.dropGroups p) := issueNext h.aside

theorem layoutAppend (r : LayoutRec) : s.Works k (t.layoutAppend r) := by
  unfold State.layoutAppend
  extract_lets v o
  split
  · exact h.devNor _
  · exact h.layoutRewrite

theorem reshapePast (lb : Nat) : s.Works k (t.reshapePast lb) := by
  unfold State.reshapePast
  dsimp only
  split
  · split
    · exact layoutAppend h.aside _
    · exact h.aside
  · exact h

end

end State.Works

namespace State.Behind

variable {α : Type} {k : TierSt → Memory → α} {s t : State}

section
variable (h : s.Behind k t)
include h

/-! ## Stripes read, and what is lost (R253, R260) -/

theorem loseSectors (e mask : Nat) : s.Behind k (t.loseSectors e mask) := by
  have hd : s.Behind k t.damage := by
    unfold State.damage
    split
    · exact h.aside
    · exact h
  have censuses : ∀ (n : Nat) {v : State}, s.Behind k v →
      s.Behind k ((List.range n).foldl (fun v _ => v.census 7 (e % 256)) v) := fun n v hv =>
    hv.works (.foldl (fun w _ => (State.Works.refl w).census _ _) _ (.refl v))
  unfold State.loseSectors
  dsimp only
  split
  · exact h
  split
  · exact censuses _ hd
  · exact (((censuses _ hd.aside).inc _ _).raise _ _).raiseIf _ _ _

theorem readMember (sb m r prio : Nat) : s.Behind k (t.readMember sb m r prio) := (h.inc _ _).memberMsg _ _ _ _ _ _

theorem reconstruct (sb m r : Nat) (named : List Nat) (prio : Nat) : s.Behind k (t.reconstruct sb m r named prio).2 := by
  unfold State.reconstruct
  extract_lets missing read
  split
  · exact h
  · have hr : s.Behind k read := (h.inc _ _).trans (foldl id (fun v i => (refl v).readMember _ _ _ _) _ _)
    dsimp only
    split
    · exact hr.inc _ _
    · exact hr

theorem readSlot (prio : Nat) (named : List MergePage) (x : Nat × Nat × Nat) : s.Behind k (t.readSlot prio named x) := by
  refine h.trans (foldl id (fun v pg => ?_) _ t)
  extract_lets m n
  dsimp only [id]
  split
  · have hr := (refl (k := k) v).reconstruct x.2.1 m (x.2.2 / 4) ((n.map fun p => p.missing.map (·.val)).getD []) prio
    split <;> rename_i e <;> rw [e] at hr
    · exact hr
    · exact hr.loseSectors _ _
  · exact (refl v).readMember _ _ _ _

/-! ## Slots written, and homes switched (R178, R234, R239) -/

theorem writeMerge (lb dest role first : Nat) : s.Behind k (t.writeMerge lb dest role first) := by
  have hp := h.putSlots dest (t.mergeSlots lb role first)
  unfold State.writeMerge
  dsimp only
  split
  · exact hp
  · exact hp.aside

end

/-- Apart from the table of extents, a home is switched in the background (R178). -/
theorem commitMove (h : s.Behind memoryOnly t) (e : Nat) : s.Behind memoryOnly (t.commitMove e) := by
  cases hx : t.extent e with
  | none => simpa only [State.commitMove, hx] using h
  | some x =>
    cases hd : x.move with
    | none => simpa only [State.commitMove, hx, hd] using h
    | some d =>
      obtain ⟨y, -, hb⟩ := State.commitMove_switches hx hd
      exact (h.aside (u := t.setExtent e y)).trans hb.onlyMemory

end State.Behind

end Sys2Proof.Machine

/-! PROOFS. Word-line groups of a log (R238, R240, R241, R291): their demotions read and committed, their failures, and the row-hold
limit. -/

namespace Sys2Proof.Machine

-- One proof at a time: many at once outgrow the memory that the check gives.
set_option Elab.async false

/-! ## A group that passes (R178, R205, R238) -/

/-- The slots of a log that its group `g` holds. -/
def FlashLog.groupSlots (l : FlashLog) (g : Nat) : List Nat := ((List.range 12).map (12 * g + ·)).filter (· < l.slots.length)

/-- The copies of a group's demotions read (R205). -/
def State.copiesRead (s : State) (l : FlashLog) (g : Nat) (cells : List CellFault) : State :=
  ((l.groupSlots g).filterMap fun k => l.slots.getD k none).foldl (fun v e => v.readCells cells (65536 * e) 65536) s

/-- The demotion of one slot committed: the index finds it there, and the home switches (R178, R238). -/
def State.commitSlot (n : Nat) (l : FlashLog) (s : State) (k : Nat) : State :=
  match l.slots.getD k none with
  | none => s
  | some e =>
    match mget s.fl.logs n with
    | none => s
    | some x => ((s.setLog n { x with index := mput x.index (lbOf e).2 k }).commitMove e).inc FTL.USER_BYTES 65536

/-- A log past a group of it. -/
def FlashLog.past (l : FlashLog) (g : Nat) : FlashLog := { l with programmed := max l.programmed (12 * g + 12) }

/-- A group whose rows are programmed: its slots hold their extents, the log reaches past it, and its demotions commit (R238). -/
def State.groupPassed (s : State) (n g : Nat) (l : FlashLog) : State :=
  let closed := s.closeGroup l.sb g
  let written := closed.putSlots l.sb ((l.groupSlots g).map fun k => closed.slotWrite 1 k (l.slots.getD k none))
  (l.groupSlots g).foldl (State.commitSlot n (l.past g)) (written.setLog n (l.past g))

/-- How far a log is programmed, and its slots. -/
def State.logReach (s : State) (n : Nat) : Option (Nat × List (Option Nat)) :=
  (mget s.fl.logs n).map fun l => (l.programmed, l.slots)

namespace State

variable {s : State} {n g : Nat} {l : FlashLog} {cells : List CellFault}

theorem copiesRead_nil : s.copiesRead l g [] = s := foldl_keeps id (fun v e => v.readCells_nil (65536 * e) 65536) _ _

theorem setLog_logReach (s : State) (n : Nat) (x : FlashLog) : (s.setLog n x).logReach n = some (x.programmed, x.slots) :=
  congrArg (Option.map fun l : FlashLog => (l.programmed, l.slots)) (mget_mput_self s.fl.logs n x)

theorem logReach_of_fl {t : State} (h : t.fl = s.fl) : t.logReach n = s.logReach n := by rw [logReach, h, logReach]

theorem commitSlot_logReach (s : State) (k : Nat) : (commitSlot n l s k).logReach n = s.logReach n := by
  unfold commitSlot
  split
  · rfl
  split
  · rfl
  next x hx =>
    rw [logReach_of_fl ((inc_fl _ _ _).trans (commitMove_fl _ _)), setLog_logReach, logReach, hx]
    rfl

theorem commitSlot_behind (s : State) (k : Nat) : s.Behind memoryOnly (commitSlot n l s k) := by
  unfold commitSlot
  split
  · exact .refl s
  split
  · exact .refl s
  · exact ((State.Behind.refl s).aside.commitMove _).inc _ _

theorem groupPassed_logReach (s : State) (n g : Nat) (l : FlashLog) :
    (s.groupPassed n g l).logReach n = some (max l.programmed (12 * g + 12), l.slots) := by
  refine (foldl_keeps (fun v : State => v.logReach n) (fun v k => commitSlot_logReach v k) _ _).trans ?_
  rw [setLog_logReach, FlashLog.past]

theorem groupPassed_behind (s : State) (n g : Nat) (l : FlashLog) : s.Behind memoryOnly (s.groupPassed n g l) :=
  (((State.Behind.refl s).closeGroup _ _).putSlots _ _).aside.trans
    (.foldl id (fun v k => commitSlot_behind v k) _ _)

/-! ## The end of a group, case by case (R238, R240, R291) -/

theorem groupDone_passes {v : State} (hp : (s.copiesRead l g cells).programRows l.sb (3 * g) 3 = (true, v))
    (hl : l.slots.length ≠ 6144) : s.groupDone n g l cells = v.groupPassed n g l := by
  unfold copiesRead FlashLog.groupSlots at hp
  rw [groupDone]
  dsimp only
  rw [hp]
  dsimp only
  rw [if_neg (by simp [hl])]
  rfl

theorem groupDone_unprogrammed {v : State} (hp : (s.copiesRead l g cells).programRows l.sb (3 * g) 3 = (false, v)) :
    s.groupDone n g l cells = if v.storeRetired then (v.retireData l.sb).restartLog n l else s := by
  unfold copiesRead FlashLog.groupSlots at hp
  rw [groupDone]
  dsimp only
  rw [hp]

theorem flashGroup_unbound (h : mget s.fl.logs n = none) (r : GroupEnd) : s.flashGroup n r = s := by rw [flashGroup, h]

/-- Programs end but for a muster of another cause than 5 (R190, R263). -/
theorem programs_end (h : s.mus.stopped = false ∨ s.mus.cause = 5) : (s.mus.stopped && s.mus.cause != 5) = false := by
  rcases h with h | h <;> simp [h]

section
variable (hl : mget s.fl.logs n = some l)
include hl

theorem flashGroup_stays (h : s.issuedGroup l.sb = none ∨ s.mus.stopped = true ∧ s.mus.cause ≠ 5) (r : GroupEnd) :
    s.flashGroup n r = s := by
  rw [flashGroup, hl]
  dsimp only
  cases hg : s.issuedGroup l.sb with
  | none => rfl
  | some g =>
    obtain ⟨hs, hc⟩ := h.resolve_left (by simp [hg])
    simp [hs, hc]

section
variable (hg : s.issuedGroup l.sb = some g) (hm : s.mus.stopped = false ∨ s.mus.cause = 5)
include hg hm

theorem flashGroup_passed : s.flashGroup n ⟨none, cells⟩ = (s.groupDone n g l cells).manageTiers.examine.runReads := by
  simp only [flashGroup, hl, hg, programs_end hm, Bool.false_eq_true, if_false]

theorem flashGroup_failed (m : BlockFail) : s.flashGroup n ⟨some m, cells⟩ =
    ((s.retireBlock (s.sbBlock l.sb m.member.val) m.erase).restartLog n l).manageTiers.examine.runReads := by
  simp only [flashGroup, hl, hg, programs_end hm, Bool.false_eq_true, if_false]

end

/-! ## The row-hold limit (R238) -/

theorem rowHold_closed (h : l.slots.length % 12 = 0) : s.rowHold n = s := by simp [rowHold, hl, h]

theorem rowHold_open (h : l.slots.length % 12 ≠ 0) : s.rowHold n =
    (s.setLog n { l with slots := l.slots ++ List.replicate (12 - l.slots.length % 12) none }).issueGroup l.sb
      (l.slots.length / 12) 0 := by
  simp [rowHold, hl, h]

end

theorem rowHold_unbound (h : mget s.fl.logs n = none) : s.rowHold n = s := by rw [rowHold, h]

/-! ## The commands -/

theorem gives_flashGroupProgrammed (hd : s.dpUp = true) (log : BitVec 10) (r : GroupEnd) :
    s.gives (.flashGroupProgrammed log r) (s.flashGroup log.toNat r) := gives_whenDp (fun v => v.flashGroup log.toNat r) hd rfl

theorem gives_rowHoldExpiry (hd : s.dpUp = true) (log : BitVec 10) : s.gives (.rowHoldExpiry log) (s.rowHold log.toNat) :=
  gives_whenDp (fun v => v.rowHold log.toNat) hd rfl

end State

/-- Settles O45: a group passes, is not programmed (its key retired, or its program waiting: log entries 35 and 68), or fails; and the
row-hold limit closes an open group. -/
theorem logGroupsProgrammed : Obligations.LogGroupsProgrammed := by
  unfold Obligations.LogGroupsProgrammed
  intro s log hdp n ends
  have group {r : GroupEnd} {u : State} (h : s.flashGroup n r = u) : s.gives (.flashGroupProgrammed log r) u := by
    rw [← h]
    exact State.gives_flashGroupProgrammed hdp log r
  have hold {u : State} (h : s.rowHold n = u) : s.gives (.rowHoldExpiry log) u := by
    rw [← h]
    exact State.gives_rowHoldExpiry hdp log
  refine ⟨fun r hl => ⟨group (State.flashGroup_unbound hl r), hold (State.rowHold_unbound hl)⟩,
    fun l r hl h => group (State.flashGroup_stays hl h r), fun l g hl hg hm => ⟨fun cells => ?_, fun m cells =>
      ⟨group (State.flashGroup_failed hl hg hm m), State.mem_retireBlock _ _⟩⟩,
    fun l hl h => hold (State.rowHold_closed hl h), fun l hl h => hold (State.rowHold_open hl h)⟩
  intro moving t p
  have done {u : State} (h : s.groupDone n g l cells = u) : ends ⟨none, cells⟩ u := by
    rw [← h]
    exact group (State.flashGroup_passed hl hg hm)
  have hmem : t.sameMemory (p.2.groupPassed n g l) :=
    (((State.Behind.refl t).programRows _ _ _ _).trans (State.groupPassed_behind p.2 n g l)).sameMemory
  refine ⟨fun hp hlen => ⟨_, done (State.groupDone_passes (Prod.ext hp rfl) hlen), ?reach, hmem, ?noFault⟩,
    fun hp hr => done ((State.groupDone_unprogrammed (Prod.ext hp rfl)).trans (if_pos hr)),
    fun hp hr => done ((State.groupDone_unprogrammed (Prod.ext hp rfl)).trans (if_neg (Bool.eq_false_iff.1 hr)))⟩
  case reach =>
    obtain ⟨y, hy, hreach⟩ := Option.map_eq_some_iff.1 (State.groupPassed_logReach p.2 n g l)
    obtain ⟨hprog, hslots⟩ := Prod.mk.inj hreach
    exact ⟨y, hy, hprog, hslots⟩
  case noFault =>
    intro hc a
    have hs : t = s := by
      subst hc
      exact State.copiesRead_nil
    exact (hmem a).trans (by rw [hs])

end Sys2Proof.Machine

/-! PROOFS. The end of a merge (R239, R240, R253, R260, R291): what its reads meet, its failures, and the switch of the entry. -/

namespace Sys2Proof.Machine

-- One proof at a time: many at once outgrow the memory that the check gives.
set_option Elab.async false

/-! ## The entry switched (R239, R268) -/

/-- A merge whose destination `d` is programmed from slot `first` on: what it takes along commits, and the entry switches (R178,
R239). -/
def State.mergeSwitched (s : State) (lb d first kind : Nat) : State :=
  (((s.dropGroups fun e => e.sb == d).mergeMoves lb).writeMerge lb d (b2n (kind == 0)) first).switchBase lb d

/-- A merge counted, and noted by a reshape and by a rebuild (R239, R261, R268). -/
def State.mergeNoted (s : State) (lb kind : Nat) (wasSet : Bool) : State :=
  let past := (s.inc (mergeCounter kind)).reshapePast lb
  let counted := if wasSet then past.inc PAR.REBUILT_LB else past
  if counted.par.rows.any fun e => counted.rowTakes e.1 then { counted with par := { counted.par with stall := false } } else counted

/-- An entry that names `d` alone as its base, no merge and no log. -/
def LbtEntry.OnBase (x : LbtEntry) (d : Nat) : Prop := x.base = some d ∧ x.state = 2 ∧ x.merging = false ∧ x.log = none

namespace State

variable {s : State} {lb d : Nat} {x : LbtEntry}

theorem switchBase_onBase (s : State) (lb d : Nat) : ((s.switchBase lb d).lb lb).OnBase d := by
  unfold switchBase
  dsimp only
  rw [lb_setLb]
  exact ⟨rfl, rfl, rfl, rfl⟩

@[simp] theorem reshapePast_fl (s : State) (lb : Nat) : (s.reshapePast lb).fl = s.fl := by
  unfold reshapePast
  dsimp only
  split
  · split
    · exact layoutAppend_fl _ _
    · rfl
  · rfl

theorem mergeNoted_fl (s : State) (lb kind : Nat) (wasSet : Bool) : (s.mergeNoted lb kind wasSet).fl = s.fl := by
  unfold mergeNoted
  extract_lets past counted
  have hpast : past.fl = s.fl := reshapePast_fl _ _
  have hcounted : counted.fl = s.fl := by
    simp only [counted]
    split
    · rw [inc_fl, hpast]
    · exact hpast
  split <;> exact hcounted

theorem mergeSwitched_onBase (s : State) (lb d first kind : Nat) : ((s.mergeSwitched lb d first kind).lb lb).OnBase d :=
  switchBase_onBase _ _ _

theorem mergeNoted_onBase (h : (s.lb lb).OnBase d) (kind : Nat) (wasSet : Bool) : ((s.mergeNoted lb kind wasSet).lb lb).OnBase d := by
  rwa [lb_of_fl _ (mergeNoted_fl _ _ _ _)]

theorem mergeMoves_behind (s : State) (lb : Nat) : s.Behind memoryOnly (s.mergeMoves lb) :=
  .foldl id (fun v e => ((State.Behind.refl v).commitMove e).inc _ _) _ s

theorem mergeSwitched_behind (s : State) (lb d first kind : Nat) : s.Behind memoryOnly (s.mergeSwitched lb d first kind) :=
  ((((State.Works.refl s).dropGroups _).toBehind.trans (mergeMoves_behind _ lb)).writeMerge _ _ _ _).works
    ((State.Works.refl _).switchBase lb d)

theorem mergeNoted_behind (s : State) (lb kind : Nat) (wasSet : Bool) : s.Behind memoryOnly (s.mergeNoted lb kind wasSet) := by
  unfold mergeNoted
  extract_lets past counted
  have hpast : s.Behind memoryOnly past := ((State.Behind.refl s).inc _ _).works ((State.Works.refl _).reshapePast lb)
  have hcounted : s.Behind memoryOnly counted := by
    simp only [counted]
    split
    · exact hpast.inc _ _
    · exact hpast
  split
  · exact hcounted.aside
  · exact hcounted

/-! ## Its reads (R205, R253) -/

theorem mergeReads_sameMemory {r : MergeReads} (h : r.cells = []) (s : State) (lb d prio : Nat) :
    s.sameMemory (s.mergeReads lb d prio r) := by
  have hslots : s.Behind memoryOnly ((s.mergeSources lb d).foldl (fun v x => v.readSlot prio r.pages x) s) :=
    .foldl id (fun v x => (State.Behind.refl v).readSlot prio r.pages x) _ s
  refine (hslots.trans (.foldl id (fun v e => ?_) _ _)).sameMemory
  rw [h]
  exact .refl v

/-! ## The end of a merge, case by case (R239, R240, R260, R291) -/

theorem mergeDone_stays (h : (s.lb lb).dest = none ∨ (s.lb lb).merging = false ∨ s.mus.stopped = true) (failed : Option BlockFail)
    (r : MergeReads) : s.mergeDone lb failed r = s := by
  rw [mergeDone]
  cases hd : (s.lb lb).dest with
  | none => rfl
  | some d =>
    dsimp only
    rw [if_pos]
    rcases h with h | h | h
    · simp [hd] at h
    · simp [h]
    · simp [h]

/-- The priority of a merge's pages at the cipher channels: 4 in a rebuild, else 3 (R300). -/
def mergePrio (s : State) (lb : Nat) : Nat := if s.rebuildSet.contains lb then 4 else 3

section
variable (hd : (s.lb lb).dest = some d) (hgo : (!(s.lb lb).merging || s.mus.stopped) = false) {r : MergeReads}
include hd hgo

theorem mergeDone_failed (m : BlockFail) :
    s.mergeDone lb (some m) r = (s.retireBlock (s.sbBlock d m.member.val) m.erase).restartMerge lb := by
  simp [mergeDone, hd, hgo]

theorem mergeDone_full (hf : (s.mergeReads lb d (s.mergePrio lb) r).lostFull = true) :
    s.mergeDone lb none r = ((s.mergeReads lb d (s.mergePrio lb) r).stopMerge lb).manageTiers.examine.runReads := by
  unfold mergePrio at hf ⊢
  simp only [mergeDone, hd, hgo, hf, Bool.false_eq_true, if_false, if_true]

section
variable (hf : (s.mergeReads lb d (s.mergePrio lb) r).lostFull = false) {v : State}
include hf

theorem mergeDone_unprogrammed (hp : (s.mergeReads lb d (s.mergePrio lb) r).programRows d (s.mergeKept (s.lb lb) / 4)
      (1536 - s.mergeKept (s.lb lb) / 4) (s.mergePrio lb) = (false, v)) :
    s.mergeDone lb none r = if v.storeRetired then (v.retireData d).restartMerge lb else s := by
  unfold mergePrio at hf hp
  simp only [mergeDone, hd, hgo, hf, hp, Bool.false_eq_true, if_false]

theorem mergeDone_switches (hp : (s.mergeReads lb d (s.mergePrio lb) r).programRows d (s.mergeKept (s.lb lb) / 4)
      (1536 - s.mergeKept (s.lb lb) / 4) (s.mergePrio lb) = (true, v)) :
    s.mergeDone lb none r = (((v.mergeSwitched lb d (s.mergeKept (s.lb lb)) (s.lb lb).kind).mergeNoted lb (s.lb lb).kind
      (s.rebuildSet.contains lb)).afterMerge lb).manageTiers.examine.runReads := by
  unfold mergePrio at hf hp
  unfold mergeDone
  extract_lets x
  rw [show x.dest = some d from hd]
  refine (if_neg (Bool.eq_false_iff.1 hgo)).trans ((if_neg (Bool.eq_false_iff.1 hf)).trans ?_)
  rw [hp]
  rfl

end

end

theorem gives_mergeDone (h : s.dpUp = true) (lb : BitVec 20) (failed : Option BlockFail) (r : MergeReads) :
    s.gives (.mergeDone lb failed r) (s.mergeDone lb.toNat failed r) := gives_whenDp (fun v => v.mergeDone lb.toNat failed r) h rfl

end State

/-- Settles O46: a merge stays, fails, is stopped by a full lost list, is not programmed (its key retired, or its program waiting: log
entry 35), or switches its entry. -/
theorem mergeSwitchesTheEntry : Obligations.MergeSwitchesTheEntry := by
  unfold Obligations.MergeSwitchesTheEntry
  intro s lb hdp x
  have gives {failed : Option BlockFail} {r : MergeReads} {u : State} (h : s.mergeDone lb.toNat failed r = u) :
      s.gives (.mergeDone lb failed r) u := by
    rw [← h]
    exact State.gives_mergeDone hdp lb failed r
  refine ⟨fun failed r h => gives (State.mergeDone_stays h failed r), fun d hd hm hs => ?_⟩
  have hgo : (!(s.lb lb.toNat).merging || s.mus.stopped) = false := by
    simp [show (s.lb lb.toNat).merging = true from hm, hs]
  refine ⟨fun r => ?_, fun m r => ⟨gives (State.mergeDone_failed hd hgo m), State.mem_retireBlock _ _⟩⟩
  intro prio t p
  refine ⟨fun hf => gives (State.mergeDone_full hd hgo hf),
    fun hf hp => ⟨_, gives (State.mergeDone_switches hd hgo hf (Prod.ext hp rfl)), ?switches⟩,
    fun hf hp hr => gives ((State.mergeDone_unprogrammed hd hgo hf (Prod.ext hp rfl)).trans (if_pos hr)),
    fun hf hp hr => gives ((State.mergeDone_unprogrammed hd hgo hf (Prod.ext hp rfl)).trans (if_neg (Bool.eq_false_iff.1 hr)))⟩
  case switches =>
    have hmem : t.sameMemory ((p.2.mergeSwitched lb.toNat d (s.mergeKept x) x.kind).mergeNoted lb.toNat x.kind
        (s.rebuildSet.contains lb.toNat)) :=
      ((((State.Behind.refl t).programRows _ _ _ _).trans (State.mergeSwitched_behind _ _ _ _ _)).trans
        (State.mergeNoted_behind _ _ _ _)).sameMemory
    obtain ⟨hbase, hstate, hmerging, hlog⟩ := State.mergeNoted_onBase
      (State.mergeSwitched_onBase p.2 lb.toNat d (s.mergeKept x) x.kind) x.kind (s.rebuildSet.contains lb.toNat)
    exact ⟨hbase, hstate, hmerging, hlog, hmem, fun hc a => (hmem a).trans (State.mergeReads_sameMemory hc s _ _ _ a)⟩

end Sys2Proof.Machine

/-! PROOFS. What a merge begun, pages read for a stripe and records of the layout leave as it was: registers, the network, the events
and the tables of dies (R239, R253, R257, R268). -/

namespace Sys2Proof.Machine

-- One proof at a time: many at once outgrow the memory that the check gives.
set_option Elab.async false

/-! ## A merge begun (R239, R241, R262) -/

/-- `p` looks at nothing that a merge begun changes. -/
structure MergeBlind {α : Type} (p : State → α) : Prop where
  fl : ∀ (s : State) x, p { s with fl := x } = p s
  stripes : ∀ (s : State) j q b, p { s with par := { s.par with journal := j, queued := q, stall := b } } = p s
  erased : ∀ (s : State) c n, p (s.inc (FCH.BLOCK_ERASES c) n) = p s
  raise : ∀ (s : State) q b, p (s.raise q b) = p s

theorem mergeBlind_get {f : Fld} (hf : f.noEvent = true := by rfl)
    (he : ∀ c, f.apart (FCH.BLOCK_ERASES c) = true := by exact fun _ => rfl) (hp : f.apart PCE.MSIX_PBA = true := by rfl) :
    MergeBlind fun s => s.get f where
  fl _ _ := rfl
  stripes _ _ _ _ := rfl
  erased s c n := s.get_inc_ne n (Fld.key_ne_of_apart (he c))
  raise s q b := s.get_raise q b (evtRaw_ne_noEvent q hf).symm (Fld.key_ne_of_apart hp)

namespace MergeBlind

variable {α : Type} {p : State → α} (h : MergeBlind p)
include h

theorem raiseIf (s : State) (c : Bool) (q b : Nat) : p (s.raiseIf c q b) = p s := by
  cases c
  · rfl
  · exact h.raise s q b

theorem eraseBlock (s : State) (b : Nat) : p (s.eraseBlock b) = p s :=
  (h.raiseIf _ _ _ _).trans ((h.erased _ _ _).trans (h.fl _ _))

theorem newSb (s : State) (use : SbUse) : p (s.newSb use).2 = p s := by
  unfold State.newSb
  split
  · rfl
  dsimp only
  split
  · rfl
  · exact (h.raiseIf _ _ _ _).trans ((h.fl _ _).trans (foldl_keeps p (fun v b => h.eraseBlock v b) _ s))

theorem issueNext (s : State) : p s.issueNext = p s := by
  refine (foldl_keeps p (fun v e => ?_) _ _).trans (h.stripes s _ _ _)
  split
  · exact h.stripes v _ _ _
  · exact h.stripes v _ _ _

theorem issueGroup (s : State) (sb group kind : Nat) : p (s.issueGroup sb group kind) = p s := by
  unfold State.issueGroup
  split
  · rfl
  · exact (h.issueNext _).trans (h.stripes s _ _ _)

theorem mergeDest (s : State) : p s.mergeDest.2 = p s := by
  have hn := h.newSb s .data
  unfold State.mergeDest
  split <;> rename_i e <;> rw [e] at hn
  · exact hn
  · split
    · exact hn
    · exact (h.raiseIf _ _ _ _).trans ((h.stripes _ _ _ _).trans hn)

theorem startFull (s : State) (lb : Nat) (fold : Bool) : p (s.startFull lb fold) = p s := by
  have hd := h.mergeDest s
  unfold State.startFull
  dsimp only
  split
  · rfl
  split <;> rename_i e <;> rw [e] at hd
  · exact hd
  · exact (h.issueGroup _ _ _ _).trans ((h.fl _ _).trans hd)

end MergeBlind

/-! ## Records of the layout (R268) -/

theorem Unnoted.layoutAppend {α : Type} {p : State → α} (h : Unnoted p) (s : State) (r : LayoutRec) :
    p (s.layoutAppend r) = p s := by
  unfold State.layoutAppend
  extract_lets v o
  split
  · exact h.devNor _ _
  · exact (h.devNor _ _).trans (h.devNor _ _)

theorem unnoted_par : Unnoted State.par :=
  ⟨fun _ _ => rfl, fun _ _ => rfl, fun _ _ => rfl, fun _ _ _ _ => rfl, State.raise_par⟩

theorem unnoted_q : Unnoted State.q := ⟨fun _ _ => rfl, fun _ _ => rfl, fun _ _ => rfl, fun _ _ _ _ => rfl, State.raise_q⟩

/-! ## Pages read (R247, R249, R253, R284) -/

/-- `t` is `s` but for background work that read pages of flash: it left the network, and the count of pages taken from their
stripes. -/
structure State.PagesRead (s t : State) : Prop extends s.Works memoryOnly t where
  net : t.net = s.net
  recons : t.get PAR.RECON_READS = s.get PAR.RECON_READS

namespace State.PagesRead

variable {s t u : State}

theorem refl (s : State) : s.PagesRead s := ⟨.refl s, rfl, rfl⟩

theorem trans (h : s.PagesRead t) (h' : t.PagesRead u) : s.PagesRead u :=
  ⟨h.toWorks.trans h'.toWorks, h'.net.trans h.net, h'.recons.trans h.recons⟩

theorem foldl {γ : Type} {g : State → γ → State} (hg : ∀ (v : State) (c : γ), v.PagesRead (g v c)) (l : List γ)
    (h : s.PagesRead t) : s.PagesRead (l.foldl g t) := by
  induction l generalizing t with
  | nil => exact h
  | cons c l ih => exact ih (h.trans (hg t c))

section
variable (h : s.PagesRead t)
include h

/-- A change in the background, apart from registers and the network. -/
theorem aside (hf : u.front = t.front := by rfl) (hk : memoryOnly u.tier u.mem = memoryOnly t.tier t.mem := by rfl)
    (hr : u.reg = t.reg := by rfl) (hn : u.net = t.net := by rfl) : s.PagesRead u :=
  ⟨h.toWorks.aside hf hk hr, hn.trans h.net, (State.get_of_reg hr _).trans h.recons⟩

theorem inc {g : Fld} (n : Nat) (hg : g.noEvent = true := by rfl) (hr : PAR.RECON_READS.apart g = true := by rfl) :
    s.PagesRead (t.inc g n) :=
  ⟨h.toWorks.inc n hg, h.net, (t.get_inc_ne n (Fld.key_ne_of_apart hr)).trans h.recons⟩

theorem raise (p b : Nat) : s.PagesRead (t.raise p b) :=
  ⟨h.toWorks.raise p b, (t.raise_net p b).trans h.net, ((mergeBlind_get (f := PAR.RECON_READS)).raise t p b).trans h.recons⟩

theorem raiseIf (c : Bool) (p b : Nat) : s.PagesRead (t.raiseIf c p b) := by
  cases c
  · exact h
  · exact h.raise p b

theorem startFull (lb : Nat) (fold : Bool) : s.PagesRead (t.startFull lb fold) :=
  ⟨h.toWorks.startFull lb fold, (t.startFull_net lb fold).trans h.net,
    ((mergeBlind_get (f := PAR.RECON_READS)).startFull t lb fold).trans h.recons⟩

/-! ### Cipher channels (R284, R300) -/

theorem chanStart (c : Nat) (j : ChanJob) : s.PagesRead (t.chanStart c j) := by
  unfold State.chanStart
  split
  rename_i x susp full _
  refine raiseIf ?_ _ _ _
  have hk : s.PagesRead { t with key := { t.key with chan := mput t.key.chan c x } } := h.aside
  cases susp
  · exact hk
  · exact (hk.inc _).inc _

theorem channelMsg (i bytes prio : Nat) (bad legacy : Bool) (count : Nat) (ctx : MsgCtx) :
    s.PagesRead (t.channelMsg i bytes prio bad legacy count ctx) := by
  unfold State.channelMsg
  split
  · exact h
  extract_lets blocks k asked sent decoded
  have hsent : s.PagesRead sent := (((h.aside (u := asked)).chanStart _ _).inc _).inc _
  have hdecoded : s.PagesRead decoded := by
    simp only [decoded]
    split
    · exact hsent.inc _
    · exact hsent
  split
  · exact (hdecoded.inc _).raise _ _
  · exact hdecoded

theorem memberMsg (sb m first rows prio : Nat) (bad : Bool) : s.PagesRead (t.memberMsg sb m first rows prio bad) := by
  unfold State.memberMsg
  split
  · exact h
  · exact h.channelMsg _ _ _ _ _ _ _

theorem readMember (sb m r prio : Nat) : s.PagesRead (t.readMember sb m r prio) := (h.inc _).memberMsg _ _ _ _ _ _

theorem countBits (die bits : Nat) : s.PagesRead (t.countBits die bits) :=
  (h.inc (g := FCH.CORR_BITS (dieChan die)) bits).aside

/-! ### What a page shows of its block (R247) -/

theorem refreshLb (lb : Nat) : s.PagesRead (t.refreshLb lb) := by
  unfold State.refreshLb
  extract_lets x due
  split
  · exact h
  · exact (((h.aside (u := t.setLb lb { x with dueMerge := true })).inc _).raise _ _).startFull _ _

end

end State.PagesRead

/-! ## Pages taken from their stripes (R253) -/

namespace State

variable (s : State)

/-- A page is taken from its stripe, the members that are left read, or nothing is done. -/
theorem reconstruct_cases (sb m r : Nat) (named : List Nat) (prio : Nat) :
    s.reconstruct sb m r named prio = (false, s) ∨
      ∃ u, s.reconstruct sb m r named prio = (true, u) ∧ (s.inc PAR.RECON_READS).PagesRead u := by
  unfold reconstruct
  extract_lets missing read
  split
  · exact .inl rfl
  · refine .inr ⟨_, rfl, ?_⟩
    have hread : (s.inc PAR.RECON_READS).PagesRead read :=
      .foldl (fun v i => (PagesRead.refl v).readMember _ _ _ _) _ (.refl _)
    split
    · exact hread.inc _
    · exact hread

theorem rebuildPage_cases (p : PageDone) :
    s.rebuildPage p = (false, s) ∨ ∃ u, s.rebuildPage p = (true, u) ∧ (s.inc PAR.RECON_READS).PagesRead u := by
  unfold rebuildPage
  split
  · exact s.reconstruct_cases _ _ _ _ _
  · exact .inl rfl

theorem rebuildPage_net (p : PageDone) : (s.rebuildPage p).2.net = s.net := by
  obtain h | ⟨u, h, hu⟩ := s.rebuildPage_cases p
  · rw [h]
  · rw [h]
    exact hu.net

theorem rebuildPage_works (p : PageDone) : s.Works memoryOnly (s.rebuildPage p).2 := by
  obtain h | ⟨u, h, hu⟩ := s.rebuildPage_cases p
  · rw [h]
    exact .refl s
  · rw [h]
    exact ((Works.refl s).inc _).trans hu.toWorks

variable {s}

theorem rebuildPage_counts {p : PageDone} (hp : (s.rebuildPage p).1 = true) :
    (s.rebuildPage p).2.get PAR.RECON_READS = min (2 ^ PAR.RECON_READS.width - 1) (s.get PAR.RECON_READS + 1) := by
  obtain h | ⟨u, h, hu⟩ := s.rebuildPage_cases p
  · rw [h] at hp
    exact absurd hp Bool.false_ne_true
  · rw [h, hu.recons]
    exact s.get_inc_self _ 1

end State

end Sys2Proof.Machine

/-! PROOFS. Pages of flash as they come, or come late (R247, R253, R256, R260, R284 to R301): what is counted, what is taken from a
stripe, and what is handed on. -/

namespace Sys2Proof.Machine

-- One proof at a time: many at once outgrow the memory that the check gives.
set_option Elab.async false

/-! ## A page read, in three parts (R247, R249, R253) -/

/-- A page read counted (R247, R249). -/
def State.pageCounted (s : State) (p : PageDone) : State :=
  let c := dieChan p.die.toNat
  let read := (s.countBits p.die.toNat p.bits).inc (FCH.PAGE_READS c)
  let retried := if p.retried then (read.inc (FCH.READ_RETRIES c)).censusN 5 1 else read
  if p.uncorr then (retried.inc (FCH.CW_UNCORR c)).raise (FCH.page c) FCH.evCW_UNCORR_EVT else retried

/-- A page as it was read, or taken from its stripe where it must be (R253). -/
def State.pageRestored (s : State) (p : PageDone) : Bool × State :=
  if p.uncorr || !p.headerOk || s.dieOut p.die.toNat then s.rebuildPage p else (true, s)

/-- What a page read shows of its block: that it is due for refresh, and where its extent lies (R237, R247). -/
def State.pageShows (s : State) (p : PageDone) (ok : Bool) : State :=
  let judged := if p.retried || p.uncorr || s.get PTL.REFRESH_BITS < p.worst then s.refreshLb (p.extent / 6144) else s
  if ok && judged.headerTells p.extent then { judged with fl := { judged.fl with known := addTo judged.fl.known p.extent } }
  else judged

/-- Does a page that came through wait for its storage channel, its key or the key's mark (R288, R290, R297)? -/
def State.pageHeld (s : State) : Bool := s.chanWaits 8 || s.storeInst.isNone || s.keyWaits (s.get CPH.STORE_KEY)

namespace State

variable {s : State} {p : PageDone}

theorem pageTaken_eq (s : State) (p : PageDone) : s.pageTaken p =
    (((s.pageCounted p).pageRestored p).1,
      ((s.pageCounted p).pageRestored p).2.pageShows p ((s.pageCounted p).pageRestored p).1) := rfl

theorem pageCounted_read (s : State) (p : PageDone) : s.PagesRead (s.pageCounted p) := by
  unfold pageCounted
  extract_lets c read retried
  have hread : s.PagesRead read := ((PagesRead.refl s).countBits _ _).inc _
  have hretried : s.PagesRead retried := by
    simp only [retried]
    split
    · exact (hread.inc (g := FCH.READ_RETRIES c) 1).aside
    · exact hread
  split
  · exact (hretried.inc _).raise _ _
  · exact hretried

theorem pageCounted_dieOut (s : State) (p : PageDone) (d : Nat) : (s.pageCounted p).dieOut d = s.dieOut d := by
  have hraise : ∀ (v : State) q b, (v.raise q b).dieOut d = v.dieOut d := fun v q b => by
    simp only [dieOut, dieFailed, raise_par, raise_fl]
  unfold pageCounted
  extract_lets c read retried
  have hretried : retried.dieOut d = s.dieOut d := by
    simp only [retried]
    split <;> rfl
  split
  · exact (hraise _ _ _).trans hretried
  · exact hretried

/-- Every page read is counted by its channel. -/
theorem pageCounted_counts (s : State) (p : PageDone) : (s.pageCounted p).get (FCH.PAGE_READS (dieChan p.die.toNat)) =
    min (2 ^ (FCH.PAGE_READS (dieChan p.die.toNat)).width - 1) (s.get (FCH.PAGE_READS (dieChan p.die.toNat)) + 1) := by
  unfold pageCounted
  extract_lets c read retried
  have hread : read.get (FCH.PAGE_READS c) =
      min (2 ^ (FCH.PAGE_READS c).width - 1) (s.get (FCH.PAGE_READS c) + 1) := by
    have hbits : (s.countBits p.die.toNat p.bits).get (FCH.PAGE_READS c) = s.get (FCH.PAGE_READS c) :=
      s.get_inc_ne _ (Fld.key_ne_of_apart (g := FCH.CORR_BITS c))
    rw [get_inc_self, hbits]
  have hretried : retried.get (FCH.PAGE_READS c) = read.get (FCH.PAGE_READS c) := by
    simp only [retried]
    split
    · exact read.get_inc_ne _ (Fld.key_ne_of_apart (g := FCH.READ_RETRIES c))
    · rfl
  rw [← hread, ← hretried]
  split
  · rw [(mergeBlind_get (f := FCH.PAGE_READS c)).raise]
    exact retried.get_inc_ne _ (Fld.key_ne_of_apart (g := FCH.CW_UNCORR c))
  · rfl

theorem evt_pageCounted (h : p.uncorr = true) :
    (s.pageCounted p).evt (FCH.page (dieChan p.die.toNat)) FCH.evCW_UNCORR_EVT = true := by
  unfold pageCounted
  extract_lets c read retried
  rw [if_pos h]
  exact evt_raise_self _ _ _ (by decide)

theorem pageShows_read (s : State) (p : PageDone) (ok : Bool) : s.PagesRead (s.pageShows p ok) := by
  unfold pageShows
  extract_lets judged
  have hj : s.PagesRead judged := by
    simp only [judged]
    split
    · exact (PagesRead.refl s).refreshLb _
    · exact .refl s
  split
  · exact hj.aside
  · exact hj

/-- What a page shows is no page read. -/
theorem pageShows_pageReads (s : State) (p : PageDone) (ok : Bool) (c : Nat) :
    (s.pageShows p ok).get (FCH.PAGE_READS c) = s.get (FCH.PAGE_READS c) := by
  have hb := mergeBlind_get (f := FCH.PAGE_READS c)
  have hr : ∀ lb, (s.refreshLb lb).get (FCH.PAGE_READS c) = s.get (FCH.PAGE_READS c) := fun lb => by
    unfold refreshLb
    dsimp only
    split
    · rfl
    · exact (hb.startFull _ _ _).trans ((hb.raise _ _ _).trans
        ((get_inc_ne _ _ (Fld.key_ne_of_apart (g := PTL.REFRESHES))).trans (hb.fl _ _)))
  unfold pageShows
  extract_lets judged
  have hj : judged.get (FCH.PAGE_READS c) = s.get (FCH.PAGE_READS c) := by
    simp only [judged]
    split
    · exact hr _
    · rfl
  split <;> exact hj

/-- A page reads: without error, its header good, from a die in service (R253). -/
def pageReads (s : State) (p : PageDone) : Prop := p.uncorr = false ∧ p.headerOk = true ∧ s.dieOut p.die.toNat = false

theorem pageRestored_reads (h : s.pageReads p) : s.pageRestored p = (true, s) := by
  obtain ⟨hu, hh, hd⟩ := h
  exact if_neg (by simp [hu, hh, hd])

theorem pageRestored_rebuilt (h : ¬ s.pageReads p) : s.pageRestored p = s.rebuildPage p := by
  refine if_pos ?_
  by_contra hn
  simp only [Bool.or_eq_true, Bool.not_eq_true', not_or, Bool.not_eq_true, Bool.not_eq_false] at hn
  obtain ⟨⟨hu, hh⟩, hd⟩ := hn
  exact h ⟨hu, hh, hd⟩

theorem pageReads_counted : (s.pageCounted p).pageReads p ↔ s.pageReads p := by
  rw [pageReads, pageCounted_dieOut, pageReads]

/-! ## A page taken (R247, R253) -/

theorem pageRestored_net (s : State) (p : PageDone) : (s.pageRestored p).2.net = s.net := by
  unfold pageRestored
  split
  · exact s.rebuildPage_net p
  · rfl

theorem pageRestored_works (s : State) (p : PageDone) : s.Works memoryOnly (s.pageRestored p).2 := by
  unfold pageRestored
  split
  · exact s.rebuildPage_works p
  · exact .refl s

theorem pageTaken_net (s : State) (p : PageDone) : (s.pageTaken p).2.net = s.net := by
  rw [pageTaken_eq, (pageShows_read _ _ _).net, pageRestored_net, (pageCounted_read s p).net]

theorem pageTaken_works (s : State) (p : PageDone) : s.Works memoryOnly (s.pageTaken p).2 := by
  rw [pageTaken_eq]
  exact (pageCounted_read s p).toWorks.trans ((pageRestored_works _ _).trans (pageShows_read _ _ _).toWorks)

theorem pageTaken_reads (h : s.pageReads p) : (s.pageTaken p).1 = true ∧
    (s.pageTaken p).2.get (FCH.PAGE_READS (dieChan p.die.toNat)) =
      min (2 ^ (FCH.PAGE_READS (dieChan p.die.toNat)).width - 1) (s.get (FCH.PAGE_READS (dieChan p.die.toNat)) + 1) := by
  rw [pageTaken_eq, pageRestored_reads (pageReads_counted.2 h)]
  exact ⟨rfl, (pageShows_pageReads _ _ _ _).trans (pageCounted_counts s p)⟩

theorem pageTaken_rebuilt (h : ¬ s.pageReads p) (hp : (s.pageTaken p).1 = true) :
    (s.pageTaken p).2.get PAR.RECON_READS = min (2 ^ PAR.RECON_READS.width - 1) (s.get PAR.RECON_READS + 1) := by
  rw [pageTaken_eq, pageRestored_rebuilt (mt pageReads_counted.1 h)] at hp ⊢
  rw [(pageShows_read _ _ _).recons, rebuildPage_counts hp, (pageCounted_read s p).recons]

theorem evt_pageTaken (h : p.uncorr = true) :
    (s.pageTaken p).2.evt (FCH.page (dieChan p.die.toNat)) FCH.evCW_UNCORR_EVT = true := by
  rw [pageTaken_eq]
  exact ((pageRestored_works _ _).trans (pageShows_read _ _ _).toWorks).evt (by decide) (evt_pageCounted h)

/-! ## What becomes of it (R256, R260, R297, R301) -/

theorem pageHeld_iff : s.pageHeld = true ↔
    s.chanWaits 8 = true ∨ s.storeInst = none ∨ s.keyWaits (s.get CPH.STORE_KEY) = true := by
  simp only [pageHeld, Bool.or_eq_true, Option.isNone_iff_eq_none, or_assoc]

theorem finishPage_lost (s : State) (p : PageDone) : s.finishPage p false =
    (s.loseSectors p.extent (15 * 16 ^ p.page.val)).deliverPage p.extent p.page.val .lost := rfl

theorem finishPage_held (h : s.pageHeld = true) :
    s.finishPage p true = { s with key := { s.key with haltPages := s.key.haltPages ++ [p] } } := if_pos h

theorem finishPage_good (h : s.pageHeld = false) (ha : s.pageAuth p = true) :
    s.finishPage p true = (s.pageMsg p).deliverPage p.extent p.page.val .good :=
  (if_neg (Bool.eq_false_iff.1 h)).trans (if_pos ha)

theorem finishPage_unauth (h : s.pageHeld = false) (ha : s.pageAuth p = false) : s.finishPage p true =
    (((s.pageMsg p).inc CPH.STORE_AUTH_FAIL).raise CPH.page CPH.evSTORE_AUTH_FAIL_EVT).deliverPage p.extent p.page.val .unauth :=
  (if_neg (Bool.eq_false_iff.1 h)).trans (if_neg (Bool.eq_false_iff.1 ha))

theorem pageRead_wanted (h : s.pageWanted p.extent p.page.val = true) :
    s.pageRead p = (s.pageTaken p).2.finishPage p (s.pageTaken p).1 := if_pos h

section
variable (hw : s.pageWanted p.extent p.page.val = false)
include hw

theorem pageRead_passes (h : (s.pageTaken p).1 = true) : s.pageRead p =
    (((s.pageTaken p).2.pageEnded (4 * p.extent + p.page.val)).pageMsg p).examine.runReads :=
  (if_neg (Bool.eq_false_iff.1 hw)).trans (if_pos h)

theorem pageRead_loses (h : (s.pageTaken p).1 = false) : s.pageRead p =
    ((s.pageTaken p).2.pageEnded (4 * p.extent + p.page.val)).loseSectors p.extent (15 * 16 ^ p.page.val) :=
  (if_neg (Bool.eq_false_iff.1 hw)).trans (if_neg (Bool.eq_false_iff.1 h))

end

theorem reconAt_stays (h : s.pageWanted p.extent p.page.val = false ∨ 2 ≤ s.othersMissing p) : s.reconAt p = s :=
  if_pos (by simpa using h)

theorem reconAt_rebuilds (hw : s.pageWanted p.extent p.page.val = true) (hm : s.othersMissing p < 2) :
    s.reconAt p = (s.rebuildPage p).2.finishPage p (s.rebuildPage p).1 := if_neg (by simp [hw, hm])

/-! ## The commands -/

theorem gives_pageReadDone (hd : s.dpUp = true) {u : State} (h : (s.at p.time).pageRead p = u) : s.gives (.pageReadDone p) u := by
  rw [← h]
  exact gives_whenDp (fun v => (v.at p.time).pageRead p) hd rfl

theorem gives_reconAt (hd : s.dpUp = true) {u : State} (h : (s.at p.time).reconAt p = u) : s.gives (.reconAt p) u := by
  rw [← h]
  exact gives_whenDp (fun v => (v.at p.time).reconAt p) hd rfl

end State

/-- Settles O47: a page by whether it reads, whether something waits for it, and whether it can be handed on. One that waits for an
absent storage key is log entry 35; a late one with two other members missing is log entry 34. -/
theorem flashPagesDelivered : Obligations.FlashPagesDelivered := by
  unfold Obligations.FlashPagesDelivered
  intro s p hdp c k wanted reads v waits
  refine ⟨State.pageTaken_reads (s := s.at p.time), State.pageTaken_rebuilt (s := s.at p.time),
    State.evt_pageTaken (s := s.at p.time), State.pageTaken_net _ p, (State.pageTaken_works (s.at p.time) p).sameMemory,
    fun hw hv => State.gives_pageReadDone hdp (State.pageRead_passes hw hv),
    fun hw hv => State.gives_pageReadDone hdp (State.pageRead_loses hw hv),
    fun hw => State.gives_pageReadDone hdp (State.pageRead_wanted hw),
    fun u => ⟨State.finishPage_lost u p, fun h => State.finishPage_held (State.pageHeld_iff.2 h),
      fun h => State.finishPage_good (Bool.eq_false_iff.2 (mt State.pageHeld_iff.1 h)),
      fun h => State.finishPage_unauth (Bool.eq_false_iff.2 (mt State.pageHeld_iff.1 h))⟩,
    fun h => State.gives_reconAt hdp (State.reconAt_stays h),
    fun hw hm => ⟨State.gives_reconAt hdp (State.reconAt_rebuilds hw hm), State.rebuildPage_net _ p,
      (State.rebuildPage_works (s.at p.time) p).sameMemory, State.rebuildPage_counts (s := s.at p.time)⟩⟩

end Sys2Proof.Machine

/-! PROOFS. Dies that time out, fail and are cleared, and a reshape begun (R256 to R258, R267, R268). -/

namespace Sys2Proof.Machine

-- One proof at a time: many at once outgrow the memory that the check gives.
set_option Elab.async false

/-! ## A die declared failed (R257, R259) -/

/-- `t` is `s` but for background work that follows a die's failure: it left the failed-die list, and a figure that is due. -/
structure State.Rebuilds (s t : State) : Prop extends s.Works memoryOnly t where
  failed : t.par.failed = s.par.failed
  refigure : s.q.refigure = true → t.q.refigure = true

theorem mergeBlind_par_failed : MergeBlind fun s => s.par.failed :=
  ⟨fun _ _ => rfl, fun _ _ _ _ => rfl, fun _ _ _ => rfl, fun s q b => by rw [s.raise_par]⟩

theorem mergeBlind_q : MergeBlind State.q := ⟨fun _ _ => rfl, fun _ _ _ _ => rfl, fun _ _ _ => rfl, State.raise_q⟩

/-- A die added to the failed-die list (R257). -/
def State.dieListed (s : State) (d : Nat) : State :=
  { s with
    par := { s.par with failed := s.par.failed ++ [d], cleared := s.par.cleared.filter (· != d)
                        maDegraded := s.par.maDegraded || s.fl.maRows.any (·.contains d) }
    q := { s.q with refigure := true } }

/-- The rebuild that a failed die begins or extends, where `was` logical blocks were left before (R259). -/
def State.rebuildFor (s : State) (was : Nat) : State :=
  if !s.rebuilding then s.checkRebuild
  else (if was < s.rebuildSet.length then s.rebuildLine else s).checkRebuild.stepRebuild

namespace State.Rebuilds

variable {s t : State}

theorem refl (s : State) : s.Rebuilds s := ⟨.refl s, rfl, id⟩

section
variable (h : s.Rebuilds t)
include h

theorem layoutAppend (r : LayoutRec) : s.Rebuilds (t.layoutAppend r) :=
  ⟨h.toWorks.layoutAppend r, by rw [unnoted_par.layoutAppend, h.failed], fun hq => by
    rw [unnoted_q.layoutAppend]
    exact h.refigure hq⟩

theorem setb {g : Fld} (i : Nat) (b : Bool) (hg : g.noEvent = true := by rfl) : s.Rebuilds (t.setb g i b) :=
  ⟨h.toWorks.put _ hg, h.failed, h.refigure⟩

theorem raise (p b : Nat) : s.Rebuilds (t.raise p b) :=
  ⟨h.toWorks.raise p b, by rw [raise_par, h.failed], fun hq => by
    rw [raise_q]
    exact h.refigure hq⟩

theorem census (code idx : Nat) : s.Rebuilds (t.census code idx) :=
  ⟨h.toWorks.census code idx, by rw [unnoted_par.census, h.failed], fun hq => by
    rw [unnoted_q.census]
    exact h.refigure hq⟩

theorem startFull (lb : Nat) (fold : Bool) : s.Rebuilds (t.startFull lb fold) :=
  ⟨h.toWorks.startFull lb fold, (mergeBlind_par_failed.startFull t lb fold).trans h.failed, fun hq => by
    rw [mergeBlind_q.startFull]
    exact h.refigure hq⟩

theorem rebuildLine : s.Rebuilds t.rebuildLine :=
  raise (t := { t with par := { t.par with rebuildStart := t.now, rebuildFrom := t.rebuildSet.length } })
    ⟨h.toWorks.aside, h.failed, h.refigure⟩ _ _

theorem checkRebuild : s.Rebuilds t.checkRebuild := by
  unfold State.checkRebuild
  extract_lets n was tables left
  split
  · exact raise (t := { left with q := { left.q with refigure := true } }) ⟨h.toWorks.aside, h.failed, fun _ => rfl⟩ _ _
  · exact ⟨h.toWorks.aside, h.failed, h.refigure⟩

theorem stepRebuild : s.Rebuilds t.stepRebuild := by
  unfold State.stepRebuild
  split
  · split
    · exact h.startFull _ _
    · exact h
  · exact h

theorem rebuildFor (was : Nat) : s.Rebuilds (t.rebuildFor was) := by
  unfold State.rebuildFor
  split
  · exact h.checkRebuild
  · split
    · exact h.rebuildLine.checkRebuild.stepRebuild
    · exact h.checkRebuild.stepRebuild

end

end State.Rebuilds

namespace State

variable {s : State} {d : Nat}

theorem failDie_eq (h : s.dieFailed d = false) : s.failDie d =
    (((((s.dieListed d).layoutAppend (.failed d)).setb (FCH.DIE_FAILED (dieChan d)) (d % 16) true).raise PAR.page
      PAR.evDIE_FAILED_EVT).census 12 (d % 256)).rebuildFor s.rebuildSet.length := if_neg (Bool.eq_false_iff.1 h)

theorem failDie_rebuilds (h : s.dieFailed d = false) : (s.dieListed d).Rebuilds (s.failDie d) := by
  rw [failDie_eq h]
  exact (((((Rebuilds.refl _).layoutAppend _).setb _ _).raise _ _).census _ _).rebuildFor _

theorem evt_failDie (h : s.dieFailed d = false) : (s.failDie d).evt PAR.page PAR.evDIE_FAILED_EVT = true := by
  rw [failDie_eq h]
  exact (((Rebuilds.refl _).census _ _).rebuildFor _).evt (by decide) (evt_raise_self _ _ _ (by decide))

theorem failDie_dieFailed (h : s.dieFailed d = false) : (s.failDie d).dieFailed d = true := by
  rw [dieFailed, (failDie_rebuilds h).failed]
  simp [dieListed]

theorem failDie_sameMemory (h : s.dieFailed d = false) : s.sameMemory (s.failDie d) :=
  (failDie_rebuilds h).sameMemory

/-! ## A read timeout (R256) -/

/-- A read timeout counted and raised. -/
def timeoutCounted (s : State) : State := (s.inc PAR.TIMEOUTS).raise PAR.page PAR.evTIMEOUT_EVT

/-- The timeouts of a die within one second, one now among them. -/
def timeoutsNow (s : State) (d : Nat) : List Nat :=
  (s.now :: mgetD s.par.timeouts d []).filter fun t => s.now ≤ t + secCycles

/-- A timeout of a die noted; the third within one second declares it failed. -/
def timeoutNoted (s : State) (d : Nat) : State :=
  let noted := { s with par := { s.par with timeouts := mput s.par.timeouts d (s.timeoutsNow d) } }
  if 3 ≤ (s.timeoutsNow d).length then (noted.failDie d).manageTiers else noted

theorem timeoutCounted_pageWanted (s : State) (e pg : Nat) : s.timeoutCounted.pageWanted e pg = s.pageWanted e pg := by
  simp only [pageWanted, promoting, extent, timeoutCounted, raise_net, raise_tier]
  rfl

theorem timeoutCounted_counts (s : State) :
    s.timeoutCounted.get PAR.TIMEOUTS = min (2 ^ PAR.TIMEOUTS.width - 1) (s.get PAR.TIMEOUTS + 1) :=
  ((mergeBlind_get (f := PAR.TIMEOUTS)).raise _ _ _).trans (s.get_inc_self _ 1)

theorem readTimeout_unwanted {p : PageDone} (h : s.pageWanted p.extent p.page.val = false) : s.readTimeout p =
    (s.timeoutCounted.pageEnded (4 * p.extent + p.page.val)).timeoutNoted p.die.toNat := by
  rw [← timeoutCounted_pageWanted] at h
  exact congrArg (timeoutNoted · p.die.toNat) (if_neg (Bool.eq_false_iff.1 h))

theorem readTimeout_wanted {p : PageDone} (h : s.pageWanted p.extent p.page.val = true) : s.readTimeout p =
    ((s.timeoutCounted.rebuildPage p).2.finishPage p (s.timeoutCounted.rebuildPage p).1).timeoutNoted p.die.toNat := by
  rw [← timeoutCounted_pageWanted] at h
  exact congrArg (timeoutNoted · p.die.toNat) (if_pos h)

theorem gives_readTimeout (hd : s.dpUp = true) (time : Nat) (late : LateRead) :
    s.gives (.readTimeout time late) ((s.at time).readTimeout (late.at time)) :=
  gives_whenDp (fun v => (v.at time).readTimeout (late.at time)) hd rfl

/-! ## A die taken off the list (R258) -/

/-- A die off the failed-die list, with the erase counts of its blocks as their headers tell them. -/
def dieUnlisted (s : State) (d : Nat) (a : ClearAnswer) : State :=
  { s with
    par := { s.par with failed := s.par.failed.filter (· != d), cleared := addTo s.par.cleared d }
    fl := { s.fl with
      odd := s.fl.odd.filter (· != d)
      erases := a.erases.foldl (fun m (e : Nat × Nat) => if e.1 < dieBlocks then mset 0 m (devBlock d e.1) e.2 else m)
        (s.fl.erases.filter fun e => e.1 / dieBlocks != d) } }

/-- The registers of its channel after it: not failed, and present. -/
def dieShown (s : State) (d : Nat) : State :=
  ((s.setb (FCH.DIE_FAILED (dieChan d)) (d % 16) false).setb (FCH.DIE_PRESENT (dieChan d)) (d % 16) true).raise PAR.page
    PAR.evDIE_CLEARED

theorem clearDie_rejected {a : ClearAnswer}
    (h : s.dieFailed d = false ∨ s.rebuilding = true ∨ s.par.reshaping = true ∨ a.ok = false) :
    s.clearDie d a = s.reshapeReject := by
  refine if_pos ?_
  rcases h with h | h | h | h <;> simp [h]

theorem clearDie_cleared {a : ClearAnswer} (hf : s.dieFailed d = true) (hb : s.rebuilding = false)
    (hr : s.par.reshaping = false) (ha : a.ok = true) :
    s.clearDie d a = ((s.dieUnlisted d a).layoutAppend (.cleared d)).dieShown d := if_neg (by simp [hf, hb, hr, ha])

theorem dieUnlisted_dieFailed (s : State) (d : Nat) (a : ClearAnswer) : (s.dieUnlisted d a).dieFailed d = false := by
  simp [dieFailed, dieUnlisted]

theorem dieShown_present (s : State) (d : Nat) :
    bitOf ((s.dieShown d).get (FCH.DIE_PRESENT (dieChan d))) (d % 16) = true := by
  have hbit : bitOf (((s.setb (FCH.DIE_FAILED (dieChan d)) (d % 16) false).setb (FCH.DIE_PRESENT (dieChan d)) (d % 16)
      true).get (FCH.DIE_PRESENT (dieChan d))) (d % 16) = true := by
    rw [setb, get_put_self, show (FCH.DIE_PRESENT (dieChan d)).width = 16 from rfl, bitOf_mod (Nat.mod_lt d (by decide))]
    exact bitOf_setBit_self _ _
  rw [dieShown, (mergeBlind_get (f := FCH.DIE_PRESENT (dieChan d))).raise]
  exact hbit

/-- What sending and judging may write is another register: in another place of its page, or in a page before the flash channels'. -/
theorem get_settled_diePresent (s t : State) (c : Nat) :
    (s.settled t).get (FCH.DIE_PRESENT c) = t.get (FCH.DIE_PRESENT c) := by
  refine s.get_settled t fun g hg => ?_
  have hg' : (FCH.DIE_PRESENT 0).apart g = true ∨ g.placed = true ∧ g.page < 0x60 := by
    revert g
    decide
  rcases hg' with ha | ⟨hp, hlow⟩
  · exact Fld.key_ne_of_apart ha
  · exact Fld.key_ne_of_place rfl hp (.inl (by dsimp only [FCH.DIE_PRESENT]; omega))

theorem cleared_shown (s : State) (d : Nat) (a : ClearAnswer) (v : State) :
    let t := v.settled (((s.dieUnlisted d a).layoutAppend (.cleared d)).dieShown d)
    t.dieFailed d = false ∧ bitOf (t.get (FCH.DIE_PRESENT (dieChan d))) (d % 16) = true ∧
      t.evt PAR.page PAR.evDIE_CLEARED = true ∧ s.sameMemory t := by
  have hw : s.Works memoryOnly (((s.dieUnlisted d a).layoutAppend (.cleared d)).dieShown d) :=
    ((((((Works.refl s).aside (u := s.dieUnlisted d a)).layoutAppend _).put _).put _).raise _ _)
  refine ⟨?_, ?_, evt_settled (evt_raise_self _ _ _ (by decide)) (by decide) _, fun b => ?_⟩
  · rw [dieFailed, settled_par, dieShown, raise_par]
    exact (congrArg (fun x => x.failed.contains d) (unnoted_par.layoutAppend _ _)).trans (s.dieUnlisted_dieFailed d a)
  · rw [get_settled_diePresent, dieShown_present]
  · rw [settled_mem, hw.memory]

/-! ## A reshape begun (R267, R268) -/

/-- The layout table with the rows of a reshape behind the rows of now, its walk at logical block 0. -/
def reshapeRows (s : State) (dies : List Nat) (spread : Nat) : State :=
  let base := ((s.par.rows.map (·.1)).map (· + 1)).foldl max 0
  let new := layoutRows dies spread
  let rows := (List.range new.length).foldl (fun m i => mput m (base + i) (new.getD i [])) s.par.rows
  { s with par := { s.par with
    rows := rows, oldRows := s.par.rows.map (·.1), cleared := s.par.cleared.filter fun d => !dies.contains d, reshaping := true
    reshapeLb := 0, mergedBytes := 0, checkpoint := 0, stall := false } }

/-- A reshape begun, its table noted. -/
def reshapeBegun (s : State) (dies : List Nat) (spread : Nat) : State :=
  (s.reshapeRows dies spread).layoutAppend
    (.table (((s.par.rows.map (·.1)).map (· + 1)).foldl max 0) (layoutRows dies spread))

section
variable {dies : List Nat}

theorem beginReshape_rejected (h : s.reshapeOk dies = false) (spread : Nat) : s.beginReshape dies spread = s.reshapeReject :=
  if_pos (by simp [h])

theorem beginReshape_begins (h : s.reshapeOk dies = true) (spread : Nat) :
    s.beginReshape dies spread = (s.reshapeBegun dies spread).stepReshape.manageTiers := if_neg (by simp [h])

end

theorem reshapeBegun_par (s : State) (dies : List Nat) (spread : Nat) :
    (s.reshapeBegun dies spread).par = (s.reshapeRows dies spread).par := unnoted_par.layoutAppend _ _

theorem reshapeBegun_sameMemory (s : State) (dies : List Nat) (spread : Nat) : s.sameMemory (s.reshapeBegun dies spread) :=
  (((Works.refl s).aside (u := s.reshapeRows dies spread)).layoutAppend (k := memoryOnly) _).sameMemory

theorem reshapeSpread_rejected {spread : Nat} (h : spread < 8 ∨ 64 < spread ∨ s.reshapeOk s.servingDies = false) :
    s.reshapeSpread spread = s.reshapeReject := by
  unfold reshapeSpread
  split
  · rfl
  · next hr =>
    simp only [Bool.or_eq_true, decide_eq_true_eq, not_or] at hr
    obtain ⟨hlow, hhigh⟩ := hr
    exact beginReshape_rejected ((h.resolve_left hlow).resolve_left hhigh) spread

theorem reshapeSpread_inRange {spread : Nat} (hlow : 8 ≤ spread) (hhigh : spread ≤ 64) :
    s.reshapeSpread spread = s.beginReshape s.servingDies spread := if_neg (by simp [hlow, hhigh])

/-! ## The register writes -/

section
variable {path : Path}

theorem gives_clearDie (h : s.canWrite path PAR.CLEAR_GO = true) (die : BitVec 10) (a : ClearAnswer) :
    s.gives (.clearDie path die a) (s.clearDie die.toNat a) :=
  gives_regRun (f := PAR.CLEAR_GO) (act := fun v => v.clearDie die.toNat a) h rfl

theorem gives_reshapeAdd (h : s.canWrite path PAR.START = true) : s.gives (.reshapeAdd path) s.reshapeAdd :=
  gives_regRun (f := PAR.START) (act := State.reshapeAdd) h rfl

theorem gives_reshapeSpread (h : s.canWrite path PAR.START = true) (spread : BitVec 7) :
    s.gives (.reshapeSpread path spread) (s.reshapeSpread spread.toNat) :=
  gives_regRun (f := PAR.START) (act := fun v => v.reshapeSpread spread.toNat) h rfl

end

end State

/-- Settles O48: a timeout by whether its page is wanted, CLEAR_GO and a reshape by whether they are taken. A SPREAD out of range is
log entry 33. -/
theorem diesAndReshape : Obligations.DiesAndReshape := by
  unfold Obligations.DiesAndReshape
  refine ⟨fun s time late hdp => ?timeouts, fun s die path a hw => ⟨fun h => ?kept, fun hf hb hr ha => ?cleared⟩,
    fun s path hw => ?reshape⟩
  case timeouts =>
    intro p d v ends
    have hg := State.gives_readTimeout hdp time late
    refine ⟨fun h => ⟨_, ?_, rfl⟩, fun h => ⟨_, ?_, rfl⟩, (s.at time).timeoutCounted_counts,
      State.evt_raise_self _ _ _ (by decide), fun w h => ⟨State.failDie_dieFailed h, State.evt_failDie h,
        (State.failDie_rebuilds h).refigure rfl, State.failDie_sameMemory h⟩⟩
    · rwa [State.readTimeout_unwanted (s := s.at time) h] at hg
    · rwa [State.readTimeout_wanted (s := s.at time) h] at hg
  case kept =>
    have hg := State.gives_clearDie hw die a
    rwa [State.clearDie_rejected h] at hg
  case cleared =>
    have hg := State.gives_clearDie hw die a
    rw [State.clearDie_cleared hf hb hr ha] at hg
    exact hg.answers (s.cleared_shown die.toNat a s)
  case reshape =>
    intro begins
    have begun {c : Instr} {dies : List Nat} {spread : Nat}
        (hg : s.gives c (s.reshapeBegun dies spread).stepReshape.manageTiers) : begins c dies spread := by
      refine ⟨_, hg, ?_⟩
      rw [s.reshapeBegun_par]
      exact ⟨rfl, rfl, rfl, rfl, s.reshapeBegun_sameMemory dies spread⟩
    refine ⟨fun h => ?addNot, fun h => begun ?add, fun spread => ⟨fun h => ?spreadNot, fun hlow hhigh h => begun ?spreadTo⟩⟩
    case addNot =>
      have hg := State.gives_reshapeAdd hw
      rwa [State.reshapeAdd, State.beginReshape_rejected h] at hg
    case add =>
      have hg := State.gives_reshapeAdd hw
      rwa [State.reshapeAdd, State.beginReshape_begins h] at hg
    case spreadNot =>
      have hg := State.gives_reshapeSpread hw spread
      rwa [State.reshapeSpread_rejected h] at hg
    case spreadTo =>
      have hg := State.gives_reshapeSpread hw spread
      rwa [State.reshapeSpread_inRange hlow hhigh, State.beginReshape_begins h] at hg

end Sys2Proof.Machine

/-! PROOFS. The key registers: KS_FORMAT, STORE_KEY and KEY_INST (R271, R288, R290, R296). -/

namespace Sys2Proof.Machine

-- One proof at a time: many at once outgrow the memory that the check gives.
set_option Elab.async false

namespace State

variable {s : State} {path : Path}

/-! ## Settled -/

@[simp] theorem settled_records (s t : State) : (s.settled t).key.records = t.key.records := by
  simpa only using congrArg KeySt.records (s.settled_sameKeys t)

@[simp] theorem settled_marks (s t : State) : (s.settled t).key.marks = t.key.marks := by
  simpa only using congrArg KeySt.marks (s.settled_sameKeys t)

@[simp] theorem settled_keyInsts (s t : State) : (s.settled t).key.inst = t.key.inst := by
  simpa only using congrArg KeySt.inst (s.settled_sameKeys t)

@[simp] theorem settled_storeKeyNor (s t : State) : (s.settled t).key.storeKeyNor = t.key.storeKeyNor := by
  simpa only using congrArg KeySt.storeKeyNor (s.settled_sameKeys t)

@[simp] theorem settled_jrn (s t : State) (j : Nat) : (s.settled t).jrn j = t.jrn j := by
  simp only [State.jrn, settled_acc]

/-! ## KS_FORMAT (R288, R290) -/

/-- The erase of the blob records and marks touches no memory. -/
theorem formatKeys_mem (s : State) : s.formatKeys.mem = s.mem := unnoted_mem.devNor s _

theorem ksFormat_rejected (h : ∃ e ∈ s.key.inst, s.keyInUse e.1 = true) :
    s.ksFormat = s.raise KST.page KST.evFORMAT_REJECT := by
  rw [ksFormat, if_pos (by simpa using h)]

/-- While no instance is in use, KS_FORMAT is carried out as soon as bank 2 is free. -/
theorem ksFormat_unused (h : ∀ e ∈ s.key.inst, s.keyInUse e.1 = false) :
    s.ksFormat = if s.norBusy 2 then { s with key := { s.key with heldFormat := true } } else s.formatKeys := by
  rw [ksFormat, if_neg (by simpa using h)]

theorem gives_ksFormat (h : s.canWrite path KST.KS_FORMAT = true) : s.gives (.ksFormat path) s.ksFormat :=
  gives_regRun (f := KST.KS_FORMAT) (act := State.ksFormat) h rfl

/-! ## STORE_KEY (R296) -/

theorem writeStoreKey_rejected (h : s.mus.state ≠ .unready) (v : Nat) :
    s.writeStoreKey v = s.raise CPH.page CPH.evSTORE_KEY_REJECT := by
  rw [writeStoreKey, if_pos (by simpa using h)]

/-- In UNREADY the register and its word of NOR bank 2 take the value; ARMED may be entered, and nothing else changes. -/
theorem writeStoreKey_taken (h : s.mus.state = .unready) (v : Nat) :
    ∃ m, s.writeStoreKey v = { s.put CPH.STORE_KEY v with key := { s.key with storeKeyNor := v }, mus := m } := by
  rw [writeStoreKey, if_neg (by simp [h])]
  obtain ⟨a, -, ha⟩ := checkArmed_eq { s.put CPH.STORE_KEY v with key := { s.key with storeKeyNor := v } }
  exact ⟨_, ha⟩

theorem gives_storeKey (h : s.canWrite path CPH.STORE_KEY = true) (v : Word) :
    s.gives (.storeKey path v) (s.writeStoreKey v.toNat) :=
  gives_regRun (f := CPH.STORE_KEY) (act := fun u => u.writeStoreKey v.toNat) h rfl

/-! ## KEY_INST (R271) -/

/-- Does a journal other than `j` name instance `v`? -/
def keyElsewhere (s : State) (j v : Nat) : Prop := v ≠ 0 ∧ ∃ e ∈ s.acc.jrn, e.1 ≠ j ∧ e.2.keyInst = v

theorem writeKeyInst_rejected {v : Nat}
    (h : (s.jrn (s.get ACC.JRN_SEL)).window.isSome = true ∨ s.keyElsewhere (s.get ACC.JRN_SEL) v) :
    s.writeKeyInst v = s.raise ACC.page ACC.evKEY_REJECT := by
  rw [writeKeyInst]
  exact if_pos (by simpa [keyElsewhere] using h)

theorem writeKeyInst_taken {v : Nat} (hw : (s.jrn (s.get ACC.JRN_SEL)).window = none)
    (hk : ¬ s.keyElsewhere (s.get ACC.JRN_SEL) v) :
    s.writeKeyInst v = s.setJrn (s.get ACC.JRN_SEL) { s.jrn (s.get ACC.JRN_SEL) with keyInst := v } := by
  rw [writeKeyInst]
  exact if_neg (by simpa [keyElsewhere, hw] using hk)

@[simp] theorem jrn_setJrn (s : State) (j : Nat) (x : Journal) : (s.setJrn j x).jrn j = x := mgetD_mset_self _ _ _ _

theorem gives_keyInst (h : s.canWrite path ACC.KEY_INST = true) (v : Word) :
    s.gives (.keyInst path v) (s.writeKeyInst v.toNat) :=
  gives_regRun (f := ACC.KEY_INST) (act := fun u => u.writeKeyInst v.toNat) h rfl

end State

/-! ## The statement -/

/-- Settles O57: each register by whether its write is taken. -/
theorem keyRegisters : Obligations.KeyRegisters := by
  unfold Obligations.KeyRegisters
  refine fun s path => ⟨fun hw => ⟨fun h => ?formatNot, fun h hb => ?formatWaits, fun h hb => ?formatted⟩,
    fun v hw => ⟨fun h => ?storeNot, fun h => ?stored⟩, fun v hw => ⟨fun h => ?instNot, fun hn hk => ?named⟩⟩
  case formatNot =>
    have hg := State.gives_ksFormat hw
    rwa [State.ksFormat_rejected h] at hg
  case formatWaits =>
    have hg := State.gives_ksFormat hw
    rwa [State.ksFormat_unused h, if_pos hb] at hg
  case formatted =>
    have hg := State.gives_ksFormat hw
    rw [State.ksFormat_unused h, hb, if_neg Bool.false_ne_true] at hg
    refine hg.answers ⟨?_, ?_, ?_, State.sameMemory_settled s.formatKeys_mem s⟩
    · exact s.settled_records s.formatKeys
    · exact s.settled_marks s.formatKeys
    · exact s.settled_keyInsts s.formatKeys
  case storeNot =>
    have hg := State.gives_storeKey hw v
    rwa [State.writeStoreKey_rejected h] at hg
  case stored =>
    have hg := State.gives_storeKey hw v
    obtain ⟨m, hm⟩ := State.writeStoreKey_taken h v.toNat
    rw [hm] at hg
    have hfits : v.toNat % 2 ^ CPH.STORE_KEY.width = v.toNat := Nat.mod_eq_of_lt v.isLt
    refine hg.answers ⟨?_, s.settled_storeKeyNor _, State.sameMemory_settled (by rfl) s⟩
    rw [State.get_settled_standing s _ rfl (by decide)]
    exact (s.get_put_self CPH.STORE_KEY v.toNat).trans hfits
  case instNot =>
    have hg := State.gives_keyInst hw v
    have hz : v ≠ 0 → v.toNat ≠ 0 := fun hv he => hv (BitVec.eq_of_toNat_eq he)
    rwa [State.writeKeyInst_rejected (h.imp_right fun ⟨hv, he⟩ => ⟨hz hv, he⟩)] at hg
  case named =>
    have hg := State.gives_keyInst hw v
    have hfree : ¬ s.keyElsewhere (s.get ACC.JRN_SEL) v.toNat := by
      rintro ⟨hv, e, he, hj, hi⟩
      rcases hk with rfl | hk
      · exact hv rfl
      · exact (hk e he).elim hj fun hne => hne hi
    rw [State.writeKeyInst_taken hn hfree] at hg
    refine hg.answers ⟨?_, State.sameMemory_settled (by rfl) s⟩
    rw [State.settled_jrn, State.jrn_setJrn]

end Sys2Proof.Machine

/-! PROOFS. The machine's step and its queue, the JTAG port, and writes of the page header. -/

namespace Sys2Proof.Machine

-- One proof at a time: many at once outgrow the memory that the check gives.
set_option Elab.async false

/-! ## The step -/

/-- Settles O1: a step with a command waiting is that command's meaning. -/
theorem stepTakesFrontCommand : Obligations.StepTakesFrontCommand := fun _ _ _ => rfl

/-- Settles O2: an idle step by the step's own case, and no command touches the queue because what it leaves is the state as it
was, or a settled effect, which puts the queue back. -/
theorem idlesAndKeepsTheQueue : Obligations.IdlesAndKeepsTheQueue := by
  refine ⟨fun s h => by rw [step, h], fun c s t h => ?_⟩
  obtain rfl | ⟨u, rfl⟩ := exec_leaves c s t h
  · rfl
  · exact s.settled_pending u

/-! ## The JTAG port (R387, R389, R390) -/

/-- A command of the supervisor, while VSUP holds, gives its effect. -/
theorem State.gives_whenSup {s : State} {c : Instr} (f : State → State) (h : s.pwr.vsupOk = true)
    (hc : exec c s = .next (s.whenSup f)) : s.gives c (f s) := by
  rw [State.gives, hc, State.whenSup_up h]

/-- The number below 2^n whose bit i is `p i`. -/
def bitSum (n : Nat) (p : Nat → Bool) : Nat := ((List.range n).filter p).foldl (fun a i => a + 2 ^ i) 0

theorem bitSum_succ (n : Nat) (p : Nat → Bool) : bitSum (n + 1) p = bitSum n p + if p n then 2 ^ n else 0 := by
  cases hp : p n <;> simp [bitSum, List.range_succ, List.filter_append, List.foldl_append, hp]

theorem bitSum_lt (n : Nat) (p : Nat → Bool) : bitSum n p < 2 ^ n := by
  induction n with
  | zero => simp [bitSum]
  | succ n ih =>
    rw [bitSum_succ, Nat.pow_succ]
    split <;> omega

theorem bitOf_bitSum {n i : Nat} (p : Nat → Bool) (h : i < n) : bitOf (bitSum n p) i = p i := by
  induction n with
  | zero => omega
  | succ n ih =>
    have hlt := bitSum_lt n p
    rw [bitSum_succ, bitOf_eq_testBit]
    by_cases hi : i = n
    · subst hi
      cases hp : p i
      · simpa using Nat.testBit_lt_two_pow hlt
      · simp [Nat.add_comm _ (2 ^ i), Nat.testBit_two_pow_add_eq, Nat.testBit_lt_two_pow hlt]
    · have hin : i < n := by omega
      have ih' := ih hin
      rw [bitOf_eq_testBit] at ih'
      cases hp : p n
      · simpa using ih'
      · simpa [Nat.add_comm _ (2 ^ n), Nat.testBit_two_pow_add_gt hin] using ih'

/-- A chain of no assigned number has no bits. -/
theorem chainLen_unassigned {c : Nat} (h : c < 4 ∨ (0xE1 < c ∧ c < 0xF0) ∨ 0xF3 < c) : chainLen c = 0 := by
  rw [chainLen, if_neg]
  simp only [Bool.or_eq_true, Bool.and_eq_true, decide_eq_true_eq]
  omega

/-- A chain of the scan wrapper has the length that the implementer gives it. -/
theorem chainLen_wrapper {c : Nat} (h : 0xF0 ≤ c ∧ c ≤ 0xF3) : chainLen c = Config.chainLength c := by
  simp [chainLen, h]

/-- SCAN_READ outside Vitrine, or of a chain without bits, shifts out zeros. -/
theorem State.scanOut_zero {s : State} (h : s.vit.frozen = false ∨ chainLen s.vit.chain = 0) (n : Nat) : s.scanOut n = 0 := by
  rw [State.scanOut, if_pos]
  rcases h with h | h <;> simp [h]

/-- SCAN_READ in Vitrine recirculates the chain. -/
theorem State.bitOf_scanOut {s : State} (h : s.vit.frozen = true) {n i : Nat} (hi : i < n) :
    bitOf (s.scanOut n) i = (decide (chainLen s.vit.chain ≠ 0) &&
      bitOf (Config.chainContent (s.get VIT.ENTRIES) s.vit.chain) (i % chainLen s.vit.chain)) := by
  by_cases hl : chainLen s.vit.chain = 0
  · rw [s.scanOut_zero (.inr hl)]
    simp [hl, bitOf]
  · have he : s.scanOut n = bitSum n fun i =>
        bitOf (Config.chainContent (s.get VIT.ENTRIES) s.vit.chain) (i % chainLen s.vit.chain) := by
      simp [State.scanOut, bitSum, h, hl]
    rw [he, bitOf_bitSum _ hi]
    simp [hl]

/-- A code that is not assigned acts as BYPASS. -/
theorem irAssigned_other {c : Nat} (h : c = 0 ∨ (8 ≤ c ∧ c ≤ 0x1F) ∨ 0x26 ≤ c) : irAssigned c = false := by
  simp only [irAssigned, Bool.or_eq_false_iff, Bool.and_eq_false_iff, decide_eq_false_iff_not]
  omega

section
variable {s : State} (code : Nat) (d : PinDrive) (p : Bool)

/-- An instruction of R390 where it may act: it drives the pins and shifts out the boundary register, or one 0. -/
theorem State.pinInstr_drives (h : s.vit.frozen = true ∨ s.pwr.resetN = true) (bsr : Bool) :
    s.pinInstr code d p bsr =
      { s with
        vit := { s.vit with ir := code, drive := d, pulsing := p }
        out := s.out ++ [if bsr then .tdo Config.boundaryLength s.vit.bsr else .tdo 1 0] } := by
  rw [State.pinInstr, if_neg]
  · cases bsr <;> rfl
  · rcases h with h | h <;> simp [State.pinTest, h]

/-- An instruction of R390 anywhere else. -/
theorem State.pinInstr_bypass (hf : s.vit.frozen = false) (hr : s.pwr.resetN = false) (bsr : Bool) :
    s.pinInstr code d p bsr = s.asBypass code := by
  rw [State.pinInstr, if_pos]
  simp [State.pinTest, hf, hr]

end

/-- Settles O6: each instruction is an effect on the port alone; what SCAN_READ shifts out is a sum of distinct powers of two. -/
theorem jtagAndBoundaryScan : Obligations.JtagAndBoundaryScan := by
  have run {s : State} {c : Instr} {t : State} (f : State → State) (h : s.pwr.vsupOk = true)
      (hc : exec c s = .next (s.whenSup f)) (ht : f s = t) : exec c s = .next (s.settled t) :=
    ht ▸ State.gives_whenSup f h hc
  refine ⟨fun s h => ⟨run _ h rfl rfl, fun _ _ => run _ h rfl rfl, fun _ => run _ h rfl rfl, fun n hz => run _ h rfl ?_,
      fun hc => run _ h rfl ?_, fun hc => run _ h rfl ?_, run _ h rfl rfl, fun code hc => run _ h rfl ?_⟩,
    fun s n h hf => ⟨s.scanOut n, run _ h rfl rfl, fun i hi => State.bitOf_scanOut hf hi⟩,
    fun s h => ⟨fun hp => ?_, fun hf hr => ?_⟩⟩
  · simp only [s.scanOut_zero hz]
    rfl
  · simp only [chainLen_unassigned hc]
    rfl
  · simp only [chainLen_wrapper hc]
    rfl
  · simp only [irAssigned_other (hc.imp_left (congrArg BitVec.toNat))]
    rfl
  · exact ⟨run _ h rfl (State.pinInstr_drives _ _ _ hp true), run _ h rfl (State.pinInstr_drives _ _ _ hp false),
      run _ h rfl (State.pinInstr_drives _ _ _ hp false), run _ h rfl (State.pinInstr_drives _ _ _ hp true),
      run _ h rfl (State.pinInstr_drives _ _ _ hp true)⟩
  · exact ⟨run _ h rfl (State.pinInstr_bypass _ _ _ hf hr true), run _ h rfl (State.pinInstr_bypass _ _ _ hf hr false),
      run _ h rfl (State.pinInstr_bypass _ _ _ hf hr false), run _ h rfl (State.pinInstr_bypass _ _ _ hf hr true),
      run _ h rfl (State.pinInstr_bypass _ _ _ hf hr true)⟩

/-! ## Writes of the page header (R391, R395, R402 to R404) -/

section
variable {s : State} {path : Path} {p : Nat} (h : s.canWritePage path p = true)
include h

theorem State.vsupOk_of_canWritePage : s.pwr.vsupOk = true := by
  simp only [State.canWritePage, Bool.and_eq_true] at h
  exact h.1.1.1.1

theorem State.reaches_of_canWritePage : s.reaches path p = true := by
  simp only [State.canWritePage, Bool.and_eq_true] at h
  exact h.1.1.1.2

theorem State.pageBase_of_canWritePage : (pageBase p).isSome = true := by
  simp only [State.canWritePage, Bool.and_eq_true] at h
  exact h.1.1.2

theorem State.notInReset_of_canWritePage : s.flag (HDR.IN_RESET p) = false := by
  simp only [State.canWritePage, Bool.and_eq_true, Bool.not_eq_true'] at h
  exact h.1.2

theorem State.fieldUp_of_canWritePage : s.fieldUp (HDR.ENABLE p) = true := by
  simp only [State.canWritePage, Bool.and_eq_true] at h
  exact h.2

/-- A word written to an address of a page that takes it. -/
theorem State.regWrite_page {off : Nat} (ho : off < 4096) (w : Nat) : s.regWrite path (p * 4096 + off) w = s.setWord path p off w := by
  have hp : (p * 4096 + off) / 4096 = p := by omega
  have hm : (p * 4096 + off) % 4096 = off := by omega
  have hb := State.pageBase_of_canWritePage h
  simp only [State.regWrite, hp, hm]
  rw [if_neg, if_neg, if_neg]
  · simp [State.notInReset_of_canWritePage h]
  · simpa using Option.isSome_iff_ne_none.1 hb
  · simp [State.reaches_of_canWritePage h]

/-- A command that writes the word at offset `off` of a page header. -/
theorem State.gives_header {c : Instr} {off : Nat} (w : Nat) (ho : off < 4096)
    (hc : exec c s = .next (s.whenSup fun s => s.regWrite path (p * 4096 + off) w)) : s.gives c (s.setWord path p off w) := by
  have hg := State.gives_whenSup (fun s => s.regWrite path (p * 4096 + off) w) (State.vsupOk_of_canWritePage h) hc
  rwa [State.regWrite_page h ho w] at hg

theorem State.setWord_clear (w : Nat) : s.setWord path p 0x014 w = s.clearEvents p w := by
  simp [State.setWord, State.fieldUp_of_canWritePage h]

theorem State.setWord_canary (w : Nat) : s.setWord path p 0x018 w = s.canaryWrite p w := by
  simp [State.setWord, State.fieldUp_of_canWritePage h]

theorem State.setWord_expert (w : Nat) : s.setWord path p 0x01C w = s.expertKey p w := by
  simp [State.setWord, State.fieldUp_of_canWritePage h]

end

/-- Settles O16: the three cases of the key sequence. -/
theorem expertUnlock : Obligations.ExpertUnlock := by
  intro s path page v h
  have hg : s.gives (.expertKey path page v) (s.expertKey page.toNat v.toNat) := by
    rw [← State.setWord_expert h v.toNat]
    exact State.gives_header h v.toNat (by decide) rfl
  refine ⟨?_, ?_, fun h1 h2 => ?_⟩
  · rintro rfl
    exact hg
  · rintro rfl hk
    simpa [State.expertKey, hk] using hg
  · have h1' : v.toNat ≠ 0x5A5A := fun h => h1 (BitVec.eq_of_toNat_eq h)
    have h2' : v.toNat ≠ 0xA5A5 ∨ s.flag (HDR.KEY_STEP page.toNat) = false :=
      h2.imp_left fun h e => h (BitVec.eq_of_toNat_eq e)
    have he : s.expertKey page.toNat v.toNat = s.put (HDR.KEY_STEP page.toNat) 0 := by
      rw [State.expertKey, if_neg (by simpa using h1')]
      rcases h2' with h2 | h2 <;> simp [h2]
    exact he ▸ hg

end Sys2Proof.Machine

/-! PROOFS. Register accesses on the three paths: widths and alignment, the SMBus target, Canary, snapshots and latches
(R391, R392, R396, R398, R405, R408). -/

namespace Sys2Proof.Machine

-- One proof at a time: many at once outgrow the memory that the check gives.
set_option Elab.async false

/-! ## Register writes (R396, R405) -/

section
variable {s : State} {path : Path} {addr : Nat} (hr : s.reaches path (addr / 4096) = true)
include hr

/-- A write of another width or alignment. -/
theorem State.registerWrite_bad {bytes : Nat} {full : Bool} (v : Nat)
    (h : full = false ∨ (bytes ≠ 4 ∧ bytes ≠ 8) ∨ addr % 4 ≠ 0) : s.registerWrite path addr bytes full v = s.badAccess path addr 0 := by
  rw [State.registerWrite, if_neg, if_neg, if_pos hr]
  · simp only [Bool.and_eq_true, beq_iff_eq]
    rintro ⟨⟨⟨rfl, rfl⟩, h8⟩, -⟩
    simp only [Bool.true_eq_false, false_or] at h
    omega
  · simp only [Bool.and_eq_true, beq_iff_eq]
    rintro ⟨⟨rfl, rfl⟩, h4⟩
    simp only [Bool.true_eq_false, false_or] at h
    omega

/-- A word written to a reserved page. -/
theorem State.regWrite_reserved (hb : pageBase (addr / 4096) = none) (w : Nat) :
    s.regWrite path addr w = s.badAccess path addr 1 := by
  simp [State.regWrite, hr, hb]

end

/-- An aligned word written. -/
theorem State.registerWrite_word {s : State} {path : Path} {addr : Nat} (h : addr % 4 = 0) (v : Nat) :
    s.registerWrite path addr 4 true v = s.regWrite path addr (v % 2 ^ 32) := by
  rw [State.registerWrite, if_pos]
  simp [h]

/-- Eight aligned bytes written through PCIe are two words, the lower address first. -/
theorem State.registerWrite_pair {s : State} {addr : Nat} (h : addr % 8 = 0) (v : Nat) :
    s.registerWrite .pcie addr 8 true v =
      (s.regWrite .pcie addr (v % 2 ^ 32)).regWrite .pcie (addr + 4) (v / 2 ^ 32 % 2 ^ 32) := by
  simp [State.registerWrite, h]

/-- A word outside the header: its fields, and the snapshots that a selector takes. -/
theorem State.setWord_fields {s : State} (path : Path) {p off : Nat} (ho : 0x020 ≤ off) (w : Nat) :
    s.setWord path p off w =
      ((tableWindows p).filter fun t => t.1 == off).foldl (fun s t => s.snapshot p t.2.1 t.2.2)
        (s.setFields path p off ((pageFields p).filter fun f => f.off == off) w) := by
  have h1 : (off == 0x004) = false := by simp; omega
  have h2 : (off == 0x010) = false := by simp; omega
  have h3 : (off == 0x014) = false := by simp; omega
  have h4 : (off == 0x018) = false := by simp; omega
  have h5 : (off == 0x01C) = false := by simp; omega
  simp [State.setWord, h1, h2, h3, h4, h5]

/-- A read-only field takes no write. -/
theorem State.setField_readOnly {s : State} (path : Path) {f : Fld} (h : f.acc = .ro ∨ f.acc = .ros) (w : Nat) :
    s.setField path f w = s := by
  unfold State.setField
  rcases h with h | h <;> simp [h]

/-- A word of read-only fields takes no write. -/
theorem State.setFields_readOnly {s : State} (path : Path) (p off : Nat) {fs : List Fld}
    (h : ∀ f ∈ fs, f.acc = .ro ∨ f.acc = .ros) (w : Nat) : s.setFields path p off fs w = s := by
  have hrwe : fs.any (·.acc == .rwe) = false := by
    simp only [List.any_eq_false, beq_iff_eq]
    intro f hf e
    rcases h f hf with h | h <;> simp [h] at e
  have htab : fs.any (fun f => tableField f && f.acc == .rw) = false := by
    simp only [List.any_eq_false, Bool.and_eq_true, beq_iff_eq, not_and]
    intro f hf _ e
    rcases h f hf with h | h <;> simp [h] at e
  have hkeep (l : List Fld) (hl : ∀ f ∈ l, f.acc = .ro ∨ f.acc = .ros) : l.foldr (fun f s => s.setField path f w) s = s := by
    induction l with
    | nil => rfl
    | cons f l ih =>
      rw [List.foldr_cons, ih fun g hg => hl g (List.mem_cons_of_mem _ hg), State.setField_readOnly path (hl f List.mem_cons_self)]
  simp only [State.setFields, hrwe, htab, Bool.and_false, Bool.false_eq_true, if_false]
  exact hkeep _ fun f hf => h f (List.mem_filter.1 hf).1

/-- Settles O21: each case is a branch of the access. -/
theorem registerWriteRules : Obligations.RegisterWriteRules := by
  intro s path addr v hv hr
  have run (bytes : Nat) (full : Bool) : s.gives (.registerWrite path addr bytes full v)
      (s.registerWrite path addr.toNat bytes full v.toNat) :=
    State.gives_whenSup (fun s => s.registerWrite path addr.toNat bytes full v.toNat) hv rfl
  refine ⟨fun bytes full h => ?_, fun h4 hb => ?_, fun h4 ho hb hro hsel => ?_, fun h8 hp => ?_⟩
  · exact State.registerWrite_bad hr v.toNat h ▸ run bytes full
  · have hg := run 4 true
    rwa [State.registerWrite_word h4, State.regWrite_reserved hr hb] at hg
  · have hg := run 4 true
    have hnone : (tableWindows (addr.toNat / 4096)).filter (fun t => t.1 == addr.toNat % 4096) = [] := by
      simpa [List.filter_eq_nil_iff] using hsel
    have hs : s.regWrite path addr.toNat (v.toNat % 2 ^ 32) = s := by
      rw [State.regWrite, State.setWord_fields path ho, hnone, List.foldl_nil, State.setFields_readOnly]
      · simp [hr, Option.isNone_eq_false_iff.2 hb]
      · simpa using hro
    rwa [State.registerWrite_word h4, hs] at hg
  · subst hp
    exact State.registerWrite_pair h8 v.toNat ▸ run 8 true

/-! ## What a register read leaves (R396, R408) -/

theorem State.countStall_mem (s : State) (b : Nat) : (s.countStall b).mem = s.mem := by
  unfold State.countStall
  split <;> rfl

/-- The side effects of a read are on registers and snapshots. -/
theorem State.readEffects_mem (s : State) (p off : Nat) : (s.readEffects p off).mem = s.mem := by
  unfold State.readEffects
  extract_lets t u
  have ht : t.mem = s.mem := by
    dsimp only [t]
    split
    · split <;> rfl
    · rfl
  have hu : u.mem = s.mem := by
    dsimp only [u]
    split
    · exact (t.countStall_mem 3).trans ht
    · exact ht
  split
  · exact (foldl_keeps State.mem (g := fun s o => s.put (HDR.LATCH p o) (s.liveWord p o true)) (fun _ _ => rfl) _ u).trans hu
  split
  · exact hu
  split <;> exact hu

theorem State.badAccess_mem (s : State) (path : Path) (addr kind : Nat) : (s.badAccess path addr kind).mem = s.mem := by
  simp [State.badAccess, State.lastBad]

theorem State.regRead_mem (s : State) (path : Path) (addr : Nat) : (s.regRead path addr).2.mem = s.mem := by
  have hp : (s.readPage path addr).2.mem = s.mem := by
    unfold State.readPage
    dsimp only
    split
    · exact s.badAccess_mem path addr 1
    split
    · rfl
    split
    · rfl
    · exact s.readEffects_mem _ _
  unfold State.regRead
  split
  · exact hp
  split <;> rfl

/-! ## The SMBus target (R398) -/

section
variable {s : State} {bytes : List Byte} {pec : Option Bool}

/-- A PEC that is wrong, or missing where one is required. -/
theorem State.smbusPec_bad (h : s.pecGood pec = false) (act : State → State) :
    s.smbusPec pec act = (s.inc SMB.PEC_ERR).raise SMB.page SMB.evPEC_ERR_EVT := by
  rw [State.smbusPec, if_pos]
  match pec with
  | some false => rfl
  | some true => exact absurd h (by simp [State.pecGood])
  | none => simpa [State.pecGood] using h

/-- A good PEC, or none where none is required: the transaction runs and is counted. -/
theorem State.smbusPec_good (h : s.pecGood pec = true) (act : State → State) :
    s.smbusPec pec act = (act s).inc SMB.TRANSACTIONS := by
  rw [State.smbusPec, if_neg]
  match pec with
  | some false => exact absurd h (by simp [State.pecGood])
  | some true => simp
  | none => simpa [State.pecGood] using h

theorem State.smbusBlock_bad {n : Nat} (h : bytes.length ≠ n ∨ smbusAddr bytes % 4 ≠ 0) (act : State → State) :
    s.smbusBlock n bytes pec act = (s.inc SMB.NAKED).send .smbNak := by
  rw [State.smbusBlock, if_pos]
  · rfl
  · simpa using h

theorem State.smbusBlock_good {n : Nat} (hl : bytes.length = n) (ha : smbusAddr bytes % 4 = 0) (act : State → State) :
    s.smbusBlock n bytes pec act = s.smbusPec pec act := by
  rw [State.smbusBlock, if_neg]
  simp [hl, ha]

end

/-- Settles O22: count and address first, then PEC, then the access, counted. -/
theorem smbusTarget : Obligations.SmbusTarget := by
  intro s hv
  have hw (bytes : List Byte) (pec : Option Bool) : s.gives (.smbusWrite bytes pec)
      (s.smbusBlock 7 bytes pec fun s => s.regWrite .smbus (smbusAddr bytes) (fieldLE bytes 3 4)) :=
    State.gives_whenSup (fun s => s.smbusBlock 7 bytes pec _) hv rfl
  have hp (bytes : List Byte) (pec : Option Bool) : s.gives (.smbusSetPointer bytes pec)
      (s.smbusBlock 3 bytes pec fun s => { s with smb := { s.smb with ptr := smbusAddr bytes } }) :=
    State.gives_whenSup (fun s => s.smbusBlock 3 bytes pec _) hv rfl
  have hrd (pec : Option Bool) : s.gives (.smbusRead pec) (s.smbusPec pec State.smbusFetch) :=
    State.gives_whenSup (fun s => s.smbusPec pec State.smbusFetch) hv rfl
  refine ⟨fun bytes pec h => ?_, fun bytes pec hl ha => ⟨fun h => ?_, fun h => ?_⟩, fun bytes pec h => ?_,
    fun bytes pec hl ha => ⟨fun h => ?_, fun h => ?_⟩, fun pec h => ?_, fun pec h => ⟨_, hrd pec, ?_, ?_⟩,
    State.gives_whenSup (fun s => (s.inc SMB.TIMEOUTS).raise SMB.page SMB.evTIMEOUT_EVT) hv rfl⟩
  · simpa only [State.smbusBlock_bad h] using hw bytes pec
  · simpa only [State.smbusBlock_good hl ha, State.smbusPec_bad h] using hw bytes pec
  · simpa only [State.smbusBlock_good hl ha, State.smbusPec_good h] using hw bytes pec
  · simpa only [State.smbusBlock_bad h] using hp bytes pec
  · simpa only [State.smbusBlock_good hl ha, State.smbusPec_bad h] using hp bytes pec
  · simpa only [State.smbusBlock_good hl ha, State.smbusPec_good h] using hp bytes pec
  · simpa only [State.smbusPec_bad h] using hrd pec
  · intro a
    rw [State.smbusPec_good h]
    exact congrArg (Memory.read · a) (s.regRead_mem .smbus s.smb.ptr)
  · rw [State.smbusPec_good h]
    rfl

/-! ## Canary (R391, R392) -/

/-- The pages whose registers the settling of a command may write. -/
def settlingPages : List Nat := [0x33, 0x34, 0x35, 0x36, 0xC2, 0xB0, 0x00, 0xE0]

/-- A register of any other page reads, settled, as the command's effect left it. -/
theorem State.get_settled_page (s t : State) {f : Fld} (hf : f.placed = true) (hp : f.page ∉ settlingPages) :
    (s.settled t).get f = t.get f := by
  refine s.get_settled t fun g hg => ?_
  have hg' : g.placed = true ∧ g.page ∈ settlingPages := by
    revert g
    decide
  exact Fld.key_ne_of_place hf hg'.1 (.inl fun e => hp (e ▸ hg'.2))

/-- A state without its registers, what it has sent, the Census and the curators. -/
def State.unnoted (s : State) : State := { s with reg := [], out := [], free := 0, cen := {}, cur := {} }

@[simp] theorem State.put_unnoted (s : State) (f : Fld) (v : Nat) : (s.put f v).unnoted = s.unnoted := rfl

@[simp] theorem State.inc_unnoted (s : State) (f : Fld) (n : Nat) : (s.inc f n).unnoted = s.unnoted := rfl

@[simp] theorem State.msix_unnoted (s : State) : s.msix.unnoted = s.unnoted := by
  unfold State.msix
  split <;> rfl

@[simp] theorem State.raise_unnoted (s : State) (p b : Nat) : (s.raise p b).unnoted = s.unnoted := by
  unfold State.raise State.irqEdge
  split
  · exact State.msix_unnoted _
  · rfl

/-- All but the notes themselves is blind to notes. -/
theorem unnoted_rest : Unnoted State.unnoted where
  cur _ _ := rfl
  cen _ _ := rfl
  free _ _ := rfl
  inc _ _ _ _ := rfl
  raise := State.raise_unnoted

/-- So is a register that no note writes. -/
theorem unnoted_get_of {f : Fld} (hf : f.noEvent = true) (hp : f.key ≠ PCE.MSIX_PBA.key) (hn : ∀ g ∈ noteFields, f.key ≠ g.key) :
    Unnoted fun s => s.get f where
  cur _ _ := rfl
  cen _ _ := rfl
  free _ _ := rfl
  inc s _ n hg := s.get_inc_ne n (hn _ hg)
  raise s q b := s.get_raise q b (evtRaw_ne_noEvent q hf).symm hp

theorem Unnoted.outOfCycle {α : Type} {p : State → α} (h : Unnoted p) (s : State) (code idx : Nat) (closing : Bool) :
    p (s.outOfCycle code idx closing) = p s := by
  unfold State.outOfCycle
  dsimp only
  split
  · exact h.inc _ _ (by decide)
  · have hw := h.writeOoc s (closing || s.periodDue) (s.recordBytes 2 code (idx % 256) false)
    split <;> rename_i e <;> rw [e] at hw
    · exact (h.cen _ _).trans hw
    · exact (h.inc _ _ (by decide)).trans hw

theorem Unnoted.censusInjected {α : Type} {p : State → α} (h : Unnoted p) (s : State) (marked : Bool) :
    p (s.censusInjected marked) = p s := by
  unfold State.censusInjected
  cases marked
  · exact h.cen _ _
  · exact (h.outOfCycle _ _ _ _).trans (h.cen _ _)

namespace State.Works

variable {α : Type} {k : TierSt → Memory → α} {s t : State} (h : s.Works k t)
include h

theorem outOfCycle (code idx : Nat) (closing : Bool) : s.Works k (t.outOfCycle code idx closing) := by
  unfold State.outOfCycle
  dsimp only
  split
  · exact h.inc _
  · have hw := h.writeOoc (closing || t.periodDue) (t.recordBytes 2 code (idx % 256) false)
    split <;> rename_i e <;> rw [e] at hw
    · exact hw.aside
    · exact hw.inc _

theorem censusInjected (marked : Bool) : s.Works k (t.censusInjected marked) := by
  unfold State.censusInjected
  cases marked
  · exact h.aside
  · exact outOfCycle h.aside _ _ _

end State.Works

namespace State

variable {s : State} {p : Nat}

/-- A write of CANARY without the arm or the unlock. -/
theorem canaryWrite_refused (h : s.flag SYS.CANARY_ARM = false ∨ s.flag (HDR.EXPERT p) = false) (v : Nat) :
    s.canaryWrite p v = (s.inc VIT.CANARY_REFUSED).raise VIT.page VIT.evCANARY_REFUSED_EVT := by
  rw [State.canaryWrite, if_pos]
  rcases h with h | h <;> simp [h]

/-- A write of CANARY without FIRE. -/
theorem canaryWrite_point (ha : s.flag SYS.CANARY_ARM = true) (he : s.flag (HDR.EXPERT p) = true) {v : Nat}
    (hv : bitOf v 8 = false) : s.canaryWrite p v = s.put (HDR.POINT p) (bitsOf v 0 5) := by
  simp [State.canaryWrite, ha, he, hv]

/-- A write of CANARY with FIRE. -/
theorem canaryWrite_fire (ha : s.flag SYS.CANARY_ARM = true) (he : s.flag (HDR.EXPERT p) = true) {v : Nat}
    (hv : bitOf v 8 = true) (hf : s.vit.frozen = false) (hr : s.flag (HDR.IN_RESET p) = false) :
    s.canaryWrite p v = (s.put (HDR.POINT p) (bitsOf v 0 5)).inject p (bitsOf v 0 5) := by
  have hr' : (s.put (HDR.POINT p) (bitsOf v 0 5)).flag (HDR.IN_RESET p) = false := by
    rwa [State.flag, s.get_put_ne _ (Fld.key_ne_of_apart rfl)]
  simp [State.canaryWrite, ha, he, hv, hf, hr']

/-- An injection of an event that the page has. -/
theorem inject_known {point : Nat} (h : point < pageEvents p) :
    s.inject p point = ((((s.raise p point).inc VIT.CANARY_COUNT).put VIT.LAST_INJ (p + 256 * point)).censusInjected
      (injMarked p point)).raise VIT.page VIT.evCANARY_FIRED := by
  simp [State.inject, h, State.raiseIf]

end State

theorem bitsOf_lt (v lsb n : Nat) : bitsOf v lsb n < 2 ^ n := Nat.mod_lt _ (Nat.two_pow_pos n)

/-- Settles O19: an injection writes EVT_RAW, its count and its name, and otherwise notes. -/
theorem canaryInjects : Obligations.CanaryInjects := by
  intro s path page v h
  have hg : s.gives (.canaryFire path page v) (s.canaryWrite page.toNat v.toNat) := by
    rw [← State.setWord_canary h v.toNat]
    exact State.gives_header h v.toNat (by decide) rfl
  refine ⟨fun hno => State.canaryWrite_refused hno v.toNat ▸ hg, fun ha he hv => State.canaryWrite_point ha he hv ▸ hg,
    fun ha he hv hf hpt => ?_⟩
  rw [State.canaryWrite_fire ha he hv hf (State.notInReset_of_canWritePage h), State.inject_known hpt] at hg
  generalize hb : bitsOf v.toNat 0 5 = point at hg hpt ⊢
  have hpoint : point < 32 := hb ▸ bitsOf_lt v.toNat 0 5
  generalize hp : page.toNat = p at hg ⊢
  have hpage : p < 256 := hp ▸ page.isLt
  generalize hu : s.put (HDR.POINT p) point = u at hg
  generalize hw : (((u.raise p point).inc VIT.CANARY_COUNT).put VIT.LAST_INJ (p + 256 * point)).censusInjected
    (injMarked p point) = w at hg
  have hworks : (u.raise p point).Works memoryOnly w := by
    rw [← hw]
    exact (((State.Works.refl _).inc _).put _).censusInjected _
  have hget {f : Fld} (hf : f.noEvent = true) (hpba : f.key ≠ PCE.MSIX_PBA.key) (hn : ∀ g ∈ noteFields, f.key ≠ g.key) :
      (w.raise VIT.page VIT.evCANARY_FIRED).get f =
        (((u.raise p point).inc VIT.CANARY_COUNT).put VIT.LAST_INJ (p + 256 * point)).get f := by
    have hun := unnoted_get_of hf hpba hn
    rw [hun.raise w, ← hw]
    exact hun.censusInjected _ _
  have hrest : (w.raise VIT.page VIT.evCANARY_FIRED).unnoted = s.unnoted := by
    simp only [← hw, ← hu, unnoted_rest.censusInjected, State.raise_unnoted, State.put_unnoted, State.inc_unnoted]
  have keeps {α : Type} (q : State → α) (hq : ∀ x : State, q x.unnoted = q x) :
      q (w.raise VIT.page VIT.evCANARY_FIRED) = q s := by rw [← hq, hrest, hq]
  refine hg.answers ⟨?_, ?_, ?_, ?_, ?_, ?_, ?_, ?_, ?_, ?_, ?_, ?_⟩
  · exact State.evt_settled (State.evt_raise (hworks.evt hpoint (u.evt_raise_self p point hpoint)) hpoint _ _) hpoint s
  · exact State.evt_settled (w.evt_raise_self _ _ (by decide)) (by decide) s
  · rw [s.get_settled_page _ rfl (by decide), hget rfl (by decide) (by decide), State.get_put_ne _ _ (by decide),
      State.get_inc_self, u.get_raise _ _ (evtRaw_ne_noEvent p rfl).symm (by decide), ← hu,
      s.get_put_ne _ (Fld.key_ne_of_apart rfl), show VIT.CANARY_COUNT.width = 32 from rfl]
  · rw [s.get_settled_page _ rfl (by decide), hget rfl (by decide) (by decide), State.get_put_self]
    exact Nat.mod_eq_of_lt (show p + 256 * point < 2 ^ 13 by omega)
  · exact (s.settled_mus _).trans (keeps State.mus fun _ => rfl)
  · exact State.sameCommit_settled (keeps State.cm fun _ => rfl) s
  · exact (s.settled_q _).trans (keeps State.q fun _ => rfl)
  · exact (s.settled_win _).trans (keeps State.win fun _ => rfl)
  · exact (s.settled_tier _).trans (keeps State.tier fun _ => rfl)
  · exact (s.settled_pwr _).trans (keeps State.pwr fun _ => rfl)
  · exact State.sameKeys_settled (keeps State.key fun _ => rfl) s
  · exact State.sameMemory_settled (keeps State.mem fun _ => rfl) s

end Sys2Proof.Machine

/-! PROOFS. Table windows and latched pairs (R396, R408). -/

namespace Sys2Proof.Machine

-- One proof at a time: many at once outgrow the memory that the check gives.
set_option Elab.async false

/-! ## The windows and their selectors -/

/-- Every table window: its page, its selector's offset, its first word and its number of words. -/
def windows : List (Nat × Nat × Nat × Nat) :=
  [(QMG.page, 0x020, 0x040, 16), (WIN.page, 0x020, 0x040, 16), (WIN.page, 0x024, 0x080, 8), (TIR.page, 0x038, 0x03C, 4),
   (PAR.page, 0x03C, 0x040, 9), (ACC.page, 0x020, 0x024, 9), (KST.page, 0x020, 0x024, 7), (CLK.page, 0x030, 0x034, 2),
   (CLK.page, 0x044, 0x048, 1), (THM.page, 0x030, 0x034, 1)]

/-- The fields that select a window's entry. -/
def selectors : List Fld :=
  [QMG.QCTX_SEL, WIN.WIN_SEL, WIN.DOM_SEL, TIR.DOM_SEL, PAR.LAYOUT_SEL, ACC.JRN_SEL, KST.INST_SEL, CLK.DLL_SEL, CLK.FSP_SEL,
   CLK.LANE_SEL, THM.SENSOR_SEL]

theorem mem_windows {p : Nat} {x : Nat × Nat × Nat} (h : x ∈ tableWindows p) : (p, x) ∈ windows := by
  unfold tableWindows at h
  repeat' split at h
  all_goals simp_all [windows]
  all_goals exact h.imp_right .inl

/-- A selector selects one window. -/
theorem filter_tableWindows {p : Nat} {x : Nat × Nat × Nat} (h : x ∈ tableWindows p) :
    (tableWindows p).filter (fun t => t.1 == x.1) = [x] := by
  have hall : ∀ y ∈ windows, (tableWindows y.1).filter (fun t => t.1 == y.2.1) = [y.2] := by decide
  exact hall _ (mem_windows h)

/-- A window's first word lies in it. -/
theorem windowAt_first {p : Nat} {x : Nat × Nat × Nat} (h : x ∈ tableWindows p) : windowAt p x.2.1 = some (x.2.1, x.2.2) := by
  have hall : ∀ y ∈ windows, windowAt y.1 y.2.2.1 = some (y.2.2.1, y.2.2.2) := by decide
  exact hall _ (mem_windows h)

/-- Selectors and windows lie past the header. -/
theorem window_past_header {p : Nat} {x : Nat × Nat × Nat} (h : x ∈ tableWindows p) : 0x020 ≤ x.1 ∧ 0x020 ≤ x.2.1 := by
  have hall : ∀ y ∈ windows, 0x020 ≤ y.2.1 ∧ 0x020 ≤ y.2.2.1 := by decide
  exact hall _ (mem_windows h)

/-- No window lies in a page whose reads have effects of their own. -/
theorem window_page {p : Nat} {x : Nat × Nat × Nat} (h : x ∈ tableWindows p) :
    p ∈ [QMG.page, WIN.page, TIR.page, PAR.page, ACC.page, KST.page, CLK.page, THM.page] := by
  have hall : ∀ y ∈ windows, y.1 ∈ [QMG.page, WIN.page, TIR.page, PAR.page, ACC.page, KST.page, CLK.page, THM.page] := by decide
  exact hall _ (mem_windows h)

/-- A selector's word holds selectors alone. -/
theorem selector_fields {p : Nat} {x : Nat × Nat × Nat} (h : x ∈ tableWindows p) :
    ∀ f ∈ (pageFields p).filter (fun f => f.off == x.1), f ∈ selectors := by
  have hall : ∀ y ∈ windows, ∀ f ∈ (pageFields y.1).filter (fun f => f.off == y.2.1), f ∈ selectors := by decide +kernel
  exact hall _ (mem_windows h)

/-- A selector is a field that any write writes, and not one of the sequence table. -/
theorem selector_plain {f : Fld} (h : f ∈ selectors) : f.acc = .rw ∧ f.treat = .any ∧ tableField f = false := by
  revert f
  decide

namespace State

/-- A selector stores what is written to it. -/
theorem writeField_selector (s : State) (path : Path) {f : Fld} (h : f ∈ selectors) (v w : Nat) :
    s.writeField path f v w = s.put f v := by
  simp only [selectors, List.mem_cons, List.not_mem_nil, or_false] at h
  rcases h with rfl | rfl | rfl | rfl | rfl | rfl | rfl | rfl | rfl | rfl | rfl <;> rfl

theorem setField_selector_mem (s : State) (path : Path) {f : Fld} (h : f ∈ selectors) (w : Nat) :
    (s.setField path f w).mem = s.mem := by
  obtain ⟨hacc, htreat, -⟩ := selector_plain h
  unfold setField
  simp only [hacc, Fld.stores, htreat, s.writeField_selector path h]
  split <;> rfl

/-- A write of selectors leaves memory. -/
theorem setFields_selectors_mem (s : State) (path : Path) (p off : Nat) {fs : List Fld} (h : ∀ f ∈ fs, f ∈ selectors) (w : Nat) :
    (s.setFields path p off fs w).mem = s.mem := by
  have hrwe : fs.any (·.acc == .rwe) = false := by
    simp only [List.any_eq_false, beq_iff_eq]
    intro f hf
    simp [(selector_plain (h f hf)).1]
  have htab : fs.any (fun f => tableField f && f.acc == .rw) = false := by
    simp only [List.any_eq_false]
    intro f hf
    simp [(selector_plain (h f hf)).2.2]
  have hkeep (l : List Fld) (hl : ∀ f ∈ l, f ∈ selectors) : (l.foldr (fun f s => s.setField path f w) s).mem = s.mem := by
    induction l with
    | nil => rfl
    | cons f l ih =>
      rw [List.foldr_cons, setField_selector_mem _ path (hl f List.mem_cons_self), ih fun g hg => hl g (List.mem_cons_of_mem _ hg)]
  simp only [setFields, hrwe, htab, Bool.and_false, Bool.false_eq_true, if_false]
  exact hkeep _ fun f hf => h f (List.mem_filter.1 hf).1

/-! ## Reads -/

section
variable {s : State} {path : Path} {addr : Nat} (h : s.canWritePage path (addr / 4096) = true) (ha : addr % 4 = 0)
  (ho : 0x020 ≤ addr % 4096)
include h ha ho

/-- An aligned word past the header read on a path that reaches its page. -/
theorem regFetch_page (hc : addr / 4096 ≠ CEN.page) :
    s.regFetch path addr = (s.readEffects (addr / 4096) (addr % 4096)).send
      (.regData path addr ((s.readEffects (addr / 4096) (addr % 4096)).pageWord (addr / 4096) (addr % 4096))) := by
  obtain ⟨base, hb⟩ := Option.isSome_iff_exists.1 (pageBase_of_canWritePage h)
  have hoff : ¬addr % 4096 < 0x020 := by omega
  simp [regFetch, regRead, readPage, ha, reaches_of_canWritePage h, hb, hoff, notInReset_of_canWritePage h, hc]

end

/-- What the registers of a page with a window show reads no snapshot. -/
theorem shownOn_snap {p : Nat} (h : p ∈ [QMG.page, WIN.page, TIR.page, PAR.page, ACC.page, KST.page, CLK.page, THM.page])
    (s : State) (x : NMap (List Nat)) : shownOn { s with snap := x } p = s.shownOn p := by
  simp only [List.mem_cons, List.not_mem_nil, or_false] at h
  rcases h with rfl | rfl | rfl | rfl | rfl | rfl | rfl | rfl <;> rfl

/-- Nor does what a pair of words latches. -/
theorem hiOf_snap {p : Nat} (h : p ∈ [QMG.page, WIN.page, TIR.page, PAR.page, ACC.page, KST.page, CLK.page, THM.page])
    (hf : ∀ f ∈ pageFields p, f.page = p) (s : State) (x : NMap (List Nat)) (off : Nat) :
    hiOf { s with snap := x } p off = s.hiOf p off := by
  have hval (f : Fld) (hp : f.page = p) : fieldValue { s with snap := x } f = s.fieldValue f := by
    simp only [fieldValue, hp, shownOn_snap h]
    rfl
  unfold hiOf
  split
  · rfl
  · exact Option.map_congr fun f hfind => by rw [hval f (hf f (List.mem_of_find?_eq_some hfind))]

/-- A snapshot's first word is the window's first word as it stood. -/
theorem pageWord_snapshot {s t : State} {p first n : Nat} (hn : 0 < n) (hw : windowAt p first = some (first, n))
    (ht : t.snap = (s.snapshot p first n).snap) : t.pageWord p first = s.liveWord p first true := by
  obtain ⟨k, rfl⟩ : ∃ k, n = k + 1 := ⟨n - 1, by omega⟩
  rw [pageWord, hw, ht]
  simp [snapshot, List.range_succ_eq_map]

end State

/-- The fields of a page with a window name that page. -/
theorem pageFields_page {p : Nat} (h : p ∈ [QMG.page, WIN.page, TIR.page, PAR.page, ACC.page, KST.page, CLK.page, THM.page]) :
    ∀ f ∈ pageFields p, f.page = p := by
  revert p
  decide +kernel

/-- A window has a word. -/
theorem window_pos {p : Nat} {x : Nat × Nat × Nat} (h : x ∈ tableWindows p) : 0 < x.2.2 := by
  have hall : ∀ y ∈ windows, 0 < y.2.2.2 := by decide
  exact hall _ (mem_windows h)

theorem State.windowEffects {s : State} {p : Nat} {x : Nat × Nat × Nat} (hx : x ∈ tableWindows p) :
    s.readEffects p x.2.1 = match s.hiOf p x.2.1 with
      | some h => (s.snapshot p x.2.1 x.2.2).put (HDR.LATCH p x.2.1) h
      | none => s.snapshot p x.2.1 x.2.2 := by
  have hp := window_page hx
  have hcen : (p == CEN.page) = false := by
    revert hp
    generalize p = q
    revert q
    decide
  have hrtc : (p == RTC.page) = false := by
    revert hp
    generalize p = q
    revert q
    decide
  have hh : (s.snapshot p x.2.1 x.2.2).hiOf p x.2.1 = s.hiOf p x.2.1 := State.hiOf_snap hp (pageFields_page hp) s _ _
  simp only [State.readEffects, windowAt_first hx, hcen, hrtc, beq_self_eq_true, if_true, Bool.false_and, Bool.false_eq_true,
    if_false, hh] <;> rfl

/-- Settles O20: a selector's word holds selectors alone; a window's first word is read from the snapshot it takes; a latched
pair's upper half is what its LO word found. -/
theorem snapshotsAndLatches : Obligations.SnapshotsAndLatches := by
  refine ⟨fun s path addr x hx h ha => ⟨fun ho v => ?_, fun ho => ?_⟩, fun s path addr hi h ha ho hw hr hc hhi => ?_⟩
  · have hsel := window_past_header hx
    have hmem := s.setFields_selectors_mem path (addr.toNat / 4096) x.1 (selector_fields hx) v.toNat
    have hg : s.gives (.selectorWrite path addr v) (s.registerWrite path addr.toNat 4 true v.toNat) :=
      State.gives_whenSup (fun s => s.registerWrite path addr.toNat 4 true v.toNat) (State.vsupOk_of_canWritePage h) rfl
    have he : addr.toNat = addr.toNat / 4096 * 4096 + x.1 := by omega
    have hlt : x.1 < 4096 := by omega
    have hword : s.registerWrite path addr.toNat 4 true v.toNat =
        (s.setFields path (addr.toNat / 4096) x.1 ((pageFields (addr.toNat / 4096)).filter fun f => f.off == x.1) v.toNat).snapshot
          (addr.toNat / 4096) x.2.1 x.2.2 := by
      rw [State.registerWrite_word ha, Nat.mod_eq_of_lt v.isLt]
      conv_lhs => rw [he]
      rw [State.regWrite_page h hlt, State.setWord_fields path hsel.1, filter_tableWindows hx]
      rfl
    rw [hword] at hg
    exact ⟨hg, fun a => congrArg (Memory.read · a) hmem⟩
  · have hfirst := (window_past_header hx).2
    have hg : s.gives (.windowWord0Read path addr) (s.regFetch path addr.toNat) :=
      State.gives_whenSup (fun s => s.regFetch path addr.toNat) (State.vsupOk_of_canWritePage h) rfl
    have hpage := window_page hx
    have hcen : addr.toNat / 4096 ≠ CEN.page := by
      intro e
      rw [e] at hpage
      revert hpage
      decide
    have hword {t : State} (ht : t.snap = (s.snapshot (addr.toNat / 4096) x.2.1 x.2.2).snap) :=
      State.pageWord_snapshot (window_pos hx) (windowAt_first hx) ht
    rw [State.regFetch_page h ha (ho ▸ hfirst) hcen, ho, State.windowEffects hx] at hg
    cases hhi : s.hiOf (addr.toNat / 4096) x.2.1 with
    | none =>
      simp only [hhi] at hg
      rwa [hword rfl] at hg
    | some v =>
      simp only [hhi] at hg
      rwa [hword (State.put_snap _ _ v)] at hg
  · have hg : s.gives (.latchingLoRead path addr) (s.regFetch path addr.toNat) :=
      State.gives_whenSup (fun s => s.regFetch path addr.toNat) (State.vsupOk_of_canWritePage h) rfl
    refine ⟨?_, State.get_put_self _ _ _, fun f hf => s.get_put_ne _ hf⟩
    have he : s.readEffects (addr.toNat / 4096) (addr.toNat % 4096) = s.put (HDR.LATCH (addr.toNat / 4096) (addr.toNat % 4096)) hi := by
      simp [State.readEffects, hw, hr, hc, hhi]
    rwa [State.regFetch_page h ha ho hc, he] at hg

end Sys2Proof.Machine

/-! PROOFS. Where the statements of EVT_PENDING, the PCIe interrupt and the power sequencer fail, and parking (R327, R343, R344,
R403, R409). -/

namespace Sys2Proof.Machine

-- One proof at a time: many at once outgrow the memory that the check gives.
set_option Elab.async false

/-! ## EVT_PENDING of a register wider than its field (R403) -/

/-- The device after reset with a value past 32 bits listed for the event register of SMB. -/
def wideEvents : State := { State.reset with reg := [((HDR.EVT_RAW SMB.page).key, 2 ^ 32)] }

/-- A write of EVT_PENDING cuts the event register to its 32 bits. -/
theorem State.evt_clearEvents_past (s : State) (p mask : Nat) : (s.clearEvents p mask).evt p 32 = false := by
  have hput (v : Nat) : (s.put (HDR.EVT_RAW p) v).evt p 32 = false := by
    rw [State.evt, State.get_put_self, bitOf_eq_testBit]
    exact Nat.testBit_lt_two_pow (Nat.mod_lt _ (Nat.two_pow_pos 32))
  unfold State.clearEvents
  dsimp only
  split
  · rw [State.evt, State.get_msix _ (evtRaw_ne_pba p)]
    exact hput _
  · exact hput _

/-- Refutes O17: bit 32 of an event register is no event, and a state that lists one with bit 32 set loses it in any write of
EVT_PENDING, whatever the mask. -/
theorem not_pendingEventsCleared : ¬ Obligations.PendingEventsCleared := by
  intro h
  have hw : wideEvents.canWritePage .smbus (0xE1 : Byte).toNat = true := by decide +kernel
  obtain ⟨t, hg, -, hbits, -⟩ := h wideEvents .smbus 0xE1 1 hw
  have hc : wideEvents.gives (.evtPendingClear .smbus 0xE1 1) (wideEvents.clearEvents (0xE1 : Byte).toNat (1 : Word).toNat) := by
    rw [← State.setWord_clear hw (1 : Word).toNat]
    exact State.gives_header hw (1 : Word).toNat (by decide) rfl
  have hsame : wideEvents.settled t = wideEvents.settled (wideEvents.clearEvents (0xE1 : Byte).toNat (1 : Word).toNat) :=
    Host.Outcome.next.inj (hg.symm.trans hc)
  have hkept (u : State) : (wideEvents.settled u).evt 0xE1 32 = u.evt 0xE1 32 := by
    rw [State.evt, State.get_settled_page _ _ rfl (by decide), State.evt]
  have ht : t.evt 0xE1 32 = false := by
    rw [← hkept t, hsame, hkept]
    exact State.evt_clearEvents_past _ _ _
  have hbit := hbits 32
  have hs : wideEvents.evt 0xE1 32 = true := by decide +kernel
  have hm : bitOf (1 : Word).toNat 32 = false := by decide
  change t.evt 0xE1 32 = (wideEvents.evt 0xE1 32 && !bitOf (1 : Word).toNat 32) at hbit
  rw [ht, hs, hm] at hbit
  exact absurd hbit (by decide)

/-! ## An event of a page that is none, and the interrupt (R403, R409) -/

/-- A page number past the 256 pages: the word of PCIE_MASK that it would index is SMB's count of timeouts. -/
def farPage : Nat := 32 * 0x383F4

/-- The device after reset with SMB's timeout event enabled and unmasked, and an event pending on the far page. -/
def farEvent : State :=
  (((State.reset.put (HDR.EVT_ENABLE SMB.page) 2).put (SYS.PCIE_MASK 7) 2).put (HDR.EVT_RAW farPage) 1).put
    (HDR.EVT_ENABLE farPage) 1

/-- The pending bit of MSI-X, once set, stays set as the links send. -/
theorem State.pba_raise {s : State} (h : s.get PCE.MSIX_PBA = 1) (p b : Nat) : (s.raise p b).get PCE.MSIX_PBA = 1 := by
  have hput : (s.put (HDR.EVT_RAW p) (setBit (s.get (HDR.EVT_RAW p)) b true)).get PCE.MSIX_PBA = 1 := by
    rw [s.get_put_ne _ (evtRaw_ne_pba p).symm, h]
  unfold State.raise State.irqEdge State.msix
  split
  · split
    · exact hput
    · rw [State.get_put_self]
      rfl
  · exact hput

theorem State.pba_settled {t : State} (h : t.get PCE.MSIX_PBA = 1) (s : State) : (s.settled t).get PCE.MSIX_PBA = 1 := by
  have hf : t.flushLinks.get PCE.MSIX_PBA = 1 := by
    refine State.flushLinks_induct (P := fun u => u.get PCE.MSIX_PBA = 1) (fun _ _ _ _ h => h) (fun _ _ _ h => h)
      (fun _ _ _ h => h) (fun _ _ h => h) (fun u g n hg h => ?_) (fun u b h => u.pba_raise h _ b) h
    have hne : PCE.MSIX_PBA.key ≠ g.key := by
      revert g
      decide
    rw [u.get_inc_ne n hne, h]
  have hc : t.flushLinks.checkService.get PCE.MSIX_PBA = 1 := by
    unfold State.checkService
    split
    · refine State.pba_raise ?_ _ _
      rw [State.get_put_ne _ _ (by decide), hf]
    · exact hf
  exact (State.get_of_reg (by simp only [State.settled]) _).trans hc

/-- Refutes O23: counting the timeout unmasks the far page, so the interrupt is up before the event is raised, its level does
not rise, and no pending bit is set. -/
theorem not_pcieLinkAndInterrupt : ¬ Obligations.PcieLinkAndInterrupt := by
  intro h
  obtain ⟨t, hg, -, hpba⟩ := (h.2 farEvent (by decide +kernel) (by decide +kernel) (by decide +kernel) (by decide +kernel)).2
    (.inl (by decide +kernel))
  have hset := State.pba_settled hpba farEvent
  have hrun : ∀ u, exec .smbusTimeout farEvent = .next u → u.get PCE.MSIX_PBA = 0 := by
    have heval : (match exec .smbusTimeout farEvent with
      | .next u => u.get PCE.MSIX_PBA
      | _ => 1) = 0 := by decide +kernel
    intro u hu
    rwa [hu] at heval
  exact absurd ((hrun _ hg).symm.trans hset) (by decide)

/-! ## An entry of the sequence table that is none (R325, R327) -/

/-- The device after reset in power-up at an entry past the table, whose EN would be the pending bit of MSI-X; SEQ_FAULT is
enabled and unmasked. -/
def farEntry : State :=
  let s := (State.reset.put (HDR.EVT_ENABLE PSQ.page) (2 ^ 32 - 1)).put (SYS.PCIE_MASK 0) (2 ^ 32 - 1)
  { s with pwr := { s.pwr with seq := .rising, wait := .good, entry := 56848, seqEn := 1 } }

/-- Refutes O9: raising SEQ_FAULT sets the pending bit, which the far entry's EN then names, so another output falls than the
one that EN named before. -/
theorem not_powerSequencer : ¬ Obligations.PowerSequencer := by
  intro h
  obtain ⟨t, hrun, -, -, -, hen, -⟩ := (h.2.1 farEntry (by decide +kernel) rfl).2.2.2 rfl
  have heval : (match exec .seqUpTimeout farEntry with
    | .next u => u.pwr.seqEn
    | _ => 0) = 1 := by decide +kernel
  have hnamed : setBit farEntry.pwr.seqEn (farEntry.get (PSQ.EN farEntry.pwr.entry)) false = 0 := by decide +kernel
  rw [hrun] at heval
  exact absurd (heval.symm.trans (hen.trans hnamed)) (by decide)

/-! ## Parking (R343, R344) -/

namespace State

/-- What is queued to be sent leaves all that a request is judged by but for the queues themselves. -/
theorem flushWaiting_pwr (s : State) : s.flushWaiting.pwr = s.pwr := by
  have hrelay (v : State) (r : RetAddr × List Byte) : (v.relayAnswer r.1 r.2).pwr = v.pwr := by
    unfold relayAnswer
    dsimp only
    split
    · rfl
    · split <;> rfl
  rw [flushWaiting, foldl_keeps State.pwr hrelay]
  exact foldl_keeps State.pwr (fun (v : State) (w : Waiting) => ((State.Alike.refl v).sendDgram w.dst w.hdr w.data w.slot w.lat).pwr) _ _

/-- PARK written 1 where the device may not park. -/
theorem writePark_rejected {s : State} (h : s.serviceUp = false ∨ s.mus.state ≠ .armed ∨ s.peerReturning = true) :
    s.writePark true = s.raise PSQ.page PSQ.evPARK_REJECT := by
  rw [writePark, if_pos rfl, if_pos]
  rcases h with h | h | h <;> simp [h]

/-- PARK written 1 on an awake device that may park. -/
theorem writePark_taken {s : State} (hu : s.serviceUp = true) (hm : s.mus.state = .armed) (hr : s.peerReturning = false)
    (hp : s.pwr.park = .awake) : s.writePark true = { s.put PSQ.PARK 1 with pwr := { s.pwr with parkReq := true } } := by
  rw [writePark, if_pos rfl, if_neg (by simp [hu, hm, hr])]
  simp only [put_pwr, hp]

/-- PARK written 0 on a parked device asks for a wake. -/
theorem writePark_wakes {s : State} (hp : s.pwr.park = .parked) :
    s.writePark false = { s.put PSQ.PARK 0 with pwr := { s.pwr with
      parkReq := false, reparkReq := false, wakeReason := setBit s.pwr.wakeReason 0 true, wakeReq := true } } := by
  simp [writePark, wakeSource, hp]

/-- PARKING ends in PARKED with the host SerDes off. -/
theorem parkDone_parks {s : State} (hp : s.pwr.park = .parking) :
    s.parkDone.pwr = { s.pwr with park := .parked, hostSerdes := false } ∧ s.parkDone.evt PSQ.page PSQ.evPARKED_EVT = true := by
  rw [parkDone, if_neg (by simp [hp])]
  refine ⟨?_, evt_raise_self _ _ _ (by decide)⟩
  rw [raise_pwr]
  exact congrArg (fun x : PowerSt => { x with park := .parked, hostSerdes := false }) s.flushWaiting_pwr

/-- A cause to wake of a parked device. -/
theorem wakeSource_parked {s : State} (hp : s.pwr.park = .parked) (i : Nat) :
    s.wakeSource i = { s with pwr := { s.pwr with wakeReason := setBit s.pwr.wakeReason i true, wakeReq := true } } := by
  simp [wakeSource, hp]

theorem parkDone_idle {s : State} (hp : s.pwr.park ≠ .parking) : s.parkDone = s := by
  rw [parkDone, if_pos (by simpa using hp)]

/-- WAKING ends in AWAKE. -/
theorem awake_woken {s : State} (hp : s.pwr.park = .waking) :
    s.awake = ({ s with pwr := { s.pwr with park := .awake, wakeReq := false } }).raise PSQ.page PSQ.evWOKEN := by
  rw [awake, if_neg (by simp [hp])]

theorem awake_idle {s : State} (hp : s.pwr.park ≠ .waking) : s.awake = s := by
  rw [awake, if_pos (by simpa using hp)]

end State

/-- Settles O15: each command is a branch of the parking state machine. -/
theorem parking : Obligations.Parking := by
  intro s hd
  have hw (path : Path) (v : Bool) (h : s.canWrite path PSQ.PARK = true) : s.gives (.park path v) (s.writePark v) :=
    State.gives_regRun (f := PSQ.PARK) (act := fun s => s.writePark v) h rfl
  have hsig (port : Fin 16) : s.gives (.signalWake port) (if s.flag PSQ.WAKE_SIG_EN && port.val < 16 then s.wakeSource 2 else s) :=
    State.gives_whenDp (fun s => if s.flag PSQ.WAKE_SIG_EN && port.val < 16 then s.wakeSource 2 else s) hd rfl
  have hpark : s.gives .parked s.parkDone := State.gives_whenDp State.parkDone hd rfl
  have hawake : s.gives .awake s.awake := State.gives_whenDp State.awake hd rfl
  refine ⟨fun path h => ⟨fun hno => ?_, fun hu hm hr hp => ?_, fun hp => ?_⟩, fun hp => ?_, fun hp => ?_, fun port hen hp => ?_,
    fun port hno => ?_, fun hp => ?_, fun hp => ?_⟩
  · have hg := hw path true h
    rw [State.writePark_rejected hno] at hg
    exact hg
  · have hg := hw path true h
    rw [State.writePark_taken hu hm hr hp] at hg
    exact hg
  · have hg := hw path false h
    rw [State.writePark_wakes hp] at hg
    exact hg
  · obtain ⟨hpwr, hevt⟩ := State.parkDone_parks hp
    refine hpark.answers ⟨?_, ?_, State.evt_settled hevt (by decide) s⟩
    · rw [State.settled_pwr, hpwr]
    · rw [State.settled_pwr, hpwr]
  · rw [State.parkDone_idle hp] at hpark
    exact hpark
  · have hg := hsig port
    rw [if_pos (by simp [hen, port.isLt]), State.wakeSource_parked hp] at hg
    exact hg
  · have hg := hsig port
    have hs : (if s.flag PSQ.WAKE_SIG_EN && port.val < 16 then s.wakeSource 2 else s) = s := by
      rcases hno with hno | hno <;> simp [State.wakeSource, hno]
    rw [hs] at hg
    exact hg
  · rw [State.awake_woken hp] at hawake
    exact hawake
  · rw [State.awake_idle hp] at hawake
    exact hawake

end Sys2Proof.Machine

/-! PROOFS. Resets: what the key store reloads, what each domain's reset leaves, RST.CAUSE (R289, R334, R335, R338, R359). -/

namespace Sys2Proof.Machine

-- One proof at a time: many at once outgrow the memory that the check gives.
set_option Elab.async false

/-! ## Work of the key store -/

/-- A state without its registers, what it has sent and the key store. -/
def State.offKeys (s : State) : State := { s with reg := [], out := [], key := {} }

/-- `t` is `s` but for work of the key store and its channels, which counts and raises. -/
structure State.Keyed (s t : State) : Prop where
  rest : t.offKeys = s.offKeys
  regs : ∀ f : Fld, f.standing = true → t.get f = s.get f
  evt : ∀ {p b : Nat}, b < 32 → s.evt p b = true → t.evt p b = true

theorem State.msix_offKeys (s : State) : s.msix.offKeys = s.offKeys := by
  unfold State.msix
  split <;> rfl

@[simp] theorem State.raise_offKeys (s : State) (p b : Nat) : (s.raise p b).offKeys = s.offKeys := by
  unfold State.raise State.irqEdge
  split
  · exact State.msix_offKeys _
  · rfl

@[simp] theorem State.put_offKeys (s : State) (f : Fld) (v : Nat) : (s.put f v).offKeys = s.offKeys := rfl

@[simp] theorem State.setb_offKeys (s : State) (f : Fld) (i : Nat) (b : Bool) : (s.setb f i b).offKeys = s.offKeys := rfl

@[simp] theorem State.lockA_offKeys (s t : State) : (s.lockA t).offKeys = t.offKeys := by
  unfold State.lockA
  split <;> rfl

namespace State.Keyed

variable {s t u : State}

theorem refl (s : State) : s.Keyed s := ⟨rfl, fun _ _ => rfl, fun _ h => h⟩

theorem trans (h : s.Keyed t) (h' : t.Keyed u) : s.Keyed u :=
  ⟨h'.rest.trans h.rest, fun f hf => (h'.regs f hf).trans (h.regs f hf), fun hb he => h'.evt hb (h.evt hb he)⟩

section
variable (h : s.Keyed t)
include h

/-- A change of the key store or of what is sent. -/
theorem aside (hu : u.offKeys = t.offKeys := by rfl) (hr : u.reg = t.reg := by rfl) : s.Keyed u :=
  h.trans ⟨hu, fun _ _ => State.get_of_reg hr _, fun _ he => by rwa [State.evt, State.get_of_reg hr]⟩

theorem put {g : Fld} (v : Nat) (hg : g.tells = true := by rfl) (hn : g.noEvent = true := by rfl) : s.Keyed (t.put g v) :=
  h.trans ⟨rfl, fun _ hf => t.get_put_ne v (Fld.key_ne_of_tells hf hg),
    fun _ he => by rwa [State.evt, t.get_put_ne v (evtRaw_ne_noEvent _ hn)]⟩

theorem raise (p b : Nat) : s.Keyed (t.raise p b) :=
  h.trans ⟨t.raise_offKeys p b, ((State.Told.refl t).raise p b).regs, fun hb he => State.evt_raise he hb p b⟩

/-- What reads nothing of the key store is the same. -/
theorem asks {β : Type} (p : State → β) (hp : ∀ v : State, p v.offKeys = p v) : p t = p s := by rw [← hp t, h.rest, hp]

end

end State.Keyed

/-- The root key's working copy stands as it did, too. -/
structure State.KeyUsed (s t : State) : Prop extends s.Keyed t where
  root : t.key.rootGone = s.key.rootGone

namespace State.KeyUsed

variable {s t u : State}

theorem refl (s : State) : s.KeyUsed s := ⟨.refl s, rfl⟩

theorem trans (h : s.KeyUsed t) (h' : t.KeyUsed u) : s.KeyUsed u := ⟨h.toKeyed.trans h'.toKeyed, h'.root.trans h.root⟩

section
variable (h : s.KeyUsed t)
include h

theorem aside (hu : u.offKeys = t.offKeys := by rfl) (hr : u.reg = t.reg := by rfl)
    (hk : u.key.rootGone = t.key.rootGone := by rfl) : s.KeyUsed u := ⟨h.toKeyed.aside hu hr, hk.trans h.root⟩

theorem put {g : Fld} (v : Nat) (hg : g.tells = true := by rfl) (hn : g.noEvent = true := by rfl) : s.KeyUsed (t.put g v) :=
  ⟨h.toKeyed.put v hg hn, h.root⟩

theorem inc {g : Fld} (n : Nat) (hg : g.tells = true := by rfl) (hn : g.noEvent = true := by rfl) : s.KeyUsed (t.inc g n) :=
  h.put _ hg hn

theorem raise (p b : Nat) : s.KeyUsed (t.raise p b) :=
  ⟨h.toKeyed.raise p b, (congrArg KeySt.rootGone (t.raise_key p b)).trans h.root⟩

theorem raiseIf (c : Bool) (p b : Nat) : s.KeyUsed (t.raiseIf c p b) := by
  cases c
  · exact h
  · exact h.raise p b

/-! ### Cipher channels and counters (R290, R300) -/

theorem chanStart (c : Nat) (j : ChanJob) : s.KeyUsed (t.chanStart c j) := by
  unfold State.chanStart
  split
  rename_i x susp full _
  refine raiseIf ?_ _ _ _
  have hk : s.KeyUsed { t with key := { t.key with chan := mput t.key.chan c x } } := h.aside
  cases susp
  · exact hk
  · exact (hk.inc _).inc _

theorem channelMsg (i bytes prio : Nat) (bad legacy : Bool) (count : Nat) (ctx : MsgCtx) :
    s.KeyUsed (t.channelMsg i bytes prio bad legacy count ctx) := by
  have hm (c j b) : s.KeyUsed ((({ t with key := { t.key with drbgReqs := t.key.drbgReqs + b } } : State).chanStart c j |>.inc
      (CCH.BLOCKS c) b).inc (CCH.MESSAGES c) count) := ((chanStart h.aside c j).inc b).inc count
  unfold State.channelMsg
  split
  · exact h
  · cases legacy <;> cases bad
    · exact hm _ _ _
    · exact ((hm _ _ _).inc _).raise _ _
    · exact (hm _ _ _).inc _
    · exact (((hm _ _ _).inc _).inc _).raise _ _

theorem useCounter (n : Nat) : s.KeyUsed (t.useCounter n).2 := by
  have hc : s.KeyUsed (t.useCounters n 1).2 := by
    unfold State.useCounters
    split
    · exact h
    split
    · exact h
    split
    · exact raise h.aside _ _
    · dsimp only
      split <;> exact h.aside
  unfold State.useCounter
  split <;> rename_i e <;> rwa [e] at hc

end

end State.KeyUsed

/-! ## Reloading (R289) -/

section
variable {s t : State} (h : s.Keyed t)
include h

theorem State.Keyed.reloadOne (r : BlobRec) : s.Keyed (t.reloadOne r) := by
  unfold State.reloadOne
  split
  · exact h.raise _ _
  split
  · exact (h.trans ((State.KeyUsed.refl t).channelMsg _ _ _ _ _ _ _).toKeyed).raise _ _
  · exact (h.trans ((State.KeyUsed.refl t).channelMsg _ _ _ _ _ _ _).toKeyed).aside

theorem State.Keyed.reloadFrom (rs : List BlobRec) : s.Keyed (State.reloadFrom rs t) := by
  induction rs generalizing t with
  | nil => exact h.aside
  | cons r rs ih =>
    unfold State.reloadFrom
    split
    · exact h.aside
    · exact ih (h.reloadOne r)

theorem State.Keyed.reloadKeys : s.Keyed t.reloadKeys := State.Keyed.reloadFrom h.aside _

end

/-! ## Registers restored (R406) -/

theorem mget_filter {α : Type} (m : NMap α) (p : Nat → Bool) {k : Nat} (h : p k = true) :
    mget (m.filter fun e => p e.1) k = mget m k := by
  induction m with
  | nil => rfl
  | cons e m ih =>
    obtain ⟨j, w⟩ := e
    by_cases hj : p j = true
    · simp [hj, mget, ih]
    · have hne : j ≠ k := fun e => hj (e ▸ h)
      simp [hj, mget, ih, hne]

/-- A register that no reset restores keeps its value. -/
theorem State.get_clearRegs (s : State) {p : Nat → Bool} {f : Fld} (h : p f.key = false) : (s.clearRegs p).get f = s.get f := by
  have hm := mget_filter s.reg (fun k => !p k) (k := f.key) (by simp [h])
  simp only [State.get, State.clearRegs, mgetD, hm]

/-- A bit of RST.CAUSE set. -/
theorem State.cause_setb (s : State) {i : Nat} (h : i < 8) : bitOf ((s.setb RST.CAUSE i true).get RST.CAUSE) i = true := by
  rw [State.setb, State.get_put_self, show RST.CAUSE.width = 8 from rfl, bitOf_mod h, bitOf_setBit_self]

/-! ## The management domain (R334, R359) -/

section
variable {s : State}

/-- A management reset with no firmware command in work: the boot ROM starts. -/
theorem State.mgReset_idle (h : s.cur.fw = []) : s.mgReset = { s.clearRegs (keyOf .management) with cur := { s.cur with
    todo := s.cur.todo.filter fun e => e.1 == 3, dlBytes := 0, dlRanges := [], dlSectors := [], verifying := none, selecting := false
    booting := true, active := 0, recovery := false, fallback := false, verified := false
    txq := [], prefetch := [], branch := [], dead := [] } } := by
  rw [State.mgReset, h]
  rfl

/-- A register of the supervisor keeps its value through it. -/
theorem State.get_mgReset (h : s.cur.fw = []) {f : Fld} (hf : keyOf .management f.key = false) : s.mgReset.get f = s.get f := by
  rw [State.mgReset_idle h]
  exact s.get_clearRegs hf

/-- What CUR is told of a reset touches no register but its own. -/
theorem State.get_lastReset (s : State) (cause : Nat) {f : Fld} (hp : f.key ≠ PCE.MSIX_PBA.key) (he : f.noEvent = true)
    (h1 : f.key ≠ CUR.LAST_WDT.key) (h2 : f.key ≠ CUR.LAST_LOCKUP.key) : (s.lastReset cause).get f = s.get f := by
  have hr (v : State) (b : Nat) : (v.raise CUR.page b).get f = v.get f := v.get_raise _ b (evtRaw_ne_noEvent _ he).symm hp
  unfold State.lastReset
  dsimp only
  split <;> split
  · rw [hr, hr]
  · rw [hr, State.get_put_ne _ _ h1]
  · rw [State.get_put_ne _ _ h2, hr]
  · rw [State.get_put_ne _ _ h2, State.get_put_ne _ _ h1]

@[simp] theorem State.lastReset_offKeys (s : State) (cause : Nat) : (s.lastReset cause).offKeys = s.offKeys := by
  unfold State.lastReset
  dsimp only
  split <;> split <;> simp

@[simp] theorem State.lastReset_key (s : State) (cause : Nat) : (s.lastReset cause).key = s.key := by
  unfold State.lastReset
  dsimp only
  split <;> split <;> simp

/-- The outputs' stretch after a reset that is over at once: nothing else changes (R337). -/
theorem State.rstPulse_keeps {α : Type} (p : State → α)
    (hp : ∀ (v : State) st, p { v with pwr := { v.pwr with rstStretch := st } } = p v) (s : State) (dp : Bool) :
    p (s.rstPulse dp) = p s := by
  refine foldl_keeps p (fun v x => ?_) _ s
  dsimp only
  split
  · exact hp v _
  · rfl

end

/-! ## The datapath domain (R334, R338, R406) -/

namespace State

variable (s : State)

theorem dpReset_cur : s.dpReset.cur = s.cur := by
  unfold dpReset
  dsimp only [clearRegs]
  split <;> simp

theorem dpReset_pwr : s.dpReset.pwr = { s.pwr with
    hostSerdes := s.pwr.park != .parked && s.pwr.park != .parking, parkReq := false, reparkReq := false } := by
  unfold dpReset
  dsimp only [clearRegs]
  split <;> simp

theorem dpReset_vit : s.dpReset.vit = { s.vit with frozen := false, deferred := none } := by
  unfold dpReset
  dsimp only [clearRegs]
  split <;> simp

theorem dpReset_coreLock : s.dpReset.clk.coreLock = s.clk.coreLock := by
  unfold dpReset
  dsimp only [clearRegs]
  split <;> simp

/-- A register that neither the datapath nor its blocks hold keeps its value. -/
theorem get_dpReset {f : Fld} (hp : f.key ≠ PCE.MSIX_PBA.key) (he : f.noEvent = true) (hf : keyOf .datapath f.key = false) :
    s.dpReset.get f = s.get f := by
  refine (get_clearRegs (if s.serviceUp then s.raise SYS.page SYS.evSERVICE_CLOSED else s) hf).trans ?_
  split
  · exact s.get_raise _ _ (evtRaw_ne_noEvent _ he).symm hp
  · rfl

/-- Leaving reset, the datapath samples the straps; all else is work of the key store. -/
theorem leaveDp_offKeys : s.leaveDp.offKeys =
    ({ s with pwr := { s.pwr with gangId := s.pwr.strapGang, twinPos := s.pwr.strapTwin } } : State).offKeys :=
  (Keyed.refl _).reloadKeys.rest

theorem get_leaveDp {f : Fld} (hf : f.standing = true) (hs : f.key ≠ CPH.STORE_KEY.key) : s.leaveDp.get f = s.get f :=
  ((Keyed.refl _).reloadKeys.regs f hf).trans (get_put_ne _ _ hs)

theorem evt_leaveDp {p b : Nat} (hb : b < 32) (h : s.evt p b = true) : s.leaveDp.evt p b = true := by
  refine (Keyed.refl _).reloadKeys.evt hb ?_
  rw [evt, get_put_ne _ _ (evtRaw_ne_noEvent p rfl)]
  exact h

/-- A management and a datapath reset together, before the datapath leaves reset. -/
def bothReset (cause : Nat) : State :=
  ({ s.setb RST.CAUSE cause true with cur := { s.cur with fw := [] } } : State).dpReset.mgReset.lastReset cause

theorem domainReset_both (cause : Nat) : s.domainReset cause true =
    let t := (s.setb RST.CAUSE cause true).lockA (s.bothReset cause).leaveDp
    if s.mus.state == .mustered && !s.vit.frozen && cause != 2 && cause != 6 then
      { t with mus := { t.mus with state := .mustered, step := .done, stopped := true } }
    else t := rfl

/-- What a reset of both domains leaves of the device. -/
structure Started (t : State) : Prop where
  q : t.q = {}
  win : t.win = {}
  net : t.net = {}
  mem : t.mem = []
  twin : t.cm.twin = .start
  frozen : t.vit.frozen = false
  booting : t.cur.booting = true
  pwr : t.pwr = { s.pwr with
    hostSerdes := s.pwr.park != .parked && s.pwr.park != .parking, parkReq := false, reparkReq := false
    gangId := s.pwr.strapGang, twinPos := s.pwr.strapTwin }
  coreLock : t.clk.coreLock = s.clk.coreLock

variable {s} in
theorem Started.of_offKeys {t u : State} (h : s.Started t) (e : u.offKeys = t.offKeys) : s.Started u where
  q := (congrArg State.q e).trans h.q
  win := (congrArg State.win e).trans h.win
  net := (congrArg State.net e).trans h.net
  mem := (congrArg State.mem e).trans h.mem
  twin := (congrArg (fun v : State => v.cm.twin) e).trans h.twin
  frozen := (congrArg (fun v : State => v.vit.frozen) e).trans h.frozen
  booting := (congrArg (fun v : State => v.cur.booting) e).trans h.booting
  pwr := (congrArg State.pwr e).trans h.pwr
  coreLock := (congrArg (fun v : State => v.clk.coreLock) e).trans h.coreLock

/-- The state between the two domains' resets and the keys' reloading. -/
theorem bothReset_offKeys (cause : Nat) : ∃ u : State, (s.bothReset cause).offKeys = u.offKeys ∧
    u = ({ s.setb RST.CAUSE cause true with cur := { s.cur with fw := [] } } : State).dpReset.mgReset :=
  ⟨_, lastReset_offKeys _ _, rfl⟩

end State

end Sys2Proof.Machine

/-! PROOFS. What answers sent, and frames queued and sent, leave alone: the root key, clocks and power, settings, and events raised
(R44, R50, R58, R60, R82). -/

namespace Sys2Proof.Machine

-- One proof at a time: many at once outgrow the memory that the check gives.
set_option Elab.async false

/-- The root key's working copy gone or not, the clocks and power, which no answer touches. -/
def State.steady (s : State) : Bool × ClockSt × PowerSt := (s.key.rootGone, s.clk, s.pwr)

/-- `t` is `s` but for answers sent, as far as settings, events and `steady` go. -/
structure State.Replies (s t : State) : Prop where
  steady : t.steady = s.steady
  regs : ∀ f : Fld, f.standing = true → t.get f = s.get f
  evt : ∀ {p b : Nat}, b < 32 → s.evt p b = true → t.evt p b = true

namespace State.Replies

variable {s t u : State}

theorem refl (s : State) : s.Replies s := ⟨rfl, fun _ _ => rfl, fun _ h => h⟩

theorem trans (h : s.Replies t) (h' : t.Replies u) : s.Replies u :=
  ⟨h'.steady.trans h.steady, fun f hf => (h'.regs f hf).trans (h.regs f hf), fun hb he => h'.evt hb (h.evt hb he)⟩

/-- A fold does what its steps do. -/
theorem foldl {γ : Type} {g : State → γ → State} (hg : ∀ (v : State) (c : γ), v.Replies (g v c)) (l : List γ) (h : s.Replies t) :
    s.Replies (l.foldl g t) := by
  induction l generalizing t with
  | nil => exact h
  | cons c l ih => exact ih (h.trans (hg t c))

/-- Work of the key store that leaves the root key. -/
theorem of_keyUsed (h : s.KeyUsed t) : s.Replies t where
  steady := by
    rw [State.steady, h.root, h.asks State.clk fun _ => rfl, h.asks State.pwr fun _ => rfl, State.steady]
  regs := h.regs
  evt := h.evt

section
variable (h : s.Replies t)
include h

theorem root : t.key.rootGone = s.key.rootGone := congrArg Prod.fst h.steady

theorem clk : t.clk = s.clk := congrArg (fun x => x.2.1) h.steady

theorem pwr : t.pwr = s.pwr := congrArg (fun x => x.2.2) h.steady

/-- A change of what answers may touch, apart from registers. -/
theorem aside (hs : u.steady = t.steady := by rfl) (hr : u.reg = t.reg := by rfl) : s.Replies u :=
  h.trans ⟨hs, fun _ _ => State.get_of_reg hr _, fun _ he => by rwa [State.evt, State.get_of_reg hr]⟩

theorem send (o : Out) : s.Replies (t.send o) := h.aside

theorem setRegion1 (a : Nat) (bs : List Byte) : s.Replies (t.setRegion1 a bs) := h.aside

theorem used (h' : t.KeyUsed u) : s.Replies u := h.trans (of_keyUsed h')

theorem inc {g : Fld} (n : Nat) (hg : g.tells = true := by rfl) (hn : g.noEvent = true := by rfl) : s.Replies (t.inc g n) :=
  h.used ((State.KeyUsed.refl t).inc n hg hn)

theorem raise (p b : Nat) : s.Replies (t.raise p b) := h.used ((State.KeyUsed.refl t).raise p b)

/-! ## Slots (R60) -/

theorem post (d : Option Nat) (typ qid detail : Nat) : s.Replies (t.post d typ qid detail) :=
  h.trans (foldl (g := fun u n => u.postTo typ qid detail n) (fun v _ => (refl v).aside) _ (refl t))

theorem setQueue (n : Nat) (q : Queue) : s.Replies (t.setQueue n q) := h.aside

theorem returnSlot (n seq : Nat) : s.Replies (t.returnSlot n seq) := by
  unfold State.returnSlot
  dsimp only
  split
  · exact h
  · refine h.trans ?_
    generalize hv : t.setQueue n _ = v
    have hq : t.Replies v := hv ▸ (refl t).setQueue n _
    unfold State.checkFree
    extract_lets q due
    split
    · exact (hq.setQueue n {}).post _ _ _ _
    · exact hq

theorem slotBack (slot : Option (Nat × Nat)) : s.Replies (t.slotBack slot) := by
  cases slot
  · exact h
  · exact h.returnSlot _ _

/-! ## Datagrams (R44) -/

theorem sendDrift (j typ epoch : Nat) (payload : List Byte) (last : Bool) : s.Replies (t.sendDrift j typ epoch payload last) := by
  unfold State.sendDrift
  dsimp only
  split
  · exact h.aside
  · exact h

theorem emit (w : Waiting) (x : Option (Nat × Nat × List Byte)) : s.Replies (t.emit w x) := by
  have hl : s.Replies (match w.lat with
      | some (c, a) => t.countLatency c a
      | none => t) := by
    cases w.lat
    · exact h
    · exact h.aside
  unfold State.emit
  dsimp only
  split
  · exact (inc hl.aside _).sendDrift _ _ _ _ _
  · have hc : (txCounter w.dst.link.port.val w.hdr.typ).tells = true ∧ (txCounter w.dst.link.port.val w.hdr.typ).noEvent = true := by
      unfold txCounter
      split
      · exact ⟨rfl, rfl⟩
      · split <;> exact ⟨rfl, rfl⟩
    exact aside (inc (g := HP.TX_FRAMES w.dst.link.port.val) (hl.inc _ hc.1 hc.2) 1)

theorem trySend (w : Waiting) : s.Replies (t.trySend w).1 := by
  unfold State.trySend
  dsimp only
  split
  · exact h.inc _
  split
  · exact h
  split
  · split
    · exact h
    split
    · exact h
    · have hu := (State.KeyUsed.refl t).useCounter (t.get (XPT.SEAL_TX_KEY w.dst.link.port.val))
      split <;> rename_i e <;> rw [e] at hu
      · refine emit ?_ _ _
        have hm := fun i bytes prio ctx => h.used (hu.channelMsg i bytes prio false false 1 ctx)
        unfold State.chargeLine
        split
        · exact hm _ _ _ _
        · exact aside (hm _ _ _ _)
      · exact h.used hu
  · exact h.emit _ _

theorem sendDgram (dst : RetAddr) (hdr : AnsHdr) (data : List Byte) (slot lat : Option (Nat × Nat)) :
    s.Replies (t.sendDgram dst hdr data slot lat) := by
  have ht := h.trySend ⟨dst, hdr, data, slot, lat⟩
  unfold State.sendDgram
  dsimp only
  split
  · exact h.aside
  · split <;> rename_i e <;> rw [e] at ht
    · exact ht.slotBack slot
    · exact ht.aside

/-- What waits to be sent, tried again (R44). -/
theorem flushWaiting : s.Replies t.flushWaiting := by
  unfold State.flushWaiting
  refine foldl (fun v r => ?_) _ (foldl (fun v w => (refl v).sendDgram _ _ _ _ _) _ h.aside)
  unfold State.relayAnswer
  dsimp only
  split
  · exact (refl v).inc _
  split
  · exact (refl v).aside
  · exact aside (inc (g := HP.TX_FRAMES r.1.link.port.val) (refl v) 1)

/-! ## Answers (R50, R58, R82) -/

theorem sendSeg (r : Req) (epoch status k : Nat) (last untrusted : Bool) (data : List Byte) (slot lat : Option (Nat × Nat)) :
    s.Replies (t.sendSeg r epoch status k last untrusted data slot lat) := by
  unfold State.sendSeg
  split
  · exact h.slotBack slot
  · exact h.sendDgram _ _ _ _ _

theorem finish (r : Req) (epoch status : Nat) (data : List Byte) : s.Replies (t.finish r epoch status data) := by
  unfold State.finish
  extract_lets k told
  split
  · exact h
  have hsent : s.Replies (t.respondAt r epoch status data) := by
    unfold State.respondAt
    split
    · exact h
    · exact foldl (fun v _ => (refl v).sendSeg _ _ _ _ _ _ _ _ _) _ h
  unfold State.recordAnswer
  split
  · exact hsent
  · exact hsent.aside

theorem adm0Answer (r : Req) (status : Nat) (data : List Byte) : s.Replies (t.adm0Answer r status data) := by
  unfold State.adm0Answer
  dsimp only
  generalize hv : List.foldl _ t _ = v
  have hs : s.Replies v := hv ▸ foldl (fun v _ => ((refl v).setRegion1 _ _).send _) _ h
  exact raise hs.aside _ _

theorem adminAnswer (r : Req) (epoch status : Nat) (data : List Byte) : s.Replies (t.adminAnswer r epoch status data) := by
  unfold State.adminAnswer
  split
  · exact h.adm0Answer _ _ _
  · exact h.finish _ _ _ _

/-- A firmware command that ends (R107, R108). -/
theorem fwEnd (status : Nat) : s.Replies (t.fwEnd status) := by
  unfold State.fwEnd
  split
  · exact h
  · exact adminAnswer h.aside _ _ _ _

end

end State.Replies

end Sys2Proof.Machine

/-! PROOFS. Resets asked for: of both domains, of the management domain alone, by software and by DBG_RESET (R334, R356, R388). -/

namespace Sys2Proof.Machine

-- One proof at a time: many at once outgrow the memory that the check gives.
set_option Elab.async false

/-- What reads neither registers nor keys nor what is sent is the same in states that differ in nothing else. -/
theorem State.of_offKeys {α : Type} {s t : State} (p : State → α) (hp : ∀ v : State, p v.offKeys = p v)
    (h : t.offKeys = s.offKeys) : p t = p s := by
  rw [← hp t, h, hp]

theorem State.settled_twin (s t : State) : (s.settled t).cm.twin = t.cm.twin := by
  have h := State.settled_sameCommit s t
  unfold State.sameCommit at h
  rw [← h]

/-- Memory with no byte listed reads 0 everywhere (R113). -/
theorem Memory.read_of_empty {m : Memory} (h : m = []) (a : Nat) : Memory.read m a = 0 := by
  rw [h]
  rfl

/-- The reset's bit of RST.CAUSE is set, and what stands there is not judged with data service. -/
theorem State.cause_settled (s t : State) : (s.settled t).get RST.CAUSE = t.get RST.CAUSE :=
  s.get_settled_standing t rfl (by decide)

namespace State

variable (s : State)

/-! ## Both domains (R334) -/

theorem bothReset_fw (cause : Nat) :
    (({ s.setb RST.CAUSE cause true with cur := { s.cur with fw := [] } } : State).dpReset).cur.fw = [] := by
  rw [dpReset_cur]

theorem bothReset_started (cause : Nat) : s.Started (s.bothReset cause).leaveDp := by
  have hidle := mgReset_idle (s.bothReset_fw cause)
  generalize hd : ({ s.setb RST.CAUSE cause true with cur := { s.cur with fw := [] } } : State).dpReset = d at hidle
  have hlast : (s.bothReset cause).offKeys = d.mgReset.offKeys := by
    rw [bothReset, lastReset_offKeys, hd]
  have hpwr : (s.bothReset cause).pwr = d.pwr := by
    rw [show (s.bothReset cause).pwr = d.mgReset.pwr from of_offKeys State.pwr (fun _ => rfl) hlast, hidle]
    rfl
  have hd' : d.pwr = { s.pwr with
      hostSerdes := s.pwr.park != .parked && s.pwr.park != .parking, parkReq := false, reparkReq := false } := by
    rw [← hd, dpReset_pwr]
    rfl
  have hgone : ∀ {β : Type} (p : State → β), (∀ v : State, p v.offKeys = p v) →
      (∀ (v : State) (x : PowerSt), p { v with pwr := x } = p v) → p (s.bothReset cause).leaveDp = p d.mgReset := by
    intro β p hp hx
    rw [← hp, leaveDp_offKeys, hp, hx, ← hp, hlast, hp]
  refine ⟨?_, ?_, ?_, ?_, ?_, ?_, ?_, ?_, ?_⟩
  · rw [hgone State.q (fun _ => rfl) fun _ _ => rfl, hidle, ← hd]; rfl
  · rw [hgone State.win (fun _ => rfl) fun _ _ => rfl, hidle, ← hd]; rfl
  · rw [hgone State.net (fun _ => rfl) fun _ _ => rfl, hidle, ← hd]; rfl
  · rw [hgone State.mem (fun _ => rfl) fun _ _ => rfl, hidle, ← hd]; rfl
  · rw [hgone (fun v => v.cm.twin) (fun _ => rfl) fun _ _ => rfl, hidle, ← hd]; rfl
  · rw [hgone (fun v => v.vit.frozen) (fun _ => rfl) fun _ _ => rfl, hidle, ← hd]; rfl
  · rw [hgone (fun v => v.cur.booting) (fun _ => rfl) fun _ _ => rfl, hidle]
  · rw [of_offKeys State.pwr (fun _ => rfl) (leaveDp_offKeys _)]
    show ({ (s.bothReset cause).pwr with
      gangId := (s.bothReset cause).pwr.strapGang, twinPos := (s.bothReset cause).pwr.strapTwin } : PowerSt) = _
    rw [hpwr, hd']
  · rw [hgone (fun v => v.clk.coreLock) (fun _ => rfl) fun _ _ => rfl, hidle]
    exact (congrArg (fun v : State => v.clk.coreLock) hd.symm).trans (dpReset_coreLock _)

/-- The muster engine starts over (R406). -/
theorem bothReset_mus (cause : Nat) : (s.bothReset cause).leaveDp.mus.state = .unready := by
  rw [of_offKeys State.mus (fun _ => rfl) (leaveDp_offKeys _)]
  show (s.bothReset cause).mus.state = .unready
  rw [bothReset, of_offKeys State.mus (fun _ => rfl) (lastReset_offKeys _ cause), mgReset_idle (s.bothReset_fw cause)]
  rfl

/-- A register that no reset of a domain restores, and that is not of those told of it. -/
theorem get_bothReset {cause : Nat} {f : Fld} (hf : f.standing = true) (he : f.noEvent = true) (hp : f.key ≠ PCE.MSIX_PBA.key)
    (hm : keyOf .management f.key = false) (hd : keyOf .datapath f.key = false) (h1 : f.key ≠ CUR.LAST_WDT.key)
    (h2 : f.key ≠ CUR.LAST_LOCKUP.key) (h3 : f.key ≠ CPH.STORE_KEY.key) :
    (s.bothReset cause).leaveDp.get f = (s.setb RST.CAUSE cause true).get f := by
  rw [get_leaveDp _ hf h3, bothReset, get_lastReset _ _ hp he h1 h2, get_mgReset (s.bothReset_fw cause) hm,
    get_dpReset _ hp he hd]
  exact get_of_reg rfl _

theorem domainReset_started (cause : Nat) : s.Started (s.domainReset cause true) := by
  have h := (s.bothReset_started cause).of_offKeys (lockA_offKeys (s.setb RST.CAUSE cause true) _)
  rw [domainReset_both]
  dsimp only
  split
  · exact ⟨h.q, h.win, h.net, h.mem, h.twin, h.frozen, h.booting, h.pwr, h.coreLock⟩
  · exact h

theorem domainReset_cause {cause : Nat} (hc : cause < 8) : bitOf ((s.domainReset cause true).get RST.CAUSE) cause = true := by
  have h : ∀ t : State, bitOf (((s.setb RST.CAUSE cause true).lockA t).get RST.CAUSE) cause = bitOf (t.get RST.CAUSE) cause := by
    intro t
    unfold lockA
    split <;> rfl
  have hb : bitOf ((s.bothReset cause).leaveDp.get RST.CAUSE) cause = true := by
    rw [get_bothReset s rfl rfl (by decide) (by decide) (by decide) (by decide) (by decide) (by decide)]
    exact s.cause_setb hc
  rw [domainReset_both]
  dsimp only
  split
  · exact (h _).trans hb
  · exact (h _).trans hb

/-- Only the reset that RESET_N applies, or a clock failure's, takes a device out of MUSTERED, or one that ends Vitrine (R200, R388). -/
theorem domainReset_mus {cause : Nat} (h2 : cause ≠ 2) (h6 : cause ≠ 6) : (s.domainReset cause true).mus.state =
    if s.mus.state = .mustered ∧ s.vit.frozen = false then .mustered else .unready := by
  have h : ((s.setb RST.CAUSE cause true).lockA (s.bothReset cause).leaveDp).mus.state = .unready :=
    (of_offKeys (fun v => v.mus.state) (fun _ => rfl) (lockA_offKeys _ _)).trans (s.bothReset_mus cause)
  rw [domainReset_both]
  by_cases hc : s.mus.state = .mustered ∧ s.vit.frozen = false
  · simp [hc, h2, h6]
  · have hno : (s.mus.state == .mustered && !s.vit.frozen && cause != 2 && cause != 6) = false := by
      simpa [Classical.not_and_iff_not_or_not, h2, h6] using hc
    simp only [hno, if_neg hc]
    exact h

/-- RESET_N, and the reset that follows a clock failure, leave the muster engine unready (R200). -/
theorem domainReset_unready {cause : Nat} (h : cause = 2 ∨ cause = 6) : (s.domainReset cause true).mus.state = .unready := by
  have ht : ((s.setb RST.CAUSE cause true).lockA (s.bothReset cause).leaveDp).mus.state = .unready :=
    (of_offKeys (fun v => v.mus.state) (fun _ => rfl) (lockA_offKeys _ _)).trans (s.bothReset_mus cause)
  have hno : (s.mus.state == .mustered && !s.vit.frozen && cause != 2 && cause != 6) = false := by
    rcases h with rfl | rfl <;> simp
  rw [domainReset_both]
  simp only [hno]
  exact ht

/-- A reset that is over at once. -/
theorem applyReset_pulse {cause : Nat} (h2 : cause ≠ 2) (h6 : cause ≠ 6) (dp : Bool) :
    s.applyReset cause dp = (s.domainReset cause dp).rstPulse dp := by
  simp [applyReset, h2, h6]

/-- What a reset of both domains that is over at once leaves. -/
theorem applyReset_both {cause : Nat} (h2 : cause ≠ 2) (h6 : cause ≠ 6) (hc : cause < 8) :
    let t := s.applyReset cause true
    t.q = {} ∧ t.win = {} ∧ t.mem = [] ∧ t.cm.twin = .start ∧ t.vit.frozen = false ∧ t.cur.booting = true ∧
      bitOf (t.get RST.CAUSE) cause = true ∧
      t.mus.state = if s.mus.state = .mustered ∧ s.vit.frozen = false then .mustered else .unready := by
  rw [applyReset_pulse s h2 h6]
  have h := s.domainReset_started cause
  have keeps : ∀ {α : Type} (p : State → α) (_ : ∀ (v : State) st, p { v with pwr := { v.pwr with rstStretch := st } } = p v),
      p ((s.domainReset cause true).rstPulse true) = p (s.domainReset cause true) := fun p hp => rstPulse_keeps p hp _ _
  exact ⟨(keeps State.q fun _ _ => rfl).trans h.q, (keeps State.win fun _ _ => rfl).trans h.win,
    (keeps State.mem fun _ _ => rfl).trans h.mem, (keeps (fun v => v.cm.twin) fun _ _ => rfl).trans h.twin,
    (keeps (fun v => v.vit.frozen) fun _ _ => rfl).trans h.frozen,
    (keeps (fun v => v.cur.booting) fun _ _ => rfl).trans h.booting,
    (keeps (fun v => bitOf (v.get RST.CAUSE) cause) fun _ _ => rfl).trans (s.domainReset_cause hc),
    (keeps (fun v => v.mus.state) fun _ _ => rfl).trans (s.domainReset_mus h2 h6)⟩

/-- A reset asked for with no NOR operation in flight (R356). -/
theorem askReset_now {s : State} (h : s.norInFlight = false) (cause : Nat) (dp : Bool) :
    s.askReset cause dp = s.applyReset cause dp := by
  rw [askReset, if_neg (by simp [h])]

theorem askReset_waits {s : State} (h : s.norInFlight = true) (cause : Nat) (dp : Bool) :
    s.askReset cause dp = { s with cur := { s.cur with waits := s.cur.waits ++ [.reset cause dp] } } := by
  rw [askReset, if_pos h]

/-! ## The management domain alone (R334) -/

/-- The state in which the management domain restarts, its firmware commands ended. -/
def mgResetBegun (cause : Nat) : State :=
  let t := s.setb RST.CAUSE cause true
  t.cur.fw.foldl (fun v _ => v.fwEnd 0x0B) t

theorem mgResetBegun_cause {cause : Nat} (hc : cause < 8) : bitOf ((s.mgResetBegun cause).get RST.CAUSE) cause = true := by
  have h := Replies.foldl (g := fun v (_ : Req) => v.fwEnd 0x0B) (fun v _ => (Replies.refl v).fwEnd 0x0B)
    (s.setb RST.CAUSE cause true).cur.fw (Replies.refl (s.setb RST.CAUSE cause true))
  rw [mgResetBegun, h.regs RST.CAUSE rfl]
  exact s.cause_setb hc

/-- What a management reset restores of the curators. -/
def restarted (t : State) : State := { t.clearRegs (keyOf .management) with cur := { t.cur with
    todo := t.cur.todo.filter fun e => e.1 == 3, dlBytes := 0, dlRanges := [], dlSectors := [], verifying := none, selecting := false
    booting := true, active := 0, recovery := false, fallback := false, verified := false
    txq := [], prefetch := [], branch := [], dead := [] } }

theorem domainReset_mgmt (cause : Nat) : s.domainReset cause false =
    ((s.mgResetBegun cause).restarted.lastReset cause).raise RST.page RST.evMGMT_RESET := rfl

/-- What only the registers, what is sent, the keys and the outputs' stretches could change stands. -/
theorem applyReset_mgmt_keeps {α : Type} (p : State → α) (hk : ∀ v : State, p v.offKeys = p v)
    (hp : ∀ (v : State) st, p { v with pwr := { v.pwr with rstStretch := st } } = p v) {cause : Nat} (h2 : cause ≠ 2) (h6 : cause ≠ 6) :
    p (s.applyReset cause false) = p (s.mgResetBegun cause).restarted := by
  rw [applyReset_pulse s h2 h6, rstPulse_keeps p hp, domainReset_mgmt, ← hk, raise_offKeys, lastReset_offKeys, hk]

theorem applyReset_mgmt_cause {cause : Nat} (h2 : cause ≠ 2) (h6 : cause ≠ 6) (hc : cause < 8) :
    bitOf ((s.applyReset cause false).get RST.CAUSE) cause = true := by
  rw [applyReset_pulse s h2 h6, rstPulse_keeps (fun v => v.get RST.CAUSE) (fun _ _ => rfl), domainReset_mgmt,
    get_raise _ _ _ (by decide) (by decide), get_lastReset _ _ (by decide) rfl (by decide) (by decide)]
  rw [show (s.mgResetBegun cause).restarted.get RST.CAUSE = _ from
    get_clearRegs (p := keyOf .management) (s.mgResetBegun cause) (f := RST.CAUSE) (by decide)]
  exact s.mgResetBegun_cause hc

theorem applyReset_mgmt_evt {cause : Nat} (h2 : cause ≠ 2) (h6 : cause ≠ 6) :
    (s.applyReset cause false).evt RST.page RST.evMGMT_RESET = true := by
  rw [applyReset_pulse s h2 h6, rstPulse_keeps (fun v => v.evt RST.page RST.evMGMT_RESET) (fun _ _ => rfl), domainReset_mgmt]
  exact evt_raise_self _ _ _ (by decide)

/-- With no firmware command in work, nothing but the curators restarts. -/
theorem mgResetBegun_idle {s : State} (h : s.cur.fw = []) (cause : Nat) : s.mgResetBegun cause = s.setb RST.CAUSE cause true := by
  have hf : (s.setb RST.CAUSE cause true).cur.fw = [] := h
  rw [mgResetBegun, hf]
  rfl

/-- The instruction register is the only thing that an instruction of JTAG as such changes. -/
theorem setIr_keeps (code : Nat) : (s.setIr code).vit.frozen = s.vit.frozen ∧ (s.setIr code).mus = s.mus ∧
    (s.setIr code).cm = s.cm ∧ (s.setIr code).q = s.q ∧ (s.setIr code).cur = s.cur ∧ (s.setIr code).mem = s.mem :=
  ⟨rfl, rfl, rfl, rfl, rfl, rfl⟩

end State

/-! ## The obligations -/

/-- Settles O12: SW_MGMT and SW_DP are the resets of cause 4 of one domain and of both. -/
theorem softwareResets : Obligations.SoftwareResets := by
  intro s path
  refine ⟨fun h => ?_, fun h => ?_⟩
  · have hg : s.gives (.swMgmt path) (s.askReset 4 false) :=
      State.gives_regRun (f := RST.SW_MGMT) (act := fun s => s.askReset 4 false) h rfl
    refine ⟨fun hn hfw => ?_, fun hn => ?_⟩
    · rw [State.askReset_now hn] at hg
      have keeps : ∀ {α : Type} (p : State → α) (_ : ∀ v : State, p v.offKeys = p v)
          (_ : ∀ (v : State) st, p { v with pwr := { v.pwr with rstStretch := st } } = p v),
          p (s.applyReset 4 false) = p (s.setb RST.CAUSE 4 true).restarted := by
        intro α p hk hp
        rw [s.applyReset_mgmt_keeps p hk hp (by decide) (by decide), State.mgResetBegun_idle hfw]
      refine hg.answers ⟨?_, ?_, ?_, State.evt_settled (s.applyReset_mgmt_evt (by decide) (by decide)) (by decide) s, ?_, ?_,
        State.sameCommit_settled (keeps State.cm (fun _ => rfl) fun _ _ => rfl) s, ?_, ?_,
        State.sameMemory_settled (keeps State.mem (fun _ => rfl) fun _ _ => rfl) s⟩
      · rw [State.settled_cur, keeps State.cur (fun _ => rfl) fun _ _ => rfl]
        rfl
      · rw [State.settled_cur, keeps State.cur (fun _ => rfl) fun _ _ => rfl]
        rfl
      · rw [State.cause_settled]
        exact s.applyReset_mgmt_cause (by decide) (by decide) (by decide)
      · rw [State.settled_q, keeps State.q (fun _ => rfl) fun _ _ => rfl]
        rfl
      · rw [State.settled_win, keeps State.win (fun _ => rfl) fun _ _ => rfl]
        rfl
      · rw [State.settled_mus, keeps State.mus (fun _ => rfl) fun _ _ => rfl]
        rfl
      · rw [State.settled_net, keeps State.net (fun _ => rfl) fun _ _ => rfl]
        rfl
    · rw [State.askReset_waits hn] at hg
      exact hg
  · have hg : s.gives (.swDp path) (s.writeSwDp path) :=
      State.gives_regRun (f := RST.SW_DP) (act := fun s => s.writeSwDp path) h rfl
    have hother (ho : ∀ k, path ≠ .curator k) : s.writeSwDp path = s.askReset 4 true := by
      cases path with
      | curator k => exact absurd rfl (ho k)
      | pcie => rfl
      | smbus => rfl
    refine ⟨fun k hk => ?_, fun ho hn => ?_, fun ho hn => ?_⟩
    · rw [hk] at hg ⊢
      exact hg
    · rw [hother ho, State.askReset_now hn] at hg
      obtain ⟨hq, hwin, hmem, htwin, -, hboot, hcause, hmus⟩ := s.applyReset_both (cause := 4) (by decide) (by decide) (by decide)
      refine hg.answers ⟨?_, ?_, ?_, ?_, ?_, ?_, Memory.read_of_empty ?_⟩
      · rw [State.settled_cur, hboot]
      · rw [State.cause_settled, hcause]
      · rw [State.settled_q, hq]
      · rw [State.settled_win, hwin]
      · rw [State.settled_twin, htwin]
      · rw [State.settled_mus, hmus]
      · rw [State.settled_mem, hmem]
    · rw [hother ho, State.askReset_waits hn] at hg
      exact hg

/-- Settles O8: DBG_RESET is the reset of cause 5 of both domains or, outside Vitrine, of the management domain. -/
theorem debugReset : Obligations.DebugReset := by
  intro s hheld hn
  have hg (v : BitVec 2) (hv : s.pwr.vsupOk = true) : s.gives (.dbgReset v) (s.dbgReset v.toNat) :=
    State.gives_whenSup (fun s => s.dbgReset v.toNat) hv rfl
  have hvsup : s.pwr.vsupOk = true := by
    simp only [State.heldInReset, Bool.not_eq_false', Bool.and_eq_true] at hheld
    exact hheld.1.1.2
  have hheld' : (s.setIr 0x24).heldInReset = false := hheld
  have hn' : (s.setIr 0x24).norInFlight = false := hn
  refine ⟨?_, fun hf => ?_, fun hf => ?_⟩
  · have h3 : s.dbgReset 3 = (s.setIr 0x24).applyReset 5 true := by
      rw [State.dbgReset, if_neg (by simp [hheld'])]
      exact State.askReset_now hn' 5 true
    have hg := hg 3 hvsup
    rw [show (3 : BitVec 2).toNat = 3 from rfl, h3] at hg
    obtain ⟨hq, -, -, htwin, hfrozen, -, hcause, hmus⟩ :=
      (s.setIr 0x24).applyReset_both (cause := 5) (by decide) (by decide) (by decide)
    refine hg.answers ⟨?_, ?_, ?_, ?_, fun n hn0 => ?_⟩
    · rw [State.settled_vit, hfrozen]
    · rw [State.cause_settled, hcause]
    · rw [State.settled_mus, hmus]
      rfl
    · rw [State.settled_twin, htwin]
    · rw [State.settled_queue, State.queue, if_neg hn0, hq]
      rfl
  · have h1 : s.dbgReset 1 = s.setIr 0x24 := by
      rw [State.dbgReset, if_neg (by simp [hheld']), if_neg (by simp [State.setIr, hf]), if_neg (by decide)]
    have hg := hg 1 hvsup
    rw [show (1 : BitVec 2).toNat = 1 from rfl, h1] at hg
    obtain ⟨hvit, hmus, hcm, hq, hcur, hmem⟩ := s.setIr_keeps 0x24
    refine hg.answers ⟨?_, ?_, State.sameCommit_settled hcm s, ?_, ?_, State.sameMemory_settled hmem s⟩
    · rw [State.settled_vit, hvit, hf]
    · rw [State.settled_mus, hmus]
    · rw [State.settled_q, hq]
    · rw [State.settled_cur, hcur]
  · have h1 : s.dbgReset 1 = (s.setIr 0x24).applyReset 5 false := by
      rw [State.dbgReset, if_neg (by simp [hheld']), if_pos (by simp [State.setIr, hf])]
      exact State.askReset_now hn' 5 false
    have hg := hg 1 hvsup
    rw [show (1 : BitVec 2).toNat = 1 from rfl, h1] at hg
    have keeps : ∀ {α : Type} (p : State → α) (_ : ∀ v : State, p v.offKeys = p v)
        (_ : ∀ (v : State) st, p { v with pwr := { v.pwr with rstStretch := st } } = p v),
        p ((s.setIr 0x24).applyReset 5 false) = p ((s.setIr 0x24).mgResetBegun 5).restarted := fun p hk hp =>
      State.applyReset_mgmt_keeps _ p hk hp (by decide) (by decide)
    refine hg.answers ⟨?_, ?_, ?_, fun hfw => ⟨?_, State.sameMemory_settled ?_ s⟩⟩
    · rw [State.settled_cur, keeps State.cur (fun _ => rfl) fun _ _ => rfl]
      rfl
    · rw [State.settled_cur, keeps State.cur (fun _ => rfl) fun _ _ => rfl]
      rfl
    · rw [State.cause_settled]
      exact State.applyReset_mgmt_cause _ (by decide) (by decide) (by decide)
    · rw [State.settled_mus, keeps State.mus (fun _ => rfl) fun _ _ => rfl,
        State.mgResetBegun_idle (show (s.setIr 0x24).cur.fw = [] from hfw)]
      rfl
    · rw [keeps State.mem (fun _ => rfl) fun _ _ => rfl, State.mgResetBegun_idle (show (s.setIr 0x24).cur.fw = [] from hfw)]
      rfl

end Sys2Proof.Machine

/-! PROOFS. The pin RESET_N and the supply: resets that the supervisor applies (R328, R332, R335, R338). -/

namespace Sys2Proof.Machine

-- One proof at a time: many at once outgrow the memory that the check gives.
set_option Elab.async false

namespace State

/-! ## RESET_N (R335) -/

/-- The reset of RESET_N, in force for as long as the pin is low. -/
theorem applyReset_pin (s : State) :
    let t := s.applyReset 2 true
    t.pwr.resetN = s.pwr.resetLow ∧ t.pwr.resetLow = s.pwr.resetLow ∧ bitOf (t.get RST.CAUSE) 2 = true ∧
      t.mus.state = .unready ∧ t.q = {} ∧ t.mem = [] := by
  have h := s.domainReset_started 2
  have hcause := s.domainReset_cause (cause := 2) (by decide)
  have hmus := s.domainReset_unready (.inl rfl)
  have hlow : (s.domainReset 2 true).pwr.resetLow = s.pwr.resetLow := by rw [h.pwr]
  have ht : s.applyReset 2 true = (({ s.domainReset 2 true with pwr := { (s.domainReset 2 true).pwr with
    resetN := (s.domainReset 2 true).pwr.resetLow, musterDoneN := false } } : State).rstPulse true).rstout := rfl
  generalize s.domainReset 2 true = d at *
  have keeps {α : Type} (p : State → α) (hp : ∀ (v : State) c st,
      p { v with pwr := { v.pwr with rstCond := c, rstStretch := st } } = p v) (v : State) : p (v.rstPulse true).rstout = p v :=
    (rstout_keeps p hp _).trans (rstPulse_keeps p (fun v st => hp v v.pwr.rstCond st) _ _)
  dsimp only
  rw [ht, keeps (fun v => v.pwr.resetN) (fun _ _ _ => rfl), keeps (fun v => v.pwr.resetLow) (fun _ _ _ => rfl),
    keeps (fun v => v.get RST.CAUSE) (fun _ _ _ => rfl), keeps (fun v => v.mus.state) (fun _ _ _ => rfl),
    keeps State.q (fun _ _ _ => rfl), keeps State.mem (fun _ _ _ => rfl)]
  exact ⟨hlow, hlow, hcause, hmus, h.q, h.mem⟩

variable {s : State}

/-- A low that is ignored. -/
theorem resetAssert_short {low : Nat} (h : low < 2 * usCycles) : s.resetAssert low = s := by
  rw [resetAssert, if_pos (by simp [h])]

/-- A low that is honoured. -/
theorem resetAssert_long {low : Nat} (h : 10 * usCycles ≤ low) (hl : s.pwr.resetLow = false) :
    s.resetAssert low = ({ s with pwr := { s.pwr with resetLow := true } } : State).askReset 2 true := by
  have h2 : ¬ low < 2 * usCycles := by omega
  rw [resetAssert, if_neg (by simp [h2, hl]), if_neg (by omega)]
  rfl

/-- A low that a free value judges. -/
theorem resetAssert_free {low : Nat} (h2 : 2 * usCycles ≤ low) (h : low < 10 * usCycles) (hl : s.pwr.resetLow = false) :
    s.resetAssert low = if Config.freeBit s.free then
      ({ s with free := s.free + 1, pwr := { s.pwr with resetLow := true } } : State).askReset 2 true
    else { s with free := s.free + 1 } := by
  rw [resetAssert, if_neg (by simp [Nat.not_lt.mpr h2, hl]), if_pos h]
  rfl

/-- A reset asked for leaves the pin's level as it is. -/
theorem askReset_resetLow (s : State) : (s.askReset 2 true).pwr.resetLow = s.pwr.resetLow := by
  unfold askReset
  split
  · rfl
  · exact s.applyReset_pin.2.1

/-- The release of a low pin: power-up again with the rails off; otherwise the domains leave reset. -/
theorem resetRelease_ends (h : s.pwr.resetLow = true) :
    let t := s.resetRelease
    t.pwr.resetLow = false ∧ t.pwr.resetN = false ∧
      t.pwr.seq = (if s.pwr.locked && (s.pwr.seq == .off || s.pwr.seq == .fault) then .rising else s.pwr.seq) ∧ t.mem = s.mem := by
  have ht : s.resetRelease = _ := if_neg (by simp [h])
  extract_lets held pwr released at ht
  have keeps {α : Type} (p : State → α) (hp : ∀ (v : State) c st,
      p { v with pwr := { v.pwr with rstCond := c, rstStretch := st } } = p v) (v : State) : p v.rstout = p v := rstout_keeps p hp v
  dsimp only
  by_cases hoff : (s.pwr.locked && (s.pwr.seq == .off || s.pwr.seq == .fault)) = true
  · rw [ht, if_pos (show (released.pwr.locked && _) = true from hoff), if_pos hoff,
      keeps (fun v => v.pwr.resetLow) (fun _ _ _ => rfl), keeps (fun v => v.pwr.resetN) (fun _ _ _ => rfl),
      keeps (fun v => v.pwr.seq) (fun _ _ _ => rfl), keeps State.mem (fun _ _ _ => rfl)]
    exact ⟨rfl, rfl, rfl, rfl⟩
  · rw [ht, if_neg (show ¬ (released.pwr.locked && _) = true from hoff), if_neg hoff]
    have hleft {α : Type} (p : State → α) (hk : ∀ v : State, p v.offKeys = p v)
        (hp : ∀ (v : State) c st, p { v with pwr := { v.pwr with rstCond := c, rstStretch := st } } = p v)
        (hx : ∀ (v : State) g x, p { v with pwr := { v.pwr with gangId := g, twinPos := x } } = p v) :
        p (if held && released.pwr.seq == .on then released.lockA released.leaveDp.rstout else released.rstout) = p released := by
      split
      · rw [of_offKeys p hk (lockA_offKeys _ _), keeps p hp, of_offKeys p hk (leaveDp_offKeys _), hx]
      · exact keeps p hp _
    rw [hleft (fun v => v.pwr.resetLow) (fun _ => rfl) (fun _ _ _ => rfl) fun _ _ _ => rfl,
      hleft (fun v => v.pwr.resetN) (fun _ => rfl) (fun _ _ _ => rfl) fun _ _ _ => rfl,
      hleft (fun v => v.pwr.seq) (fun _ => rfl) (fun _ _ _ => rfl) fun _ _ _ => rfl,
      hleft State.mem (fun _ => rfl) (fun _ _ _ => rfl) fun _ _ _ => rfl]
    exact ⟨rfl, rfl, rfl, rfl⟩

theorem resetRelease_idle (h : s.pwr.resetLow = false) : s.resetRelease = s := by
  rw [resetRelease, if_pos (by simp [h])]

end State

/-- Settles O11: the low's length decides, or a free value does. -/
theorem resetNPin : Obligations.ResetNPin := by
  intro s hv
  have hassert (low : Nat) : s.gives (.resetNAssert low) (s.resetAssert low) :=
    State.gives_whenSup (fun s => s.resetAssert low) hv rfl
  have hrelease : s.gives .resetNRelease s.resetRelease := State.gives_whenSup (fun s => s.resetRelease) hv rfl
  refine ⟨fun low h => ?_, fun low h hl hn => ?_, fun low h hl hn => ?_, fun low h2 h hl => ?_, fun hl => ?_, fun hl => ?_⟩
  · have hg := hassert low
    rw [State.resetAssert_short h] at hg
    exact hg
  · have hg := hassert low
    rw [State.resetAssert_long h hl,
      State.askReset_now (s := { s with pwr := { s.pwr with resetLow := true } }) hn] at hg
    obtain ⟨hin, hlow, hcause, hmus, hq, hmem⟩ :=
      State.applyReset_pin { s with pwr := { s.pwr with resetLow := true } }
    refine hg.answers ⟨?_, ?_, ?_, ?_, ?_, ?_, Memory.read_of_empty ?_⟩
    · rw [State.settled_pwr, hin]
    · rw [State.settled_pwr, hlow]
    · rw [State.dpUp, State.mgUp, State.settled_pwr, hin]
      simp
    · rw [State.cause_settled, hcause]
    · rw [State.settled_mus, hmus]
    · rw [State.settled_q, hq]
    · rw [State.settled_mem, hmem]
  · have hg := hassert low
    rw [State.resetAssert_long h hl,
      State.askReset_waits (s := { s with pwr := { s.pwr with resetLow := true } }) hn] at hg
    exact hg
  · refine (hassert low).answers ?_
    rw [State.settled_pwr, State.resetAssert_free h2 h hl]
    split <;> rename_i hb
    · rw [State.askReset_resetLow, hb]
    · rw [Bool.eq_false_of_not_eq_true hb]
      exact hl
  · rw [State.resetRelease_idle hl] at hrelease
    exact hrelease
  · obtain ⟨hlow, hin, hseq, hmem⟩ := State.resetRelease_ends hl
    refine hrelease.answers ⟨?_, ?_, ?_, State.sameMemory_settled hmem s⟩
    · rw [State.settled_pwr, hlow]
    · rw [State.settled_pwr, hin]
    · rw [State.settled_pwr, hseq]

/-! ## The supply (R332, R334, R338) -/

namespace State

/-- An operation abandoned changes words of the NOR and takes free values, and nothing else (R356). -/
theorem abandonOp_keeps {α : Type} (p : State → α) (hf : ∀ (v : State) n, p { v with free := n } = p v)
    (hw : ∀ (v : State) ws, p { v with cur := { v.cur with words := ws } } = p v) (s : State) (op : NorOp) :
    p (s.abandonOp op) = p s := by
  unfold abandonOp
  split
  · exact foldl_keeps p (fun v a => (hw _ _).trans (hf v _)) _ _
  · exact (hw _ _).trans (hf s _)

/-- Words of a record programmed: the NOR's operations in work stand. -/
theorem programWords_busy (s : State) (bs : List Byte) (n : Nat) : (s.programWords bs n).cur.busy = s.cur.busy := rfl

/-- The LAST record, as far as the supply lasts (R332). -/
def lastRecord (s : State) : State :=
  if s.cen.full then s.inc CEN.DROPPED
  else
    let t := s.freeNat.2
    (t.programWords (t.recordBytes 3 0 0 false) (s.freeNat.1 % 65)).raiseIf (s.freeNat.1 % 65 == 64) RST.page RST.evLAST_RECORD

theorem unnoted_lastRecord {α : Type} {p : State → α} (h : Unnoted p) (s : State) : p s.lastRecord = p s := by
  unfold State.lastRecord
  dsimp only
  split
  · exact h.inc _ _ (by decide)
  · rw [h.raiseIf]
    exact (h.norProgramWords _ _ _).trans ((h.cen _ _).trans (h.free _ _))

theorem lastRecord_busy (s : State) : s.lastRecord.cur.busy = s.cur.busy := by
  unfold lastRecord
  dsimp only
  split
  · rfl
  · rw [raiseIf_cur, programWords_busy]
    rfl

variable {s : State}

/-- The fall of the supply: nothing in work, the reset's bit of RST.CAUSE, and the LAST record. -/
theorem vsupFall_eq (h : s.pwr.vsupOk = true) : ∃ v : State,
    v.pwr.vsupOk = false ∧ v.pwr.seqEn = 0 ∧ v.cur.busy = [] ∧ bitOf (v.get RST.CAUSE) 1 = true ∧ s.vsupFall = v.lastRecord.rstout := by
  have hv : s.vsupFall = _ := if_neg (by simp [h])
  extract_lets pwr fallen ops cur idle cleared cen found full at hv
  have keeps {α : Type} (p : State → α) (hf : ∀ (v : State) n, p { v with free := n } = p v)
      (hw : ∀ (v : State) ws, p { v with cur := { v.cur with words := ws } } = p v) : p (ops.foldl abandonOp idle) = p idle :=
    foldl_keeps p (abandonOp_keeps p hf hw) _ _
  refine ⟨found, ?_, ?_, ?_, cause_setb _ (by decide), hv⟩
  · exact keeps (fun v => v.pwr.vsupOk) (fun _ _ => rfl) fun _ _ => rfl
  · exact keeps (fun v => v.pwr.seqEn) (fun _ _ => rfl) fun _ _ => rfl
  · exact keeps (fun v => v.cur.busy) (fun _ _ => rfl) fun _ _ => rfl

theorem vsupFall_falls (h : s.pwr.vsupOk = true) :
    let t := s.vsupFall
    t.pwr.vsupOk = false ∧ t.pwr.seqEn = 0 ∧ t.cur.busy = [] ∧ bitOf (t.get RST.CAUSE) 1 = true := by
  obtain ⟨v, hsup, hen, hbusy, hcause, hv⟩ := vsupFall_eq h
  have hpwr : v.lastRecord.pwr = v.pwr := unnoted_lastRecord (unnoted_rest.comp State.pwr) v
  have hreg : v.lastRecord.get RST.CAUSE = v.get RST.CAUSE :=
    unnoted_lastRecord (unnoted_get_of (f := RST.CAUSE) rfl (by decide) (by decide)) v
  dsimp only
  rw [hv, rstout_keeps (fun v => v.pwr.vsupOk) (fun _ _ _ => rfl), rstout_keeps (fun v => v.pwr.seqEn) (fun _ _ _ => rfl),
    rstout_keeps (fun v => v.cur.busy) (fun _ _ _ => rfl), rstout_keeps (fun v => v.get RST.CAUSE) (fun _ _ _ => rfl),
    hpwr, hreg, lastRecord_busy]
  exact ⟨hsup, hen, hbusy, hcause⟩

theorem vsupFall_idle (h : s.pwr.vsupOk = false) : s.vsupFall = s := by
  rw [vsupFall, if_pos (by simp [h])]

/-! ### Power-on reset (R338, R406) -/

/-- The device before a power-on reset clears it: nothing in work survives the loss of the supply. -/
def unpowered (s : State) : State :=
  { s with cur := { s.cur with busy := [], todo := [], devWait := [], waits := [], fw := [], alPort := [], sram := [] }
           key := { s.key with heldRec := none, heldAns := none, heldFormat := false } }

/-- The datapath leaves reset with the straps' copies (R338). -/
def strapped (s : State) : State := { s with pwr := { s.pwr with gangId := s.pwr.strapGang, twinPos := s.pwr.strapTwin } }

/-- What neither the curators nor the calendar nor the keys change is as the datapath's reset leaves it. -/
theorem powerOn_keeps {α : Type} (p : State → α) (hk : ∀ v : State, p v.offKeys = p v) (hc : ∀ (v : State) c, p { v with cal := c } = p v)
    (hu : ∀ (v : State) c, p { v with cur := c } = p v) (s : State) (gang : Nat) (twin energy brownOut : Bool) :
    p (s.powerOn gang twin energy brownOut) = p (s.unpowered.supReset gang twin energy).dpReset.strapped := by
  have hfw : (s.unpowered.supReset gang twin energy).dpReset.cur.fw = [] := by
    rw [dpReset_cur]
    rfl
  have hm := mgReset_idle hfw
  generalize hd : (s.unpowered.supReset gang twin energy).dpReset = d at hm ⊢
  have hflag (v : State) : p (if v.cal.lost then (v.put RTC.OSC_FAIL 1).raise RTC.page RTC.evOSC_FAIL_EVT else v).strapped =
      p v.strapped := of_offKeys (fun v => p v.strapped) (fun v => hk v.strapped) (by split <;> simp)
  have hleft (v : State) : p ((v.leaveDp.setb RST.CAUSE 0 true).setb RST.CAUSE 1 brownOut) = p v.strapped :=
    (of_offKeys p hk (by simp)).trans (of_offKeys p hk v.leaveDp_offKeys)
  calc p (s.powerOn gang twin energy brownOut)
      = p { d.mgReset with cur := { d.mgReset.cur with booting := false } }.strapped :=
        (hleft _).trans ((hc _ _).trans ((hflag _).trans (by rw [← hd]; rfl)))
    _ = p d.mgReset.strapped := hu d.mgReset.strapped _
    _ = p d.strapped := by rw [hm]; exact (hu (d.clearRegs (keyOf .management)).strapped _).trans (of_offKeys p hk rfl)

/-- The second bit set or cleared: it reads so, and the first as before. -/
theorem bitOf_setBit_one (v : Nat) (b : Bool) : bitOf (setBit v 1 b) 1 = b ∧ bitOf (setBit v 1 b) 0 = bitOf v 0 := by
  have hset : setBit v 1 b = v - v / 2 % 2 * 2 + b2n b * 2 := by
    cases b <;> simp [setBit, setBits, bitsOf, b2n]
  have hb : b2n b < 2 := by cases b <;> decide
  constructor
  · have h : setBit v 1 b / 2 ^ 1 % 2 = b2n b := by omega
    rw [bitOf, h]
    cases b <;> rfl
  · have h : setBit v 1 b / 2 ^ 0 % 2 = v / 2 ^ 0 % 2 := by omega
    rw [bitOf, bitOf, h]

theorem powerOn_cause (s : State) (gang : Nat) (twin energy brownOut : Bool) :
    bitOf ((s.powerOn gang twin energy brownOut).get RST.CAUSE) 0 = true ∧
      bitOf ((s.powerOn gang twin energy brownOut).get RST.CAUSE) 1 = brownOut := by
  have hset (v : State) : bitOf (((v.setb RST.CAUSE 0 true).setb RST.CAUSE 1 brownOut).get RST.CAUSE) 0 = true ∧
      bitOf (((v.setb RST.CAUSE 0 true).setb RST.CAUSE 1 brownOut).get RST.CAUSE) 1 = brownOut := by
    obtain ⟨hone, hzero⟩ := bitOf_setBit_one ((v.setb RST.CAUSE 0 true).get RST.CAUSE) brownOut
    rw [setb, get_put_self, show RST.CAUSE.width = 8 from rfl, bitOf_mod (by decide), bitOf_mod (by decide), hone, hzero]
    exact ⟨v.cause_setb (by decide), rfl⟩
  exact hset _

/-- What the power-on reset leaves of the device. -/
theorem powerOn_started (s : State) (gang : Nat) (twin energy brownOut : Bool) :
    let t := s.powerOn gang twin energy brownOut
    (t.pwr.vsupOk = true ∧ t.pwr.gangId = gang ∧ t.pwr.twinPos = b2n twin ∧ t.pwr.energyEn = energy ∧ t.pwr.seq = .idle) ∧
      t.q = {} ∧ t.win = {} ∧ t.net = {} ∧ t.cm.twin = .start ∧ t.mus.state = .unready ∧ t.vit = {} ∧ t.mem = [] := by
  dsimp only
  rw [powerOn_keeps State.pwr (fun _ => rfl) (fun _ _ => rfl) (fun _ _ => rfl),
    powerOn_keeps State.q (fun _ => rfl) (fun _ _ => rfl) (fun _ _ => rfl),
    powerOn_keeps State.win (fun _ => rfl) (fun _ _ => rfl) (fun _ _ => rfl),
    powerOn_keeps State.net (fun _ => rfl) (fun _ _ => rfl) (fun _ _ => rfl),
    powerOn_keeps (fun v => v.cm.twin) (fun _ => rfl) (fun _ _ => rfl) (fun _ _ => rfl),
    powerOn_keeps (fun v => v.mus.state) (fun _ => rfl) (fun _ _ => rfl) (fun _ _ => rfl),
    powerOn_keeps State.vit (fun _ => rfl) (fun _ _ => rfl) (fun _ _ => rfl),
    powerOn_keeps State.mem (fun _ => rfl) (fun _ _ => rfl) (fun _ _ => rfl)]
  have hpwr := dpReset_pwr (s.unpowered.supReset gang twin energy)
  have hvit := dpReset_vit (s.unpowered.supReset gang twin energy)
  generalize hd : (s.unpowered.supReset gang twin energy).dpReset = d at hpwr hvit ⊢
  refine ⟨?_, ?_, ?_, ?_, ?_, ?_, hvit, ?_⟩
  · rw [show d.strapped.pwr = { d.pwr with gangId := d.pwr.strapGang, twinPos := d.pwr.strapTwin } from rfl, hpwr]
    exact ⟨rfl, rfl, rfl, rfl, rfl⟩
  · rw [← hd]; rfl
  · rw [← hd]; rfl
  · rw [← hd]; rfl
  · rw [← hd]; rfl
  · rw [← hd]; rfl
  · rw [← hd]; rfl

end State

/-- Settles O10: the fall of the supply, and the power-on reset that follows it. -/
theorem supplyLossAndReturn : Obligations.SupplyLossAndReturn := by
  intro s
  have hlow : s.gives .vsupLow s.vsupFall := rfl
  refine ⟨fun h => ?_, fun h => ?_, fun g twin energy => ?_⟩
  · rw [State.vsupFall_idle h] at hlow
    exact hlow
  · obtain ⟨hsup, hen, hbusy, hcause⟩ := State.vsupFall_falls h
    refine hlow.answers ⟨?_, ?_, ?_, ?_, ?_⟩
    · rw [State.settled_pwr, hsup]
    · rw [State.settled_pwr, hen]
    · rw [State.dpUp, State.mgUp, State.settled_pwr, hsup]
      simp
    · rw [State.settled_cur, hbusy]
    · rw [State.cause_settled, hcause]
  · have hg : s.gives (.powerOnReset g twin energy) (s.powerOn g.toNat twin energy !s.pwr.vsupOk) := rfl
    obtain ⟨hpwr, hq, hwin, hnet, htwin, hmus, hvit, hmem⟩ := s.powerOn_started g.toNat twin energy !s.pwr.vsupOk
    obtain ⟨hzero, hone⟩ := s.powerOn_cause g.toNat twin energy !s.pwr.vsupOk
    obtain ⟨hsup, hgang, hpos, hen, hseq⟩ := hpwr
    refine hg.answers ?_
    rw [State.settled_pwr, State.cause_settled, State.settled_q, State.settled_win, State.settled_net, State.settled_twin,
      State.settled_mus, State.settled_vit, State.settled_mem]
    exact ⟨hsup, hgang, hpos, hen, hseq, hzero, hone, hq, hwin, hnet, htwin, hmus, hvit, Memory.read_of_empty hmem⟩

end Sys2Proof.Machine

/-! PROOFS. Watchdogs, lock-up and the boot of the curators (R359, R361). -/

namespace Sys2Proof.Machine

-- One proof at a time: many at once outgrow the memory that the check gives.
set_option Elab.async false

namespace State

/-! ## A curator that dies (R361) -/

/-- What a management reset with no firmware command in work leaves of a register of CUR that tells of its cause. -/
theorem get_applyReset_mgmt (s : State) (hfw : s.cur.fw = []) {cause : Nat} (h2 : cause ≠ 2) (h6 : cause ≠ 6) {f : Fld}
    (he : f.noEvent = true) (hp : f.key ≠ PCE.MSIX_PBA.key) (hm : keyOf .management f.key = false) (hc : f.key ≠ RST.CAUSE.key)
    (hlast : ∀ t : State, (t.lastReset cause).get f = t.get f) : (s.applyReset cause false).get f = s.get f := by
  rw [applyReset_pulse s h2 h6, rstPulse_keeps (fun v => v.get f) (fun _ _ => rfl), domainReset_mgmt,
    get_raise _ _ _ (evtRaw_ne_noEvent _ he).symm hp, hlast, mgResetBegun_idle hfw,
    show ((s.setb RST.CAUSE cause true).restarted).get f = _ from get_clearRegs (s.setb RST.CAUSE cause true) hm]
  exact s.get_put_ne _ hc

/-- The event that a management reset raises on CUR stands after it. -/
theorem evt_applyReset_mgmt (s : State) {cause b : Nat} (h2 : cause ≠ 2) (h6 : cause ≠ 6) (hb : b < 32)
    (hlast : ∀ t : State, (t.lastReset cause).evt CUR.page b = true) : (s.applyReset cause false).evt CUR.page b = true := by
  rw [applyReset_pulse s h2 h6, rstPulse_keeps (fun v => v.evt CUR.page b) (fun _ _ => rfl), domainReset_mgmt]
  exact evt_raise (hlast _) hb _ _

/-- The curators restart, and the muster engine stands. -/
theorem applyReset_mgmt_boots (s : State) (hfw : s.cur.fw = []) {cause : Nat} (h2 : cause ≠ 2) (h6 : cause ≠ 6) :
    (s.applyReset cause false).cur.booting = true ∧ (s.applyReset cause false).cur.verified = false ∧
      (s.applyReset cause false).mus = s.mus := by
  rw [s.applyReset_mgmt_keeps State.cur (fun _ => rfl) (fun _ _ => rfl) h2 h6,
    s.applyReset_mgmt_keeps State.mus (fun _ => rfl) (fun _ _ => rfl) h2 h6, mgResetBegun_idle hfw]
  exact ⟨rfl, rfl, rfl⟩

variable {s : State}

theorem watchdogEnd_disabled {c : Fin 4} (h : s.flag (CUR.WDT_EN c.val) = false) : s.watchdogEnd c = s := by
  rw [watchdogEnd, if_pos (by simp [h])]

theorem watchdogEnd_expires {c : Fin 4} (hm : s.mgUp = true) (h : s.flag (CUR.WDT_EN c.val) = true) :
    s.watchdogEnd c = (s.coreDies c.val CUR.LAST_WDT).askReset 3 false := by
  rw [watchdogEnd, if_neg (by simp [hm, h])]

theorem lockUp_eq (hm : s.mgUp = true) (c : Fin 4) : s.lockUp c = (s.coreDies c.val CUR.LAST_LOCKUP).askReset 7 false := by
  rw [lockUp, if_neg (by simp [hm])]

theorem get_coreDies_wdt (s : State) (c : Fin 4) : (s.coreDies c.val CUR.LAST_WDT).get CUR.LAST_WDT = 2 ^ c.val := by
  refine (s.get_put_self _ _).trans (Nat.mod_eq_of_lt ?_)
  revert c
  decide

theorem get_coreDies_lockup (s : State) (c : Fin 4) : (s.coreDies c.val CUR.LAST_LOCKUP).get CUR.LAST_LOCKUP = 2 ^ c.val := by
  refine (s.get_put_self _ _).trans (Nat.mod_eq_of_lt ?_)
  revert c
  decide

/-- A watchdog's reset: its record stands, the lock-up's is cleared (R364). -/
theorem lastReset_wdt (s : State) : s.lastReset 3 = (s.raise CUR.page CUR.evWDT_RESET).put CUR.LAST_LOCKUP 0 := rfl

/-- A lock-up's reset: its record stands, the watchdog's is cleared (R364). -/
theorem lastReset_lockup (s : State) : s.lastReset 7 = (s.put CUR.LAST_WDT 0).raise CUR.page CUR.evLOCKUP_RESET := rfl

/-- The records of CUR that a curator's death leaves. -/
def deathRecords : List Fld := [CUR.LAST_WDT, CUR.LAST_LOCKUP]

/-- A curator's death with no NOR operation in flight: its record, its event, and a management reset of its cause. -/
theorem answers_of_death {c : Fin 4} {f : Fld} {cause b : Nat} {cmd : Instr}
    (hg : s.gives cmd ((s.coreDies c.val f).askReset cause false)) (hn : s.norInFlight = false) (hfw : s.cur.fw = [])
    (hcause : (cause != 2 && cause != 6 && decide (cause < 8)) = true) (hf : f ∈ deathRecords)
    (hdead : (s.coreDies c.val f).get f = 2 ^ c.val) (hlast : ∀ t : State, (t.lastReset cause).get f = t.get f) (hb : b < 32)
    (hevt : ∀ t : State, (t.lastReset cause).evt CUR.page b = true) :
    s.answers cmd fun t => t.get f = 2 ^ c.val ∧ bitOf (t.get RST.CAUSE) cause = true ∧ t.evt CUR.page b = true ∧
      t.cur.booting = true ∧ t.cur.verified = false ∧ t.mus = s.mus := by
  simp only [Bool.and_eq_true, bne_iff_ne, ne_eq, decide_eq_true_eq] at hcause
  obtain ⟨⟨h2, h6⟩, h8⟩ := hcause
  obtain ⟨hne, hpba, hmg, hrst⟩ : f.noEvent = true ∧ f.key ≠ PCE.MSIX_PBA.key ∧ keyOf .management f.key = false ∧
      f.key ≠ RST.CAUSE.key := by
    clear * - hf
    revert f
    decide
  have hset (t : State) : (s.settled t).get f = t.get f := s.get_settled t (by clear * - hf; revert f; decide)
  have hmus : (s.coreDies c.val f).mus = s.mus := rfl
  rw [askReset_now (s := s.coreDies c.val f) hn] at hg
  replace hfw : (s.coreDies c.val f).cur.fw = [] := hfw
  generalize s.coreDies c.val f = d at *
  obtain ⟨hbooting, hverified, hstands⟩ := d.applyReset_mgmt_boots hfw h2 h6
  refine hg.answers ⟨?_, ?_, evt_settled (d.evt_applyReset_mgmt h2 h6 hb hevt) hb s, ?_, ?_, ?_⟩
  · rw [hset, d.get_applyReset_mgmt hfw h2 h6 hne hpba hmg hrst hlast, hdead]
  · rw [cause_settled]
    exact d.applyReset_mgmt_cause h2 h6 h8
  · rw [settled_cur, hbooting]
  · rw [settled_cur, hverified]
  · rw [settled_mus, hstands, hmus]

/-! ## Boot (R359) -/

/-- Whether an image verifies depends on the NOR and on the root digests alone. -/
theorem imageOk_put (s : State) (f : Fld) (v b : Nat) : (s.put f v).imageOk b = s.imageOk b := by
  simp only [imageOk, headerOk, bankWordAt, bankBytes, norBytes, norWord, put_cur, put_key]
  rfl

theorem bootEnd_idle (ms : Nat) (h : s.cur.booting = false) : s.bootEnd ms = s := by
  rw [bootEnd, if_pos (by simp [h])]

/-- The bank booted: the selected one, the other one, or the recovery loader. -/
theorem bootEnd_eq (hm : s.mgUp = true) (h : s.cur.booting = true) (ms : Nat) :
    let b := b2n (s.bankSelect.getD false)
    let t := s.put CUR.BOOT_MS (min 65535 ms)
    s.bootEnd ms = if s.imageOk b then t.bootFrom b false
      else if s.imageOk (1 - b) then t.bootFrom (1 - b) true
      else { t with cur := { t.cur with booting := false, active := b, verified := false, recovery := true } } := by
  dsimp only
  rw [bootEnd, if_neg (by simp [hm, h])]
  simp only [imageOk_put]

/-- Booted from a bank: only what curator 0 runs changes, and the event where it fell back. -/
theorem bootFrom_boots (s : State) (b : Nat) (fallback : Bool) :
    (s.bootFrom b fallback).cur = { s.cur with
      booting := false, active := b, verified := true, recovery := false, fallback := fallback } ∧
    (s.bootFrom b fallback).mem = s.mem ∧ (s.bootFrom b fallback).get CUR.BOOT_MS = s.get CUR.BOOT_MS := by
  cases fallback
  · exact ⟨rfl, rfl, rfl⟩
  · refine ⟨?_, ?_, ?_⟩
    · exact raise_cur _ _ _
    · exact raise_mem _ _ _
    · exact get_raise _ _ _ (by decide) (by decide)

end State

/-- Settles O54: a curator's death is a management reset, and the boot takes the first bank whose image verifies. -/
theorem curatorsResetAndBoot : Obligations.CuratorsResetAndBoot := by
  intro s hm
  have hv : s.pwr.vsupOk = true := by
    simp only [State.mgUp, Bool.and_eq_true] at hm
    exact hm.1.1.1.2
  have hwatch (c : Fin 4) : s.gives (.watchdog c) (s.watchdogEnd c) := State.gives_whenSup (fun s => s.watchdogEnd c) hv rfl
  have hlock (c : Fin 4) : s.gives (.lockup c) (s.lockUp c) := State.gives_whenSup (fun s => s.lockUp c) hv rfl
  have hboot (ms : Nat) : s.gives (.bootVerify ms) (s.bootEnd ms) := State.gives_whenSup (fun s => s.bootEnd ms) hv rfl
  refine ⟨fun c h => ?_, fun c h hn hfw => ?_, fun c hn hfw => ?_, fun c hn => ?_, fun path c h => ?_, fun ms h => ?_,
    fun ms h => ?_⟩
  · have hg := hwatch c
    rw [State.watchdogEnd_disabled h] at hg
    exact hg
  · have hg := hwatch c
    rw [State.watchdogEnd_expires hm h] at hg
    refine State.answers_of_death hg hn hfw rfl (by decide) (s.get_coreDies_wdt c) (fun t => ?_) (by decide) fun t => ?_
    · rw [t.lastReset_wdt, State.get_put_ne _ _ (by decide), State.get_raise _ _ _ (by decide) (by decide)]
    · rw [t.lastReset_wdt, State.evt, State.get_put_ne _ _ (by decide)]
      exact State.evt_raise_self _ _ _ (by decide)
  · have hg := hlock c
    rw [State.lockUp_eq hm] at hg
    refine State.answers_of_death hg hn hfw rfl (by decide) (s.get_coreDies_lockup c) (fun t => ?_) (by decide) fun t => ?_
    · rw [t.lastReset_lockup, State.get_raise _ _ _ (by decide) (by decide), State.get_put_ne _ _ (by decide)]
    · rw [t.lastReset_lockup]
      exact State.evt_raise_self _ _ _ (by decide)
  · have hg := hlock c
    rw [State.lockUp_eq hm, State.askReset_waits (s := s.coreDies c.val CUR.LAST_LOCKUP) hn] at hg
    have hcur : (s.coreDies c.val CUR.LAST_LOCKUP).cur = { s.cur with dead := addTo s.cur.dead c.val } := rfl
    have hmem : (s.coreDies c.val CUR.LAST_LOCKUP).mem = s.mem := rfl
    generalize s.coreDies c.val CUR.LAST_LOCKUP = d at *
    refine hg.answers ⟨?_, State.sameMemory_settled ?_ s⟩
    · rw [State.settled_cur, hcur]
    · exact hmem
  · have hg (v : Word) : s.gives (.wdtKick path c v) (s.wdtKick v.toNat) :=
      State.gives_regRun (f := CUR.WDT_KICK c.val) (act := fun s => s.wdtKick v.toNat) h rfl
    refine ⟨hg 0x0000C3A5, fun v hv => ?_⟩
    have hk := hg v
    have hne : ¬ (v.toNat == 0x0000C3A5) = true := fun e =>
      hv (BitVec.eq_of_toNat_eq ((beq_iff_eq.mp e).trans (by decide)))
    rw [State.wdtKick, if_neg hne] at hk
    exact hk
  · have hg := hboot ms
    rw [State.bootEnd_idle ms h] at hg
    exact hg
  · have hg := hboot ms
    rw [State.bootEnd_eq hm h] at hg
    have hms : (s.put CUR.BOOT_MS (min 65535 ms)).get CUR.BOOT_MS = min 65535 ms := by
      rw [State.get_put_self]
      exact Nat.mod_eq_of_lt (by rw [show CUR.BOOT_MS.width = 16 from rfl]; omega)
    have hmem : (s.put CUR.BOOT_MS (min 65535 ms)).mem = s.mem := rfl
    generalize b2n (s.bankSelect.getD false) = b at hg ⊢
    generalize s.put CUR.BOOT_MS (min 65535 ms) = t at hg hms hmem
    dsimp only at hg ⊢
    refine hg.answers ?_
    rw [State.settled_cur, State.get_settled _ _ (by decide)]
    cases hb : s.imageOk b
    · cases ho : s.imageOk (1 - b)
      · refine ⟨rfl, hms, ?_, ?_, fun _ _ => ⟨rfl, rfl⟩, State.sameMemory_settled ?_ s⟩
        · intro h; exact absurd h (by decide)
        · intro _ h; exact absurd h (by decide)
        · exact hmem
      · obtain ⟨hcur, hkept, hget⟩ := t.bootFrom_boots (1 - b) true
        have hevt : (t.bootFrom (1 - b) true).evt CUR.page CUR.evFALLBACK_BOOT = true := State.evt_raise_self _ _ _ (by decide)
        rw [if_neg (by decide), if_pos rfl, hcur, hget]
        refine ⟨rfl, hms, ?_, fun _ _ => ⟨rfl, rfl, rfl, State.evt_settled hevt (by decide) s⟩, ?_,
          State.sameMemory_settled (hkept.trans hmem) s⟩
        · intro h; exact absurd h (by decide)
        · intro _ h; exact absurd h (by decide)
    · obtain ⟨hcur, hkept, hget⟩ := t.bootFrom_boots b false
      rw [if_pos rfl, hcur, hget]
      refine ⟨rfl, hms, fun _ => ⟨rfl, rfl, rfl, rfl⟩, ?_, ?_, State.sameMemory_settled (hkept.trans hmem) s⟩
      · intro h; exact absurd h (by decide)
      · intro h; exact absurd h (by decide)

end Sys2Proof.Machine

/-! PROOFS. Alarms and musters: what erasing the keys, judging the adit link and starting a muster leave alone (R154, R190, R298, R299). -/

namespace Sys2Proof.Machine

-- One proof at a time: many at once outgrow the memory that the check gives.
set_option Elab.async false

/-! ## Alarms and the adit link (R154, R298, R299) -/

/-- A state without its registers, what it has sent, the keys and the twin protocol. -/
def State.offAdit (s : State) : State := { s with reg := [], out := [], key := {}, cm := {} }

/-- `t` is `s` but for what alarms and the adit link do: all else, settings of other pages, the root key and events raised stand. -/
structure State.Adit (s t : State) : Prop where
  rest : t.offAdit = s.offAdit
  root : t.key.rootGone = s.key.rootGone
  regs : ∀ f : Fld, f.placed = true → f.page ≠ ADT.page → f.standing = true → t.get f = s.get f
  evt : ∀ {p b : Nat}, b < 32 → s.evt p b = true → t.evt p b = true

namespace State.Adit

variable {s t u : State}

theorem refl (s : State) : s.Adit s := ⟨rfl, rfl, fun _ _ _ _ => rfl, fun _ h => h⟩

theorem trans (h : s.Adit t) (h' : t.Adit u) : s.Adit u :=
  ⟨h'.rest.trans h.rest, h'.root.trans h.root, fun f hf hp hs => (h'.regs f hf hp hs).trans (h.regs f hf hp hs),
    fun hb he => h'.evt hb (h.evt hb he)⟩

section
variable (h : s.Adit t)
include h

theorem asks {β : Type} (p : State → β) (hp : ∀ v : State, p v.offAdit = p v) : p t = p s := by rw [← hp t, h.rest, hp]

theorem aside (hu : u.offAdit = t.offAdit := by rfl) (hk : u.key.rootGone = t.key.rootGone := by rfl)
    (hr : u.reg = t.reg := by rfl) : s.Adit u :=
  h.trans ⟨hu, hk, fun _ _ _ _ => State.get_of_reg hr _, fun _ he => by rwa [State.evt, State.get_of_reg hr]⟩

theorem put {g : Fld} (v : Nat) (hg : g.placed = true := by rfl) (hp : g.page = ADT.page := by rfl)
    (hn : g.noEvent = true := by rfl) : s.Adit (t.put g v) :=
  h.trans ⟨rfl, rfl, fun f hf hfp _ => t.get_put_ne v (Fld.key_ne_of_place hf hg (.inl (hp ▸ hfp))),
    fun _ he => by rwa [State.evt, t.get_put_ne v (evtRaw_ne_noEvent _ hn)]⟩

theorem raise (p b : Nat) : s.Adit (t.raise p b) :=
  h.trans ⟨congrArg (fun v : State => { v with cm := {} }) (t.raise_offKeys p b), congrArg KeySt.rootGone (t.raise_key p b),
    fun f _ _ hf => ((State.Told.refl t).raise p b).regs f hf, fun hb he => State.evt_raise he hb p b⟩

theorem raiseIf (c : Bool) (p b : Nat) : s.Adit (t.raiseIf c p b) := by
  cases c
  · exact h
  · exact h.raise p b

theorem sendResume : s.Adit t.sendResume := by
  unfold State.sendResume
  split
  · exact h
  · unfold State.resumeFrame State.sendAdit
    dsimp only
    split
    · exact h.aside
    · exact h.aside

theorem aditUp : s.Adit t.aditUp := by
  unfold State.aditUp
  dsimp only
  split
  · exact (put h.aside _).raise _ _
  · exact ((put h.aside _).raise _ _).sendResume

theorem trainBase : s.Adit t.trainBase := by
  unfold State.trainBase
  dsimp only
  split
  · exact h
  split
  · exact h
  split
  · exact raise h.aside _ _
  split
  · split
    · exact h
    · exact h.aside
  · exact aditUp h.aside

theorem checkAdit : s.Adit t.checkAdit := by
  unfold State.checkAdit
  extract_lets wait v
  have hv : s.Adit v := (h.raiseIf _ _ _).put _
  clear_value v
  split
  · exact hv
  split
  · exact (hv.raiseIf _ _ _).put _
  split
  · exact hv
  split
  · split
    · exact hv
    · exact hv.trainBase
  · exact aditUp hv.aside

end

end State.Adit

namespace State

/-- Erasing the keys touches keys and registers alone. -/
theorem eraseKeys_offKeys (s : State) (mesh : Bool) : (s.eraseKeys mesh).offKeys = s.offKeys :=
  foldl_keeps offKeys (fun v _ => raise_offKeys v _ _) _ _

@[simp] theorem keyAlarm_offKeys (s : State) (cause : Nat) : (s.keyAlarm cause).offKeys = s.offKeys := by
  simp only [keyAlarm, raise_offKeys, put_offKeys, setb_offKeys, eraseKeys_offKeys]

/-- An event raised stands through an alarm. -/
theorem evt_keyAlarm {s : State} {p b : Nat} (hb : b < 32) (h : s.evt p b = true) (cause : Nat) : (s.keyAlarm cause).evt p b = true := by
  refine evt_raise ?_ hb _ _
  rw [evt, get_put_ne _ _ (evtRaw_ne_noEvent p rfl), setb, get_put_ne _ _ (evtRaw_ne_noEvent p rfl)]
  exact (Replies.foldl (fun v _ => (Replies.refl v).raise _ _) _ (Replies.refl _)).evt hb h

/-- The keys erased, the cause latched, and the event raised (R299). -/
theorem keyAlarm_latches (s : State) {cause : Nat} (hc : cause < 5) :
    let t := s.keyAlarm cause
    bitOf (t.get CPH.ALARM_CAUSE) cause = true ∧ t.get CPH.PRIV_ERASED = 1 ∧ t.evt CPH.page CPH.evALARM = true ∧
      t.key.inst = if cause = 4 then [] else s.key.inst.filter fun e => e.2.cls != 8 := by
  refine ⟨?_, ?_, evt_raise_self _ _ _ (by decide), ?_⟩
  · rw [keyAlarm, get_raise _ _ _ (by decide) (by decide), get_put_ne _ _ (by decide), setb, get_put_self,
      show CPH.ALARM_CAUSE.width = 5 from rfl, bitOf_mod hc, bitOf_setBit_self]
  · rw [keyAlarm, get_raise _ _ _ (by decide) (by decide), get_put_self]
    rfl
  · rw [keyAlarm, raise_key, put_key, setb_key, eraseKeys, foldl_keeps State.key fun (v : State) (i : Nat) => v.raise_key _ _]
    by_cases h : cause = 4 <;> simp [h]

variable {s : State}

/-- What an alarm leaves as it was. -/
theorem alarm_rest (s : State) (cause : Nat) : (s.alarm cause).offAdit = s.offAdit ∧
    ∀ {p b : Nat}, b < 32 → s.evt p b = true → (s.alarm cause).evt p b = true := by
  have hk : (s.keyAlarm cause).offAdit = s.offAdit := congrArg (fun v : State => { v with cm := {} }) (s.keyAlarm_offKeys cause)
  unfold alarm
  split
  · exact ⟨rfl, fun _ h => h⟩
  · dsimp only
    split
    · have h := (Adit.refl (s.keyAlarm cause)).checkAdit
      exact ⟨h.rest.trans hk, fun hb he => h.evt hb (evt_keyAlarm hb he cause)⟩
    · exact ⟨hk, fun hb he => evt_keyAlarm hb he cause⟩

/-- While the rails are on an alarm erases the keys (R299). -/
theorem alarm_erases (h : s.pwr.seq = .on) {cause : Nat} (hc : cause < 5) :
    (s.alarm cause).key.rootGone = true ∧ bitOf ((s.alarm cause).get CPH.ALARM_CAUSE) cause = true := by
  have hroot := (s.keyAlarm_keeps cause).1
  have hlatch := (s.keyAlarm_latches hc).1
  rw [alarm, if_neg (by simp [h])]
  dsimp only
  split
  · have ha := (Adit.refl (s.keyAlarm cause)).checkAdit
    rw [ha.root, ha.regs CPH.ALARM_CAUSE rfl (by decide) rfl]
    exact ⟨hroot, hlatch⟩
  · exact ⟨hroot, hlatch⟩

end State

/-! ## Musters (R189, R190) -/

/-- What a muster leaves of the root key, the clocks and the supervisor: all but the host SerDes. -/
def State.offSerdes (s : State) : Bool × ClockSt × PowerSt := (s.key.rootGone, s.clk, { s.pwr with hostSerdes := false })

/-- `t` is `s` but for what a muster does once it has begun, as far as alarms, clocks, power and its own state go. -/
structure State.Musters (s t : State) : Prop where
  steady : t.offSerdes = s.offSerdes
  engine : (t.mus.state, t.mus.causes) = (s.mus.state, s.mus.causes)
  cause : t.get CPH.ALARM_CAUSE = s.get CPH.ALARM_CAUSE
  evt : ∀ {p b : Nat}, b < 32 → s.evt p b = true → t.evt p b = true

namespace State.Musters

variable {s t u : State}

theorem refl (s : State) : s.Musters s := ⟨rfl, rfl, rfl, fun _ h => h⟩

theorem trans (h : s.Musters t) (h' : t.Musters u) : s.Musters u :=
  ⟨h'.steady.trans h.steady, h'.engine.trans h.engine, h'.cause.trans h.cause, fun hb he => h'.evt hb (h.evt hb he)⟩

/-- A fold does what its steps do. -/
theorem foldl {γ : Type} {g : State → γ → State} (hg : ∀ (v : State) (c : γ), v.Musters (g v c)) (l : List γ) (h : s.Musters t) :
    s.Musters (l.foldl g t) := by
  induction l generalizing t with
  | nil => exact h
  | cons c l ih => exact ih (h.trans (hg t c))

theorem of_replies (h : s.Replies t) (hm : t.mus = s.mus) : s.Musters t where
  steady := congrArg (fun x : Bool × ClockSt × PowerSt => (x.1, x.2.1, { x.2.2 with hostSerdes := false })) h.steady
  engine := by rw [hm]
  cause := h.regs _ rfl
  evt := h.evt

section
variable (h : s.Musters t)
include h

theorem aside (hs : u.offSerdes = t.offSerdes := by rfl)
    (he : (u.mus.state, u.mus.causes) = (t.mus.state, t.mus.causes) := by rfl) (hr : u.reg = t.reg := by rfl) : s.Musters u :=
  h.trans ⟨hs, he, State.get_of_reg hr _, fun _ he => by rwa [State.evt, State.get_of_reg hr]⟩

theorem put {g : Fld} (v : Nat) (hg : CPH.ALARM_CAUSE.key ≠ g.key) (hn : g.noEvent = true := by rfl) : s.Musters (t.put g v) :=
  h.trans ⟨rfl, rfl, t.get_put_ne v hg, fun _ he => by rwa [State.evt, t.get_put_ne v (evtRaw_ne_noEvent _ hn)]⟩

theorem raise (p b : Nat) : s.Musters (t.raise p b) := h.trans (of_replies ((Replies.refl t).raise p b) (t.raise_mus p b))

theorem sendAdit (typ epoch : Nat) (payload : List Byte) (last : Bool) : s.Musters (t.sendAdit typ epoch payload last) := by
  obtain ⟨q, hq⟩ := t.sendAdit_eq typ epoch payload last
  rw [hq]
  exact h.aside

theorem abandonMove (e : Nat) : s.Musters (t.abandonMove e) := by
  unfold State.abandonMove
  split
  · exact h
  split
  · exact h
  · extract_lets v w
    have hw : s.Musters w := by
      simp only [w]
      split
      · split
        · split <;> exact h.aside
        · exact h.aside
      · exact h.aside
    exact (put hw _ (by decide)).raise _ _

theorem abortPrograms : s.Musters t.abortPrograms := by
  unfold State.abortPrograms
  split
  next v u e =>
    have hu : u = t.freeNat.2 ∨ u = t := by
      split at e
      · exact .inl (congrArg Prod.snd e).symm
      · exact .inr (congrArg Prod.snd e).symm
    rcases hu with rfl | rfl
    · exact h.aside
    · exact h.aside

theorem census (code idx : Nat) : s.Musters (t.census code idx) := by
  refine h.trans ⟨?_, ?_, ?_, fun hb he => ((State.Works.refl (k := memoryOnly) t).census code idx).evt hb he⟩
  · exact (unnoted_rest.comp State.offSerdes).census t code idx
  · exact (unnoted_rest.comp fun v => (v.mus.state, v.mus.causes)).census t code idx
  · exact (unnoted_get_of (f := CPH.ALARM_CAUSE) rfl (by decide) (by decide)).census t code idx

theorem flushLinks : s.Musters t.flushLinks := by
  refine h.trans ⟨?_, by rw [State.flushLinks_mus], t.get_flushLinks (by decide) (by decide) (by decide),
    fun hb he => State.evt_flushLinks he hb⟩
  exact State.flushLinks_keeps State.offSerdes (fun _ _ _ _ => rfl) (fun _ _ _ => rfl) (fun _ _ _ => rfl) (fun _ _ => rfl)
    (fun _ _ _ _ => rfl) (fun u b => by simp [State.offSerdes]) t

theorem linksOff : s.Musters t.linksOff := by
  rw [State.linksOff_eq]
  exact put (put (put h.aside _ (by decide)) _ (by decide)) _ (by decide)

/-- Step 3 of a muster (R190, R198). -/
theorem musterStep3 (next : MusStep) : s.Musters (t.musterStep3 next) := by
  unfold State.musterStep3
  extract_lets rs mus stepped
  have hv : s.Musters { t with mus := { t.mus with step := next, answers := [] } } := h.aside
  have hs : s.Musters stepped := hv.trans (of_replies (Replies.refl _).flushWaiting (State.flushWaiting_mus _))
  exact linksOff (flushLinks (foldl (fun v r => of_replies ((Replies.refl v).adminAnswer r r.epoch 0 [])
    (v.adminAnswer_mus r r.epoch 0 [])) rs hs))

end

end State.Musters

namespace State

/-- The muster engine as a muster begins. -/
def musterBegun (s : State) (cause : Nat) : State := { s with
  mus := { s.mus with state := .mustering, step := .commit, cause := cause, stopped := true }
  net := { s.net with held := [] }
  key := { s.key with haltRx := [] } }

/-- The start of a muster, shortened or not (R190, R194). -/
theorem beginMuster_musters (s : State) (cause : Nat) : (s.musterBegun cause).Musters (s.beginMuster cause) := by
  unfold beginMuster
  extract_lets short mus net key begun abandoned aborted sent told
  have ha : (s.musterBegun cause).Musters abandoned := .foldl (fun v e => (Musters.refl v).abandonMove e) _ (.refl begun)
  have hb : (s.musterBegun cause).Musters aborted := by
    simp only [aborted]
    split
    · exact ha
    · exact ha.abortPrograms
  have ht : (s.musterBegun cause).Musters told := ((hb.sendAdit _ _ _ _).raise _ _).census _ _
  split
  · exact ht.musterStep3 _
  · exact ht

/-- What a muster trigger outside MUSTERED leaves: it is recorded, and a muster runs unless something waits (R189, R193, R356). -/
structure Triggered (s : State) (cause : Nat) (t : State) : Prop where
  steady : t.offSerdes = s.offSerdes
  latched : t.get CPH.ALARM_CAUSE = s.get CPH.ALARM_CAUSE
  causes : bitOf t.mus.causes cause = true
  starts : s.norInFlight = false → s.musterWaits = false → t.mus.state = .mustering
  evt : ∀ {p b : Nat}, b < 32 → s.evt p b = true → t.evt p b = true

theorem musterTrigger_triggers (s : State) {cause : Nat} (hm : s.mus.state ≠ .mustered) :
    s.Triggered cause (s.musterTrigger cause) := by
  have hbit : bitOf (setBit s.mus.causes cause true) cause = true := bitOf_setBit_self _ _
  unfold musterTrigger
  extract_lets mus recorded mus' timed
  split
  · rename_i hstands
    refine ⟨rfl, rfl, hbit, fun hn hw => ?_, fun _ h => h⟩
    have hw' : recorded.musterWaits = false := hw
    have hm' : recorded.mus.state ≠ .mustered := hm
    simpa [hw', hm'] using hstands
  split
  · rename_i hn
    have hn' : s.norInFlight = true := hn
    exact ⟨rfl, rfl, hbit, fun hno => absurd (hn'.symm.trans hno) (by decide), fun _ h => h⟩
  · have h := timed.beginMuster_musters cause
    have hengine := h.engine
    exact ⟨h.steady, h.cause, (congrArg (fun x => bitOf x.2 cause) hengine).trans hbit, fun _ _ => congrArg Prod.fst hengine, h.evt⟩

end State

/-! ## Clock failure (R337, R339) -/

namespace State

variable {s : State}

/-- A device of which no domain is held in reset and no datapath runs stands still in a clock failure. -/
theorem dpUp_not_held (h : s.dpUp = true) : s.heldInReset = false ∧ s.mus.state ≠ .mustered := by
  simp only [dpUp, mgUp, Bool.and_eq_true, bne_iff_ne, ne_eq] at h
  obtain ⟨⟨⟨⟨⟨hseq, hsup⟩, hpin⟩, hhold⟩, -⟩, hm⟩ := h
  exact ⟨by simp only [heldInReset, hseq, hsup, hpin, hhold, Bool.and_self, Bool.not_true], hm⟩

/-- The clock alarm raised, before the muster (R339). -/
def clockAlarmed (s : State) : State :=
  (({ s with clk := { s.clk with coreLock := false }, pwr := { s.pwr with onBackup := true } } : State).raise
    RST.page RST.evCLOCK_FAIL).alarm 1

theorem clockAlarmed_leaves (s : State) : s.clockAlarmed.offAdit =
    ({ s with clk := { s.clk with coreLock := false }, pwr := { s.pwr with onBackup := true } } : State).offAdit ∧
      s.clockAlarmed.evt RST.page RST.evCLOCK_FAIL = true ∧
      (s.pwr.seq = .on → s.clockAlarmed.key.rootGone = true ∧ bitOf (s.clockAlarmed.get CPH.ALARM_CAUSE) 1 = true) := by
  generalize hb : ({ s with clk := { s.clk with coreLock := false }, pwr := { s.pwr with onBackup := true } } : State) = b
  have hpwr : b.pwr.seq = s.pwr.seq := by rw [← hb]
  have ht : s.clockAlarmed = (b.raise RST.page RST.evCLOCK_FAIL).alarm 1 := by rw [← hb]; rfl
  obtain ⟨hrest, hevt⟩ := (b.raise RST.page RST.evCLOCK_FAIL).alarm_rest 1
  rw [ht]
  refine ⟨hrest.trans ((Adit.refl b).raise _ _).rest, hevt (by decide) (evt_raise_self _ _ _ (by decide)), fun h => ?_⟩
  exact alarm_erases (by rw [raise_pwr, hpwr, h]) (by decide)

/-- What reads neither registers nor keys nor the twin protocol nor what is sent. -/
theorem of_offAdit {α : Type} {s t : State} (p : State → α) (hp : ∀ v : State, p v.offAdit = p v)
    (h : t.offAdit = s.offAdit) : p t = p s := by
  rw [← hp t, h, hp]

theorem clockFail_eq (s : State) : s.clockFail =
    if s.clockAlarmed.dpUp then s.clockAlarmed.musterTrigger 6
    else if s.clockAlarmed.heldInReset then { s.clockAlarmed with pwr := { s.clockAlarmed.pwr with clockHold := true } }
    else s.clockAlarmed := rfl

/-- What a clock failure leaves (R339). -/
theorem clockFail_fails (s : State) :
    let t := s.clockFail
    t.clk.coreLock = false ∧ t.pwr.onBackup = true ∧ t.evt RST.page RST.evCLOCK_FAIL = true ∧
      (s.pwr.seq = .on → t.key.rootGone = true ∧ bitOf (t.get CPH.ALARM_CAUSE) 1 = true) ∧
      (s.dpUp = true → bitOf t.mus.causes 6 = true ∧
        (s.norInFlight = false → s.musterWaits = false → t.mus.state = .mustering)) ∧
      (s.heldInReset = true → t.pwr.clockHold = true) := by
  obtain ⟨hrest, hevt, herased⟩ := s.clockAlarmed_leaves
  have hclk : s.clockAlarmed.clk.coreLock = false := (of_offAdit (fun v => v.clk.coreLock) (fun _ => rfl) hrest).trans rfl
  have hback : s.clockAlarmed.pwr.onBackup = true := (of_offAdit (fun v => v.pwr.onBackup) (fun _ => rfl) hrest).trans rfl
  have hup : s.clockAlarmed.dpUp = s.dpUp := (of_offAdit State.dpUp (fun _ => rfl) hrest).trans rfl
  have hheld : s.clockAlarmed.heldInReset = s.heldInReset := (of_offAdit State.heldInReset (fun _ => rfl) hrest).trans rfl
  have hmus : s.clockAlarmed.mus = s.mus := (of_offAdit State.mus (fun _ => rfl) hrest).trans rfl
  have hnor : s.clockAlarmed.norInFlight = s.norInFlight := (of_offAdit State.norInFlight (fun _ => rfl) hrest).trans rfl
  have hwaits : s.clockAlarmed.musterWaits = s.musterWaits := (of_offAdit State.musterWaits (fun _ => rfl) hrest).trans rfl
  dsimp only
  rw [clockFail_eq, hup, hheld]
  generalize s.clockAlarmed = v at *
  by_cases hd : s.dpUp = true
  · obtain ⟨hnot, hm⟩ := dpUp_not_held hd
    have h := v.musterTrigger_triggers (cause := 6) (by rw [hmus]; exact hm)
    rw [if_pos hd]
    refine ⟨?_, ?_, h.evt (by decide) hevt, fun hs => ?_, fun _ => ⟨h.causes, fun hn hw => h.starts (hnor.trans hn) (hwaits.trans hw)⟩,
      fun hr => absurd (hr.symm.trans hnot) (by decide)⟩
    · exact (congrArg (fun x => x.2.1.coreLock) h.steady).trans hclk
    · exact (congrArg (fun x => x.2.2.onBackup) h.steady).trans hback
    · rw [h.latched]
      exact ⟨(congrArg Prod.fst h.steady).trans (herased hs).1, (herased hs).2⟩
  · rw [if_neg hd]
    by_cases hr : s.heldInReset = true
    · rw [if_pos hr]
      exact ⟨hclk, hback, hevt, herased, fun h => absurd h hd, fun _ => rfl⟩
    · rw [if_neg hr]
      exact ⟨hclk, hback, hevt, herased, fun h => absurd h hd, fun h => absurd h hr⟩

/-- CORE_SYN_LOCK returns: the reset that it held ends (R339). -/
theorem lockReturn_ends (s : State) :
    let t := s.lockReturn
    t.clk.coreLock = true ∧ t.pwr.onBackup = false ∧ t.pwr.clockHold = false ∧ t.mem = s.mem := by
  unfold lockReturn
  extract_lets clk pwr locked pwr' freed t
  by_cases hh : locked.pwr.clockHold = true
  · have ht : t = freed.lockA (if freed.heldInReset then freed else freed.leaveDp).rstout := if_pos hh
    have keeps {α : Type} (p : State → α) (hk : ∀ v : State, p v.offKeys = p v)
        (hp : ∀ (v : State) c st, p { v with pwr := { v.pwr with rstCond := c, rstStretch := st } } = p v)
        (hx : ∀ (v : State) g x, p { v with pwr := { v.pwr with gangId := g, twinPos := x } } = p v) : p t = p freed := by
      rw [ht, of_offKeys p hk (lockA_offKeys _ _), rstout_keeps p hp]
      split
      · rfl
      · rw [of_offKeys p hk (leaveDp_offKeys _), hx]
    exact ⟨keeps (fun v => v.clk.coreLock) (fun _ => rfl) (fun _ _ _ => rfl) fun _ _ _ => rfl,
      keeps (fun v => v.pwr.onBackup) (fun _ => rfl) (fun _ _ _ => rfl) fun _ _ _ => rfl,
      keeps (fun v => v.pwr.clockHold) (fun _ => rfl) (fun _ _ _ => rfl) fun _ _ _ => rfl,
      keeps State.mem (fun _ => rfl) (fun _ _ _ => rfl) fun _ _ _ => rfl⟩
  · have ht : t = locked := if_neg hh
    rw [ht]
    exact ⟨rfl, rfl, by simpa using hh, rfl⟩

end State

/-- An alarm's cause is no register that judging data service writes. -/
theorem State.alarmCause_settled (s t : State) : (s.settled t).get CPH.ALARM_CAUSE = t.get CPH.ALARM_CAUSE :=
  s.get_settled _ (by decide)

/-- Settles O13: the clock alarm, then a muster, a held reset, or nothing. -/
theorem clockFailure : Obligations.ClockFailure := by
  intro s hv
  refine ⟨fun time => ?_, ?_, fun x => ?_⟩
  · have hg : s.gives (.clockFail time) (s.at time).clockFail := State.gives_whenSup (fun s => (s.at time).clockFail) hv rfl
    obtain ⟨hclk, hback, hevt, herased, hmuster, hhold⟩ := (s.at time).clockFail_fails
    generalize (s.at time).clockFail = t at *
    refine hg.answers ?_
    rw [State.settled_clk, State.settled_pwr, State.settled_mus, (State.settled_sameKeys s t).rootGone, State.alarmCause_settled]
    exact ⟨hclk, hback, State.evt_settled hevt (by decide) s, herased, hmuster, hhold⟩
  · have hg : s.gives .synLockReturn s.lockReturn := State.gives_whenSup (fun s => s.lockReturn) hv rfl
    obtain ⟨hclk, hback, hhold, hmem⟩ := s.lockReturn_ends
    refine hg.answers ?_
    rw [State.settled_clk, State.settled_pwr]
    exact ⟨hclk, hback, hhold, State.sameMemory_settled hmem s⟩
  · exact State.gives_whenSup (fun s => { s with pwr := { s.pwr with rstStretch := setBit s.pwr.rstStretch x.val false } }) hv rfl

end Sys2Proof.Machine

/-! PROOFS. Entry into Vitrine (R382 to R384). -/

namespace Sys2Proof.Machine

-- One proof at a time: many at once outgrow the memory that the check gives.
set_option Elab.async false

/-- The registers that record an entry into Vitrine. -/
def entryRecords : List Fld := [VIT.CAUSE, VIT.DEFERRED, VIT.ENTRIES, VIT.ENTRY_SEC, VIT.ENTRY_EPOCH]

namespace State

/-- What an alarm leaves of a register that it does not latch. -/
theorem get_keyAlarm (s : State) (cause : Nat) {f : Fld} (he : f.noEvent = true) (hp : f.key ≠ PCE.MSIX_PBA.key)
    (h1 : f.key ≠ CPH.ALARM_CAUSE.key) (h2 : f.key ≠ CPH.PRIV_ERASED.key) : (s.keyAlarm cause).get f = s.get f := by
  have hr (v : State) (p b : Nat) : (v.raise p b).get f = v.get f := v.get_raise p b (evtRaw_ne_noEvent p he).symm hp
  rw [keyAlarm, hr, get_put_ne _ _ h2, setb, get_put_ne _ _ h1, eraseKeys]
  exact foldl_keeps (fun v => v.get f) (fun v i => hr v _ _) _ _

/-- The entry recorded (R383): its cause, its count, its second and its epoch. -/
def entered (s : State) (cause : Nat) (deferred : Bool) : State :=
  ((((s.put VIT.CAUSE cause).putb VIT.DEFERRED deferred).inc VIT.ENTRIES).put VIT.ENTRY_SEC s.cal.sec).put VIT.ENTRY_EPOCH s.ep.num

theorem freeze_eq (s : State) (cause : Nat) (deferred : Bool) : s.freeze cause deferred =
    let v := (s.keyAlarm 3).entered cause deferred
    v.lockA (({ v with vit := { v.vit with frozen := true, deferred := none } }).raise VIT.page VIT.evVITRINE_ENTERED) := rfl

theorem entered_records (s : State) {cause : Nat} (hc : cause < 4) (deferred : Bool) :
    let v := s.entered cause deferred
    v.get VIT.CAUSE = cause ∧ v.get VIT.DEFERRED = b2n deferred ∧ v.get VIT.ENTRIES = min (2 ^ 32 - 1) (s.get VIT.ENTRIES + 1) ∧
      v.get VIT.ENTRY_SEC = s.cal.sec % 2 ^ 64 ∧ v.get VIT.ENTRY_EPOCH = s.ep.num % 2 ^ 64 := by
  unfold entered
  refine ⟨?_, ?_, ?_, ?_, ?_⟩
  · rw [get_put_ne _ _ (by decide), get_put_ne _ _ (by decide), get_inc_ne _ _ (by decide), putb, get_put_ne _ _ (by decide),
      get_put_self]
    exact Nat.mod_eq_of_lt hc
  · rw [get_put_ne _ _ (by decide), get_put_ne _ _ (by decide), get_inc_ne _ _ (by decide), putb, get_put_self]
    cases deferred <;> rfl
  · rw [get_put_ne _ _ (by decide), get_put_ne _ _ (by decide), get_inc_self, putb, get_put_ne _ _ (by decide),
      get_put_ne _ _ (by decide)]
    rfl
  · rw [get_put_ne _ _ (by decide), get_put_self]
    rfl
  · rw [get_put_self]
    rfl

/-- The record touches registers alone. -/
theorem entered_keeps (s : State) (cause : Nat) (deferred : Bool) : (s.entered cause deferred).key = s.key ∧
    (s.entered cause deferred).mem = s.mem ∧ (s.entered cause deferred).get CPH.PRIV_ERASED = s.get CPH.PRIV_ERASED := by
  refine ⟨rfl, rfl, ?_⟩
  rw [entered, get_put_ne _ _ (by decide), get_put_ne _ _ (by decide), get_inc_ne _ _ (by decide), putb,
    get_put_ne _ _ (by decide), get_put_ne _ _ (by decide)]

/-- The device frozen (R383). -/
theorem freeze_enters (s : State) (cause : Nat) (deferred : Bool) :
    let t := s.freeze cause deferred
    t.vit.frozen = true ∧ (∀ f ∈ entryRecords, t.get f = ((s.keyAlarm 3).entered cause deferred).get f) ∧
      t.evt VIT.page VIT.evVITRINE_ENTERED = true ∧ t.key = (s.keyAlarm 3).key ∧ t.get CPH.PRIV_ERASED = 1 ∧ t.mem = s.mem := by
  have hlatch := (s.keyAlarm_latches (cause := 3) (by decide)).2.1
  have hmem := (s.keyAlarm_keeps 3).2.2
  obtain ⟨hkey, hkept, hpriv⟩ := (s.keyAlarm 3).entered_keeps cause deferred
  dsimp only
  rw [freeze_eq]
  dsimp only
  generalize (s.keyAlarm 3).entered cause deferred = v at *
  generalize s.keyAlarm 3 = k at *
  generalize hw : ({ v with vit := { v.vit with frozen := true, deferred := none } } : State) = w
  have hget (f : Fld) (he : f.noEvent = true) (hp : f.key ≠ PCE.MSIX_PBA.key) :
      (v.lockA (w.raise VIT.page VIT.evVITRINE_ENTERED)).get f = v.get f := by
    rw [get_of_reg (lockA_reg v _), get_raise _ _ _ (evtRaw_ne_noEvent _ he).symm hp, ← hw]
    rfl
  refine ⟨?_, fun f hf => ?_, ?_, ?_, ?_, ?_⟩
  · rw [of_offKeys (fun v => v.vit.frozen) (fun _ => rfl) (lockA_offKeys v _), raise_vit, ← hw]
  · have hf' : f.noEvent = true ∧ f.key ≠ PCE.MSIX_PBA.key := by
      clear * - hf
      revert f
      decide
    exact hget f hf'.1 hf'.2
  · rw [evt, get_of_reg (lockA_reg v _)]
    exact evt_raise_self _ _ _ (by decide)
  · rw [lockA_key, raise_key, ← hw, hkey]
  · rw [hget _ rfl (by decide), hpriv, hlatch]
  · rw [of_offKeys State.mem (fun _ => rfl) (lockA_offKeys v _), raise_mem, ← hw]
    exact hkept.trans hmem

variable {s : State}

theorem enterVitrine_now (hh : s.heldInReset = false) (hf : s.vit.frozen = false) (hm : s.mus.state ≠ .mustering) (cause : Nat) :
    s.enterVitrine cause = s.freeze cause false := by
  rw [enterVitrine, if_neg (by simp [hh, hf]), if_neg (by simpa using hm)]

theorem enterVitrine_deferred (hh : s.heldInReset = false) (hf : s.vit.frozen = false) (hm : s.mus.state = .mustering) (cause : Nat) :
    s.enterVitrine cause = { s with vit := { s.vit with deferred := some cause } } := by
  rw [enterVitrine, if_neg (by simp [hh, hf]), if_pos (by simp [hm])]

theorem vitrinePin_short {low : Nat} (h : low < usCycles) : s.vitrinePin low = s := if_pos h

theorem vitrinePin_long {low : Nat} (h : 2 * usCycles ≤ low) : s.vitrinePin low = s.enterVitrine 1 := by
  have hu : ¬ low < usCycles := by omega
  rw [vitrinePin, if_neg hu, if_neg (by omega)]
  rfl

/-- A state without what an instruction of JTAG as such changes. -/
def offJtag (s : State) : State := { s with vit := { s.vit with ir := 0, drive := .device, pulsing := false }, out := [] }

theorem of_offJtag {α : Type} {s t : State} (p : State → α) (hp : ∀ v : State, p v.offJtag = p v)
    (h : t.offJtag = s.offJtag) : p t = p s := by
  rw [← hp t, h, hp]

/-- An entry through a pin or an instruction that changes nothing that the entry looks at. -/
theorem answers_enterVitrine {v : State} {c : Instr} {cause : Nat} (hg : s.gives c (v.enterVitrine cause)) (hc : cause < 4)
    (hv : v.offJtag = s.offJtag) (hh : s.heldInReset = false) (hf : s.vit.frozen = false) :
    (s.mus.state ≠ .mustering → s.answers c fun t =>
      t.vit.frozen = true ∧ t.get VIT.CAUSE = cause ∧ t.get VIT.DEFERRED = 0 ∧
      t.get VIT.ENTRIES = min (2 ^ 32 - 1) (s.get VIT.ENTRIES + 1) ∧ t.get VIT.ENTRY_SEC = s.cal.sec % 2 ^ 64 ∧
      t.get VIT.ENTRY_EPOCH = s.ep.num % 2 ^ 64 ∧ t.evt VIT.page VIT.evVITRINE_ENTERED = true ∧
      t.key.rootGone = true ∧ (∀ e ∈ t.key.inst, e.2.cls ≠ 8) ∧ t.get CPH.PRIV_ERASED = 1 ∧ s.sameMemory t) ∧
    (s.mus.state = .mustering → s.answers c fun t =>
      t.vit.frozen = false ∧ t.vit.deferred = some cause ∧ s.sameKeys t ∧ s.sameMemory t) := by
  have hh' : v.heldInReset = false := (of_offJtag State.heldInReset (fun _ => rfl) hv).trans hh
  have hf' : v.vit.frozen = false := (of_offJtag (fun v => v.vit.frozen) (fun _ => rfl) hv).trans hf
  have hmus : v.mus = s.mus := of_offJtag State.mus (fun _ => rfl) hv
  have hmem : v.mem = s.mem := of_offJtag State.mem (fun _ => rfl) hv
  refine ⟨fun hm => ?_, fun hm => ?_⟩
  · rw [enterVitrine_now hh' hf' (by rw [hmus]; exact hm)] at hg
    obtain ⟨hfrozen, hrecords, hevt, hkey, hpriv, hkept⟩ := v.freeze_enters cause false
    obtain ⟨hcause, hdeferred, hentries, hsec, hepoch⟩ := (v.keyAlarm 3).entered_records hc false
    have hroot := (v.keyAlarm_keeps 3).1
    have hinst := (v.keyAlarm_latches (cause := 3) (by decide)).2.2.2
    rw [get_keyAlarm v 3 rfl (by decide) (by decide) (by decide), of_offJtag (fun v => v.get VIT.ENTRIES) (fun _ => rfl) hv] at hentries
    rw [of_offKeys State.cal (fun _ => rfl) (keyAlarm_offKeys v 3), of_offJtag State.cal (fun _ => rfl) hv] at hsec
    rw [of_offKeys State.ep (fun _ => rfl) (keyAlarm_offKeys v 3), of_offJtag State.ep (fun _ => rfl) hv] at hepoch
    rw [← hkey] at hroot hinst
    simp only [entryRecords, List.mem_cons, List.not_mem_nil, or_false, forall_eq_or_imp, forall_eq] at hrecords
    obtain ⟨r1, r2, r3, r4, r5⟩ := hrecords
    generalize v.freeze cause false = t at *
    refine hg.answers ⟨?_, ?_, ?_, ?_, ?_, ?_, evt_settled hevt (by decide) s, ?_, ?_, ?_, sameMemory_settled (hkept.trans hmem) s⟩
    · rw [settled_vit, hfrozen]
    · rw [get_settled _ _ (by decide), r1, hcause]
    · rw [get_settled _ _ (by decide), r2, hdeferred]
      rfl
    · rw [get_settled _ _ (by decide), r3, hentries]
    · rw [get_settled _ _ (by decide), r4, hsec]
    · rw [get_settled _ _ (by decide), r5, hepoch]
    · rw [(settled_sameKeys s t).rootGone, hroot]
    · intro e he
      rw [settled_keyInsts, hinst] at he
      simpa using (List.mem_filter.mp he).2
    · rw [get_settled _ _ (by decide), hpriv]
  · rw [enterVitrine_deferred hh' hf' (by rw [hmus]; exact hm)] at hg
    have hkey : v.key = s.key := of_offJtag State.key (fun _ => rfl) hv
    refine hg.answers ⟨?_, ?_, sameKeys_settled ?_ s, sameMemory_settled ?_ s⟩
    · rw [settled_vit]
      exact hf'
    · rw [settled_vit]
    · exact hkey
    · exact hmem

end State

/-- Settles O7: the pin and the instruction enter Vitrine in one way. -/
theorem vitrineEntry : Obligations.VitrineEntry := by
  intro s hh hf
  have hv : s.pwr.vsupOk = true := by
    simp only [State.heldInReset, Bool.not_eq_false', Bool.and_eq_true] at hh
    exact hh.1.1.2
  have hpin (low : Nat) : s.gives (.vitrineN low) (s.vitrinePin low) := State.gives_whenSup (fun s => s.vitrinePin low) hv rfl
  have hinstr : s.gives .vitrine s.vitrineInstr := State.gives_whenSup (fun s => s.vitrineInstr) hv rfl
  refine ⟨fun low h => ?_, fun hl => ?_, fun low h => ?_, fun hl => ?_⟩
  · have hg := hpin low
    rw [State.vitrinePin_long h] at hg
    exact State.answers_enterVitrine hg (by decide) rfl hh hf
  · have he : s.vitrineInstr = (s.asBypass 0x20).enterVitrine 2 := if_neg (by
      rw [show (s.asBypass 0x20).flag VIT.JTAG_LOCK = s.flag VIT.JTAG_LOCK from rfl, hl]
      decide)
    rw [he] at hinstr
    exact State.answers_enterVitrine hinstr (by decide) rfl hh hf
  · have hg := hpin low
    rw [State.vitrinePin_short h] at hg
    exact hg
  · have he : s.vitrineInstr = (s.asBypass 0x20).raise VIT.page VIT.evJTAG_REFUSED := if_pos hl
    rw [he] at hinstr
    refine hinstr.answers ⟨State.evt_settled (State.evt_raise_self _ _ _ (by decide)) (by decide) s, ?_,
      State.sameKeys_settled ?_ s, State.sameMemory_settled ?_ s⟩
    · rw [State.settled_vit, State.raise_vit]
      exact hf
    · rw [State.raise_key]
      rfl
    · rw [State.raise_mem]
      rfl

end Sys2Proof.Machine

/-! PROOFS. The junction temperature: the hottest sensor, throttle and trip (R340 to R342). -/

namespace Sys2Proof.Machine

-- One proof at a time: many at once outgrow the memory that the check gives.
set_option Elab.async false

/-! ## The hottest sensor (R340) -/

/-- The hotter of the sensors seen so far and another. -/
def hotter (ts : List Int) (b : Option Nat) (i : Nat) : Option Nat :=
  match b with
  | none => some i
  | some j => some (if ts.getD j 0 < ts.getD i 0 then i else j)

theorem foldl_hotter (ts : List Int) (l : List Nat) (j : Nat) :
    ∃ i, l.foldl (hotter ts) (some j) = some i ∧ (i = j ∨ i ∈ l) ∧ ts.getD j 0 ≤ ts.getD i 0 ∧
      ∀ k ∈ l, ts.getD k 0 ≤ ts.getD i 0 := by
  induction l generalizing j with
  | nil => exact ⟨j, rfl, .inl rfl, le_rfl, fun _ h => absurd h List.not_mem_nil⟩
  | cons a l ih =>
    obtain ⟨i, hi, hmem, hle, hall⟩ := ih (if ts.getD j 0 < ts.getD a 0 then a else j)
    have hj : ts.getD j 0 ≤ ts.getD i 0 ∧ ts.getD a 0 ≤ ts.getD i 0 := by
      split at hle <;> omega
    refine ⟨i, hi, ?_, hj.1, fun k hk => ?_⟩
    · rcases hmem with rfl | h
      · split
        · exact .inr List.mem_cons_self
        · exact .inl rfl
      · exact .inr (List.mem_cons_of_mem _ h)
    · rcases List.mem_cons.mp hk with rfl | hk
      · exact hj.2
      · exact hall k hk

/-- The highest of the 24 readings. -/
theorem hottest (ts : List Int) : ∃ i, (List.range 24).foldl (hotter ts) none = some i ∧ i < 24 ∧
    ∀ k, k < 24 → ts.getD k 0 ≤ ts.getD i 0 := by
  obtain ⟨i, hi, hmem, hle, hall⟩ := foldl_hotter ts ((List.range 23).map Nat.succ) 0
  have hone : hotter ts none 0 = some 0 := rfl
  have hin (k : Nat) : k ∈ (List.range 23).map Nat.succ ↔ 0 < k ∧ k < 24 := by
    simp only [List.mem_map, List.mem_range]
    constructor
    · rintro ⟨m, hm, rfl⟩
      omega
    · intro hk
      exact ⟨k - 1, by omega, by omega⟩
  refine ⟨i, ?_, ?_, fun k hk => ?_⟩
  · rw [List.range_succ_eq_map, List.foldl_cons, hone]
    exact hi
  · rcases hmem with rfl | h
    · decide
    · exact ((hin i).mp h).2
  · rcases Nat.eq_zero_or_pos k with rfl | h
    · exact hle
    · exact hall k ((hin k).mpr ⟨h, hk⟩)

namespace State

/-- The readings and Tj taken in, with no sensor excluded. -/
def heatRead (s : State) (readings : NMap Int) (first : Bool) (t : Int) : State :=
  let s := { s with pwr := { s.pwr with sensors := readings, excluded := [] } }
  { s with
    pwr := { s.pwr with tj := t, tjPeak := if first then t else max s.pwr.tjPeak t }
    cen := { s.cen with tjMin := some (min t (s.cen.tjMin.getD t)), tjMax := some (max t (s.cen.tjMax.getD t)) } }

/-- The readings taken in, with sensor `i` the hottest and none excluded. -/
def heated (s : State) (ts : List Int) (i : Nat) : State :=
  (if ts.any fun t => 130 < t || t < -45 then s.alarm 2 else s).heatRead
    (mofList ((List.range 24).map fun i => (i, ts.getD i 0))) s.pwr.sensors.isEmpty (ts.getD i 0)

/-- What follows from Tj: the Census, throttle and trip (R341, R342, R368). -/
def heatJudged (s : State) (t : Int) (i : Nat) : State :=
  let s := if Int.ofNat (s.get CEN.TJ_WARN) ≤ t then s.census 2 i else s
  let s := if 105 ≤ t then s.setThrottle true else s
  if 120 ≤ t then s.trip else s

theorem thermal_valid {ts : List Int} (h : ∀ i, i < 24 → sensorOut ts i = false) (s : State) :
    ∃ i, i < 24 ∧ (∀ k, k < 24 → ts.getD k 0 ≤ ts.getD i 0) ∧ s.thermal ts =
      let v := (s.heated ts i).heatJudged (ts.getD i 0) i
      if v.sensorLow then v.setThrottle true else v := by
  obtain ⟨i, hi, hlt, hmax⟩ := hottest ts
  refine ⟨i, hlt, hmax, ?_⟩
  unfold thermal
  extract_lets out good first hot told alarmed pwr read heat
  have hout : out = [] := List.filter_eq_nil_iff.mpr fun k hk => by simp [h k (List.mem_range.mp hk)]
  have hgood : good = List.range 24 := by
    simp only [good, hout]
    rfl
  have hhot : hot = some i := (show hot = good.foldl (hotter ts) none from rfl).trans (by rw [hgood, hi])
  clear_value hot good out
  subst hhot hout
  rfl

theorem heatRead_keeps (s : State) (readings : NMap Int) (first : Bool) (t : Int) :
    let v := s.heatRead readings first t
    v.pwr.tj = t ∧ v.pwr.excluded = [] ∧ v.pwr.throttled = s.pwr.throttled ∧ v.pwr.tripped = s.pwr.tripped ∧
      v.mem = s.mem ∧ v.dpUp = s.dpUp := ⟨rfl, rfl, rfl, rfl, rfl, rfl⟩

/-- What the readings leave: the supervisor's record of them, and nothing of the datapath but what an alarm does. -/
theorem heated_leaves (s : State) (ts : List Int) (i : Nat) :
    let v := s.heated ts i
    v.pwr.tj = ts.getD i 0 ∧ v.pwr.excluded = [] ∧ v.pwr.throttled = s.pwr.throttled ∧ v.pwr.tripped = s.pwr.tripped ∧
      v.mem = s.mem ∧ v.dpUp = s.dpUp := by
  have ha : (if ts.any fun t => 130 < t || t < -45 then s.alarm 2 else s).offAdit = s.offAdit := by
    split
    · exact (s.alarm_rest 2).1
    · rfl
  dsimp only
  rw [heated]
  generalize (if ts.any fun t => 130 < t || t < -45 then s.alarm 2 else s) = u at ha ⊢
  obtain ⟨htj, hex, hthrottled, htripped, hmem, hup⟩ :=
    u.heatRead_keeps (mofList ((List.range 24).map fun i => (i, ts.getD i 0))) s.pwr.sensors.isEmpty (ts.getD i 0)
  have hpwr : u.pwr = s.pwr := of_offAdit State.pwr (fun _ => rfl) ha
  rw [htj, hex, hthrottled, htripped, hmem, hup, hpwr, of_offAdit State.mem (fun _ => rfl) ha, of_offAdit State.dpUp (fun _ => rfl) ha]
  exact ⟨rfl, rfl, rfl, rfl, rfl, rfl⟩

/-- Throttle entered or left changes the throttle, what figures the queues, and tells (R341). -/
theorem setThrottle_keeps {α : Type} (p : State → α) (hr : ∀ (v : State) a b, p (v.raise a b) = p v)
    (hp : ∀ (v : State) b, p { v with pwr := { v.pwr with throttled := b }, q := { v.q with refigure := true } } = p v)
    (s : State) (b : Bool) : p (s.setThrottle b) = p s := by
  unfold setThrottle
  split
  · rfl
  · exact (hr _ _ _).trans (hp s b)

theorem setThrottle_throttled (s : State) (b : Bool) : (s.setThrottle b).pwr.throttled = b := by
  unfold setThrottle
  split
  · rename_i h
    exact beq_iff_eq.mp h
  · rw [raise_pwr]

theorem evt_setThrottle {s : State} {p b : Nat} (hb : b < 32) (h : s.evt p b = true) (x : Bool) : (s.setThrottle x).evt p b = true := by
  unfold setThrottle
  split
  · exact h
  · exact evt_raise (s := { s with pwr := { s.pwr with throttled := x }, q := { s.q with refigure := true } }) h hb _ _

/-- A shutdown leaves registers and what is not of the sequencer as they are (R330). -/
theorem shutDown_keeps {α : Type} (p : State → α) (ho : ∀ (v : State) o, p (v.send o) = p v)
    (hp : ∀ (v : State) (x : PowerSt), x.tripped = v.pwr.tripped → p { v with pwr := x } = p v) (s : State) : p s.shutDown = p s := by
  have hout (v : State) : p v.rstout = p v := by
    refine foldl_keeps p (fun v x => ?_) _ v
    exact hp v _ rfl
  have hfrom (k : Nat) (f : Bool) : p (s.shutFrom k f) = p s := by
    have hlock (u v : State) : p (u.lockA v) = p v := by
      unfold lockA
      split
      · rfl
      · exact ho _ _
    rw [shutFrom, hlock, hout]
    exact hp s _ rfl
  unfold shutDown
  split
  · exact hfrom _ _
  · exact hfrom _ _
  · rfl

/-- The trip, and the muster that it starts where the datapath runs (R342). -/
theorem trip_trips (s : State) :
    s.trip.pwr.tripped = true ∧ s.trip.evt THM.page THM.evTRIP = true ∧ (s.dpUp = true → bitOf s.trip.mus.causes 5 = true) := by
  unfold trip
  extract_lets pwr told
  have htrip : told.pwr.tripped = true := congrArg PowerSt.tripped (raise_pwr _ _ _)
  have hevt : told.evt THM.page THM.evTRIP = true := evt_raise_self _ _ _ (by decide)
  have hup : told.dpUp = s.dpUp :=
    (of_offKeys State.dpUp (fun _ => rfl) (raise_offKeys _ _ _)).trans rfl
  have hmus : told.mus = s.mus := raise_mus _ _ _
  clear_value told
  split
  · rename_i hd
    have h := told.musterTrigger_triggers (cause := 5) (dpUp_not_held hd).2
    exact ⟨(congrArg (fun x => x.2.2.tripped) h.steady).trans htrip, h.evt (by decide) hevt, fun _ => h.causes⟩
  rename_i hd
  have hno : s.dpUp ≠ true := fun h => hd (hup.trans h)
  split
  · split
    · exact ⟨htrip, hevt, fun h => absurd h hno⟩
    · exact ⟨htrip, hevt, fun h => absurd h hno⟩
  · rw [shutDown_keeps (fun v => v.pwr.tripped) (fun _ _ => rfl) (fun _ _ h => h),
      shutDown_keeps (fun v => v.evt THM.page THM.evTRIP) (fun _ _ => rfl) (fun _ _ _ => rfl)]
    exact ⟨htrip, hevt, fun h => absurd h hno⟩

/-- The Census hears of a warm sensor, and nothing else comes of it. -/
def warmed (s : State) (t : Int) (i : Nat) : State := if Int.ofNat (s.get CEN.TJ_WARN) ≤ t then s.census 2 i else s

theorem warmed_keeps {α : Type} {p : State → α} (h : Unnoted p) (s : State) (t : Int) (i : Nat) : p (s.warmed t i) = p s := by
  unfold warmed
  split
  · exact h.census _ _ _
  · rfl

variable {s : State} {t : Int}

theorem heatJudged_cool (h : t < 105) (i : Nat) : s.heatJudged t i = s.warmed t i := by
  rw [heatJudged, if_neg (show ¬ 105 ≤ t by omega), if_neg (show ¬ 120 ≤ t by omega), warmed]

theorem heatJudged_hot (h : 105 ≤ t) (h' : t < 120) (i : Nat) : s.heatJudged t i = (s.warmed t i).setThrottle true := by
  rw [heatJudged, if_pos h, if_neg (show ¬ 120 ≤ t by omega), warmed]

theorem heatJudged_trips (h : 120 ≤ t) (i : Nat) : s.heatJudged t i = ((s.warmed t i).setThrottle true).trip := by
  rw [heatJudged, if_pos h, if_pos (show 105 ≤ t by omega), warmed]

/-- With no sensor excluded there are sensors enough (R340). -/
theorem sensorLow_none (h : s.pwr.excluded = []) : s.sensorLow = false := by
  rw [sensorLow, h]
  simp

end State

/-- Settles O14: the hottest sensor decides. -/
theorem junctionTemperature : Obligations.JunctionTemperature := by
  intro s hv
  have hread (time : Nat) (ts : List Int) : s.gives (.thermalRead time ts) ((s.at time).thermal ts) :=
    State.gives_whenSup (fun s => (s.at time).thermal ts) hv rfl
  have hcool : s.gives .throttleOff s.coolOff := State.gives_whenSup (fun s => s.coolOff) hv rfl
  refine ⟨fun time ts hok hlow => ?_, fun time ts hok hlow hhot => ?_, fun time ts hok hhot => ?_, fun ht htj hs => ?_, fun h => ?_⟩
  · have hg := hread time ts
    obtain ⟨i, hi, hmax, heq⟩ := State.thermal_valid hok (s.at time)
    obtain ⟨htj, hex, hthrottled, htripped, hmem, -⟩ := (s.at time).heated_leaves ts i
    rw [heq, State.heatJudged_cool (hlow i hi).1] at hg
    generalize (s.at time).heated ts i = w at *
    have hpwr : (w.warmed (ts.getD i 0) i).pwr = w.pwr := State.warmed_keeps (unnoted_rest.comp State.pwr) w _ _
    have hkept : (w.warmed (ts.getD i 0) i).mem = w.mem := State.warmed_keeps (unnoted_rest.comp State.mem) w _ _
    generalize w.warmed (ts.getD i 0) i = v at *
    dsimp only at hg
    rw [State.sensorLow_none (by rw [hpwr, hex])] at hg
    refine hg.answers ?_
    rw [if_neg (by decide), State.settled_pwr, hpwr, htj]
    exact ⟨hmax, ⟨i, hi, rfl⟩, hex, hthrottled, htripped, State.sameMemory_settled (hkept.trans hmem) s⟩
  · have hg := hread time ts
    obtain ⟨i, hi, hmax, heq⟩ := State.thermal_valid hok (s.at time)
    obtain ⟨k, hk, hhot⟩ := hhot
    obtain ⟨htj, hex, hthrottled, htripped, hmem, -⟩ := (s.at time).heated_leaves ts i
    rw [heq, State.heatJudged_hot (hhot.trans (hmax k hk)) (hlow i hi)] at hg
    generalize (s.at time).heated ts i = w at *
    have hpwr : (w.warmed (ts.getD i 0) i).pwr = w.pwr := State.warmed_keeps (unnoted_rest.comp State.pwr) w _ _
    have hkept : (w.warmed (ts.getD i 0) i).mem = w.mem := State.warmed_keeps (unnoted_rest.comp State.mem) w _ _
    generalize w.warmed (ts.getD i 0) i = v at *
    have hex' := State.setThrottle_keeps (fun v => v.pwr.excluded) (fun v a b => by rw [v.raise_pwr]) (fun _ _ => rfl) v true
    have htripped' := State.setThrottle_keeps (fun v => v.pwr.tripped) (fun v a b => by rw [v.raise_pwr]) (fun _ _ => rfl) v true
    have hmem' := State.setThrottle_keeps State.mem (fun v a b => v.raise_mem a b) (fun _ _ => rfl) v true
    have hon := v.setThrottle_throttled true
    generalize v.setThrottle true = u at *
    dsimp only at hg
    rw [State.sensorLow_none (by rw [hex', hpwr, hex])] at hg
    refine hg.answers ?_
    rw [if_neg (by decide), State.settled_pwr]
    refine ⟨hon, ?_, State.sameMemory_settled (hmem'.trans (hkept.trans hmem)) s⟩
    rw [htripped', hpwr]
    exact htripped
  · have hg := hread time ts
    obtain ⟨i, hi, hmax, heq⟩ := State.thermal_valid hok (s.at time)
    obtain ⟨k, hk, hhot⟩ := hhot
    obtain ⟨-, -, -, -, -, hup⟩ := (s.at time).heated_leaves ts i
    rw [heq, State.heatJudged_trips (hhot.trans (hmax k hk))] at hg
    generalize (s.at time).heated ts i = w at *
    have hup' : (w.warmed (ts.getD i 0) i).dpUp = w.dpUp := State.warmed_keeps (unnoted_rest.comp State.dpUp) w _ _
    generalize w.warmed (ts.getD i 0) i = v at *
    have hup'' := State.setThrottle_keeps State.dpUp (fun v a b => State.of_offKeys State.dpUp (fun _ => rfl) (v.raise_offKeys a b))
      (fun _ _ => rfl) v true
    generalize v.setThrottle true = u at *
    obtain ⟨htrip, hevt, hcauses⟩ := u.trip_trips
    generalize u.trip = x at *
    have hlast (y : State) (hy : y = x ∨ y = x.setThrottle true) : y.pwr.tripped = true ∧ y.evt THM.page THM.evTRIP = true ∧
        (s.dpUp = true → bitOf y.mus.causes 5 = true) := by
      have hc : s.dpUp = true → bitOf x.mus.causes 5 = true := fun h => hcauses (hup''.trans (hup'.trans (hup.trans h)))
      rcases hy with rfl | rfl
      · exact ⟨htrip, hevt, hc⟩
      · rw [State.setThrottle_keeps (fun v => v.pwr.tripped) (fun v a b => by rw [v.raise_pwr]) (fun _ _ => rfl),
          State.setThrottle_keeps State.mus (fun v a b => v.raise_mus a b) (fun _ _ => rfl)]
        exact ⟨htrip, State.evt_setThrottle (by decide) hevt true, hc⟩
    dsimp only at hg
    obtain ⟨htrip', hevt', hcauses'⟩ := hlast (if x.sensorLow then x.setThrottle true else x) (by
      split
      · exact .inr rfl
      · exact .inl rfl)
    refine hg.answers ?_
    rw [State.settled_pwr, State.settled_mus]
    exact ⟨htrip', State.evt_settled hevt' (by decide) s, hcauses'⟩
  · rw [State.coolOff, if_pos (by simp [ht, htj, hs]), State.setThrottle, if_neg (by simp [ht])] at hcool
    refine hcool.answers ⟨?_, State.evt_settled (State.evt_raise_self _ _ _ (by decide)) (by decide) s, ?_,
      State.sameMemory_settled ?_ s⟩
    · rw [State.settled_pwr, State.raise_pwr]
    · rw [State.settled_q, State.raise_q]
    · rw [State.raise_mem]
  · have hno : s.coolOff = s := if_neg (by
      rcases h with h | h | h
      · simp [h]
      · simp [h]
      · simp [h])
    rw [hno] at hcool
    exact hcool

end Sys2Proof.Machine

/-! PROOFS. Marks, alarms and the entropy source (R290, R297, R299). -/

namespace Sys2Proof.Machine

-- One proof at a time: many at once outgrow the memory that the check gives.
set_option Elab.async false

namespace State

/-! ## What waits for keys, with nothing waiting -/

/-- Without alignment, or with the adit link up, judging it touches two of its bits and tells of them (R154). -/
theorem checkAdit_keeps {α : Type} {p : State → α} (hr : ∀ (v : State) a b, p (v.raise a b) = p v)
    (hw : ∀ (v : State) x, p (v.put ADT.KEY_WAIT x) = p v) (hl : ∀ (v : State) x, p (v.put ADT.LINK_UP x) = p v) {s : State}
    (h : s.flag ADT.ALIGNED = false ∨ s.flag ADT.LINK_UP = true) : p s.checkAdit = p s := by
  have hif (v : State) (c : Bool) (a b : Nat) : p (v.raiseIf c a b) = p v := by
    cases c
    · rfl
    · exact hr v a b
  unfold checkAdit
  extract_lets wait v
  have hp : p v = p s := (hw _ _).trans (hif _ _ _ _)
  have hget {f : Fld} (hf : f.key ≠ ADT.KEY_WAIT.key) (he : f.noEvent = true) (hpba : f.key ≠ PCE.MSIX_PBA.key) : v.get f = s.get f := by
    refine (get_put_ne _ _ hf).trans ?_
    unfold raiseIf
    split
    · exact get_raise _ _ _ (evtRaw_ne_noEvent _ he).symm hpba
    · rfl
  have hv : v.flag ADT.ALIGNED = false ∨ v.flag ADT.LINK_UP = true := by
    rw [flag, flag, hget (by decide) rfl (by decide), hget (by decide) rfl (by decide)]
    exact h
  clear_value v
  split
  · exact hp
  rename_i hal
  split
  · exact (hl _ _).trans ((hif _ _ _ _).trans hp)
  split
  · exact hp
  · rename_i hup
    rcases hv with hv | hv
    · simp [hv] at hal
    · exact absurd hv hup

/-- Nothing waits to be sent: only the lists of what waits are written. -/
theorem flushWaiting_idle {s : State} (hw : s.net.waiting = []) (hr : s.net.relays = []) :
    s.flushWaiting = { s with net := { s.net with waiting := [], relays := [] } } := by
  unfold flushWaiting
  rw [hw, hr]
  rfl

/-- A key has come or gone with nothing waiting and the adit link as it stays. -/
theorem keysChanged_keeps {α : Type} {p : State → α} (hr : ∀ (v : State) a b, p (v.raise a b) = p v)
    (hw : ∀ (v : State) x, p (v.put ADT.KEY_WAIT x) = p v) (hl : ∀ (v : State) x, p (v.put ADT.LINK_UP x) = p v)
    (hn : ∀ (v : State) x, p { v with net := x } = p v) (hm : ∀ (v : State) x, p { v with mus := x } = p v) {s : State}
    (h : s.flag ADT.ALIGNED = false ∨ s.flag ADT.LINK_UP = true) (hwait : s.net.waiting = []) (hrel : s.net.relays = []) :
    p s.keysChanged = p s := by
  have hnet : s.checkAdit.net = s.net := checkAdit_keeps (fun v a b => v.raise_net a b) (fun _ _ => rfl) (fun _ _ => rfl) h
  obtain ⟨a, -, ha⟩ := s.checkAdit.flushWaiting.checkArmed_eq
  rw [keysChanged, ha]
  refine (hm _ _).trans ?_
  rw [flushWaiting_idle (by rw [hnet, hwait]) (by rw [hnet, hrel])]
  exact (hn _ _).trans (checkAdit_keeps hr hw hl h)

/-- No message waits for a channel or for a mark. -/
structure NoneHalted (s : State) : Prop where
  adit : s.key.haltAdit = []
  rx : s.key.haltRx = []
  pages : s.key.haltPages = []
  load : s.key.haltLoad = none

/-- The channels work again with no message waiting for them. -/
theorem chansResume_idle {s : State} (h : s.NoneHalted) : s.chansResume = s.keysChanged := by
  obtain ⟨ha, hr, hp, hl⟩ := h
  have hs : ({ s with key := { s.key with haltAdit := [], haltRx := [], haltPages := [], haltLoad := none } } : State) = s := by
    rw [← ha, ← hr, ← hp, ← hl]
  unfold chansResume
  simp only [hs, ha, hr, hp, hl]
  rfl

/-! ## Marks (R290) -/

theorem tableAppend_keeps {α : Type} {p : State → α} (h : Unnoted p) (s : State) (lo hi : Nat) (keep : List (List Nat))
    (entry : List Nat) : p (s.tableAppend lo hi keep entry) = p s := by
  unfold tableAppend
  extract_lets v base stop len o
  split
  · exact h.devNor _ _
  · exact h.devNor _ _

/-- A mark programmed, with no record waiting for it: it counts, and its key is ready. -/
theorem markDone_marks {s : State} (hrl : s.key.reload = []) (n v : Nat) : ∃ x : NMap KeyInst,
    (s.markDone n v).key = { s.key with marks := mput s.key.marks n v, inst := x, reload := [] } ∧
      (∀ k, s.keyInst n = some k → ∃ y, mget x n = some y ∧ y.ready = true) ∧ (s.markDone n v).mem = s.mem ∧
      (s.markDone n v).net = s.net ∧ (s.markDone n v).flag ADT.ALIGNED = s.flag ADT.ALIGNED := by
  unfold markDone
  extract_lets isNew appended key marked told ready
  have happ {α : Type} {p : State → α} (h : Unnoted p) : p appended = p s := tableAppend_keeps h _ _ _ _ _
  have hkey : told.key = { s.key with marks := mput s.key.marks n v } := by
    have h : told.key = marked.key := raiseIf_key _ _ _ _
    have ha : appended.key = s.key := happ (unnoted_rest.comp State.key)
    rw [h]
    simp only [marked, key, ha]
  have hmem : told.mem = s.mem := (raiseIf_mem _ _ _ _).trans (happ unnoted_mem)
  have hnet : told.net = s.net := (raiseIf_net _ _ _ _).trans (happ (unnoted_rest.comp State.net))
  have hal : told.flag ADT.ALIGNED = s.flag ADT.ALIGNED := by
    have h : told.get ADT.ALIGNED = marked.get ADT.ALIGNED := by
      simp only [told, raiseIf]
      split
      · exact get_raise _ _ _ (by decide) (by decide)
      · rfl
    rw [flag, h]
    exact congrArg (· != 0) (happ (unnoted_get_of (f := ADT.ALIGNED) rfl (by decide) (by decide)))
  clear_value told
  have hready : ∃ x, ready.key = { s.key with marks := mput s.key.marks n v, inst := x } ∧
      (∀ k, s.keyInst n = some k → ∃ y, mget x n = some y ∧ y.ready = true) ∧ ready.mem = s.mem ∧ ready.net = s.net ∧
      ready.flag ADT.ALIGNED = s.flag ADT.ALIGNED := by
    have hinst : told.keyInst n = s.keyInst n := by rw [keyInst, hkey, keyInst]
    simp only [ready]
    rw [hinst]
    cases hk : s.keyInst n with
    | none => exact ⟨s.key.inst, hkey, fun _ h => by simp at h, hmem, hnet, hal⟩
    | some k =>
      refine ⟨mput s.key.inst n { k with ready := true }, ?_, fun _ _ => ⟨_, mget_mput_self _ _ _, rfl⟩, hmem, hnet, hal⟩
      simp only [setKeyInst, hkey]
  clear_value ready
  obtain ⟨x, hx, hr, hm, hn, ha⟩ := hready
  have hnone : ready.key.reload = [] := by rw [hx, hrl]
  rw [hnone, reloadFrom]
  exact ⟨x, by rw [hx], hr, hm, hn, ha⟩

/-- The oldest mark programmed with nothing else waiting. -/
theorem markProgrammed_marks {s : State} {n v : Nat} {rest : List (Nat × Nat)} (hm : s.key.marking = (n, v) :: rest)
    (hb : s.norBusy 2 = false) (hal : s.flag ADT.ALIGNED = false) (hw : s.net.waiting = []) (hrel : s.net.relays = [])
    (hrl : s.key.reload = []) (hh : s.NoneHalted) :
    let t := s.markProgrammed
    t.key.marking = rest ∧ mget t.key.marks n = some v ∧
      (∀ k, s.keyInst n = some k → ∃ x, t.keyInst n = some x ∧ x.ready = true) ∧ t.mem = s.mem := by
  have ht : s.markProgrammed = (({ s with key := { s.key with marking := rest } } : State).markDone n v).chansResume := by
    rw [markProgrammed, hm]
    exact if_neg (by simp [hb])
  obtain ⟨x, hkey, hready, hmem, hnet, hflag⟩ := markDone_marks (s := { s with key := { s.key with marking := rest } }) hrl n v
  dsimp only
  rw [ht]
  generalize ({ s with key := { s.key with marking := rest } } : State).markDone n v = u at *
  have hu : u.NoneHalted := by
    refine ⟨?_, ?_, ?_, ?_⟩
    · rw [hkey]; exact hh.adit
    · rw [hkey]; exact hh.rx
    · rw [hkey]; exact hh.pages
    · rw [hkey]; exact hh.load
  have hkeep : u.keysChanged.key = u.key ∧ u.keysChanged.mem = u.mem := by
    have hf : u.flag ADT.ALIGNED = false ∨ u.flag ADT.LINK_UP = true := .inl (hflag.trans hal)
    have hw' : u.net.waiting = [] := by rw [hnet]; exact hw
    have hr' : u.net.relays = [] := by rw [hnet]; exact hrel
    exact ⟨keysChanged_keeps (fun v a b => v.raise_key a b) (fun _ _ => rfl) (fun _ _ => rfl) (fun _ _ => rfl) (fun _ _ => rfl) hf hw' hr',
      keysChanged_keeps (fun v a b => v.raise_mem a b) (fun _ _ => rfl) (fun _ _ => rfl) (fun _ _ => rfl) (fun _ _ => rfl) hf hw' hr'⟩
  have hinst : u.keysChanged.keyInst n = mget x n := by rw [keyInst, hkeep.1, hkey]
  rw [chansResume_idle hu, hinst, hkeep.1, hkeep.2, hkey]
  exact ⟨rfl, mget_mput_self _ _ _, hready, hmem⟩

theorem markProgrammed_idle {s : State} (h : s.key.marking = [] ∨ s.norBusy 2 = true) : s.markProgrammed = s := by
  unfold markProgrammed
  rcases h with h | h
  · rw [h]
  · split
    · rfl
    · rw [if_pos h]

/-! ## Alarms (R299) -/

/-- An alarm while the datapath runs and the adit link stays as it is. -/
theorem alarm_dpUp {s : State} (hd : s.dpUp = true) {cause : Nat} (hc : cause < 5)
    (ha : s.flag ADT.ALIGNED = false ∨ s.flag ADT.LINK_UP = true) :
    let t := s.alarm cause
    t.key = (s.keyAlarm cause).key ∧ bitOf (t.get CPH.ALARM_CAUSE) cause = true ∧ t.get CPH.PRIV_ERASED = 1 ∧
      t.evt CPH.page CPH.evALARM = true ∧ t.mem = s.mem := by
  have hseq : s.pwr.seq = .on := by
    simp only [dpUp, mgUp, Bool.and_eq_true, beq_iff_eq] at hd
    exact hd.1.1.1.1.1
  obtain ⟨hcause, hpriv, hevt, -⟩ := s.keyAlarm_latches hc
  have hmem := (s.keyAlarm_keeps cause).2.2
  have hup : (s.keyAlarm cause).dpUp = true := (of_offKeys State.dpUp (fun _ => rfl) (s.keyAlarm_offKeys cause)).trans hd
  have hflags : (s.keyAlarm cause).flag ADT.ALIGNED = false ∨ (s.keyAlarm cause).flag ADT.LINK_UP = true := by
    rw [flag, flag, s.get_keyAlarm _ rfl (by decide) (by decide) (by decide), s.get_keyAlarm _ rfl (by decide) (by decide) (by decide)]
    exact ha
  have ht : s.alarm cause = (s.keyAlarm cause).checkAdit := by
    rw [alarm, if_neg (by simp [hseq])]
    exact if_pos hup
  dsimp only
  rw [ht]
  generalize s.keyAlarm cause = k at *
  have hadit := (Adit.refl k).checkAdit
  refine ⟨checkAdit_keeps (fun v a b => v.raise_key a b) (fun _ _ => rfl) (fun _ _ => rfl) hflags, ?_, ?_, hadit.evt (by decide) hevt, ?_⟩
  · rw [hadit.regs _ rfl (by decide) rfl, hcause]
  · rw [hadit.regs _ rfl (by decide) rfl, hpriv]
  · rw [of_offAdit State.mem (fun _ => rfl) hadit.rest, hmem]

/-! ## The entropy source (R297) -/

/-- A failure of the entropy tests. -/
def entropyFails (s : State) : State := ({ s with key := { s.key with entOk := false } }).raise CPH.page CPH.evENT_FAIL

/-- A reseed with nothing waiting for the channels. -/
theorem reseeded_reseeds {s : State} (ha : s.flag ADT.ALIGNED = false ∨ s.flag ADT.LINK_UP = true) (hw : s.net.waiting = [])
    (hrel : s.net.relays = []) (hh : s.NoneHalted) :
    let t := s.reseeded
    t.key.halted = false ∧ t.key.seeded = true ∧ t.key.entOk = true ∧
      t.get CPH.DRBG_RESEEDS = min (2 ^ CPH.DRBG_RESEEDS.width - 1) (s.get CPH.DRBG_RESEEDS + 1) ∧ t.mem = s.mem := by
  unfold reseeded
  extract_lets past key fresh t
  have hfresh : fresh.key.halted = false ∧ fresh.key.seeded = true ∧ fresh.key.entOk = true := ⟨rfl, rfl, rfl⟩
  have hcount : fresh.get CPH.DRBG_RESEEDS = s.get CPH.DRBG_RESEEDS := rfl
  have hmem : fresh.mem = s.mem := rfl
  have hh' : fresh.NoneHalted := ⟨hh.adit, hh.rx, hh.pages, hh.load⟩
  have ha' : fresh.flag ADT.ALIGNED = false ∨ fresh.flag ADT.LINK_UP = true := ha
  have hw' : fresh.net.waiting = [] := hw
  have hrel' : fresh.net.relays = [] := hrel
  clear_value fresh
  have hu : (fresh.inc CPH.DRBG_RESEEDS).NoneHalted := ⟨hh'.adit, hh'.rx, hh'.pages, hh'.load⟩
  have hf : (fresh.inc CPH.DRBG_RESEEDS).flag ADT.ALIGNED = false ∨ (fresh.inc CPH.DRBG_RESEEDS).flag ADT.LINK_UP = true := by
    rw [flag, flag, get_inc_ne _ _ (by decide), get_inc_ne _ _ (by decide)]
    exact ha'
  have hkey : (fresh.inc CPH.DRBG_RESEEDS).keysChanged.key = fresh.key := keysChanged_keeps (p := State.key)
    (fun v a b => v.raise_key a b) (fun _ _ => rfl) (fun _ _ => rfl) (fun _ _ => rfl) (fun _ _ => rfl) hf hw' hrel'
  have hget : (fresh.inc CPH.DRBG_RESEEDS).keysChanged.get CPH.DRBG_RESEEDS = (fresh.inc CPH.DRBG_RESEEDS).get CPH.DRBG_RESEEDS :=
    keysChanged_keeps (p := fun v => v.get CPH.DRBG_RESEEDS)
      (fun v a b => v.get_raise a b (evtRaw_ne_noEvent a rfl).symm (by decide)) (fun v x => v.get_put_ne x (by decide))
      (fun v x => v.get_put_ne x (by decide)) (fun _ _ => rfl) (fun _ _ => rfl) hf hw' hrel'
  have hkept : (fresh.inc CPH.DRBG_RESEEDS).keysChanged.mem = fresh.mem := keysChanged_keeps (p := State.mem)
    (fun v a b => v.raise_mem a b) (fun _ _ => rfl) (fun _ _ => rfl) (fun _ _ => rfl) (fun _ _ => rfl) hf hw' hrel'
  obtain ⟨hhalted, hseeded, hent⟩ := hfresh
  have ht : t = (fresh.inc CPH.DRBG_RESEEDS).keysChanged := chansResume_idle hu
  rw [ht, hkey, hget, hkept, get_inc_self, hcount]
  exact ⟨hhalted, hseeded, hent, rfl, hmem⟩

/-- What does not look at the messages of the cipher channels is the same under keys that are the same but for them. -/
theorem sameKeys.asks {β : Type} (p : KeySt → β) (hp : ∀ (k : KeySt) c n, p { k with chan := c, drbgReqs := n } = p k) {s t : State}
    (h : s.sameKeys t) : p t.key = p s.key := by
  rw [← hp t.key s.key.chan s.key.drbgReqs]
  exact congrArg p h

end State

/-- Settles O56: a mark, an alarm, and the two ends of the entropy source's failure. -/
theorem marksAlarmsEntropy : Obligations.MarksAlarmsEntropy := by
  intro s hd
  have hv : s.pwr.vsupOk = true := by
    simp only [State.dpUp, State.mgUp, Bool.and_eq_true] at hd
    exact hd.1.1.1.1.2
  have hmark : s.gives .markProgrammed s.markProgrammed := State.gives_whenDp (fun s => s.markProgrammed) hd rfl
  have hfail : s.gives .entFail s.entropyFails := State.gives_whenDp (fun s => s.entropyFails) hd rfl
  have hhalt : s.gives .drbgHalt s.drbgHalt := State.gives_whenDp (fun s => s.drbgHalt) hd rfl
  unfold State.entropyFails at hfail
  unfold State.drbgHalt at hhalt
  refine ⟨fun h => ?_, fun n v rest hm hb hal hw hrel hrl ha hr hp hl => ?_, fun cause ha => ?_, hfail, hhalt,
    fun ha hr hp hl hw hrel hal => ?_⟩
  · rw [State.markProgrammed_idle h] at hmark
    exact hmark
  · obtain ⟨hmarking, hmarks, hready, hmem⟩ := State.markProgrammed_marks hm hb hal hw hrel hrl ⟨ha, hr, hp, hl⟩
    generalize s.markProgrammed = t at *
    have hkey := State.settled_sameKeys s t
    refine hmark.answers ⟨?_, ?_, fun k hk => ?_, State.sameMemory_settled hmem s⟩
    · rw [hkey.asks KeySt.marking fun _ _ _ => rfl, hmarking]
    · rw [State.settled_marks, hmarks]
    · rw [State.keyInst, State.settled_keyInsts]
      exact hready k hk
  · have hg : s.gives (.alarm cause) (s.alarm cause.val) := State.gives_whenSup (fun s => s.alarm cause.val) hv rfl
    obtain ⟨hkey, hcause, hpriv, hevt, hmem⟩ := State.alarm_dpUp hd cause.isLt ha
    have hroot := (s.keyAlarm_keeps cause.val).1
    obtain ⟨-, -, -, hinst⟩ := s.keyAlarm_latches cause.isLt
    rw [← hkey] at hroot hinst
    generalize s.alarm cause.val = t at *
    refine hg.answers ⟨?_, fun e he => ?_, ?_, ?_, State.evt_settled hevt (by decide) s, State.sameMemory_settled hmem s⟩
    · rw [(State.settled_sameKeys s t).rootGone, hroot]
    · rw [State.settled_keyInsts, hinst] at he
      split at he
      · exact absurd he List.not_mem_nil
      · rename_i hne
        exact ⟨by simpa using (List.mem_filter.mp he).2, hne⟩
    · rw [State.alarmCause_settled, hcause]
    · rw [State.get_settled _ _ (by decide), hpriv]
  · have hg : s.gives .reseedDone s.reseeded := State.gives_whenDp (fun s => s.reseeded) hd rfl
    obtain ⟨hhalted, hseeded, hent, hcount, hmem⟩ := State.reseeded_reseeds hal hw hrel ⟨ha, hr, hp, hl⟩
    generalize s.reseeded = t at *
    have hkey := State.settled_sameKeys s t
    refine hg.answers ⟨?_, ?_, ?_, ?_, State.sameMemory_settled hmem s⟩
    · rw [hkey.asks KeySt.halted fun _ _ _ => rfl, hhalted]
    · rw [hkey.asks KeySt.seeded fun _ _ _ => rfl, hseeded]
    · rw [hkey.asks KeySt.entOk fun _ _ _ => rfl, hent]
    · rw [State.get_settled _ _ (by decide), hcount]

end Sys2Proof.Machine

/-! PROOFS. The Census recorder and the calendar (R370, R372 to R374, R377 to R379). -/

namespace Sys2Proof.Machine

-- One proof at a time: many at once outgrow the memory that the check gives.
set_option Elab.async false

/-! ## Records written leave the counts of the period (R371, R373) -/

/-- The recorder without its place in the store and the records that wait for it. -/
def CensusSt.offStore (x : CensusSt) : CensusSt :=
  { x with newest := none, nextSlot := 0, full := false, heldSum := none, heldOoc := none }

namespace Unnoted

variable {α : Type} {p : State → α} (h : Unnoted p)
include h

theorem writeSummary (s : State) (bs : List Byte) : p (s.writeSummary bs) = p s := by
  unfold State.writeSummary
  split
  · split
    · exact h.inc _ _ (by decide)
    · exact h.cen _ _
  split
  · exact h.inc _ _ (by decide)
  · exact h.programRecord _ _

theorem writeHeld (s : State) : p s.writeHeld = p s := by
  unfold State.writeHeld
  split
  · rfl
  · extract_lets sum ooc x v u
    clear_value sum ooc
    have hv : p v = p s := h.cen _ _
    have hu : p u = p v := by
      simp only [u]
      split
      · exact h.writeSummary _ _
      · rfl
    split
    · exact (h.writeOoc _ _ _).trans (hu.trans hv)
    · exact hu.trans hv

end Unnoted

namespace State

theorem programRecord_cen (s : State) (bs : List Byte) : (s.programRecord bs).cen =
    { s.cen with newest := some s.cen.nextSlot, nextSlot := s.slotAfter, full := s.slotAfter == 65536 } := by
  have hw : (s.programWords bs 64).cen =
    { s.cen with newest := some s.cen.nextSlot, nextSlot := s.slotAfter, full := s.slotAfter == 65536 } := rfl
  unfold programRecord
  extract_lets v full kind told
  rw [raiseIf_cen, raiseIf_cen, ← hw]
  simp only [told]
  split
  · exact raise_cen _ _ _
  split
  · exact raise_cen _ _ _
  · rfl

/-- A SUMMARY's record is told (R371). -/
theorem programRecord_told (s : State) {bs : List Byte} (hk : (bs.getD 8 0).toNat = 1) :
    (s.programRecord bs).evt CEN.page CEN.evSUMMARY_DONE = true := by
  unfold programRecord
  extract_lets v full kind told
  have ht : told.evt CEN.page CEN.evSUMMARY_DONE = true := by
    simp only [told, kind, hk]
    exact evt_raise_self _ _ _ (by decide)
  clear_value told
  have hif (u : State) (c : Bool) (b : Nat) (hu : u.evt CEN.page CEN.evSUMMARY_DONE = true) :
      (u.raiseIf c CEN.page b).evt CEN.page CEN.evSUMMARY_DONE = true := by
    cases c
    · exact hu
    · exact evt_raise hu (by decide) _ _
  exact hif _ _ _ (hif _ _ _ ht)

theorem writeSummary_offStore (s : State) (bs : List Byte) : (s.writeSummary bs).cen.offStore = s.cen.offStore := by
  unfold writeSummary
  split
  · split <;> rfl
  split
  · rfl
  · rw [programRecord_cen]
    rfl

theorem writeOoc_offStore (s : State) (wait : Bool) (bs : List Byte) : (s.writeOoc wait bs).2.cen.offStore = s.cen.offStore := by
  unfold writeOoc
  split
  · split <;> rfl
  split
  · rfl
  · dsimp only
    rw [programRecord_cen]
    rfl

theorem writeHeld_offStore (s : State) : s.writeHeld.cen.offStore = s.cen.offStore := by
  unfold writeHeld
  split
  · rfl
  · extract_lets sum ooc x v u
    clear_value sum ooc
    have hu : u.cen.offStore = s.cen.offStore := by
      simp only [u]
      split
      · exact writeSummary_offStore _ _
      · rfl
    split
    · exact (writeOoc_offStore _ _ _).trans hu
    · exact hu

/-- With the store at rest and no record waiting there is none to write. -/
theorem writeHeld_none {s : State} (h1 : s.cen.heldSum = none) (h2 : s.cen.heldOoc = none) : s.writeHeld = s := by
  have hx : ({ s.cen with heldSum := none, heldOoc := none } : CensusSt) = s.cen := by
    generalize s.cen = x at h1 h2
    cases x
    simp_all
  have hs : ({ s with cen := { s.cen with heldSum := none, heldOoc := none } } : State) = s := by rw [hx]
  unfold writeHeld
  split
  · rfl
  · simp only [h1, h2, hs]

/-! ## The end of a period (R370) -/

/-- The counts of a period cleared, and the next begun. -/
def nextPeriod (s : State) : State :=
  let x := s.cen
  let s := { s with cen := { x with
      hist := [], counts := [], rails := [], corrStk := [], corrDch := [], dieBits := [], tjMin := none, tjMax := none
      stkMax := none, vMin := x.vNow, vMax := x.vNow, ovf := false, injected := false, start := s.calTime
      period := s.get CEN.PERIOD_MIN } }
  (List.range 16).foldl (fun s k => s.put (CEN.RAIL_SUM k) 0) (s.put CEN.SAMPLES 0)

theorem closePeriod_eq (s : State) (step : Bool) :
    s.closePeriod step = (s.writeSummary (s.recordBytes 1 0 0 step)).nextPeriod.writeHeld := rfl

theorem nextPeriod_cen (s : State) : s.nextPeriod.cen = { s.cen with
    hist := [], counts := [], rails := [], corrStk := [], corrDch := [], dieBits := [], tjMin := none, tjMax := none
    stkMax := none, vMin := s.cen.vNow, vMax := s.cen.vNow, ovf := false, injected := false, start := s.calTime
    period := s.get CEN.PERIOD_MIN } := by
  rw [nextPeriod, foldl_keeps State.cen fun (v : State) (k : Nat) => put_cen v (CEN.RAIL_SUM k) 0]
  rfl

theorem nextPeriod_keeps {α : Type} {p : State → α} (h : ∀ (v : State) x, p { v with cen := x } = p v)
    (hp : ∀ (v : State) (g : Fld) x, g.page = CEN.page → p (v.put g x) = p v) (s : State) : p s.nextPeriod = p s := by
  rw [nextPeriod, foldl_keeps p fun (v : State) (k : Nat) => hp v (CEN.RAIL_SUM k) 0 rfl]
  exact (hp _ _ _ rfl).trans (h s _)

theorem samples_ne_railSum (k : Nat) : CEN.SAMPLES.key ≠ (CEN.RAIL_SUM k).key := by
  have hs : CEN.SAMPLES.key = ((7 * 4096 + 0x038) * 64) * 16 + 4 := by decide
  have hr : (CEN.RAIL_SUM k).key = ((7 * 4096 + (0x200 + 0x8 * k)) * 64) * 16 + 4 := rfl
  omega

theorem nextPeriod_samples (s : State) : s.nextPeriod.get CEN.SAMPLES = 0 := by
  rw [nextPeriod, foldl_keeps (fun v : State => v.get CEN.SAMPLES) fun (v : State) (k : Nat) => v.get_put_ne 0 (samples_ne_railSum k),
    get_put_self, Nat.zero_mod]

/-- The header of a SUMMARY's record names its kind (R371). -/
theorem recordBytes_kind (s : State) (trig idx : Nat) (step : Bool) : ((s.recordBytes 1 trig idx step).getD 8 0).toNat = 1 := rfl

/-- The end of a period (R370, R373). -/
theorem closePeriod_closes (s : State) (step : Bool) :
    let t := s.closePeriod step
    t.cen.start = s.calTime ∧ t.cen.period = s.get CEN.PERIOD_MIN ∧ t.cen.hist = [] ∧ t.cen.counts = [] ∧ t.cen.rails = [] ∧
      t.get CEN.SAMPLES = 0 ∧ t.mem = s.mem := by
  have hw {α : Type} {p : State → α} (h : Unnoted p) : p (s.writeSummary (s.recordBytes 1 0 0 step)) = p s := h.writeSummary s _
  have htime : (s.writeSummary (s.recordBytes 1 0 0 step)).calTime = s.calTime := hw (unnoted_rest.comp State.calTime)
  have hperiod : (s.writeSummary (s.recordBytes 1 0 0 step)).get CEN.PERIOD_MIN = s.get CEN.PERIOD_MIN :=
    hw (unnoted_get_of (f := CEN.PERIOD_MIN) rfl (by decide) (by decide))
  have hmem : (s.writeSummary (s.recordBytes 1 0 0 step)).mem = s.mem := hw unnoted_mem
  rw [closePeriod_eq]
  generalize s.writeSummary (s.recordBytes 1 0 0 step) = v at *
  have hcen := v.nextPeriod_cen
  have hsamples := v.nextPeriod_samples
  have hkept : v.nextPeriod.mem = v.mem := nextPeriod_keeps (p := State.mem) (fun _ _ => rfl) (fun _ _ _ _ => rfl) v
  generalize v.nextPeriod = u at *
  have hoff := u.writeHeld_offStore
  have hs : u.writeHeld.get CEN.SAMPLES = u.get CEN.SAMPLES :=
    (unnoted_get_of (f := CEN.SAMPLES) rfl (by decide) (by decide)).writeHeld u
  have hm : u.writeHeld.mem = u.mem := unnoted_mem.writeHeld u
  generalize u.writeHeld = w at *
  have hstart := congrArg CensusSt.start hoff
  have hper := congrArg CensusSt.period hoff
  have hhist := congrArg CensusSt.hist hoff
  have hcounts := congrArg CensusSt.counts hoff
  have hrails := congrArg CensusSt.rails hoff
  simp only [CensusSt.offStore, hcen] at hstart hper hhist hcounts hrails
  exact ⟨hstart.trans htime, hper.trans hperiod, hhist, hcounts, hrails, hs.trans hsamples, hm.trans (hkept.trans hmem)⟩

/-- Its SUMMARY is in the next slot where the store takes it (R373). -/
theorem closePeriod_told {s : State} (hf : s.cen.full = false) (hb : s.storeBusy = false) (h1 : s.cen.heldSum = none)
    (h2 : s.cen.heldOoc = none) (step : Bool) :
    let t := s.closePeriod step
    t.cen.newest = some s.cen.nextSlot ∧ t.cen.nextSlot = s.slotAfter ∧ t.evt CEN.page CEN.evSUMMARY_DONE = true := by
  have hsum : s.writeSummary (s.recordBytes 1 0 0 step) = s.programRecord (s.recordBytes 1 0 0 step) := by
    rw [writeSummary, if_neg (by simp [hb]), if_neg (by simp [hf])]
  have hcen := s.programRecord_cen (s.recordBytes 1 0 0 step)
  have hevt := s.programRecord_told (s.recordBytes_kind 0 0 step)
  rw [closePeriod_eq, hsum]
  generalize s.programRecord (s.recordBytes 1 0 0 step) = v at *
  have hnext := v.nextPeriod_cen
  have hkept : v.nextPeriod.evt CEN.page CEN.evSUMMARY_DONE = v.evt CEN.page CEN.evSUMMARY_DONE := by
    have h : ∀ k, (HDR.EVT_RAW CEN.page).key ≠ (CEN.RAIL_SUM k).key := by
      intro k
      have he : (HDR.EVT_RAW CEN.page).key = ((7 * 4096 + 0x00C) * 64) * 16 + 4 := by decide
      have hr : (CEN.RAIL_SUM k).key = ((7 * 4096 + (0x200 + 0x8 * k)) * 64) * 16 + 4 := rfl
      omega
    rw [evt, nextPeriod, foldl_keeps (fun v : State => v.get (HDR.EVT_RAW CEN.page)) fun (v : State) (k : Nat) => v.get_put_ne 0 (h k),
      get_put_ne _ _ (by decide)]
    rfl
  generalize v.nextPeriod = u at *
  have hu : u.writeHeld = u := writeHeld_none (by rw [hnext, hcen, h1]) (by rw [hnext, hcen, h2])
  rw [hu]
  dsimp only
  rw [hnext, hcen, hkept]
  exact ⟨rfl, rfl, hevt⟩

theorem censusToken_mem (s : State) (code : Nat) : (s.censusToken code).mem = s.mem := rfl

theorem periodDue_eq_false {s : State} (h : s.cal.sec % (60 * s.cen.period) ≠ 0 ∨ s.cal.sec * 32768 ≤ s.cen.start) :
    s.periodDue = false := by
  rcases h with h | h
  · simp [periodDue, h]
  · simp [periodDue, Nat.not_lt.mpr h]

theorem periodDue_eq_true {s : State} (h1 : s.cal.sec % (60 * s.cen.period) = 0) (h2 : s.cen.start < s.cal.sec * 32768) :
    s.periodDue = true := by
  simp [periodDue, h1, h2]

/-! ## The calendar (R377 to R379) -/

theorem calendarTick_counts {s : State} (he : s.cal.ended = false) (hl : s.cal.sec < calLast) :
    s.calendarTick.cal = { s.cal with sec := s.cal.sec + 1, tickAt := s.cal.tickAt + secCycles } ∧ s.calendarTick.mem = s.mem := by
  have ht : s.calendarTick = _ := (if_neg (by simp [he])).trans (if_neg (by omega))
  rw [ht]
  exact ⟨(unnoted_rest.comp State.cal).writeHeld _, unnoted_mem.writeHeld _⟩

/-- A calendar step loads the new second. -/
theorem calStep_loads (s : State) (sec : Nat) :
    (s.calStep sec).cal = { s.cal with sec := sec, tickAt := s.now, valid := true, ended := false } ∧ (s.calStep sec).mem = s.mem := by
  have hstep {α : Type} {p : State → α} (hp : ∀ v : State, p v.unnoted = p v) : p s.stepCounted = p s := by
    have hrest (v : State) : (v.closePeriod true).unnoted = v.unnoted := by
      rw [closePeriod_eq, unnoted_rest.writeHeld, nextPeriod_keeps (p := State.unnoted) (fun _ _ => rfl) (fun _ _ _ _ => rfl),
        unnoted_rest.writeSummary]
    have hall : s.stepCounted.unnoted = s.unnoted := by
      rw [stepCounted, hrest, unnoted_rest.outOfCycle]
      rfl
    rw [← hp s.stepCounted, hall, hp]
  have hcal : s.stepCounted.cal = s.cal := hstep fun _ => rfl
  have hnow : s.stepCounted.now = s.now := hstep fun _ => rfl
  have hmem : s.stepCounted.mem = s.mem := hstep fun _ => rfl
  unfold calStep
  generalize s.stepCounted = v at *
  exact ⟨by dsimp only; rw [hcal, hnow], hmem⟩

/-- Time lost while the supply stands (R378). -/
theorem calendarLost_restarts {s : State} (h : s.pwr.vsupOk = true) :
    let t := s.calendarLost
    t.cal.valid = false ∧ t.cal.sec = 0 ∧ t.cen.start = 0 ∧ t.get RTC.OSC_FAIL = 1 ∧ t.evt RTC.page RTC.evOSC_FAIL_EVT = true ∧
      t.mem = s.mem := by
  have ht : s.calendarLost = (({ s with cal := { tickAt := s.now, lost := !s.pwr.vsupOk }, cen := { s.cen with start := 0 } } : State).put
      RTC.OSC_FAIL 1).raise RTC.page RTC.evOSC_FAIL_EVT := if_pos h
  rw [ht]
  refine ⟨?_, ?_, ?_, ?_, evt_raise_self _ _ _ (by decide), ?_⟩
  · rw [raise_cal]
    rfl
  · rw [raise_cal]
    rfl
  · rw [raise_cen]
    rfl
  · rw [get_raise _ _ _ (by decide) (by decide), get_put_self]
    rfl
  · rw [raise_mem]
    rfl

theorem calendarLost_dark {s : State} (h : s.pwr.vsupOk = false) :
    s.calendarLost = { s with cal := { tickAt := s.now, lost := true }, cen := { s.cen with start := 0 } } := by
  have ht : s.calendarLost = { s with cal := { tickAt := s.now, lost := !s.pwr.vsupOk }, cen := { s.cen with start := 0 } } :=
    if_neg (by
      show ¬ s.pwr.vsupOk = true
      simp [h])
  rw [ht, h]
  rfl

/-- The read of the window's last word: the word as it stood, and the cursor moved on (R374). -/
theorem regFetch_lastWord {s : State} {path : Path} (hr : s.reaches path CEN.page = true)
    (hi : s.flag (HDR.IN_RESET CEN.page) = false) : s.regFetch path (CEN.page * 4096 + 0x1FC) =
      ((s.countStall 3).put CEN.CURSOR (min 65536 ((s.countStall 3).get CEN.CURSOR + 1))).send
        (.regData path (CEN.page * 4096 + 0x1FC) (s.pageWord CEN.page 0x1FC)) := by
  have hp : (CEN.page * 4096 + 0x1FC) / 4096 = CEN.page := by decide
  have ho : (CEN.page * 4096 + 0x1FC) % 4096 = 0x1FC := by decide
  have hw : windowAt CEN.page 0x1FC = none := by decide
  have he : s.readEffects CEN.page 0x1FC =
      (s.countStall 3).put CEN.CURSOR (min 65536 ((s.countStall 3).get CEN.CURSOR + 1)) := by
    rw [readEffects, hw]
    rfl
  obtain ⟨base, hb⟩ : ∃ b, pageBase CEN.page = some b := Option.isSome_iff_exists.1 (by decide)
  have ha : (CEN.page * 4096 + 0x1FC) % 4 = 0 := by decide
  generalize CEN.page * 4096 + 0x1FC = addr at hp ho ha ⊢
  simp only [regFetch, regRead, readPage, ha, hp, ho, hr, hb, hi, he, bne_self_eq_false, Bool.false_eq_true, if_false, if_true,
    beq_self_eq_true]
  rfl

theorem countStall_keeps (s : State) (bank : Nat) : (s.countStall bank).get CEN.CURSOR = s.get CEN.CURSOR ∧
    (s.countStall bank).out = s.out ∧ (s.countStall bank).mem = s.mem := by
  unfold countStall
  split
  · exact ⟨get_inc_ne _ _ (by decide), rfl, rfl⟩
  · exact ⟨rfl, rfl, rfl⟩

/-- A date and time set, or refused whole (R379). -/
theorem calApply_eq {s : State} {path : Path} (h : ∀ k, path ≠ .curator k) : s.calApply path =
    (s.calSet (2000 + bitsOf (s.get RTC.SET_DATE) 16 9) (bitsOf (s.get RTC.SET_DATE) 8 4) (bitsOf (s.get RTC.SET_DATE) 0 5)
      (bitsOf (s.get RTC.SET_TIME) 16 5) (bitsOf (s.get RTC.SET_TIME) 8 6) (bitsOf (s.get RTC.SET_TIME) 0 6)).2 := by
  cases path with
  | curator k => exact absurd rfl (h k)
  | pcie => rfl
  | smbus => rfl

end State

/-- Settles O60: the recorder's period, buckets and cursor, and the calendar's seconds. -/
theorem censusAndCalendar : Obligations.CensusAndCalendar := by
  refine ⟨fun s hv => ⟨fun h => ?_, fun h1 h2 => ?_, fun code => ?_, fun path hr hi => ?_⟩,
    fun s => ⟨fun h => ?_, fun he hl => ?_, fun he hl => ?_, fun h => ?_, fun h => ?_, fun path hw => ⟨fun k hk => ?_, fun ho hok => ?_,
      fun ho hok => ?_⟩⟩⟩
  · have hg : s.gives .summary s.summary := State.gives_whenSup (fun s => s.summary) hv rfl
    rw [State.summary, if_neg (by simp [State.periodDue_eq_false h])] at hg
    exact hg
  · have hg : s.gives .summary s.summary := State.gives_whenSup (fun s => s.summary) hv rfl
    rw [State.summary, if_pos (State.periodDue_eq_true h1 h2)] at hg
    obtain ⟨hstart, hperiod, hhist, hcounts, hrails, hsamples, hmem⟩ := s.closePeriod_closes false
    refine hg.answers ?_
    rw [State.settled_cen, State.get_settled _ _ (by decide)]
    refine ⟨hstart, hperiod, hhist, hcounts, hrails, hsamples, fun hf hb hs hooc => ?_, State.sameMemory_settled hmem s⟩
    obtain ⟨hnewest, hnext, hevt⟩ := State.closePeriod_told hf hb hs hooc false
    exact ⟨hnewest, hnext, State.evt_settled hevt (by decide) s⟩
  · have hg : s.gives (.censusToken code) (s.censusToken code.val) := State.gives_whenSup (fun s => s.censusToken code.val) hv rfl
    refine hg.answers ?_
    rw [State.settled_cen]
    exact ⟨mgetD_mset_self _ _ _ _, fun c hc => mgetD_mset_ne _ _ _ _ hc, rfl, State.sameMemory_settled (s.censusToken_mem _) s⟩
  · have hg : s.gives (.censusWindowRead path) (s.regFetch path (CEN.page * 4096 + 0x1FC)) :=
      State.gives_whenSup (fun s => s.regFetch path (CEN.page * 4096 + 0x1FC)) hv rfl
    obtain ⟨hcursor, hout, hmem⟩ := s.countStall_keeps 3
    rw [State.regFetch_lastWord hr hi, hcursor] at hg
    refine ⟨_, hg, ?_, ?_, ?_⟩
    · refine (State.get_put_self _ _ _).trans (Nat.mod_eq_of_lt ?_)
      rw [show CEN.CURSOR.width = 17 from rfl]
      omega
    · rw [State.send, State.put_out, hout]
    · exact fun a => congrArg (Memory.read · a) hmem
  · have hg : s.gives .calendarTick s.calendarTick := rfl
    rw [State.calendarTick, if_pos h] at hg
    exact hg
  · have hg : s.gives .calendarTick s.calendarTick := rfl
    rw [State.calendarTick, if_neg (by simp [he]), if_pos hl] at hg
    exact hg
  · have hg : s.gives .calendarTick s.calendarTick := rfl
    obtain ⟨hcal, hmem⟩ := State.calendarTick_counts he hl
    refine hg.answers ⟨?_, State.sameMemory_settled hmem s⟩
    rw [State.settled_cal, hcal]
  · have hg : s.gives .oscFail s.calendarLost := rfl
    obtain ⟨hvalid, hsec, hstart, hosc, hevt, hmem⟩ := State.calendarLost_restarts h
    refine hg.answers ?_
    rw [State.settled_cal, State.settled_cen, State.get_settled _ _ (by decide)]
    exact ⟨hvalid, hsec, hstart, hosc, State.evt_settled hevt (by decide) s, State.sameMemory_settled hmem s⟩
  · have hg : s.gives .oscFail s.calendarLost := rfl
    rw [State.calendarLost_dark h] at hg
    exact hg
  · have hg : s.gives (.apply path) (s.calApply path) := State.gives_regRun (f := RTC.APPLY) (act := fun s => s.calApply path) hw rfl
    rw [hk] at hg ⊢
    exact hg
  · have hg : s.gives (.apply path) (s.calApply path) := State.gives_regRun (f := RTC.APPLY) (act := fun s => s.calApply path) hw rfl
    rw [State.calApply_eq ho, State.calSet, if_pos hok] at hg
    obtain ⟨hcal, hmem⟩ := s.calStep_loads (calOf (2000 + bitsOf (s.get RTC.SET_DATE) 16 9) (bitsOf (s.get RTC.SET_DATE) 8 4)
      (bitsOf (s.get RTC.SET_DATE) 0 5) (bitsOf (s.get RTC.SET_TIME) 16 5) (bitsOf (s.get RTC.SET_TIME) 8 6)
      (bitsOf (s.get RTC.SET_TIME) 0 6))
    refine hg.answers ⟨?_, State.evt_settled (State.evt_raise_self _ _ _ (by decide)) (by decide) s, State.sameMemory_settled ?_ s⟩
    · rw [State.settled_cal, State.raise_cal, hcal]
    · rw [State.raise_mem, hmem]
  · have hg : s.gives (.apply path) (s.calApply path) := State.gives_regRun (f := RTC.APPLY) (act := fun s => s.calApply path) hw rfl
    rw [State.calApply_eq ho, State.calSet, if_neg (by rw [hok]; decide)] at hg
    exact hg

end Sys2Proof.Machine

/-! PROOFS. Operations of the embedded NOR and the commit of an image (R351 to R356, R360). -/

namespace Sys2Proof.Machine

-- One proof at a time: many at once outgrow the memory that the check gives.
set_option Elab.async false

/-! ## Words (R351) -/

theorem mgetD_filter_ne {α : Type} (d : α) (m : NMap α) (p : Nat → Bool) {k : Nat} (h : p k = false) :
    mgetD (m.filter fun e => p e.1) k d = d := by
  induction m with
  | nil => rfl
  | cons e m ih =>
    obtain ⟨j, w⟩ := e
    by_cases hj : p j = true
    · have hne : j ≠ k := fun e => by simp [e, h] at hj
      simpa [hj, mgetD, mget, hne] using ih
    · simpa [hj] using ih

namespace State

variable {s : State}

/-- A word programmed: only its bits are cleared. -/
theorem norWord_program (s : State) (b v a : Nat) : (s.norProgramWord b v).norWord a =
    if a / 4 = b / 4 then Nat.land (s.norWord a) (v % 2 ^ 32) else s.norWord a := by
  have ht : (s.norProgramWord b v).norWord a =
      mgetD (mset norErased s.cur.words (b / 4 * 4) (Nat.land (s.norWord b) (v % 2 ^ 32))) (a / 4 * 4) norErased := rfl
  rw [ht]
  by_cases h : a / 4 = b / 4
  · rw [if_pos h, h, mgetD_mset_self, norWord, norWord, h]
  · rw [if_neg h, mgetD_mset_ne _ _ _ _ (by omega)]
    rfl

/-- A sector erased: every word of it, and no other. -/
theorem norWord_erase (s : State) (b a : Nat) : (s.norEraseSector b).norWord a =
    if a / 4096 = b / 4096 then 0xFFFFFFFF else s.norWord a := by
  have ht : (s.norEraseSector b).norWord a = mgetD (s.cur.words.filter fun e =>
      decide (e.1 < b / 4096 * 4096) || decide (b / 4096 * 4096 + 4096 ≤ e.1)) (a / 4 * 4) norErased := rfl
  rw [ht]
  by_cases h : a / 4096 = b / 4096
  · rw [if_pos h]
    refine mgetD_filter_ne norErased _ (fun k => decide (k < b / 4096 * 4096) || decide (b / 4096 * 4096 + 4096 ≤ k)) ?_
    simp only [Bool.or_eq_false_iff, decide_eq_false_iff_not]
    omega
  · rw [if_neg h, mgetD, mget_filter _ (fun k => decide (k < b / 4096 * 4096) || decide (b / 4096 * 4096 + 4096 ≤ k))]
    · rfl
    · simp only [Bool.or_eq_true, decide_eq_true_eq]
      omega

/-! ## An operation asked for (R352, R354) -/

/-- An operation refused in a closed sector (R354). -/
def norRefused (s : State) (who : Option (Fin 4)) : State :=
  ((s.put NOR.RESULT 2).raise NOR.page NOR.evFENCED_EVT).fence 5 who (0x10000000 + s.get NOR.ADDR)

theorem norOp_fenced_curator (h : s.norFenced (s.get NOR.ADDR) = true) (k : Fin 4) (erase : Bool) :
    s.norOp (.curator k) erase = s.norRefused (some k) := by
  unfold norOp norRefused
  simp only [h, if_true]

theorem norOp_fenced (h : s.norFenced (s.get NOR.ADDR) = true) {path : Path} (hp : ∀ k, path ≠ .curator k) (erase : Bool) :
    s.norOp path erase = s.norRefused none := by
  unfold norOp norRefused
  cases path with
  | curator k => exact absurd rfl (hp k)
  | pcie => simp only [h, if_true]
  | smbus => simp only [h, if_true]

section
variable (h : s.norFenced (s.get NOR.ADDR) = false) (path : Path)
include h

theorem norOp_busy
    (hb : (s.norBusy (norBank (s.get NOR.ADDR)) || (norBank (s.get NOR.ADDR) == 2 && !s.cur.devWait.isEmpty)) = true)
    (erase : Bool) : s.norOp path erase = s.put NOR.RESULT 3 := by
  unfold norOp
  simp only [h, hb, if_true, Bool.false_eq_true, if_false]

variable (hb : (s.norBusy (norBank (s.get NOR.ADDR)) || (norBank (s.get NOR.ADDR) == 2 && !s.cur.devWait.isEmpty)) = false)
include hb

theorem norOp_notErased (hw : s.norWord (s.get NOR.ADDR) ≠ 0xFFFFFFFF) :
    s.norOp path false = ((s.put NOR.RESULT 1).inc NOR.NOT_ERASED).raise NOR.page NOR.evNOT_ERASED_EVT := by
  have hw' : (!false && s.norWord (s.get NOR.ADDR) != norErased) = true := by simpa [norErased] using hw
  unfold norOp
  simp only [h, hb, hw', if_true, Bool.false_eq_true, if_false]

theorem norOp_begins {erase : Bool} (hw : erase = true ∨ s.norWord (s.get NOR.ADDR) = 0xFFFFFFFF) : s.norOp path erase =
    s.norBegin (norBank (s.get NOR.ADDR)) [{ erase := erase, addr := s.get NOR.ADDR, data := s.get NOR.DATA }] := by
  have hw' : (!erase && s.norWord (s.get NOR.ADDR) != norErased) = false := by
    rcases hw with rfl | hw
    · rfl
    · simp [hw, norErased]
  unfold norOp
  simp only [h, hb, hw', Bool.false_eq_true, if_false]

end

/-- An operation begun is in flight in its bank, and the words stand. -/
theorem norBegin_begins (s : State) (bank : Nat) (op : NorOp) : mget (s.norBegin bank [op]).cur.busy bank = some op ∧
    (s.norBegin bank [op]).cur.words = s.cur.words ∧ (s.norBegin bank [op]).mem = s.mem :=
  ⟨mget_mput_self _ _ _, rfl, rfl⟩

/-! ## An operation that ends (R353, R356) -/

/-- Nothing waits for the NOR, and no operation is in flight. -/
structure NorRests (s : State) : Prop where
  busy : s.cur.busy = []
  todo : s.cur.todo = []
  devWait : s.cur.devWait = []
  waits : s.cur.waits = []
  fw : s.cur.fw = []
  consuming : s.mus.consuming = none
  heldRec : s.key.heldRec = none
  heldFormat : s.key.heldFormat = false
  heldAns : s.key.heldAns = none
  selecting : s.cur.selecting = false

namespace NorRests

variable (h : s.NorRests)
include h

theorem keyNorFree : s.keyNorFree = s := by
  unfold State.keyNorFree
  rw [h.heldRec]
  simp only [h.heldFormat, h.heldAns, Bool.false_eq_true, if_false]

theorem devNorDrain : s.devNorDrain = s := by
  have hs : ({ s with cur := { s.cur with devWait := [] } } : State) = s := by rw [← h.devWait]
  rw [State.devNorDrain, hs, h.devWait]
  rfl

theorem selectDone : s.selectDone = s := by
  unfold State.selectDone
  split
  · rw [if_neg (by simp [h.selecting])]
  · rfl

theorem consumedDone : s.consumedDone = s := by
  rw [State.consumedDone, h.consuming]

theorem checkArmed : s.checkArmed.NorRests ∧ s.checkArmed.cur = s.cur ∧ s.checkArmed.reg = s.reg ∧ s.checkArmed.mem = s.mem := by
  obtain ⟨a, -, ha⟩ := s.checkArmed_eq
  rw [ha]
  exact ⟨⟨h.busy, h.todo, h.devWait, h.waits, h.fw, h.consuming, h.heldRec, h.heldFormat, h.heldAns, h.selecting⟩, rfl, rfl, rfl⟩

theorem norWaits : s.norWaits = s := by
  have hs : ({ s with cur := { s.cur with waits := [] } } : State) = s := by rw [← h.waits]
  have hn : s.norInFlight = false := by simp [norInFlight, h.busy]
  rw [State.norWaits, if_neg (by simp [hn])]
  dsimp only
  rw [hs, h.waits]
  rfl

theorem norResume : s.norResume = s := by
  have hs (b : Nat) : s.norBegin b [] = s := by
    have hcur : ({ s.cur with busy := [], todo := [] } : CurSt) = s.cur := by rw [← h.busy, ← h.todo]
    rw [State.norBegin, h.busy, h.todo]
    show ({ s with cur := { s.cur with busy := [], todo := [] } } : State) = s
    rw [hcur]
  have hbusy (b : Nat) : s.norBusy b = false := by simp [norBusy, h.busy]
  have hone (b : Nat) : (let (bad, v) := s.norNext b (mgetD s.cur.todo b []); if bad then v.fwEnd 0x09 else v) = s := by
    rw [h.todo]
    exact hs b
  rw [State.norResume, if_neg (by simp [h.waits])]
  have hfold (l : List Nat) : l.foldl (fun (v : State) b => if v.norBusy b then v else
      let (bad, u) := v.norNext b (mgetD v.cur.todo b [])
      if bad then u.fwEnd 0x09 else u) s = s := by
    induction l with
    | nil => rfl
    | cons b l ih =>
      rw [List.foldl_cons, hbusy b, if_neg (by decide), hone b]
      exact ih
  exact hfold _

/-- What waits for bank 2 finds nothing to do, but for the muster engine's readiness. -/
theorem bankFreed (two : Bool) : ∃ t : State, (if two then (s.keyNorFree.devNorDrain).selectDone.consumedDone.checkArmed else s) = t ∧
    t.NorRests ∧ t.cur = s.cur ∧ t.reg = s.reg ∧ t.mem = s.mem := by
  cases two
  · exact ⟨s, rfl, h, rfl, rfl, rfl⟩
  · rw [if_pos rfl, h.keyNorFree, h.devNorDrain, h.selectDone, h.consumedDone]
    exact ⟨_, rfl, h.checkArmed⟩

end NorRests

/-- The result of a curator's operation (R352). -/
def opEnded (s : State) (op : NorOp) (bank : Nat) : State :=
  let t := s.norApply op
  (({ t with cur := { t.cur with busy := mdel t.cur.busy bank } }).put NOR.RESULT 0).raise NOR.page NOR.evOP_DONE

theorem norApply_keeps (s : State) (op : NorOp) : (s.norApply op).mem = s.mem ∧ (s.norApply op).mus = s.mus ∧
    (s.norApply op).key = s.key ∧ (s.norApply op).cur = { s.cur with
      words := (s.norApply op).cur.words, prefetch := (s.norApply op).cur.prefetch, branch := (s.norApply op).cur.branch } := by
  unfold norApply
  split <;> exact ⟨rfl, rfl, rfl, rfl⟩

/-- A curator's operation, the only one in flight, ends with nothing else waiting. -/
theorem norOpDone_ends {bank : Nat} {op : NorOp} (hb : s.cur.busy = [(bank, op)]) (ho : op.owner = .curator)
    (hr : ({ s with cur := { s.cur with busy := [] } } : State).NorRests) :
    ∃ t : State, s.norOpDone bank = t ∧ t.cur.busy = [] ∧ t.get NOR.RESULT = 0 ∧ t.evt NOR.page NOR.evOP_DONE = true ∧
      t.cur.words = (s.norApply op).cur.words ∧ t.mem = s.mem := by
  obtain ⟨hmem, hmus, hkey, hcur⟩ := s.norApply_keeps op
  have hends : (s.opEnded op bank).NorRests ∧ (s.opEnded op bank).cur.words = (s.norApply op).cur.words ∧
      (s.opEnded op bank).mem = s.mem ∧ (s.opEnded op bank).get NOR.RESULT = 0 ∧
      (s.opEnded op bank).evt NOR.page NOR.evOP_DONE = true := by
    unfold opEnded
    generalize s.norApply op = v at *
    have hbusy : mdel v.cur.busy bank = [] := by rw [hcur, hb]; simp [mdel]
    refine ⟨⟨?_, ?_, ?_, ?_, ?_, ?_, ?_, ?_, ?_, ?_⟩, ?_, ?_, ?_, evt_raise_self _ _ _ (by decide)⟩
    · rw [raise_cur]; exact hbusy
    · rw [raise_cur, put_cur, hcur]; exact hr.todo
    · rw [raise_cur, put_cur, hcur]; exact hr.devWait
    · rw [raise_cur, put_cur, hcur]; exact hr.waits
    · rw [raise_cur, put_cur, hcur]; exact hr.fw
    · rw [raise_mus, put_mus, hmus]; exact hr.consuming
    · rw [raise_key, put_key, hkey]; exact hr.heldRec
    · rw [raise_key, put_key, hkey]; exact hr.heldFormat
    · rw [raise_key, put_key, hkey]; exact hr.heldAns
    · rw [raise_cur, put_cur, hcur]; exact hr.selecting
    · rw [raise_cur]; rfl
    · rw [raise_mem]; exact hmem
    · rw [get_raise _ _ _ (by decide) (by decide), get_put_self, Nat.zero_mod]
  obtain ⟨hrests, hwords, hkept, hresult, hevt⟩ := hends
  obtain ⟨t, ht, htr, htc, htreg, htm⟩ := hrests.bankFreed (bank == 2)
  refine ⟨t, ?_, htr.busy, ?_, ?_, ?_, htm.trans hkept⟩
  · have hget : mget s.cur.busy bank = some op := by rw [hb]; simp [mget]
    have hdone : s.norOpDone bank = State.fwPump ((if (mgetD t.cur.todo bank []).isEmpty then t.norOwnerDone op.owner else t).norWaits.norResume).cur.fw.length
        ((if (mgetD t.cur.todo bank []).isEmpty then t.norOwnerDone op.owner else t).norWaits.norResume) := by
      rw [← ht]
      unfold norOpDone
      rw [hget]
      simp only [ho]
      rfl
    have hnone : (if (mgetD t.cur.todo bank []).isEmpty then t.norOwnerDone op.owner else t) = t := by
      rw [ho]
      split <;> rfl
    rw [hdone, hnone, htr.norWaits, htr.norResume, htr.fw]
    rfl
  · rw [get_of_reg htreg, hresult]
  · rw [evt, get_of_reg htreg]
    exact hevt
  · rw [htc, hwords]

/-! ## The commit of an image (R360) -/

/-- The end of a commit that no firmware command asked for. -/
theorem commitEnd_ends {s : State} (hfw : s.cur.fw = []) (st : Nat) (hs : st < 256) :
    let t := s.commitEnd false st
    t.cur.verifying = none ∧ t.mem = s.mem ∧ t.get NOR.COMMIT_RESULT = st ∧
      (st = 0 → t.evt NOR.page NOR.evCOMMIT_DONE = true) ∧ (st = 0x10 → t.evt NOR.page NOR.evCOMMIT_FAIL = true) := by
  have hif (v : State) (c : Bool) (b : Nat) : (v.raiseIf c NOR.page b).get NOR.COMMIT_RESULT = v.get NOR.COMMIT_RESULT := by
    cases c
    · rfl
    · exact get_raise _ _ _ (by decide) (by decide)
  have hevt (v : State) (c : Bool) (b b' : Nat) (hb : b' < 32) (h : v.evt NOR.page b' = true) : (v.raiseIf c NOR.page b).evt NOR.page b' = true := by
    cases c
    · exact h
    · exact evt_raise h hb _ _
  unfold commitEnd
  extract_lets cur v told failed action ended t
  have hcur : failed.cur = { s.cur with verifying := none, selecting := false } := (raiseIf_cur _ _ _ _).trans (raiseIf_cur _ _ _ _)
  have ht : t = failed := (show t = State.fwPump failed.cur.fw.length failed from if_pos rfl).trans (by rw [hcur, hfw]; rfl)
  refine ⟨?_, ?_, ?_, fun h => ?_, fun h => ?_⟩
  · rw [ht, hcur]
  · rw [ht]
    exact (raiseIf_mem _ _ _ _).trans (raiseIf_mem _ _ _ _)
  · rw [ht]
    refine (hif _ _ _).trans ((hif _ _ _).trans ?_)
    rw [get_put_self]
    exact Nat.mod_eq_of_lt hs
  · rw [ht]
    have htold : told.evt NOR.page NOR.evCOMMIT_DONE = true := by
      simp only [told, h]
      exact evt_raise_self _ _ _ (by decide)
    exact hevt _ _ _ _ (by decide) htold
  · rw [ht]
    simp only [failed, h]
    exact evt_raise_self _ _ _ (by decide)

theorem commitReq_runs {s : State} (h : s.cur.verifying.isSome = true) (bank : Bool) : s.commitReq bank = s := if_pos h

theorem commitReq_starts {s : State} (h : s.cur.verifying = none) (bank : Bool) :
    s.commitReq bank = { s with cur := { s.cur with verifying := some (b2n bank, false) } } := by
  rw [commitReq, if_neg (by simp [h])]

theorem commitDone_idle {s : State} (h : s.cur.verifying = none ∨ s.mgUp = false ∨ s.cur.selecting = true) : s.commitDone = s := by
  unfold commitDone
  split
  · rfl
  · rename_i e
    rcases h with h | h | h
    · simp [h] at e
    · rw [if_pos (by simp [h])]
    · rw [if_pos (by simp [h])]

/-- The verifier's three verdicts (R360). -/
theorem commitDone_eq {s : State} {bank : Nat} (h : s.cur.verifying = some (bank, false)) (hm : s.mgUp = true)
    (hs : s.cur.selecting = false) : s.commitDone =
      if (s.norStalled bank).bankEmpty bank then (s.countStall bank).commitEnd false 0x02
      else if !(s.norStalled bank).imageOk bank then (s.countStall bank).commitEnd false 0x10
      else if s.norBusy 2 then
        { (s.countStall bank).selectBank (bank == 1) with
          cur := { ((s.countStall bank).selectBank (bank == 1)).cur with selecting := true } }
      else ((s.countStall bank).selectBank (bank == 1)).commitEnd false 0 := by
  have hb : (s.countStall bank).norBusy 2 = s.norBusy 2 := by
    rw [countStall]
    split <;> rfl
  unfold commitDone
  rw [h]
  dsimp only
  rw [if_neg (by simp [hm, hs]), hb]

/-- What the device does itself in bank 2 leaves the firmware commands as they are. -/
theorem devNor_fw (s : State) (ops : List (Nat × Option Nat)) : (s.devNor ops).cur.fw = s.cur.fw := by
  unfold devNor
  split
  · rfl
  · refine foldl_keeps (fun v : State => v.cur.fw) (fun v o => ?_) _ _
    cases o.2 <;> rfl

/-- An append to a pair of areas is something the device does itself in bank 2. -/
theorem areaAppend_devNor (s : State) (a b : Nat) (keep : State → List Nat) (entry : List Nat) :
    ∃ ops, s.areaAppend a b keep entry = s.devNor ops := by
  unfold areaAppend
  extract_lets len v
  split
  · exact ⟨_, rfl⟩
  · extract_lets other o
    split
    · exact ⟨_, rfl⟩
    · exact ⟨_, rfl⟩

theorem selectBank_keeps (s : State) (b : Bool) : (s.selectBank b).cur.fw = s.cur.fw ∧ (s.selectBank b).mem = s.mem := by
  obtain ⟨ops, h⟩ := s.areaAppend_devNor (norSector 2 5) (norSector 2 6) (fun s => (s.bankSelect.map bankWord).toList) [bankWord b]
  rw [selectBank, h]
  exact ⟨devNor_fw s ops, unnoted_mem.devNor s ops⟩

/-- A stall counted touches one counter. -/
theorem countStall_counts (s : State) (bank : Nat) : (s.countStall bank).cur = s.cur ∧ (s.countStall bank).mem = s.mem := by
  unfold countStall
  split <;> exact ⟨rfl, rfl⟩

/-- The end of a commit, settled. -/
theorem answers_commitEnd {s v : State} {st : Nat} (hg : s.gives .commitDone (v.commitEnd false st)) (hfw : v.cur.fw = [])
    (hmem : v.mem = s.mem) (hst : st < 256) : s.answers .commitDone fun t => t.cur.verifying = none ∧ s.sameMemory t ∧
      t.get NOR.COMMIT_RESULT = st ∧ (st = 0 → t.evt NOR.page NOR.evCOMMIT_DONE = true) ∧
      (st = 0x10 → t.evt NOR.page NOR.evCOMMIT_FAIL = true) := by
  obtain ⟨hver, hkept, hresult, hdone, hfail⟩ := commitEnd_ends hfw st hst
  refine hg.answers ?_
  rw [settled_cur, get_settled _ _ (by decide)]
  exact ⟨hver, sameMemory_settled (hkept.trans hmem) s, hresult, fun h => evt_settled (hdone h) (by decide) s,
    fun h => evt_settled (hfail h) (by decide) s⟩

end State

/-- Settles O55: what an operation asks for and ends with, and the verifier's verdicts. -/
theorem norOperations : Obligations.NorOperations := by
  intro s hv
  refine ⟨fun path hw => ?_, fun bank h => ?_, fun bank op hb ho htodo hdev hwaits hfw hcons hrec hfmt hans hsel => ?_,
    fun path bank hw => ?_, fun h => ?_, fun bank h hm hfw hs => ?_⟩
  · have hprog : s.gives (.norProgram path) (s.norOp path false) :=
      State.gives_regRun (f := NOR.OP) (act := fun s => s.norOp path false) hw rfl
    have herase : s.gives (.norErase path) (s.norOp path true) :=
      State.gives_regRun (f := NOR.OP) (act := fun s => s.norOp path true) hw rfl
    dsimp only
    refine ⟨fun ho h => ?_, fun k hk h => ?_, fun h hb => ?_, fun h hb hne => ?_, fun h hb he => ?_, fun h hb => ?_⟩
    · rw [State.norOp_fenced h ho] at hprog herase
      exact ⟨hprog, herase⟩
    · rw [hk, State.norOp_fenced_curator h] at hprog herase
      rw [hk]
      exact ⟨hprog, herase⟩
    · rw [State.norOp_busy h _ hb] at hprog herase
      exact ⟨hprog, herase⟩
    · rw [State.norOp_notErased h _ hb hne] at hprog
      exact hprog
    · rw [State.norOp_begins h _ hb (.inr he)] at hprog
      obtain ⟨hbusy, hwords, hmem⟩ := s.norBegin_begins (norBank (s.get NOR.ADDR))
        { erase := false, addr := s.get NOR.ADDR, data := s.get NOR.DATA }
      refine hprog.answers ?_
      rw [State.settled_cur]
      exact ⟨hbusy, hwords, State.sameMemory_settled hmem s⟩
    · rw [State.norOp_begins h _ hb (.inl rfl)] at herase
      obtain ⟨hbusy, hwords, hmem⟩ := s.norBegin_begins (norBank (s.get NOR.ADDR))
        { erase := true, addr := s.get NOR.ADDR, data := s.get NOR.DATA }
      refine herase.answers ?_
      rw [State.settled_cur]
      exact ⟨hbusy, hwords, State.sameMemory_settled hmem s⟩
  · have hg : s.gives (.norOpDone bank) (s.norOpDone bank.val) := State.gives_whenSup (fun s => s.norOpDone bank.val) hv rfl
    have hn : s.norOpDone bank.val = s := by
      unfold State.norOpDone
      rw [h]
    rw [hn] at hg
    exact hg
  · have hg : s.gives (.norOpDone bank) (s.norOpDone bank.val) := State.gives_whenSup (fun s => s.norOpDone bank.val) hv rfl
    obtain ⟨t, ht, hbusy, hresult, hevt, hwords, hmem⟩ :=
      State.norOpDone_ends hb ho ⟨rfl, htodo, hdev, hwaits, hfw, hcons, hrec, hfmt, hans, hsel⟩
    rw [ht] at hg
    have hword (a : Nat) : (s.settled t).norWord a = (s.norApply op).norWord a := by
      rw [State.norWord, State.settled_cur, hwords, State.norWord]
    refine hg.answers ⟨?_, ?_, State.evt_settled hevt (by decide) s, fun he a => ?_, fun he a => ?_, State.sameMemory_settled hmem s⟩
    · rw [State.settled_cur, hbusy]
    · rw [State.get_settled _ _ (by decide), hresult]
    · rw [hword, State.norApply, if_neg (by simp [he]), State.norWord_program]
    · rw [hword, State.norApply, if_pos he, State.norWord_erase]
  · have hg : s.gives (.commitReq path bank) (s.commitReq bank) :=
      State.gives_regRun (f := NOR.COMMIT_REQ) (act := fun s => s.commitReq bank) hw rfl
    refine ⟨fun h => ?_, fun h => ?_⟩
    · rw [State.commitReq_runs h] at hg
      exact hg
    · rw [State.commitReq_starts h] at hg
      exact hg
  · have hg : s.gives .commitDone s.commitDone := State.gives_whenSup (fun s => s.commitDone) hv rfl
    rw [State.commitDone_idle h] at hg
    exact hg
  · have hg : s.gives .commitDone s.commitDone := State.gives_whenSup (fun s => s.commitDone) hv rfl
    rw [State.commitDone_eq h hm hs] at hg
    obtain ⟨hcur, hmem⟩ := s.countStall_counts bank
    obtain ⟨hselfw, hselmem⟩ := (s.countStall bank).selectBank_keeps (bank == 1)
    dsimp only
    refine ⟨fun hor => ?_, fun he hi hb => ?_⟩
    · cases he : (s.norStalled bank).bankEmpty bank
      · cases hi : (s.norStalled bank).imageOk bank
        · rw [he, hi, if_neg (by decide), if_pos (by decide)] at hg
          obtain ⟨t, ht, hver, hsame, hresult, -, hfail⟩ := State.answers_commitEnd hg (by rw [hcur, hfw]) hmem (by decide)
          exact ⟨t, ht, hver, hsame, fun h => absurd h (by decide), fun _ h => absurd h (by decide), fun _ _ => ⟨hresult, hfail rfl⟩⟩
        · have hb : s.norBusy 2 = false := by simpa [he, hi] using hor
          rw [he, hi, hb, if_neg (by decide), if_neg (by decide), if_neg (by decide)] at hg
          obtain ⟨t, ht, hver, hsame, hresult, hdone, -⟩ :=
            State.answers_commitEnd hg (by rw [hselfw, hcur, hfw]) (hselmem.trans hmem) (by decide)
          exact ⟨t, ht, hver, hsame, fun h => absurd h (by decide), fun _ _ => ⟨hresult, hdone rfl⟩, fun _ h => absurd h (by decide)⟩
      · rw [he, if_pos rfl] at hg
        obtain ⟨t, ht, hver, hsame, hresult, -, -⟩ := State.answers_commitEnd hg (by rw [hcur, hfw]) hmem (by decide)
        exact ⟨t, ht, hver, hsame, fun _ => hresult, fun h => absurd h (by decide), fun h => absurd h (by decide)⟩
    · rw [he, hi, hb, if_neg (by decide), if_neg (by decide), if_pos rfl] at hg
      exact hg

end Sys2Proof.Machine

/-! PROOFS. Host links as they come and go, PFC, and the resolution of addresses (R39, R41, R72, R103, R306, R428). -/

namespace Sys2Proof.Machine

-- One proof at a time: many at once outgrow the memory that the check gives.
set_option Elab.async false

/-! ## Host links (R103, R306) -/

namespace State

variable {s : State} {l : HostLink}

/-- A link of a port that has come up. -/
def linkRisen (s : State) (l : HostLink) : State :=
  let u := ((s.setb (HP.LINK_UP l.port.val) l.sub.val true).setb (HP.HI_BER l.port.val) l.sub.val false).raise
    (HP.page l.port.val) HP.evLINK_UP_EVT
  ({ u with q := { u.q with refigure := true } }).flushWaiting

/-- A link of a port that has lost link. -/
def linkFallen (s : State) (l : HostLink) : State :=
  let u := (s.setb (HP.LINK_UP l.port.val) l.sub.val false).raise (HP.page l.port.val) HP.evLINK_DOWN
  ({ u with q := { u.q with refigure := true } }).flushWaiting

theorem hostUp_rises (hup : bitOf (s.get (HP.LINK_UP l.port.val)) l.sub.val = false)
    (hen : s.flag (HDR.ENABLE (HP.page l.port.val)) = true) (hk : l.sub.val < s.portLinks l.port.val)
    (hlock : bitOf s.clk.srdLock (l.port.val / 4) = true) : s.hostUp l = s.linkRisen l := by
  simp only [hostUp, hup, hen, hlock, Bool.not_true, Bool.false_or, Bool.or_false, decide_eq_true_eq,
    if_neg (Nat.not_le.mpr hk)]
  rfl

theorem hostUp_stays (h : bitOf (s.get (HP.LINK_UP l.port.val)) l.sub.val = true ∨
    s.flag (HDR.ENABLE (HP.page l.port.val)) = false ∨ s.portLinks l.port.val ≤ l.sub.val ∨
    bitOf s.clk.srdLock (l.port.val / 4) = false) : s.hostUp l = s := by
  refine if_pos ?_
  simp only [Bool.or_eq_true, Bool.not_eq_true', decide_eq_true_eq]
  rcases h with h | h | h | h <;> simp only [h, true_or, or_true]

theorem hostDown_falls (hup : bitOf (s.get (HP.LINK_UP l.port.val)) l.sub.val = true) : s.hostDown l = s.linkFallen l := by
  simp only [hostDown, hup, Bool.not_true, Bool.false_eq_true, if_false]
  rfl

theorem hostDown_stays (hup : bitOf (s.get (HP.LINK_UP l.port.val)) l.sub.val = false) : s.hostDown l = s := by
  simp only [hostDown, hup, Bool.not_false, if_true]

/-- The synthesizers of ports 8 to 15 clock nothing else. -/
theorem srdLost_ports {k : Nat} (hk : 2 ≤ k) : s.srdLost k = (List.range 4).foldl (fun u i => u.portDown (4 * k + i))
    { s with clk := { s.clk with srdLock := setBit s.clk.srdLock k false } } := by
  have h0 : (k == 0) = false := beq_false_of_ne (by omega)
  have h1 : (k == 1) = false := beq_false_of_ne (by omega)
  simp only [srdLost, h0, h1, Bool.false_and, Bool.false_eq_true, if_false]

theorem srdBack_lock (k : Nat) : bitOf (s.srdBack k).clk.srdLock k = true := bitOf_setBit_self _ _

section
variable {t : State} (hd : s.dpUp = true)
include hd

theorem gives_hostLinkUp (h : s.hostUp l = t) : s.gives (.hostLinkUp ⟨l, false⟩) t :=
  h ▸ gives_whenDp (fun s => s.hostUp l) hd rfl

theorem gives_hostLinkUp_srd (h : (s.srdBack (l.port.val / 4)).hostUp l = t) : s.gives (.hostLinkUp ⟨l, true⟩) t :=
  h ▸ gives_whenDp (fun s => (s.srdBack (l.port.val / 4)).hostUp l) hd rfl

theorem gives_hostLinkDown (h : s.hostDown l = t) : s.gives (.hostLinkDown ⟨l, false⟩) t :=
  h ▸ gives_whenDp (fun s => s.hostDown l) hd rfl

theorem gives_pfcFrame {en : BitVec 8} {qs : List Nat} (h : s.pfcFrame l en.toNat qs = t) : s.gives (.pfcFrame l en qs) t :=
  h ▸ gives_whenDp (fun s => s.pfcFrame l en.toNat qs) hd rfl

theorem gives_pfcHeld (prio : Fin 8) : s.gives (.pfcHeld l prio)
    (s.raiseIf (s.linkUp l && bitOf (s.get (HP.PFC_PRIO l.port.val)) prio.val) (HP.page l.port.val) HP.evPFC_HELD) :=
  gives_whenDp (fun s => s.raiseIf (s.linkUp l && bitOf (s.get (HP.PFC_PRIO l.port.val)) prio.val)
    (HP.page l.port.val) HP.evPFC_HELD) hd rfl

theorem gives_arpRequest {f : EthFrame} {target : BitVec 128} (h : s.resolve f target false = t) :
    s.gives (.arpRequest f target) t :=
  h ▸ gives_whenDp (fun s => s.resolve f target false) hd rfl

theorem gives_neighborSolicitation {f : EthFrame} {target : BitVec 128} (h : s.resolve f target true = t) :
    s.gives (.neighborSolicitation f target) t :=
  h ▸ gives_whenDp (fun s => s.resolve f target true) hd rfl

end

/-! ## PFC (R41, R72) -/

/-- Does a PFC frame that enables `en` speak of priority `i` of a port, one that PFC is used for? -/
def pfcNames (s : State) (p : Nat) (en i : Nat) : Bool := bitOf en i && bitOf (s.get (HP.PFC_PRIO p)) i

/-- For how long, in core cycles, a PFC frame pauses a priority. -/
def pfcCycles (s : State) (p : Nat) (qs : List Nat) (i : Nat) : Nat := ceilDiv (qs.getD i 0 * 4096) (5 * s.linkRate p)

/-- What a PFC frame makes of one priority in the table of those that are paused. -/
def pfcPause (s : State) (l : HostLink) (en : Nat) (qs : List Nat) (m : NMap Nat) (i : Nat) : NMap Nat :=
  if s.pfcNames l.port.val en i then
    (if s.pfcCycles l.port.val qs i = 0 then mdel m (linkNo l * 8 + i)
    else mput m (linkNo l * 8 + i) (s.now + s.pfcCycles l.port.val qs i))
  else m

/-- When the pause of a priority ends that a PFC frame names. -/
def pfcEnd (s : State) (p : Nat) (qs : List Nat) (i : Nat) : Option Nat :=
  if s.pfcCycles p qs i = 0 then none else some (s.now + s.pfcCycles p qs i)

theorem pfcPause_self {en i : Nat} (qs : List Nat) (m : NMap Nat) (h : s.pfcNames l.port.val en i = true) :
    mget (s.pfcPause l en qs m i) (linkNo l * 8 + i) = s.pfcEnd l.port.val qs i := by
  rw [pfcPause, if_pos h, pfcEnd]
  split
  · exact mget_mdel_self _ _
  · exact mget_mput_self _ _ _

theorem pfcPause_ne {en i k : Nat} (qs : List Nat) (m : NMap Nat)
    (h : s.pfcNames l.port.val en i = true → k ≠ linkNo l * 8 + i) : mget (s.pfcPause l en qs m i) k = mget m k := by
  rw [pfcPause]
  split
  next hn =>
    split
    · exact mget_mdel_ne _ (h hn)
    · exact mget_mput_ne _ _ (h hn)
  next => rfl

/-- Of the priorities that the frame names each has its own entry, and no other entry is touched. -/
theorem pfcPause_foldl_ne {en k : Nat} (qs : List Nat) (is : List Nat) (m : NMap Nat)
    (h : ∀ i ∈ is, s.pfcNames l.port.val en i = true → k ≠ linkNo l * 8 + i) :
    mget (is.foldl (s.pfcPause l en qs) m) k = mget m k := by
  induction is generalizing m with
  | nil => rfl
  | cons i is ih =>
    rw [List.foldl_cons, ih _ fun j hj => h j (List.mem_cons_of_mem i hj)]
    exact pfcPause_ne qs m (h i List.mem_cons_self)

theorem pfcPause_foldl_mem {en i : Nat} (qs : List Nat) (is : List Nat) (m : NMap Nat)
    (h : s.pfcNames l.port.val en i = true) (hi : i ∈ is) (hnd : is.Nodup) :
    mget (is.foldl (s.pfcPause l en qs) m) (linkNo l * 8 + i) = s.pfcEnd l.port.val qs i := by
  induction is generalizing m with
  | nil => cases hi
  | cons j is ih =>
    obtain ⟨hj, hnd⟩ := List.nodup_cons.mp hnd
    rw [List.foldl_cons]
    rcases List.mem_cons.mp hi with rfl | hi
    · rw [pfcPause_foldl_ne qs is _ fun k hk _ => ?_, pfcPause_self qs m h]
      have := ne_of_mem_of_not_mem hk hj
      omega
    · exact ih _ hi hnd

theorem pfcFrame_down (h : s.linkUp l = false) (en : Nat) (qs : List Nat) : s.pfcFrame l en qs = s := by
  simp only [pfcFrame, h, Bool.not_false, if_true]

/-- A setting of the port of a PFC frame, once the frame is counted. -/
theorem get_pfcCounted (f : Fld) (hf : f.standing = true) : (s.inc (HP.PFC_RX l.port.val)).get f = s.get f :=
  ((State.Told.refl s).inc 1).regs f hf

theorem flag_pfcCounted : (s.inc (HP.PFC_RX l.port.val)).flag (HP.PFC_EN l.port.val) = s.flag (HP.PFC_EN l.port.val) := by
  have hp := l.port.isLt
  exact ((State.Told.refl s).inc 1).flag (by simp only [Fld.standing_iff, HP.PFC_EN]; omega)

theorem pfcNames_pfcCounted (en i : Nat) :
    (s.inc (HP.PFC_RX l.port.val)).pfcNames l.port.val en i = s.pfcNames l.port.val en i := by
  have hp := l.port.isLt
  rw [pfcNames, get_pfcCounted _ (by simp only [Fld.standing_iff, HP.PFC_PRIO]; omega), pfcNames]

theorem pfcEnd_pfcCounted (qs : List Nat) (i : Nat) :
    (s.inc (HP.PFC_RX l.port.val)).pfcEnd l.port.val qs i = s.pfcEnd l.port.val qs i := by
  have hp := l.port.isLt
  have hc : (s.inc (HP.PFC_RX l.port.val)).pfcCycles l.port.val qs i = s.pfcCycles l.port.val qs i := by
    simp only [pfcCycles, linkRate, portLinks,
      get_pfcCounted (s := s) (HP.MODE l.port.val) (by simp only [Fld.standing_iff, HP.MODE]; omega)]
  rw [pfcEnd, hc, pfcEnd, inc_now]

/-- The state with another table of priorities paused. -/
def pausing (s : State) (m : NMap Nat) : State := { s with net := { s.net with paused := m } }

section
variable (h : s.linkUp l = true)
include h

theorem pfcFrame_counted (hp : s.flag (HP.PFC_EN l.port.val) = false) (en : Nat) (qs : List Nat) :
    s.pfcFrame l en qs = s.inc (HP.PFC_RX l.port.val) := by
  simp only [pfcFrame, h, flag_pfcCounted, hp, Bool.not_true, Bool.not_false, Bool.false_eq_true, if_false, if_true]

theorem pfcFrame_pauses (hp : s.flag (HP.PFC_EN l.port.val) = true) (en : Nat) (qs : List Nat) :
    s.pfcFrame l en qs = ((s.inc (HP.PFC_RX l.port.val)).pausing
      ((List.range 8).foldl ((s.inc (HP.PFC_RX l.port.val)).pfcPause l en qs) s.net.paused)).flushWaiting := by
  simp only [pfcFrame, h, flag_pfcCounted, hp, Bool.not_true, Bool.false_eq_true, if_false]
  congr 1
  generalize hu : s.inc (HP.PFC_RX l.port.val) = u
  have hpaused : u = u.pausing s.net.paused := by
    rw [← hu]
    rfl
  conv_lhs => rw [hpaused]
  refine List.foldl_hom u.pausing fun m i => ?_
  change (if u.pfcNames l.port.val en i = true then
      u.pausing (if (u.pfcCycles l.port.val qs i == 0) = true then mdel m (linkNo l * 8 + i)
        else mput m (linkNo l * 8 + i) (u.now + u.pfcCycles l.port.val qs i))
    else u.pausing m) = u.pausing (u.pfcPause l en qs m i)
  simp only [pfcPause, beq_iff_eq, apply_ite u.pausing]

end

end State

/-- What the address of a request for the address of link `l` is compared with (R39). -/
def State.ownAddress (s : State) (l : HostLink) (v6 : Bool) : Nat :=
  if v6 then s.linkIp6 l else s.get (XPT.IPV4 l.port.val l.sub.val)

/-- The answer to a request for the address of a frame's link. -/
def State.addressReply (s : State) (f : EthFrame) (target : BitVec 128) (v6 : Bool) : Out :=
  let mac := BitVec.ofNat 48 (s.linkMac f.link)
  let head := s.frameHead f.link f.srcMac v6 f.srcIp (s.ownTag f.link)
  if v6 then .neighbour f.link mac target head else .arp f.link mac target head

section
variable {s t : State} (h : s.Alike t)
include h

theorem State.Alike.linkMac (l : HostLink) : t.linkMac l = s.linkMac l := by
  have hp := l.port.isLt
  have hk := l.sub.isLt
  unfold State.linkMac
  rw [h.regs (HP.MAC_HI _ _), h.regs (HP.MAC_LO _ _)] <;> simp only [Fld.standing_iff, HP.MAC_HI, HP.MAC_LO] <;> omega

theorem State.Alike.linkIp6 (l : HostLink) : t.linkIp6 l = s.linkIp6 l := by
  have hp := l.port.isLt
  have hk := l.sub.isLt
  unfold State.linkIp6
  simp only
  rw [h.regs (XPT.IPV6_W0 _ _), h.regs (XPT.IPV6_W1 _ _), h.regs (XPT.IPV6_W2 _ _), h.regs (XPT.IPV6_W3 _ _)] <;>
    simp only [Fld.standing_iff, XPT.IPV6_W0, XPT.IPV6_W1, XPT.IPV6_W2, XPT.IPV6_W3] <;> omega

theorem State.Alike.linkIp4 (l : HostLink) : t.get (XPT.IPV4 l.port.val l.sub.val) = s.get (XPT.IPV4 l.port.val l.sub.val) := by
  have hp := l.port.isLt
  have hk := l.sub.isLt
  exact h.regs _ (by simp only [Fld.standing_iff, XPT.IPV4]; omega)

theorem State.Alike.ownAddress (l : HostLink) (v6 : Bool) : t.ownAddress l v6 = s.ownAddress l v6 := by
  rw [State.ownAddress, h.linkIp6, h.linkIp4, State.ownAddress]

theorem State.Alike.ownTag (l : HostLink) : t.ownTag l = s.ownTag l := by
  have hp := l.port.isLt
  have hk := l.sub.isLt
  unfold State.ownTag
  simp only
  rw [h.flag (f := HP.VLAN_EN _ _), h.regs (HP.VID _ _), h.regs (HP.PCP _ _)] <;>
    simp only [Fld.standing_iff, HP.VLAN_EN, HP.VID, HP.PCP] <;> omega

theorem State.Alike.frameHead (l : HostLink) (mac : BitVec 48) (v6 : Bool) (ip : BitVec 128) (tag : Option VlanTag) :
    t.frameHead l mac v6 ip tag = s.frameHead l mac v6 ip tag := by
  have hp := l.port.isLt
  have hd : t.get (XPT.DSCP_TX l.port.val) = s.get (XPT.DSCP_TX l.port.val) :=
    h.regs _ (by simp only [Fld.standing_iff, XPT.DSCP_TX]; omega)
  simp only [State.frameHead, h.linkMac, h.linkIp6, h.linkIp4, hd]

theorem State.Alike.addressReply (f : EthFrame) (target : BitVec 128) (v6 : Bool) :
    t.addressReply f target v6 = s.addressReply f target v6 := by
  simp only [State.addressReply, h.linkMac, h.frameHead, h.ownTag]

end

namespace State

variable {s : State} {f : EthFrame}

theorem resolve_down (h : s.linkUp f.link = false) (target : BitVec 128) (v6 : Bool) : s.resolve f target v6 = s.at f.time := by
  have hl := ((State.Told.refl s).atTime f.time).linkUp f.link
  simp only [resolve, hl, h, Bool.not_false, if_true]

section
variable (h : s.linkUp f.link = true)
include h

theorem resolve_fcs (hf : f.fcsOk = false) (target : BitVec 128) (v6 : Bool) : s.resolve f target v6 =
    ((s.at f.time).frameIn { f with ip6 := v6 }).inc (HP.RX_FCS_ERR f.link.port.val) := by
  have hl := ((State.Told.refl s).atTime f.time).linkUp f.link
  simp only [resolve, hl, h, hf, Bool.not_true, Bool.not_false, Bool.false_eq_true, if_false, if_true]

theorem resolve_eq (hf : f.fcsOk = true) (target : BitVec 128) (v6 : Bool) :
    let g := { f with ip6 := v6 }
    let w := s.frameCounted g
    s.resolve f target v6 = if s.frameBad g = true then w.inc (XPT.RX_DROP f.link.port.val)
      else if target.toNat ≠ s.ownAddress f.link v6 then w
      else (w.inc (HP.TX_FRAMES f.link.port.val)).send (s.addressReply f target v6) := by
  intro g w
  have hl := ((State.Told.refl s).atTime f.time).linkUp f.link
  have ht : s.Told w := s.told_frameCounted g
  have hw : w = ((s.at f.time).frameIn g).inc (HP.RX_FRAMES f.link.port.val) := rfl
  rw [← ht.frameBad g, ← ht.ownAddress, ← ht.addressReply f target v6]
  simp only [resolve, hl, h, hf, Bool.not_true, Bool.false_eq_true, if_false, bne_iff_ne]
  rfl

end

end State

/-- Settles O28: each command by the branch of its effect that the link, its port and its synthesizer choose. -/
theorem hostLinksPfcAndAddresses : Obligations.HostLinksPfcAndAddresses := by
  refine ⟨fun s l hd => ?links, fun s l hd hl => ?pfc, fun s f target hd hl => ?down, fun s f target hd hl => ?resolve⟩
  case links =>
    have hp := l.port.isLt
    intro p k v up
    refine ⟨fun hup hen hk => ⟨fun hlock => ?_, ?_⟩, fun hst => ⟨?_, ?_⟩, fun hlock => ?_, fun hup => ?_, fun hup => ?_, ?_,
      fun h8 => State.srdLost_ports (by omega), fun hl => ⟨fun en qs => ?_, fun prio => ?_⟩, ?_⟩
    · exact State.gives_hostLinkUp hd (State.hostUp_rises hup hen hk hlock)
    · exact State.gives_hostLinkUp_srd hd (State.hostUp_rises (s := v) hup hen hk (State.srdBack_lock _))
    · exact State.gives_hostLinkUp hd (State.hostUp_stays (hst.imp_right (·.imp_right .inl)))
    · exact State.gives_hostLinkUp_srd hd (State.hostUp_stays (s := v) (hst.imp_right (·.imp_right .inl)))
    · exact State.gives_hostLinkUp hd (State.hostUp_stays (.inr (.inr (.inr hlock))))
    · exact State.gives_hostLinkDown hd (State.hostDown_falls hup)
    · exact State.gives_hostLinkDown hd (State.hostDown_stays hup)
    · exact State.gives_whenDp (fun s => s.srdLost (l.port.val / 4)) hd rfl
    · exact State.gives_pfcFrame hd (State.pfcFrame_down hl en.toNat qs)
    · have hg := State.gives_pfcHeld (l := l) hd prio
      rwa [hl] at hg
    · exact State.gives_whenDp (fun s => (s.setb (HP.HI_BER l.port.val) l.sub.val true).raise (HP.page l.port.val)
        HP.evHI_BER_EVT) hd rfl
  case pfc =>
    refine ⟨fun hp en qs => State.gives_pfcFrame hd (State.pfcFrame_counted hl hp en.toNat qs), fun hp en qs => ?_,
      fun prio => ?_⟩
    · have hnamed (i : Nat) : (i < 8 ∧ bitOf en.toNat i = true ∧ bitOf (s.get (HP.PFC_PRIO l.port.val)) i = true) ↔
          i ∈ List.range 8 ∧ (s.inc (HP.PFC_RX l.port.val)).pfcNames l.port.val en.toNat i = true := by
        rw [State.pfcNames_pfcCounted, State.pfcNames, Bool.and_eq_true, List.mem_range]
      refine ⟨_, State.gives_pfcFrame hd (State.pfcFrame_pauses hl hp en.toNat qs), fun i hi => ?_, fun k hk => ?_⟩
      · obtain ⟨hi, hn⟩ := (hnamed i).mp hi
        rw [State.pfcPause_foldl_mem qs _ _ hn hi List.nodup_range, State.pfcEnd_pfcCounted]
        rfl
      · exact State.pfcPause_foldl_ne qs _ _ fun i hi hn => hk i ((hnamed i).mpr ⟨hi, hn⟩)
    · have hg := State.gives_pfcHeld (l := l) hd prio
      rwa [hl] at hg
  case down =>
    exact ⟨State.gives_arpRequest hd (State.resolve_down hl target false),
      State.gives_neighborSolicitation hd (State.resolve_down hl target true)⟩
  case resolve =>
    refine ⟨fun hf => ⟨State.gives_arpRequest hd (State.resolve_fcs hl hf target false),
      State.gives_neighborSolicitation hd (State.resolve_fcs hl hf target true)⟩, fun hf => ?_⟩
    have h4 := State.resolve_eq hl hf target false
    have h6 := State.resolve_eq hl hf target true
    refine ⟨fun hb => ?_, fun hb => ?_, fun hb => ⟨fun hx => ?_, fun hx => ?_⟩, fun hb => ⟨fun hx => ?_, fun hx => ?_⟩⟩
    · exact State.gives_arpRequest hd (h4.trans (if_pos hb))
    · exact State.gives_neighborSolicitation hd (h6.trans (if_pos hb))
    · exact State.gives_arpRequest hd
        (h4.trans ((if_neg (Bool.eq_false_iff.mp hb)).trans (if_neg (not_not.mpr hx))))
    · exact State.gives_arpRequest hd (h4.trans ((if_neg (Bool.eq_false_iff.mp hb)).trans (if_pos hx)))
    · exact State.gives_neighborSolicitation hd
        (h6.trans ((if_neg (Bool.eq_false_iff.mp hb)).trans (if_neg (not_not.mpr hx))))
    · exact State.gives_neighborSolicitation hd (h6.trans ((if_neg (Bool.eq_false_iff.mp hb)).trans (if_pos hx)))

end Sys2Proof.Machine

/-! PROOFS. LOAD, UNLOAD and QUERY of keys on queue 0 (R286, R288, R289). -/

namespace Sys2Proof.Machine

-- One proof at a time: many at once outgrow the memory that the check gives.
set_option Elab.async false

/-! ## A request in the buffer of queue 0 (R82, R286) -/

/-- Some of the bytes written into memory region 1 are read back. -/
theorem State.getRegion1_setRegion1_slice (s : State) (off : Nat) (bs : List Byte) {k n : Nat} (h : k + n ≤ bs.length) :
    (s.setRegion1 off bs).getRegion1 (off + k) n = slice bs k n := by
  refine List.ext_getElem (by simp [State.getRegion1, slice]) fun i hi _ => ?_
  have hn : i < n := by simpa [State.getRegion1] using hi
  simp only [State.getRegion1, State.setRegion1, slice, List.getElem_map, List.getElem_range]
  rw [Nat.add_assoc, mgetD_foldl_mset (fun i => bs.getD i 0) _ _ _ (by omega)]

theorem slice_whole (bs : List Byte) : slice bs 0 bs.length = bs := by
  have h := slice_append_left bs []
  rwa [List.append_nil] at h

/-- A KEY LOAD on queue 0, its header's fields 0. -/
def keyReq (payload : List Byte) (time epoch : Nat) : Req :=
  { hdr := {}, op := 0x2B, payload := payload, time := time, epoch := epoch, arrived := epoch }

namespace State

variable {s : State} {payload : List Byte}

/-- The doorbell rung with a KEY LOAD in the buffer. -/
def keyAsked (s : State) (payload : List Byte) : State := (s.setRegion1 0 (encodeReq {} 0x2B ++ payload)).rung

@[simp] theorem keyAsked_key (s : State) (payload : List Byte) : (s.keyAsked payload).key = s.key := rfl
@[simp] theorem keyAsked_mem (s : State) (payload : List Byte) : (s.keyAsked payload).mem = s.mem := rfl

/-- The doorbell with a KEY LOAD in the buffer: the request is run. -/
theorem doorbell_keyLoad (hb : s.q.adm0Busy = false) (hr : s.getRegion1 0 32 = encodeReq {} 0x2B)
    (hp : s.getRegion1 32 128 = payload) : s.doorbell = s.rung.runQueue0 (keyReq payload s.now s.ep.num) := by
  have hhdr : s.rung.getRegion1 0 32 = encodeReq {} 0x2B := hr
  have hpay : s.rung.getRegion1 32 128 = payload := hp
  have hparse := parseReq_encodeReq {} (op := 0x2B) [] (by decide)
  rw [List.append_nil] at hparse
  rw [doorbell, if_neg (by simp [hb])]
  change s.rung.runQueue0 { hdr := { (parseReq (s.rung.getRegion1 0 32)).1 with qid := 0 }
                            op := (parseReq (s.rung.getRegion1 0 32)).2
                            payload := s.rung.getRegion1 32 (min (payloadLen (parseReq (s.rung.getRegion1 0 32)).2
                              { (parseReq (s.rung.getRegion1 0 32)).1 with qid := 0 : ReqHdr }.count) 16352)
                            time := s.now, epoch := s.ep.num, arrived := s.ep.num } = _
  rw [hhdr, hparse]
  change s.rung.runQueue0 { hdr := {}, op := 0x2B, payload := s.rung.getRegion1 32 128, time := s.now, epoch := s.ep.num
                            arrived := s.ep.num } = _
  rw [hpay]
  rfl

/-- The ACTION bits of a payload written over with what they are. -/
theorem setBits_action {b a : Nat} (h : b % 4 = a) : setBits b 0 2 a = b := by
  simp only [setBits, bitsOf]
  omega

/-- A payload whose ACTION is the command's own goes into the buffer as it is. -/
theorem keyRequest_eq {a : Nat} (hb : s.q.adm0Busy = false) (hl : payload.length = 128) (ha : fieldBE payload 0 1 % 4 = a) :
    s.keyRequest a payload = (s.keyAsked payload).runQueue0 (keyReq payload s.now s.ep.num) := by
  have hall : slice payload 0 128 = payload := hl ▸ slice_whole payload
  have hlen : (encodeReq {} 0x2B ++ payload).length = 160 := by rw [List.length_append, encodeReq_length, hl]
  have hhdr : slice (encodeReq {} 0x2B ++ payload) 0 32 = encodeReq {} 0x2B := by
    have h := slice_append_left (encodeReq {} 0x2B) payload
    rwa [encodeReq_length] at h
  have hpay : slice (encodeReq {} 0x2B ++ payload) 32 128 = payload := by
    have h := slice_append_right (encodeReq {} 0x2B) payload 0 128
    rwa [encodeReq_length, hall] at h
  have hread {k n : Nat} (h : k + n ≤ 160) := s.getRegion1_setRegion1_slice 0 (encodeReq {} 0x2B ++ payload) (hlen ▸ h)
  have hbell : (s.setRegion1 0 (encodeReq {} 0x2B ++ payload)).doorbell =
      (s.keyAsked payload).runQueue0 (keyReq payload s.now s.ep.num) :=
    doorbell_keyLoad (s := s.setRegion1 0 (encodeReq {} 0x2B ++ payload)) hb
      ((hread (k := 0) (n := 32) (by decide)).trans hhdr) ((hread (k := 32) (n := 128) (by decide)).trans hpay)
  rw [← hbell, keyRequest, hall]
  cases payload with
  | nil => rfl
  | cons b rest =>
    have hbyte : fieldBE (b :: rest) 0 1 = b.toNat := by simp [fieldBE, slice, natOfBE]
    rw [hbyte] at ha
    simp only [setBits_action ha, BitVec.ofNat_toNat, BitVec.setWidth_eq]

/-- Its fields 0 and its payload of 128 bytes, it passes step 10. -/
theorem step10_keyReq (hl : payload.length = 128) (s : State) (time epoch : Nat) :
    s.step10 (keyReq payload time epoch) 0 = none := by
  have hq : s.queue 0 = queue0 := rfl
  simp [step10, keyReq, hq, queue0, opClass, opQueue0, zeroContract, opPriv, fieldFault, windowed, rangeless, payloadLen, hl]

/-- A KEY LOAD that has its answer is answered in the slots, and what waits for keys is tried. -/
theorem runQueue0_keyReq {t : State} {st time epoch : Nat} {data : List Byte} (hl : payload.length = 128)
    (hc : s.keyCommand (keyReq payload time epoch) = (some (st, data), t)) :
    s.runQueue0 (keyReq payload time epoch) = (t.adm0Answer (keyReq payload time epoch) st data).keysChanged := by
  rw [runQueue0, step10_keyReq hl]
  simp only
  rw [if_pos (by rfl), hc]

/-! ## The commands (R286, R288, R289) -/

variable {r : Req}

theorem devNor_key (s : State) (ops : List (Nat × Option Nat)) : (s.devNor ops).key = s.key :=
  (unnoted_rest.comp State.key).devNor s ops

theorem tableAppend_key (s : State) (lo hi : Nat) (keep : List (List Nat)) (entry : List Nat) :
    (s.tableAppend lo hi keep entry).key = s.key :=
  tableAppend_keeps (unnoted_rest.comp State.key) s lo hi keep entry

/-- A change of the blob records works in bank 2 of the NOR and on the records alone. -/
theorem applyRec_eq (s : State) (c : BlobRec ⊕ Nat) : ∃ (v : State) (recs : List BlobRec),
    s.applyRec c = { v with key := { v.key with records := recs } } ∧ v.key = s.key ∧ v.mem = s.mem := by
  cases c with
  | inl b => exact ⟨_, _, rfl, tableAppend_key s _ _ _ _, tableAppend_keeps unnoted_mem s _ _ _ _⟩
  | inr n => exact ⟨_, _, rfl, devNor_key s _, unnoted_mem.devNor s _⟩

/-- While bank 2 is free, neither the instances nor the memory have a part in it. -/
theorem keyRec_keeps (h : s.norBusy 2 = false) (c : BlobRec ⊕ Nat) :
    (s.keyRec c).key.inst = s.key.inst ∧ (s.keyRec c).mem = s.mem := by
  obtain ⟨v, recs, hv, hkey, hmem⟩ := s.applyRec_eq c
  have hinst : v.key.inst = s.key.inst := by rw [hkey]
  rw [keyRec, if_neg (by simp [h]), hv]
  exact ⟨hinst, hmem⟩

theorem installKey_keyInst (s : State) (n : Nat) (k : KeyInst) : ((s.installKey n k).keyInst n).isSome = true := by
  have h : (s.installKey n k).keyInst n = some { k with counter := s.keyMark n } := mget_mput_self _ _ _
  rw [h]
  rfl

/-- LOAD of a blob that is judged good, its unwrap not waiting: the key is loaded, and that is raised. -/
theorem keyCommand_load {k : KeyInst} (hf : keyFieldsOk r.payload = true) (ha : fieldBE r.payload 0 1 % 4 = 0)
    (hj : s.loadJudge (fieldBE r.payload 4 4) (fieldBE r.payload 8 4) (fieldBE r.payload 12 2) (bitOf (fieldBE r.payload 0 1) 2)
      (slice r.payload 16 (fieldBE r.payload 12 2)) = (0, some k))
    (hc : s.chanWaits 18 = false) (hw : s.keyWaits (fieldBE r.payload 8 4) = false) (hn : s.norBusy 2 = false) :
    ∃ (t : State) (data : List Byte), s.keyCommand r = (some (0, data), t.raise KST.page KST.evKEY_LOADED) ∧
      (t.keyInst (fieldBE r.payload 4 4)).isSome = true ∧ t.mem = s.mem := by
  unfold keyCommand
  dsimp only
  rw [if_neg (by simp [hf]), if_pos (by simp [ha]), hj]
  dsimp only
  rw [hc, hw, if_neg (by simp)]
  generalize hu : (if s.loadUnwraps (fieldBE r.payload 4 4) (fieldBE r.payload 8 4) (fieldBE r.payload 12 2) = true then _
    else s) = u
  have hused : s.KeyUsed u := by
    rw [← hu]
    split
    · exact (KeyUsed.refl s).channelMsg _ _ _ _ _ _ _
    · exact .refl s
  have hbusy : u.norBusy 2 = false := (hused.asks (fun v => v.norBusy 2) fun _ => rfl).trans hn
  have hmem : u.mem = s.mem := hused.asks State.mem fun _ => rfl
  rw [hbusy]
  exact ⟨_, _, rfl, installKey_keyInst _ _ _, (keyRec_keeps hbusy _).2.trans hmem⟩

/-- UNLOAD of a key that may go: it goes. -/
theorem keyCommand_unload (hf : keyFieldsOk r.payload = true) (ha : fieldBE r.payload 0 1 % 4 = 1)
    (hu : s.unloadOk (fieldBE r.payload 4 4) = true) (hn : s.norBusy 2 = false) :
    ∃ (t : State) (data : List Byte), s.keyCommand r = (some (0, data), t) ∧
      t.keyInst (fieldBE r.payload 4 4) = none ∧ t.mem = s.mem := by
  unfold keyCommand
  dsimp only
  rw [if_neg (by simp [hf]), if_neg (by simp [ha]), if_pos (by simp [ha]), if_neg (by simp [hu]), hn]
  obtain ⟨hinst, hmem⟩ := keyRec_keeps (s := s.eraseKey (fieldBE r.payload 4 4)) hn (.inr (fieldBE r.payload 4 4))
  refine ⟨_, _, rfl, ?_, hmem⟩
  rw [keyInst, hinst]
  exact mget_mdel_self _ _

/-- QUERY of a loaded key changes nothing. -/
theorem keyCommand_query (hf : keyFieldsOk r.payload = true) (ha : fieldBE r.payload 0 1 % 4 = 2)
    (hi : (s.keyInst (fieldBE r.payload 4 4)).isSome = true) : ∃ data, s.keyCommand r = (some (0, data), s) := by
  obtain ⟨k, hk⟩ := Option.isSome_iff_exists.mp hi
  unfold keyCommand
  dsimp only
  rw [if_neg (by simp [hf]), if_neg (by simp [ha]), if_neg (by simp [ha]), hk]
  exact ⟨_, rfl⟩

/-- A KEY LOAD on queue 0 that has its answer: the answer stands in the slots, and has left keys and memory as the command
made them. -/
theorem keyRequest_answered {a : Nat} (hb : s.q.adm0Busy = false) (hl : payload.length = 128) (ha : fieldBE payload 0 1 % 4 = a)
    {t : State} {st : Nat} {data : List Byte}
    (hc : (s.keyAsked payload).keyCommand (keyReq payload s.now s.ep.num) = (some (st, data), t)) :
    ∃ u, s.keyRequest a payload = u.keysChanged ∧ t.Replies u ∧
      (u.q.adm0Done = true ∧ u.q.adm0Busy = false ∧ u.evt QMG.page QMG.evADM0_DONE = true) ∧ u.key = t.key ∧
      u.mem = t.mem := by
  obtain ⟨⟨hbusy, hdone, -, hevt⟩, -, -, hkey, hmem⟩ := t.adm0Answer_leaves (keyReq payload s.now s.ep.num) st data
  exact ⟨_, (keyRequest_eq hb hl ha).trans (runQueue0_keyReq hl hc), (Replies.refl t).adm0Answer _ _ _,
    ⟨hdone, hbusy, hevt⟩, hkey, hmem⟩

end State

/-- Settles O36: each command reaches the key store through the doorbell, and its answer the slots. -/
theorem keyCommands : Obligations.KeyCommands := by
  intro s payload hd hb hl hn n fields told
  have gKey (c : Instr) (a : Nat) (hc : exec c s = .next (s.whenDp fun s => s.keyRequest a payload)) {u : State}
      (hu : s.keyRequest a payload = u.keysChanged) : s.gives c u.keysChanged :=
    hu ▸ State.gives_whenDp (fun s => s.keyRequest a payload) hd hc
  refine ⟨fun ⟨ha, hf⟩ k hj hc hw => ?load, fun ⟨ha, hf⟩ hok => ?unload, fun ⟨ha, hf⟩ hi => ?query⟩
  case load =>
    obtain ⟨t, data, hcmd, hinst, hmem⟩ := State.keyCommand_load (s := s.keyAsked payload)
      (r := keyReq payload s.now s.ep.num) hf ha hj hc hw hn
    obtain ⟨u, hu, hrep, hans, hukey, humem⟩ := State.keyRequest_answered hb hl ha hcmd
    refine ⟨u, gKey (.load payload) 0 rfl hu, ?_, hans, ?_, ?_⟩
    · rw [State.keyInst, hukey, State.raise_key]
      exact hinst
    · exact hrep.evt (by decide) (State.evt_raise_self _ _ _ (by decide))
    · intro x
      rw [humem, State.raise_mem, hmem, State.keyAsked_mem]
  case unload =>
    obtain ⟨t, data, hcmd, hinst, hmem⟩ := State.keyCommand_unload (s := s.keyAsked payload)
      (r := keyReq payload s.now s.ep.num) hf ha hok hn
    obtain ⟨u, hu, -, hans, hukey, humem⟩ := State.keyRequest_answered hb hl ha hcmd
    refine ⟨u, gKey (.unload payload) 1 rfl hu, ?_, hans, fun x => ?_⟩
    · rw [State.keyInst, hukey]
      exact hinst
    · rw [humem, hmem]
      rfl
  case query =>
    obtain ⟨data, hcmd⟩ := State.keyCommand_query (s := s.keyAsked payload) (r := keyReq payload s.now s.ep.num) hf ha hi
    obtain ⟨u, hu, -, hans, hukey, humem⟩ := State.keyRequest_answered hb hl ha hcmd
    exact ⟨u, gKey (.keyQuery payload) 2 rfl hu, hukey.trans (s.keyAsked_key payload), hans, fun x => by
      rw [humem, State.keyAsked_mem]⟩

end Sys2Proof.Machine
